-- ==== Sys2Proof/Word.lean ====
section
/-! DEFINITION. The word and byte types of the SX-4096 and the names of its ports, banks and channels.
Registers, window words and page words are 16 bits (Table REG-1, R5); a byte is 8 bits; an ECC word is 8 bytes (R218). -/

namespace Sys2Proof

/-- A register, window or page word (Table REG-1). -/
abbrev Word := BitVec 16
/-- A byte of the Cellar (R5). -/
abbrev Byte := BitVec 8
/-- A 20-bit Cellar byte address (R108). -/
abbrev CAddr := BitVec 20

/-- The two host ports: the parallel port P and the serial Supervisor port S (R14). -/
inductive Port where
  | portP | portS
  deriving DecidableEq, Repr

/-- The two glass banks (R239). -/
inductive Bank where
  | bankA | bankB
  deriving DecidableEq, Repr

/-- The two battery channels: the measured pack A and the 12 V battery B (R397, R403). -/
inductive BatCh where
  | chA | chB
  deriving DecidableEq, Repr

/-- The three filtered wake inputs (R512). -/
inductive WakeIn where
  | ign | chg | kwake
  deriving DecidableEq, Repr

/-- The other port. -/
def Port.other : Port → Port
  | .portP => .portS
  | .portS => .portP

/-- The number of a bank: 0 for A, 1 for B (R278, R305). -/
def Bank.num : Bank → Nat
  | .bankA => 0
  | .bankB => 1

/-- Bank 0 is A and every other number B, as the BANK bit of DCTL codes them (Table REG-9). -/
def Bank.ofBit : Bool → Bank
  | false => .bankA
  | true => .bankB

end Sys2Proof
end

