-- ==== Sys2Proof/Syntax.lean ====
section
/-! DEFINITION. The commands of the SX-4096, one constructor per row of spec/opcode_table.json, with the operands each
row carries: the port and the value of a host access, the bank, channel, cluster or region an event belongs to, and
what the board, the loads, the pack and the converters present at an event. -/

namespace Sys2Proof

/-- Three samples of one strap, 5 µs apart (R562). -/
structure Samples where
  s1 : Bool
  s2 : Bool
  s3 : Bool
  deriving DecidableEq, Repr

/-- The sampled levels of the four straps (R67, R562). -/
structure Straps where
  busgen1 : Samples
  busgen0 : Samples
  clksrc : Samples
  role : Samples
  deriving DecidableEq, Repr

/-- A memory upset that stands in an ECC word when a read reaches it (R218): one wrong bit, or an uncorrectable error
with the 64 bits then stored. `w` is the byte address of the 8-byte ECC word. -/
inductive Upset where
  | single (w : Nat)
  | double (w : Nat) (stored : BitVec 64)
  deriving DecidableEq, Repr

/-- One channel A conversion as the converters deliver it (R397): V(BAV) and V(BAI_P) − V(BAI_N) in nV, the thermistor
ratio x of R396 in units of 2⁻²⁴, and the three uncalibrated decimator codes of the 24-bit converters (R415). -/
structure Sample where
  vBav : Int
  vShunt : Int
  x : Nat
  rawV : BitVec 24
  rawI : BitVec 24
  rawT : BitVec 24
  deriving DecidableEq, Repr

/-- A frame boundary of a bank that a register write meets (R208): one of its frame or shadow timer, the first one at
the end of bias settling (R243), or that of the new duty at the end of a flush (R316). -/
inductive BesideEdge where
  | frame (b : Bank)
  | first (b : Bank)
  | flush (b : Bank)
  deriving DecidableEq, Repr

/-- The bank of a boundary. -/
def edgeBank : BesideEdge → Bank
  | .frame b | .first b | .flush b => b

/-- What falls together with a register write (R98, R99, R131, R159, R208): on Port P OE# low beside WE#; a write of the
other port captured in the same CK_BUS cycle; an entry of the port's buffer that leaves in that cycle, with the upsets
its Cellar access meets; the frame boundaries in that cycle, at most one of each bank. -/
structure Beside where
  oeLow : Bool
  other : Option (Fin 64 × Word)
  leaves : Option (List Upset)
  boundaries : List BesideEdge
  deriving DecidableEq, Repr

/-- A cause of Table LMP-6 that latches for a channel in the same cycle as an LFAULT write (R391): LFAULT bit less 8,
and the energy of a short. -/
structure LampCause where
  n : Fin 8
  cause : Fin 8
  e : Nat
  deriving DecidableEq, Repr

/-- What happens to the heartbeat fallback in the CK_LAMP cycle of a flasher edge (R393): nothing, a miss that begins
it, or the frame boundary of a bank, which may end it. -/
inductive FallbackChange where
  | none | miss | boundary (b : Bank)
  deriving DecidableEq, Repr

/-- A register write with nothing beside it. -/
def Beside.alone : Beside := { oeLow := false, other := none, leaves := none, boundaries := [] }

/-- The commands and events of spec/opcode_table.json. -/
inductive Instr where
  -- supply, clocks, boot
  | powerOnReset (straps : Straps)
  | powerOnResetAssertion
  | strapPullupRelease
  | rootConfirmed (restarted : Bool)
  | rootAttemptTimeout
  | crystalRestEnd
  | dividerRelease
  | zeroFillDone
  | ready
  -- boot face and modes
  | bootFaceWrite (p : Port) (a : Fin 64) (v : Word)
  | hostWake (p : Port) (v : Word)
  | mreqStandby (p : Port) (expert : Bool)
  | mreqRun (p : Port) (expert : Bool)
  | mreqSleep (p : Port) (expert : Bool)
  | modeMergeWindowEnd (vS vP : Word)
  | softwareReset (p : Port) (expert : Bool)
  | resetPin
  | warmBootStart
  | standbyReached
  | sleepEntered
  | wakeComplete
  | reducedFunctionEntry
  | reducedFunctionExit
  | collapse
  | corkShipStep
  | corkExit (straps : Straps)
  | rootLoss (pllToo : Bool)
  | pllUnlock
  | holdoverEnd (restarted : Bool)
  | holdoverExpiry
  -- host accesses
  | registerWrite (p : Port) (a : Fin 64) (v : Word) (w : Beside)
  | errstatClear (p : Port) (v : Word)
  | gen1LowByteWrite (ale : Option Byte) (cs : Bool) (b : Byte)
  | portSFrame (bits : List Bool)
  | waddrWrite (p : Port) (high : Bool) (v : Word)
  | wdataRead (p : Port)
  | wdataWrite (p : Port) (v : Word)
  | wctlWrite (p : Port) (v : Word)
  | prefetchLoadDone (p : Port) (ups : List Upset)
  | bufferEntryLeave (p : Port) (ups : List Upset)
  | waitTimeout
  -- roles and heartbeat
  | swapRequest (p : Port) (v : Word)
  | swapMergeWindowEnd (vS vP : Word)
  | swapConsentLapse
  | heartbeat (p : Port) (v : Word)
  | fdonWrite (p : Port) (v : Word)
  | heartbeatMiss
  -- segment drive
  | dctlWrite (p : Port) (v : Word)
  | dctlView (p : Port) (b : Bank)
  | dutyFlushEnd (b : Bank)
  | dpwrSet (p : Port) (v : Word)
  | dpwrClear (p : Port) (v : Word)
  | vlcdGoodRise (b : Bank)
  | novlcdTimeout (b : Bank)
  | biasSettleEnd (b : Bank)
  | vlcdGoodFall (b : Bank)
  | vlcdLossTimeout (b : Bank)
  | groundingEnd (b : Bank)
  | releaseEnd (b : Bank)
  | frameBoundary (b : Bank)
  | slotBoundary (b : Bank) (ups : List Upset)
  | bookingPassEnd (b : Bank) (ups : List Upset)
  | trimWrite (p : Port) (v : Word)
  | dvlcdView (p : Port) (b : Bank)
  | trimStep (b : Bank)
  | tcUpdate
  | tempUpdate (t : Word)
  | crackMeasurement (b : Bank) (m : Nat)
  -- layers and animation
  | dcommit (p : Port) (v : Word)
  | commitEffect (p : Port)
  | dlayerWrite (p : Port) (v : Word)
  | dblinkWrite (p : Port) (v : Word)
  | threadStart (p : Port) (b : Bank)
  | threadStop (p : Port) (b : Bank)
  | animEnd (b : Bank) (ups : List Upset)
  | animCopy (b : Bank) (ups : List Upset)
  | animFill (b : Bank) (ups : List Upset)
  | animWait (b : Bank) (ups : List Upset)
  | animLoop (b : Bank) (ups : List Upset)
  | animSync (b : Bank) (ups : List Upset)
  | animBar (b : Bank) (ups : List Upset)
  | animJump (b : Bank) (ups : List Upset)
  | instructionLimit (b : Bank)
  | regionDefine (p : Port) (r : Fin 4) (second : Bool) (v : Word)
  | regionRelock (p : Port) (r : Fin 4)
  -- keys
  | kctlWrite (p : Port) (v : Word)
  | keySlot (returns : Byte) (cut : Option Nat)
  | kevtRead (p : Port)
  | keyLogWrite
  | keyCounterClear (p : Port)
  -- lamps
  | lctlWrite (p : Port) (v : Word)
  | lparamWrite (p : Port) (v : Word)
  | lfaultClear (p : Port) (v : Word) (new : List LampCause)
  | inrushEnd (n : Fin 8)
  | lampAbsoluteShort (n : Fin 8) (e : Nat)
  | lampDesaturation (n : Fin 8) (e : Nat)
  | lampOverload (n : Fin 8) (e : Nat)
  | lampOvertemp (n : Fin 8)
  | retryDue (n : Fin 8)
  | retryReload (n : Fin 8)
  | budgetTick (e : Vector Nat 8) (t0 t1 : Word) (ion : Vector Word 8)
  | pwmPeriodStart (n : Fin 8)
  | pwmOnTimeEnd (n : Fin 8) (ion : Word)
  | openLoadOn (n : Fin 8)
  | openLoadOff (n : Fin 8)
  | shortToBattery (n : Fin 8)
  | senseImplausible (n : Fin 8)
  | gangDerate (pair : Fin 4) (oddConducts : Bool) (onCurrent : Nat)
  | flasherOnPhase (fb : FallbackChange)
  | flasherOffPhase (low : Byte) (fb : FallbackChange)
  -- battery channels
  | bctlWrite (p : Port) (v : Word)
  | idmChange (p : Port) (idm : BitVec 2)
  | conversion (m : Sample)
  | harvestRecordWrite
  | harvestClear (p : Port)
  | rawSnapshotRead (p : Port)
  | channelBSample (raw : BitVec 12)
  | bvbMinClear (p : Port)
  | modelLoad (p : Port) (c : BatCh)
  | modelValidationDone (c : BatCh) (ups : List Upset)
  | estimatorUpdate (c : BatCh) (ups : List Upset)
  | socSnapshotRead (p : Port)
  | crankDip
  | crankEnd
  -- pack identity
  | packAbsence (x : Nat)
  | packPresent (x : Nat)
  | pilFrame (wave : List (Bool × Nat))
  | identityTimeout
  | packCounterClear (p : Port)
  -- authenticated commands
  | acmdWrite (p : Port) (v : Word)
  | acntWrite (p : Port) (high : Bool) (v : Word)
  | atagWrite (p : Port) (v : Word)
  | tagWordEffect (p : Port) (ups : List Upset)
  | lockoutEnd
  | claimTimeout
  | counterWriteDone
  | cork
  | restoreA
  | restoreB
  | ttPolicy
  | regionUnlock
  | cfgLock
  | lampPolicy
  | debugUnlock
  | provisioningRequest (readBackOk : Bool)
  -- TAP
  | extest (scan : Option (BitVec 373 × BitVec 373))
  | samplePreload (captured preload : BitVec 373)
  | idcode
  | clamp
  | highz
  | bypass
  | vendorTest (code : BitVec 5)
  -- page clears, arbiter, scrub
  | ledgerClear (p : Port) (b : Bank)
  | eccCounterClear (p : Port)
  | arbstatWrite (p : Port) (v : Word)
  | arbWindowStart (waits : Vector Nat 7)
  | scrubBurst (ups : List Upset)
  | scrubWriteback (ups : List Upset)
  -- time and wake
  | rtcLRead (p : Port)
  | rtcLWrite (p : Port) (v : Word)
  | rtcHWrite (p : Port) (v : Word)
  | rtcAlmWrite (p : Port) (v : Word)
  | wakestatClear (p : Port) (v : Word)
  | aonWriteArrival
  | rtcSecond
  | alarm
  | backupSecond
  | wakeInputChange (i : WakeIn) (level : Bool)
  | vsupLow
  | vioLoss
  | vioReturn
  | bootFaceLive
  | strapPullupConnect
  | gen1LowByteRead (ale : Option Byte) (cs : Bool)
  | lampOvertempRelease (n : Fin 8)
  | vsupLowTrip
  | vsupLowRelease
  | wakeEdgeUnfiltered (i : WakeIn)
  | vbkupLoss
  | vbkupReturn
  deriving DecidableEq, Repr

end Sys2Proof
end

