-- ==== Sys2Proof/Decode.lean ====
section
/-! DEFINITION. The command a word spells by the bits of spec/opcode_table.json. No row of the table gives bits, so no
word spells one. -/

namespace Sys2Proof

/-- The command that the low `nbits` bits of `w` spell: none, since no row of the table has bits.
DESIGN CHOICE (log 57). -/
def decodeTableWord (_nbits _w : Nat) : Option Instr := none

end Sys2Proof
end

