-- ==== Sys2Proof/Config.lean ====
section
/-! DEFINITION. What the spec leaves open: constants with no body, so that nothing can evaluate one or prove a value of
it. A claim about the model holds for every value of each. -/

namespace Sys2Proof

/-- FREE VALUE (log entry 5). Whether a quotient num / den that the spec neither rounds up nor down, and that is not an
integer, is kept as its ceiling (true) or its floor. -/
opaque Config.roundsUp : Int → Nat → Bool

/-- FREE VALUE (log entry 5). Whether a quotient exactly half-way between two integers goes up, where the spec says
"rounded" or "nearest" and is silent on halves. -/
opaque Config.tieUp : Int → Nat → Bool

/-- FREE VALUE (log entry 6). The polarity that a settle plan of R292 gives a slot: true is negative. The arguments are
the machine's free counter and the slot's number. DESIGN CHOICE (log 4). -/
opaque Config.settleNeg : Nat → Nat → Bool

/-- FREE VALUE (log entry 6). The pixel states that a settle plan of R292 gives the selected line of a slot; the
arguments are as above. DESIGN CHOICE (log 4). -/
opaque Config.settlePix : Nat → Nat → BitVec 128

/-- FREE VALUE (log entry 7). Whether a given edge of a calibration second is one of the |RTC_CAL| edges on which
RTC_SUB skips or holds (R509 fixes how many, not which). -/
opaque Config.calEdge : BitVec 32 → Nat → Bool

/-- FREE VALUE (log entry 8). The supply monitor's reading of VSUP in 10 mV units, which a BAR with SRC 5 reads (Table
LAY-3) and no row of the table delivers. The argument is the machine's free counter. DESIGN CHOICE (log 4). -/
opaque Config.vsup : Nat → Word

/-- FREE VALUE (log entry 18). Whether a counter write that a reset or a loss of supply interrupts leaves the new value
(R490). The argument is the machine's free counter. DESIGN CHOICE (log 4). -/
opaque Config.counterSurvives : Nat → Bool

/-- FREE VALUE (log entry 33). Whether the ledger outlives a warm boot: R294 and Table BAL-7 keep the residual of a settle
that RESET# cuts, Table PWR-3 and R216 reinitialise the Cellar. -/
opaque Config.ledgerOutlives : Bool

/-- FREE VALUE (log entry 17). Whether an update that is in progress when its model is invalidated completes with the model
as it was read (R449), or treats the model as absent (R420). -/
opaque Config.updateKeepsModel : Bool

/-- FREE VALUE (log entry 14). The retry interval in ms of a channel with RETRY 0 in force, for which Table LMP-5 gives none;
it has a meaning only with retries left from an earlier setting. -/
opaque Config.noRetryInterval : Nat

/-- FREE VALUE (log entry 16). An internal value for which the spec states no result (a capacity of 0); every use keeps it
inside the bounds that the spec does state. -/
opaque Config.openSoc : Nat → Nat → Nat

/-- FREE VALUE (log entry 16). The internal (0) and the reported value (1) of a channel that a restore with CAP alone makes
valid (R441), which is then without a state of charge; every use keeps them within full scale. The first argument is the
machine's free counter. DESIGN CHOICE (log 4). -/
opaque Config.capOnlySoc : Nat → Nat → Nat

/-- FREE VALUE (log entry 16). The point, taken modulo 10001, at which R438 reads R0 of the model before the state of
charge is known; the argument is the mean voltage. -/
opaque Config.initR0At : Int → Nat → Nat

/-- FREE VALUE (log entry 16). A quotient whose divisor, a resistance of the model, is 0; every use clamps it as the
rule does. -/
opaque Config.overZero : Int → Nat → Int

/-- FREE VALUE (log entry 16). What a two's complement page word shows for a value outside its format. -/
opaque Config.overflow : Int → Word

/-- FREE VALUE (log entry 19). The length and the content of the data register that a vendor test instruction selects
(R4, Table PKG-8). The argument is the machine's free counter. DESIGN CHOICE (log 4). -/
opaque Config.vendorRegister : Nat → Nat × Nat

end Sys2Proof
end

