-- ==== Sys2Proof/Machine/Types.lean ====
section
/-! DEFINITION. The sub-structures of the machine's state: one structure per unit of the SX-4096, each field the piece
of state its docstring's rule of spec/ names. Plain data only. -/

namespace Sys2Proof.Machine

open Sys2Proof

/-- An exact fraction, kept in lowest terms with a positive denominator. -/
structure Frac where
  num : Int
  den : Nat
  deriving DecidableEq, Repr

/-! ### Power, boot and clocks -/

/-- SYSSTAT.MODE (Table PWR-8) with Cork mode and OFF (Table PWR-1). -/
inductive Mode where
  | off | boot | standby | run | sleep | corkEntry | cork
  deriving DecidableEq, Repr

/-- The mode transition in progress (R56): none, RUN to STANDBY, STANDBY to SLEEP, SLEEP to STANDBY, or the Cork
sequence. -/
inductive Trans where
  | idle | toStandby | toSleep | wake | corkSeq
  deriving DecidableEq, Repr

/-- What answers the host ports: nothing (R70), the boot face (R69), or the full register file. -/
inductive Face where
  | dead | bootFace | full
  deriving DecidableEq, Repr

/-- The reset that is waiting for its glass (Table PWR-3): RESET# for its release and the grounding, a software reset
for the power-downs. -/
inductive ResetWait where
  | noReset | pin | soft
  deriving DecidableEq, Repr

/-- The parallel port's generation (Table BUS-1). -/
inductive Gen where
  | gen1 | gen2 | gen3 | portOff
  deriving DecidableEq, Repr

/-- Power state, boot face, straps and supplies (R56 to R89, R562, R535). -/
structure Power where
  mode : Mode
  trans : Trans
  reduced : Bool
  collapse : Bool
  colSleep : Bool
  bstep : Nat
  rcause : Nat
  expert : Bool
  face : Face
  rst : ResetWait
  corkPort : Port
  shipG : Bool
  strapPull : Bool
  strapBuf : Bool
  gen : Gen
  roleStrap : Bool
  vio : Bool
  deriving DecidableEq, Repr

/-- Root, PLL and holdover (R30 to R55, Table CLK-4). -/
structure Clock where
  src : Bool
  rootOk : Bool
  pllLock : Bool
  hold : Bool
  rootLoss : Bool
  unlock : Bool
  timeSub : Bool
  fsUsed : Bool
  starts : Nat
  attempting : Bool
  released : Bool
  holdLimit : Nat
  expiring : Bool
  sleepLost : Bool
  xtalRuns : Bool
  deriving DecidableEq, Repr

/-- The error record: ERRSTAT and ERRINFO (Tables REG-7 and REG-8). -/
structure ErrRec where
  code : Byte
  ahi : BitVec 4
  cell : Bool
  src : BitVec 2
  ovr : Bool
  info : Word
  deriving DecidableEq, Repr

/-! ### Ports -/

/-- An entry of a port's write buffer (R115): a window word with the address it was posted to, a DCOMMIT word or an
ATAG word. -/
inductive BufEntry where
  | wdata (a : CAddr) (v : Word)
  | dcommit (v : Word)
  | atag (v : Word)
  deriving DecidableEq, Repr

/-- A prefetch load in flight (R111): the window address it reads, how many buffered entries it is queued behind,
whether it loads a page and whether that page is the following one (R121). -/
structure Load where
  addr : CAddr
  behind : Nat
  page : Bool
  follow : Bool
  deriving DecidableEq, Repr

/-- A Gen3 access held by WAIT# (R119); `page` is a window write of a row that names its page word. -/
inductive Held where
  | none | read | wdata (v : Word) | page (a : CAddr) (v : Word) | dcommit (v : Word) | atag (v : Word)
  deriving DecidableEq, Repr

/-- What exists once per port (R167): IRQEN, on Port P in Gen1 the byte address latched at the last ALE falling edge
(R101), the window bank, the prefetch, the write buffer, the Gen1 latches, the
RTC and page snapshots, the boot-face count, and the data of the port's last read. -/
structure PortSt where
  irqEn : Word
  ale : Byte
  waddr : CAddr
  ainc : Bool
  page : Bool
  wdrop : Bool
  dropCnt : Nat
  pre : List Word
  follow : Option (List Word)
  fresh : Bool
  load : Option Load
  buf : List BufEntry
  held : Held
  g1rd : Option (Fin 64 × Byte)
  g1wr : Option (Fin 64 × Byte)
  rtcSnap : Option (Word × Word)
  rtcHold : Option Word
  rawSnap : Option (BitVec 32 × BitVec 32 × BitVec 32)
  socSnap : Option (Word × Word × Word × Word × Word)
  disc : Nat
  rdata : Word
  deriving DecidableEq, Repr

/-- The response the next Port S frame carries (Table SUP-3): a status frame, or STAT, ADDR and DATA. -/
inductive SpiResp where
  | status
  | answer (stat : BitVec 2) (addr : BitVec 6) (data : Word)
  deriving DecidableEq, Repr

/-- Roles, swap, forced-display-on and heartbeat (R142 to R163, Table SUP-6). Times are in CK_FRAME cycles of `now`. -/
structure Roles where
  ppri : Bool
  swpnd : Option Port
  fdon : Bool
  fallbk : Bool
  hbNext : Bool
  hbLast : Option Nat
  hbRef : Nat
  hbMissed : Bool
  fbBeat : Option Nat
  fbEnding : Bool
  deriving DecidableEq, Repr

/-! ### A glass bank -/

/-- DSTAT.STA (Table REG-11): the sequence state of a bank. -/
inductive Sta where
  | off | waitVlcd | biasSettle | allOff | content | settling | grounding | release
  deriving DecidableEq, Repr

/-- A power-down request that waits for the edge at which Table DRV-5 acts on it, the next CK_FRAME edge from state 3
and the next common-slot boundary from state 4 (R269): none, by the clearing of the DPWR bit (which a DPWR set
cancels), or of any other kind. -/
inductive PendDown where
  | none | byClear | other
  deriving DecidableEq, Repr

/-- A slot's L0 burst (R226, R312, R314): the line, whether its slot shows content, and the layers, one bit each, whose
Decanter line it racks (`rack`) and whose live line it copies for a catch-up record (`copy`). -/
structure Burst where
  line : Nat
  shown : Bool
  rack : BitVec 5
  copy : BitVec 5
  deriving DecidableEq, Repr

/-- Segment drive of a bank (R239 to R275). `slot` is the next slot of the frame, `slotAt` the time at which the running
one began, `burst` the bank's L0 burst that waits for the next CK_FRAME edge. `reqNext` is the value of the DPWR bit and
`dutyWait` a DUTY, written beside a frame boundary, that take effect at the one after it (R208). While no line slot runs,
`halt` is what of the frame had run when they stopped, and `haltAt` the time of that where CK_FRAME goes on (R315,
R321). -/
structure Drive where
  duty : Nat
  bias : Nat
  frate : Nat
  wave : Nat
  dutyNow : Nat
  flushing : Bool
  rateNow : Nat
  waveNow : Nat
  ninvNow : Nat
  ladNow : Nat
  sta : Sta
  req : Bool
  latch : Bool
  vgood : Bool
  t20Out : Bool
  pend : PendDown
  vlossRun : Bool
  vlostCnt : Nat
  novlcdCnt : Nat
  fcnt : Nat
  slot : Nat
  slotAt : Nat
  burst : Option Burst
  offLeft : Nat
  setCap : Nat
  setElapsed : Nat
  setReqAt : Nat
  setSlots : Nat
  setFrame : Nat
  reqNext : Option Bool
  dutyWait : Bool
  halt : Nat
  haltAt : Option Nat
  deriving DecidableEq, Repr

/-- Contrast trim of a bank (R253 to R257, R183). `wait` are the target, SLEW and TCOMP of a DVLCD write beside a frame
boundary, which take effect at the one after it (R208); `waitArm` says that it was made while VLEN was high and VLEN has
not fallen since, so that it arms the trim interrupt (R257). -/
structure Trim where
  target : Int
  slew : Nat
  tcomp : Bool
  tcompNow : Bool
  slewNow : Nat
  tc : Int
  now : Int
  armed : Bool
  wait : Option (Int × Nat × Bool)
  waitArm : Bool
  deriving DecidableEq, Repr

/-- What one slot drove, as the ledger books it (R276, R282): the selected line, the polarity (false positive), the
segment states of the slot (a set bit is an on pixel), whether the drive part applies and its cycles, the key part's
active line, level in units of VLCD/60 and cycles, and the frame length, slots, used lines and bias code at that time.
-/
structure SlotRec where
  line : Nat
  neg : Bool
  pix : BitVec 128
  driven : Bool
  cycles : Nat
  keyLine : Nat
  keyLevel : Int
  keyCycles : Nat
  frameLen : Nat
  slots : Nat
  lines : Nat
  bias : Nat
  deriving DecidableEq, Repr

/-- A booking pass that is due (R283): the slot records it covers, the frame length and slots of the T_s in force when
it began (R285), how many segment columns
received key slots (Table BAL-1), and whether it is the pass of a frame boundary, which sets OUT (Table BAL-1). -/
structure Pass where
  recs : List SlotRec
  units : Nat × Nat
  keyCols : Nat
  boundary : Bool
  deriving DecidableEq, Repr

/-- The ledger of a bank (R276 to R304, Table BAL-5); the accumulators themselves lie in the Balance cask. `recs` are
the slots driven since the last pass began, `plan` the polarities of the running frame, `settle` the settle plan of the
running frame by slot number (R292), `units` the frame length and
slots whose T_s the accumulators count in, `clr` a clear that waits for the running pass (R303). -/
structure Ledger where
  recs : List SlotRec
  passes : List Pass
  plan : List Bool
  settle : List (Bool × BitVec 128)
  units : Nat × Nat
  clr : Bool
  peak : Nat
  peakAddr : Nat
  invCnt : Nat
  settleLast : Nat
  capped : Bool
  skipped : Bool
  capCnt : Nat
  satCnt : Nat
  rstCnt : Nat
  passCnt : Nat
  deriving DecidableEq, Repr

/-- A current or next batch of a layer (R310): its named lines, its racked lines, and those a host DCOMMIT named. -/
structure Batch where
  named : BitVec 16
  racked : BitVec 16
  host : BitVec 16
  deriving DecidableEq, Repr

/-- One layer of a bank (R305 to R320): which copy is live, vintage, batches, catch-up records, flags and counts. -/
structure LayerSt where
  live2 : Bool
  vint : Word
  cur : Option Batch
  next : Option Batch
  catchup : BitVec 16
  late : Bool
  super : Bool
  coal : Bool
  lateCnt : Nat
  superCnt : Nat
  coalCnt : Nat
  lateRun : Nat
  deriving DecidableEq, Repr

/-- A blink group as one bank runs it (R182, R321): in-force enable and preset, phase time e, and whether the group was
enabled and in its on phase at the last boundary. -/
structure BlinkSt where
  en : Bool
  pre : Nat
  e : Nat
  onPhase : Bool
  deriving DecidableEq, Repr

/-- A running BAR slot (Table LAY-2, R329); `shown` are the states of its segments as last rendered, empty before the
first rendering (R18, R326). -/
structure BarSt where
  src : Nat
  mode : Nat
  count : Nat
  list : Nat
  shown : List Bool
  deriving DecidableEq, Repr

/-- The animation thread of a bank (R326 to R329, R335, R580, R581, Table LAY-4); its EN bit lies in its page word.
`changed` are the Animation lines changed since the last boundary work. -/
structure Thread where
  startReq : Bool
  stopReq : Bool
  pc : BitVec 17
  stat : Nat
  fcode : Nat
  unk : Bool
  barK : Vector Nat 4
  bars : Vector (Option BarSt) 4
  loops : Vector Nat 4
  waitN : Nat
  sync : Option (Nat × Bool)
  execd : Nat
  changed : BitVec 16
  deriving DecidableEq, Repr

/-- The crack loop of a bank (R517 to R520, Table DIA-3). -/
structure Crack where
  en : Bool
  sta : Nat
  loopR : Nat
  trendR : Nat
  base : Nat
  leakNa : Nat
  evt : Nat
  recent : List Nat
  learned : Nat
  learnSum : Nat
  baseBad : Bool
  openRun : Nat
  leakRun : Nat
  fixNow : Bool
  startNext : Bool
  measured : Bool
  deriving DecidableEq, Repr

/-- A glass bank: drive, trim, ledger, layers, tell-tale masks (`maskCopy` the working copy of R308, `maskNow` the one
in force), blink groups, thread and crack loop. -/
structure BankSt where
  drv : Drive
  trim : Trim
  led : Ledger
  layers : Vector LayerSt 5
  maskCopy : Vector (BitVec 128) 16
  maskNow : Vector (BitVec 128) 16
  fbMaskNow : Vector (BitVec 128) 16
  fbNow : Bool
  fbWait : Bool
  mapNow : Vector Word 32
  blinkOn : Vector Bool 4
  blink : Vector BlinkSt 4
  lateLast : Bool
  ttLateLast : Bool
  held : List Word
  thr : Thread
  crack : Crack
  deriving DecidableEq, Repr

/-- Display state that exists once: the views of DCTL, DVLCD and DLAYER, DBLINK, TTSTALE, the region locks, DCRACK.POL
and the die temperature (R177, R183, R181, R182, R320, R323, R184, R521). -/
structure Display where
  dctlView : Bank
  dvlcdView : Bank
  viewLayer : Nat
  viewBank : Bank
  dblink : Word
  ttStale : Bool
  rlock : Vector Bool 4
  crackPol : Nat
  temp : Word
  twarnF : Bool
  deriving DecidableEq, Repr

/-! ### Trellis -/

/-- The settings of a scan (R185, R356). -/
structure KeySet where
  diodes : Bool
  kslot : Nat
  deb : Nat
  lines : Nat
  kins : Nat
  klev : Nat
  offper : Nat
  offlu : Nat
  deriving DecidableEq, Repr

/-- R359: what the keys page and KCTL had in force before the first write of a CK_FRAME cycle that was captured in it:
the settings, EN with the scan it ran, LOG_EN and the counters, and whether such a write has cleared the counters
since. -/
structure KeysWas where
  set : KeySet
  en : Bool
  run : Bool
  due : Bool
  line : Nat
  counts : Vector Nat 128
  logEn : Bool
  ovfCnt : Nat
  logWrap : Nat
  ghostCnt : Nat
  cleared : Bool
  deriving DecidableEq, Repr

/-- A queued Key-log entry (Table KEY-4). -/
structure KeyLog where
  event : Word
  seq : Word
  scan : Word
  sub : Word
  secL : Word
  secH : Word
  sta : Nat
  deriving DecidableEq, Repr

/-- The Trellis (R338 to R361). `fifo` is oldest first and holds the overflow marker as an entry. The key-indexed sets
are bit 8 × l + r for key (l, r). `run` says that scanning has begun; `due` that the key slot of the present bank A
common slot is still to come; `boot` counts the full scans left of the boot scan; `logged` is the set of log entries
written since READY, as a bit mask. For R359: `regAt` is the CK_FRAME cycle of the last write captured and `was` what
stood before that cycle; `scanAt` is the cycle in which the present full scan began; `capt` holds the keys-page words
captured in one of these two cycles and not stored yet; `enNext` and `logHold` are an EN and an old LOG_EN that a
write of such a cycle leaves until the next full scan starts. `clr` is a CNTCLR that waits for that start, or for the
end of the boot scan (R352). -/
structure Keys where
  en : Bool
  run : Bool
  due : Bool
  reg : KeySet
  was : KeysWas
  regAt : Option Nat
  scanAt : Option Nat
  capt : List (Nat × Nat × Word)
  enNext : Option Bool
  logHold : Option Bool
  clr : Bool
  cur : KeySet
  line : Nat
  boot : Nat
  counts : Vector Nat 128
  kmap : BitVec 128
  amap : BitVec 128
  fifo : List Word
  ovf : Bool
  ghost : Bool
  scanCnt : Word
  seqNext : Word
  ovfSeq : Word
  ovfEnd : Word
  ovfCnt : Nat
  logWrap : Nat
  ghostCnt : Nat
  logQ : List KeyLog
  logged : Nat
  deriving DecidableEq, Repr

/-! ### Lamps -/

/-- Table LMP-2: the state of a lamp channel. -/
inductive LampMode where
  | off | inrush | on | wait | latched
  deriving DecidableEq, Repr

/-- A lamp channel (R362 to R395): LPARAM parameters, the settings loaded at the last switch-on (`limA` INR_I in 0.1
A, `winMs` INR_T in ms, `runI` RUN_I, `boutI` BOUT_I, `offDiag`, `retryN` the number of retries and `retryMs` their
interval), `winEnd` the window's length in quarters of a millisecond, `onAt` and `tripAt` the times of the last entry
to INRUSH and of the last switch-off by a fault, `cut` the state in which that switch-off found the closed switch, kept
for a second cause of the same cycle (R388, R556), `inr` whether the channel was in INRUSH during the present
millisecond (R371), state, switch, faults, retries, derating, PWM grid (`pwmP` 0 while locked to the LCD frame) and
the sensor readings of the lamps page. -/
structure Lamp where
  duty : Nat
  pwmf : Nat
  inrush : Nat
  retry : Nat
  gang : Bool
  flash : Bool
  mode : LampMode
  conducting : Bool
  limA : Nat
  winEnd : Nat
  winMs : Nat
  derlvl : Nat
  rleft : Nat
  retryN : Nat
  senseless : Bool
  gangDer : Bool
  gangCap : Nat
  causes : Byte
  flt : Bool
  hot : Bool
  otWait : Bool
  retryRdy : Bool
  pwmP : Nat
  pwmHz : Nat
  dutyNow : Nat
  pwmRun : Bool
  openNow : Bool
  offDiag : Bool
  runI : Nat
  boutI : Nat
  retryMs : Nat
  onAt : Nat
  tripAt : Nat
  cut : Option LampMode
  inr : Bool
  fltCnt : Nat
  iOn : Word
  deriving DecidableEq, Repr

/-- A lamp cluster (R362, R371 to R374). Energies are in units of mJ / 300 000; `eMax` is E_MAX as the last tick took it
(R387), `shortE` the energy of shorts since that tick (R371, R388). -/
structure Cluster where
  b : Nat
  bPrev : Nat
  sinceStep : Nat
  derCnt : Nat
  eMax : Nat
  shortE : Nat
  tCl : Word
  deriving DecidableEq, Repr

/-- The lamp block: LCTL, LSEL, flasher (its period in progress in half milliseconds), tell-tale lamp policy, frame
lock in force with its latest frame boundary, and the PWM epoch in CK_LAMP cycles (R188 to R192, R376, R378, R383 to
R386). -/
structure Lamps where
  lctl : Word
  selCh : Fin 8
  selParam : Nat
  ch : Vector Lamp 8
  cl : Vector Cluster 2
  flRun : Bool
  flOut : Bool
  flPeriod : Nat
  flDuty : Nat
  bout : Bool
  boutSeen : Bool
  ttClaim : Byte
  ttMode : Word
  ttFb : Word
  flkBank : Bank
  flkMul : Nat
  flkAt : Nat
  epoch : Nat
  deriving DecidableEq, Repr

/-! ### Battery channels, estimators, pack -/

/-- Running sums of conversions: counts and totals of V (10 µV), I (100 µA) and T (0.01 °C), the counted charge of
R426 (positive currents times CHG_EFF, negative times 1000, in units of 25 pC) and the discharged charge in units of
25 nC. -/
structure Acc where
  n : Nat
  v : Int
  i : Int
  tn : Nat
  t : Int
  orV : Bool
  orI : Bool
  cnt : Int
  dis : Nat
  deriving DecidableEq, Repr

/-- A completed Harvest record that waits for its L4 burst (Table BAT-2): its four 32-bit words. -/
structure HRec where
  w0 : BitVec 32
  w1 : BitVec 32
  w2 : BitVec 32
  w3 : BitVec 32
  deriving DecidableEq, Repr

/-- Channel A and the Harvest (R396 to R422, Table BAT-5). `started` says that the converters run, `ending` that ENA
was cleared and they stop at the end of the conversion in progress (R398), `valid` that a conversion of this start is
complete; `hfull` that the ring has wrapped (R407); `chgEff` and `slpI` are CHG_EFF and SLP_I as the last update took
them (R444). -/
structure BatA where
  ena : Bool
  harv : Bool
  hdec : Nat
  iq : Nat
  started : Bool
  ending : Bool
  valid : Bool
  ts : BitVec 32
  anchorTs : BitVec 32
  anchorSec : BitVec 32
  anchorSub : Word
  bva : Word
  bia : Word
  bta : Word
  acc : Acc
  due : Option Acc
  hacc : Acc
  hTs : BitVec 32
  hLen : Nat
  hStart : Bool
  hQ : List HRec
  hwp : Nat
  hwrapCnt : Word
  hfull : Bool
  hepoch : Nat
  trig : Option Nat
  htrigd : Bool
  ora : Bool
  hwrap : Bool
  orCnt : Nat
  rawV : BitVec 32
  rawI : BitVec 32
  rawT : BitVec 32
  mstat : Nat
  mbusy : Bool
  minval : Bool
  held : Option (List (Nat × BitVec 8))
  chgEff : Nat
  slpI : Nat
  deriving DecidableEq, Repr

/-- Channel B (R403, R404, Table BAT-6) and crank detection (R435). `recent` are the latest samples, newest first;
`dipU` is the sum and the number of the samples whose mean is U, while samples have stayed low since then; `crkDv` and
`crkT` are CRK_DV and CRK_T as the last update took them (R444). -/
structure BatB where
  raw : BitVec 12
  bvb : Nat
  bvbMin : Nat
  sumN : Nat
  sumV : Nat
  recent : List Nat
  dipU : Option (Nat × Nat)
  dipMin : Nat
  dipLen : Nat
  aboveRun : Nat
  crank : Bool
  inCrank : Bool
  crkCnt : Nat
  crkMin : Nat
  crkDur : Nat
  mstat : Nat
  mbusy : Bool
  minval : Bool
  crkDv : Nat
  crkT : Nat
  deriving DecidableEq, Repr

/-- A RESTORE that waits for its channel's update (R441, R505): the argument words in order. -/
abbrev Restore := List Word

/-- The estimator of a channel (R423 to R452, Tables SOC-6 and SOC-7). `int` and `rep` are in fine units of 0.0001 %.
Charge is in units of 25 nC on channel A and of 1 µC on channel B. Runs and `restFrac` are in milliseconds; `restS`
counts on where REST_S saturates; `qOpen` says that Q is still to be set to match the internal value, no capacity
being known (R441); `initLeft` is what is left of the 100 ms of R438, in units of 250 µs; `restDone` is the REST_S of
the last correction of the present Rest; `lrn` are the corrections of R433 with the charge counted since each; `vHist`
the means of the latest intervals, newest first. -/
structure Est where
  valid : Bool
  int : Nat
  rep : Nat
  q : Frac
  qOpen : Bool
  f : Frac
  flow : Nat
  chgRun : Nat
  chgIq : Nat
  fullRun : Nat
  fullDone : Bool
  lowRun : Nat
  restFrac : Nat
  restS : Nat
  restDone : Nat
  fcc : Nat
  soh : Nat
  r0s : Nat
  ecyc : Nat
  ecycQ : Frac
  src : Nat
  degr : Bool
  learned : Bool
  corrCnt : Nat
  rst : Bool
  lrn : List (Frac × Frac)
  lastV : Option (Frac × Frac × Bool)
  vHist : List (Frac × Frac)
  initLeft : Nat
  restore : Option Restore
  v1 : Frac
  ib : Frac
  capb : Nat
  pendCount : Int
  pendDis : Nat
  pendOr : Bool
  deriving DecidableEq, Repr

/-- The PIL decoder (R460 to R462): whether it has seen PIL high; the low pulse in progress and its length, once its
falling edge has been seen; the length of the high run since; whether a frame is in progress, its bits, its PIL_LEN
(R470) and the cycles since its last bit's falling edge, or since the end of its break while it has no bit; and
whether a new frame is barred until PIL has been high for 40 cycles. Times are in CK_SCAN cycles. -/
structure Pil where
  seen : Bool
  low : Option Nat
  high : Nat
  inFrame : Bool
  bits : List Bool
  len : Nat
  since : Nat
  barred : Bool
  deriving DecidableEq, Repr

/-- Pack identity (R453 to R476, Table PAK-4); `line` is the synchronised PIL level. -/
structure Pack where
  idm : Nat
  pres : Nat
  verif : Bool
  swap : Bool
  rem : Bool
  frozen : Bool
  idseq : Byte
  open_ : Bool
  pid : BitVec 32
  pidv : Bool
  line : Bool
  candN : Nat
  cand : BitVec 32
  goodCnt : Word
  crcCnt : Nat
  shortCnt : Nat
  longCnt : Nat
  syncCnt : Nat
  badRun : Nat
  remCnt : Nat
  swapCnt : Nat
  payload : Vector Byte 32
  offNow : Nat
  idLenNow : Nat
  pil : Pil
  deriving DecidableEq, Repr

/-! ### Authenticated commands -/

/-- The authenticated commands of Table SEC-1 and the provisioning request (R499). -/
inductive AuthCmd where
  | cork | restoreA | restoreB | ttPolicy | regionUnlock | cfgLock | lampPolicy | debugUnlock | provision
  deriving DecidableEq, Repr

/-- An OTP key slot (R499, R500): blank, a key with its KEYID, or failed. -/
inductive KeySlot where
  | blank
  | key (k : BitVec 128) (keyid : Word)
  | failed (keyid : Word)
  deriving DecidableEq, Repr

/-- A command that has passed its checks (R487, R499): the command, its port, its counter, its argument words, and
whether its counter write has completed. -/
structure Accepted where
  cmd : AuthCmd
  port : Port
  code : Word
  counter : BitVec 32
  args : List Word
  written : Bool
  deriving DecidableEq, Repr

/-- The message a first tag word begins (R482, Table SEC-2): ACMD, the counter, ALEN, the argument bytes, and whether
the Mailbox read met an uncorrectable error. -/
structure AuthMsg where
  cmd : Word
  cnt : BitVec 32
  alen : Nat
  args : List Byte
  ue : Bool
  deriving DecidableEq, Repr

/-- A tag that is being verified (R152, R485, R488): the port of its fourth word, and the code that step 1 or 2 of Table
SEC-3 refuses it with. -/
structure Verify where
  port : Port
  early : Option Byte
  deriving DecidableEq, Repr

/-- The authenticated-command engine (R477 to R507, Tables REG-29, REG-30 and SEC-6). STATE and TIDX follow from
`accepted`, `verify`, `claim`, `lockOn` and `tag`. `lockLeft` is what is left of the lockout in CK_FRAME cycles in which CK_AON
runs (R492). `restoreDrop` says that an accepted RESTORE_A that is not yet queued is to be discarded (R447, R474), and
`wipe` that the bytes of a refused provisioning request are still to leave the Mailbox (R500). -/
structure Auth where
  acmd : Word
  acntL : Word
  acntH : Word
  done : Bool
  result : Byte
  claim : Option Port
  tag : List Word
  msg : Option AuthMsg
  verify : Option Verify
  accepted : Option Accepted
  restoreDrop : Bool
  wipe : Bool
  badRun : Nat
  cfgLock : Bool
  dbgBs : Bool
  dbgTest : Bool
  tagFail : Nat
  cntFail : Nat
  lastCmd : Word
  lockOn : Bool
  lockLeft : Nat
  lockLvl : Nat
  deriving DecidableEq, Repr

/-- What outlives OFF (R11, R25, R490): the OTP slots, the UID, and the non-volatile block of 16 cells with the number
of accepted commands and the next cell. -/
structure Nv where
  kApp : KeySlot
  kSup : KeySlot
  uid : BitVec 64
  cells : Vector (BitVec 32 × Bool) 16
  nextCell : Nat
  acc : BitVec 32
  deriving DecidableEq, Repr

/-! ### Always-on island, backup domain, arbiter, TAP -/

/-- A register write on its way to the always-on island (R39). -/
inductive AonWrite where
  | rtc (secs : BitVec 32)
  | alm (n : Word)
  | wakectl (v : Word)
  | wakestat (mask : Word)
  deriving DecidableEq, Repr

/-- The always-on island: RTC, alarm, wake inputs, VSUP-low comparator (R508 to R516). `phase` is
the part of a CK_AON cycle that has run, in 1/375; `wakectl` is the register as it reads and `wakeIs` the
island's copy (R99, R201); `calLeft` counts the calibration edges of the running second that
are still to come (R509, R527). -/
structure Aon where
  sec : BitVec 32
  sub : Nat
  phase : Nat
  calLeft : Nat
  calNeg : Bool
  edges : Nat
  alarm : Option Nat
  wakectl : Word
  wakeIs : Word
  latch : Byte
  ign : Bool
  chg : Bool
  kw : Bool
  kwPolNow : Bool
  vlowTrip : Bool
  vlowTimer : Bool
  q : List AonWrite
  sleepSec : BitVec 32
  sleepSub : Bool
  deriving DecidableEq, Repr

/-- The backup domain on VBKUP (R511); `follow` says that RTC_H has been written since the cold boot that ended OFF or Cork
mode, so that BKSEC follows the RTC while VBKUP is there. -/
structure Backup where
  powered : Bool
  sec : BitVec 32
  bkv : Bool
  follow : Bool
  unbroken : Bool
  deriving DecidableEq, Repr

/-- What an ECC word holds beside its data (R218): an error that no write has mended. -/
inductive EccErr where
  | single | double
  deriving DecidableEq, Repr

/-- Arbiter, ECC counters and scrub (R218 to R237, Table CEL-7). `l0At` is the CK_FRAME cycle of the last L0 burst
(R226), `scrubLeft` the windows left until the next scrub burst (R222), `paid` the bursts of each level from L2 on that
work of many bursts has had ahead of the row that ends it (R227). -/
structure Arb where
  lvl : Nat
  maxw : Vector Nat 7
  rem : Vector Nat 5
  paid : Vector Nat 5
  yieldP : Bool
  yieldS : Bool
  l0At : Option Nat
  scrubAt : Nat
  scrubLeft : Nat
  ceCnt : Nat
  ueCnt : Nat
  lastCe : CAddr
  cev : Bool
  lastUe : CAddr
  uev : Bool
  ueOpen : Bool
  passCnt : Nat
  wbDrop : Nat
  wbQ : List CAddr
  ecc : List (Nat × EccErr)
  deriving DecidableEq, Repr

/-- The IEEE 1149.1 port (R566 to R568): the instruction register, the boundary register and its output latches. -/
structure Tap where
  ir : BitVec 5
  boundary : BitVec 373
  latch : BitVec 373
  deriving DecidableEq, Repr

end Sys2Proof.Machine
end

