-- ==== Sys2Proof/Machine/Bits.lean ====
section
/-! DEFINITION. Bit fields, byte order, sign extension, rounding and exact fractions. -/

namespace Sys2Proof.Machine

open Sys2Proof

/-- Bits lo + n − 1 : lo of a word, as a number. -/
def fld (v : Word) (lo n : Nat) : Nat := v.toNat / 2 ^ lo % 2 ^ n

/-- Bit i of a word. -/
def bit (v : Word) (i : Nat) : Bool := v.getLsbD i

/-- A word from a number, modulo 2^16. -/
def wordOf (n : Nat) : Word := BitVec.ofNat 16 n

/-- A two's complement word from an integer, modulo 2^16. -/
def wordOfInt (i : Int) : Word := BitVec.ofInt 16 i

/-- 1 at bit i when the flag is set. -/
def flag (b : Bool) (i : Nat) : Nat := if b then 2 ^ i else 0

/-- A counter that stops at a limit (the spec's "saturating at"). -/
def satAdd (limit n k : Nat) : Nat := min limit (n + k)

/-- Add 1, stopping at 0xFFFF. -/
def sat1 (n : Nat) : Nat := min 0xFFFF (n + 1)

/-- The two bytes of a word, the low byte at the lower address (R5). -/
def loByte (v : Word) : Byte := v.truncate 8
def hiByte (v : Word) : Byte := (v >>> 8).truncate 8

/-- The word of two bytes, low byte first (R5). -/
def wordOfBytes (lo hi : Byte) : Word := BitVec.ofNat 16 (lo.toNat + 256 * hi.toNat)

/-- Keep an integer within two limits. -/
def clampInt (lo hi i : Int) : Int := if i < lo then lo else if hi < i then hi else i

/-- Division rounded down. -/
def floorDiv (n : Int) (d : Nat) : Int := Int.fdiv n d

/-- Division rounded up. -/
def ceilDiv (n : Int) (d : Nat) : Int := - Int.fdiv (-n) d

/-- The nearest integer to n / d, halves away from zero (R255, R276, R399). -/
def roundAway (n : Int) (d : Nat) : Int :=
  if 0 ≤ n then Int.fdiv (2 * n + d) (2 * d) else - Int.fdiv (2 * (-n) + d) (2 * d)

/-- The nearest integer to n / d where the spec is silent on halves: a free value decides a half.
DESIGN CHOICE (log 5). -/
def roundTie (n : Int) (d : Nat) : Int :=
  let q := Int.fdiv n d
  let r := 2 * (n - q * d)
  if r < d then q else if (d : Int) < r then q + 1 else if Config.tieUp n d then q + 1 else q

/-- An integer for n / d where the spec states no rounding at all: exact where it divides, else the floor or the
ceiling as a free value says. DESIGN CHOICE (log 5). -/
def roundOpen (n : Int) (d : Nat) : Int :=
  let q := Int.fdiv n d
  if n = q * d then q else if Config.roundsUp n d then q + 1 else q

/-! ### Exact fractions -/

/-- n / d in lowest terms; 0 where d is 0. -/
def Frac.mk' (n : Int) (d : Nat) : Frac :=
  if d = 0 then ⟨0, 1⟩ else
    let g := Nat.gcd n.natAbs d
    ⟨Int.tdiv n g, d / g⟩

def Frac.ofInt (n : Int) : Frac := ⟨n, 1⟩
def Frac.zero : Frac := ⟨0, 1⟩
def Frac.add (a b : Frac) : Frac := Frac.mk' (a.num * b.den + b.num * a.den) (a.den * b.den)
def Frac.sub (a b : Frac) : Frac := Frac.mk' (a.num * b.den - b.num * a.den) (a.den * b.den)
def Frac.mul (a b : Frac) : Frac := Frac.mk' (a.num * b.num) (a.den * b.den)
def Frac.neg (a : Frac) : Frac := ⟨-a.num, a.den⟩
def Frac.abs (a : Frac) : Frac := ⟨a.num.natAbs, a.den⟩
/-- a / b; 0 where b is 0. -/
def Frac.div (a b : Frac) : Frac :=
  if b.num = 0 then ⟨0, 1⟩
  else if 0 < b.num then Frac.mk' (a.num * b.den) (a.den * b.num.natAbs)
  else Frac.mk' (-(a.num * b.den)) (a.den * b.num.natAbs)
def Frac.lt (a b : Frac) : Bool := decide (a.num * b.den < b.num * a.den)
def Frac.le (a b : Frac) : Bool := decide (a.num * b.den ≤ b.num * a.den)
def Frac.max (a b : Frac) : Frac := if a.lt b then b else a
def Frac.min (a b : Frac) : Frac := if b.lt a then b else a
def Frac.floor (a : Frac) : Int := Int.fdiv a.num a.den
def Frac.ceil (a : Frac) : Int := - Int.fdiv (-a.num) a.den
def Frac.clamp (lo hi x : Frac) : Frac := Frac.max lo (Frac.min hi x)

/-! ### Fixed-point logarithm and exponential, in units of 2⁻⁶⁰ (log entry 10) -/

/-- The unit of the fixed-point series. DESIGN CHOICE (log 10). -/
def fxOne : Nat := 2 ^ 60

/-- 2 × atanh(z) for 0 ≤ z < 1 in fixed point, by its power series over `k` terms. -/
def fxAtanh2 : Nat → Nat → Nat → Nat → Nat
  | 0, _, _, _ => 0
  | k + 1, zp, z2, i => 2 * zp / (2 * i + 1) + fxAtanh2 k (zp * z2 / fxOne) z2 (i + 1)

/-- ln 2 in fixed point. -/
def fxLn2 : Nat := fxAtanh2 40 (fxOne / 3) (fxOne / 9) 0

/-- ln of n / d for positive n and d, in fixed point: powers of two are taken out, then 2 atanh((m − 1)/(m + 1)).
DESIGN CHOICE (log 10). -/
def fxLn (n d : Nat) : Int :=
  let e : Int := (Nat.log2 n : Int) - Nat.log2 d
  let n' := if e < 0 then n * 2 ^ e.natAbs else n
  let d' := if 0 < e then d * 2 ^ e.natAbs else d
  let up := decide (d' ≤ n')
  let z := if up then fxOne * (n' - d') / (n' + d') else fxOne * (d' - n') / (n' + d')
  let l := fxAtanh2 60 z (z * z / fxOne) 0
  e * fxLn2 + (if up then (l : Int) else -(l : Int))

/-- The Taylor series of e^(−x), x in fixed point below 1, over `k` terms. -/
def fxExpSeries : Nat → Int → Nat → Nat → Int
  | 0, _, _, _ => 0
  | k + 1, t, x, i => t + fxExpSeries k (- (t * x) / (fxOne * (i + 1))) x (i + 1)

/-- Repeated squaring in fixed point. -/
def fxSquare : Nat → Nat → Nat
  | 0, y => y
  | k + 1, y => fxSquare k (y * y / fxOne)

/-- e^(−n/d) for n / d ≥ 0, in fixed point: 0 from 64 on; else the series at a 2⁻⁷ part of the argument, squared.
DESIGN CHOICE (log 10). -/
def fxExpNeg (n d : Nat) : Nat :=
  if d = 0 ∨ 64 * d ≤ n then 0 else
    let x := fxOne * n / (d * 128)
    fxSquare 7 (fxExpSeries 30 fxOne x 0).toNat

/-! ### CRCs (R412, R461, R464) -/

/-- One byte of CRC-16-CCITT (polynomial 0x1021, not reflected). -/
def crc16Byte (c : BitVec 16) (b : Byte) : BitVec 16 :=
  (List.range 8).foldl (fun c _ => if c.msb then (c <<< 1) ^^^ 0x1021 else c <<< 1) (c ^^^ ((b.zeroExtend 16) <<< 8))

/-- CRC-16-CCITT from 0xFFFF. -/
def crc16 (l : List Byte) : BitVec 16 := l.foldl crc16Byte 0xFFFF

/-- One byte of CRC-32 with reflected input and output: polynomial 0x04C11DB7 reflected is 0xEDB88320. -/
def crc32Byte (c : BitVec 32) (b : Byte) : BitVec 32 :=
  (List.range 8).foldl (fun c _ => if c.getLsbD 0 then (c >>> 1) ^^^ 0xEDB88320 else c >>> 1) (c ^^^ b.zeroExtend 32)

/-- CRC-32 from 0xFFFFFFFF with final XOR 0xFFFFFFFF. -/
def crc32 (l : List Byte) : BitVec 32 := ~~~ (l.foldl crc32Byte 0xFFFFFFFF)

/-! ### Lists and sets of lines -/

/-- The lines lo..hi as a set. -/
def lineSet (lo hi : Nat) : BitVec 16 :=
  BitVec.ofNat 16 (if lo ≤ hi then 2 ^ (min hi 15 + 1) - 2 ^ lo else 0)

/-- One line as a set. -/
def lineBit (k : Nat) : BitVec 16 := BitVec.ofNat 16 (2 ^ k)

/-- The lines below n as a set. -/
def linesBelow (n : Nat) : BitVec 16 := BitVec.ofNat 16 (2 ^ (min n 16) - 1)

end Sys2Proof.Machine
end

