-- ==== Sys2Proof/Machine/Pages.lean ====
section
/-! DEFINITION. The page words of the Parameter cask (Table CEL-2 and the page tables of the owning chapters): for each
word its reset value and which of its bits are LW, RW or WO, RO, and write-only triggers. Every bit in none of these is
reserved: it reads 0, and a non-zero write of it counts as a change of an LW field (R213). -/

namespace Sys2Proof.Machine

open Sys2Proof

/-- One page word. `trig` are the bits that act when written 1 and read 0 (they are also listed under lw or rw). -/
structure PageWord where
  rst : Nat
  lw : Nat
  rw : Nat
  ro : Nat
  trig : Nat
  deriving DecidableEq, Repr

def PageWord.reserved : PageWord := ⟨0, 0, 0, 0, 0⟩
def PageWord.lwWord (rst mask : Nat) : PageWord := ⟨rst, mask, 0, 0, 0⟩
def PageWord.roWord : PageWord := ⟨0, 0, 0, 0xFFFF, 0⟩
/-- A word whose RO fields are the bits of a mask; its other bits are reserved. -/
def PageWord.roBits (mask : Nat) : PageWord := ⟨0, 0, 0, mask, 0⟩

open PageWord

/-- The display-drive page, per-bank block (Table DRV-6). -/
def pageDrive (o : Nat) : PageWord :=
  match o with
  | 0x00 => lwWord 100 0xFFFF
  | 0x02 => lwWord 0x52 0x1FF
  | 0x04 => lwWord 0x1808 0xFFFF
  | 0x06 => lwWord 0x0805 0x1FFF
  | 0x08 | 0x0A | 0x0C | 0x0E => lwWord 0 0xFFFF
  | 0x10 | 0x12 | 0x14 | 0x16 => roWord
  | _ => reserved

/-- The balance page, per-bank block (Table BAL-5). -/
def pageBalance (o : Nat) : PageWord :=
  match o with
  | 0x00 => lwWord 0x14 0x1F
  | 0x02 => lwWord 1 0xFFFF
  | 0x04 => ⟨0, 1, 0, 0, 1⟩
  | 0x0C => roBits 0x3F
  | 0x06 | 0x08 | 0x0A | 0x0E | 0x10 | 0x12 | 0x14 => roWord
  | _ => reserved

/-- The layers-and-animation page (Table LAY-4). -/
def pageLayers (o : Nat) : PageWord :=
  if o < 0x50 then roWord
  else if o = 0x50 ∨ o = 0x52 then roBits 0x1F
  else if o < 0x60 then reserved
  else if o < 0x78 then
    if (o - 0x60) % 6 = 0 then lwWord 500 0xFFFF else if (o - 0x60) % 6 = 2 then lwWord 50 0xFFFF else lwWord 0 0xFFFF
  else if o < 0x80 then reserved
  else if o < 0xA0 then
    match (o - 0x80) % 0x10 with
    | 0x0 => ⟨0, 0, 1, 0, 0⟩
    | 0x2 => ⟨0, 0, 0xFFFF, 0, 0⟩
    | 0x4 => ⟨0, 0, 1, 0, 0⟩
    | 0x8 => roBits 1
    | 0xA => roBits 0x3F
    | _ => roWord
  else if o < 0xC0 then
    match (o - 0xA0) % 8 with
    | 0 => lwWord 0x1E00 0x9FFF
    | 2 => lwWord 0 0x7F7F
    | 4 => ⟨0, 0, 2, 1, 2⟩
    | _ => reserved
  else if o < 0x100 then reserved
  else if o < 0x180 then lwWord 0 0xFFFF
  else if o < 0x200 then reserved
  else roWord

/-- The keys page (Table KEY-5). -/
def pageKeys (o : Nat) : PageWord :=
  match o with
  | 0x00 => ⟨5, 0xF, 0, 0, 8⟩
  | 0x02 => lwWord 120 0xFFFF
  | 0x04 => lwWord 30 0xFFFF
  | _ => if 6 ≤ o ∧ o < 0x14 then roWord else if 0x20 ≤ o ∧ o < 0x40 then roWord else reserved

/-- The lamps page (Table LMP-7). -/
def pageLamps (o : Nat) : PageWord :=
  if o < 0x80 then
    match o % 0x10 with
    | 0x0 => lwWord 0x2818 0x7F3F
    | 0x2 => lwWord 0x1378 0x1FFF
    | 0x4 => lwWord 200 0xFFFF
    | 0x6 => lwWord 0x1E0A 0xFF7F
    | 0x8 => ⟨0, 0xFF, 0, 0x0700, 0⟩
    | 0xA => roBits 0xF
    | _ => roWord
  else if o < 0x100 then reserved
  else if o < 0x120 then
    match o % 0x10 with
    | 0x0 => lwWord 1000 0xFFFF
    | 0x2 => lwWord 400 0xFFFF
    | 0x4 => lwWord 110 0xFF
    | 0x6 | 0x8 | 0xA => roWord
    | _ => reserved
  else
    match o with
    | 0x140 => lwWord 667 0xFFFF
    | 0x142 => lwWord 50 0xFF
    | 0x144 => ⟨0, 0, 0, 3, 0⟩
    | 0x150 => lwWord 0x0A06 0xFFFF
    | 0x152 => lwWord 20 0xFFFF
    | 0x154 => lwWord 0x10 0x1F1
    | 0x160 => ⟨0, 0, 0, 0xFF, 0⟩
    | 0x162 | 0x164 => roWord
    | _ => reserved

/-- The channel A page (Tables BAT-5 and SOC-6). Bits 13:3 of 0x0_D416 are reserved as R213 has it, though Table BAT-5 gives
their access as RW. DESIGN CHOICE (log 20). -/
def pageBatA (o : Nat) : PageWord :=
  match o with
  | 0x00 => lwWord 4096 0xFFFF
  | 0x02 => lwWord 1000 0xFFFF
  | 0x04 => lwWord 0x8000 0xFFFF
  | 0x06 => lwWord 0 0xFFFF
  | 0x08 => lwWord 0x8000 0xFFFF
  | 0x0A => lwWord 0 0xFFFF
  | 0x0C => lwWord 1000 0xFFFF
  | 0x0E => lwWord 3435 0xFFFF
  | 0x10 => lwWord 0 0xFFFF
  | 0x12 => lwWord 4000 0xFFFF
  | 0x14 => lwWord 50 0xFFFF
  | 0x16 => ⟨0, 0, 0x8007, 0x4000, 0x8000⟩
  | 0x18 => ⟨1000, 0, 0xFFFF, 0, 0⟩
  | 0x36 => ⟨0, 0, 1, 0x1E, 1⟩
  | 0x1E => roBits 3
  | 0x34 => roBits 0x7FFF
  | 0x38 => roWord
  | 0x54 => roBits 0x1F
  | 0x40 => lwWord 1800 0xFFFF
  | 0x42 => lwWord 995 0xFFFF
  | 0x44 => lwWord 0 0xFFFF
  | 0x46 => lwWord 3 3
  | 0x58 => reserved
  | 0x5A => roWord
  | _ => if 0x1A ≤ o ∧ o < 0x36 then roWord else if 0x48 ≤ o ∧ o < 0x58 then roWord else reserved

/-- The channel B page (Tables BAT-6 and SOC-7). -/
def pageBatB (o : Nat) : PageWord :=
  match o with
  | 0x00 => lwWord 0x8000 0xFFFF
  | 0x02 => lwWord 0 0xFFFF
  | 0x04 | 0x06 => roWord
  | 0x0C => roBits 0xFFF
  | 0x36 => roBits 7
  | 0x08 => ⟨0, 0, 1, 0, 1⟩
  | 0x0A => ⟨0, 0, 1, 0x1E, 1⟩
  | 0x20 => lwWord 50 0xFFFF
  | 0x22 => lwWord 200 0xFFFF
  | 0x24 => lwWord 150 0xFFFF
  | 0x26 => lwWord 20 0xFFFF
  | 0x28 => lwWord 200 0xFFFF
  | _ => if 0x2A ≤ o ∧ o < 0x38 then roWord else reserved

/-- The pack identity page (Table PAK-4). -/
def pagePack (o : Nat) : PageWord :=
  match o with
  | 0x00 => lwWord 16 0x3F
  | 0x02 => lwWord 0x800 0x3F1F
  | 0x04 => lwWord 0x32 0x77
  | 0x06 => lwWord 50 0xFFFF
  | 0x08 => lwWord 100 0xFFFF
  | 0x20 => ⟨0, 1, 0, 0, 1⟩
  | 0x0E => roBits 0x1F
  | 0x1A => roBits 0xFF
  | _ => if 0x0A ≤ o ∧ o < 0x20 then roWord else if 0x40 ≤ o ∧ o < 0x60 then roWord else reserved

/-- The clocks-and-power page (Tables CLK-5 and PWR-10). -/
def pagePower (o : Nat) : PageWord :=
  match o with
  | 0x00 => lwWord 1 1
  | 0x02 => lwWord 100 0xFFFF
  | 0x06 => lwWord 0xF 0xF
  | 0x08 => lwWord 10 0xFFFF
  | 0x0A => lwWord 20 0xFFFF
  | _ => reserved

/-- The arbitration page (Table CEL-7). -/
def pageArb (o : Nat) : PageWord :=
  match o with
  | 0x00 => lwWord 0x4428 0xFFFF
  | 0x02 => ⟨0x11, 0x3F, 0, 0, 0x20⟩
  | 0x04 => lwWord 64 0xFFFF
  | 0x0C | 0x14 => roBits 0x800F
  | _ => if 6 ≤ o ∧ o < 0x16 then roWord else reserved

/-- The diagnostics page (Tables SUP-7 and DIA-3). -/
def pageDiag (o : Nat) : PageWord :=
  if o < 0x20 then
    match o with
    | 0x00 => lwWord 1 3
    | 0x02 => lwWord 100 0xFFFF
    | 0x04 => lwWord 0 0xFFFF
    | 0x08 => ⟨0, 0, 0xFFFF, 0, 0⟩
    | 0x0A => lwWord 0 1
    | 0x0C => lwWord 115 0xFFFF
    | 0x0E => lwWord 125 0xFFFF
    | 0x10 => ⟨0, 0, 1, 2, 1⟩
    | 0x12 => lwWord 5 0xFFFF
    | 0x14 | 0x16 => roWord
    | _ => reserved
  else if o < 0x40 then
    match o % 0x10 with
    | 0x0 | 0x2 | 0x4 => roWord
    | 0x6 => lwWord 0 0xFFFF
    | 0x8 => lwWord 0x1900 0xFF01
    | 0xA | 0xC => roWord
    | _ => reserved
  else reserved

/-- The page word at an even Cellar address of 0x0_C000–0x0_EFFF. -/
def pageWord (a : Nat) : PageWord :=
  match a / 0x400 with
  | 0x30 => if a - 0xC000 < 0x80 then pageDrive (a % 0x40) else reserved
  | 0x31 => if a - 0xC400 < 0x40 then pageBalance (a % 0x20) else reserved
  | 0x32 => pageLayers (a - 0xC800)
  | 0x33 => pageKeys (a - 0xCC00)
  | 0x34 => pageLamps (a - 0xD000)
  | 0x35 => pageBatA (a - 0xD400)
  | 0x36 => pageBatB (a - 0xD800)
  | 0x37 => pagePack (a - 0xDC00)
  | 0x38 => roWord
  | 0x39 => pagePower (a - 0xE400)
  | 0x3A => pageArb (a - 0xE800)
  | 0x3B => pageDiag (a - 0xEC00)
  | _ => reserved

/-- Whether an address lies in a page of the Parameter cask (Table CEL-2). -/
def isPage (a : Nat) : Bool := decide (0xC000 ≤ a ∧ a < 0xF000)

/-- The bits of a page word that its Cellar word stores: LW and RW bits that are no triggers. -/
def PageWord.stored (w : PageWord) : Nat := (w.lw ||| w.rw) &&& (0xFFFF ^^^ w.trig)

/-- The reserved bits of a page word. -/
def PageWord.rsv (w : PageWord) : Nat := 0xFFFF ^^^ (w.lw ||| w.rw ||| w.ro)

end Sys2Proof.Machine
end

