-- ==== Sys2Proof/Machine/Cellar.lean ====
section
/-! DEFINITION. The Cellar (R209): 1 MiB of bytes as a sorted list of the bytes that differ from the boot zero-fill
(R216), with the word, ECC-word and line accesses built from the byte access (R5, R305). -/

namespace Sys2Proof.Machine

open Sys2Proof

/-- What a byte that no write has changed reads as (R216): the reset value of its page word in the Parameter cask, and 0
elsewhere. -/
def Cellar.blank (a : Nat) : Byte :=
  if isPage a then
    let w := wordOf (pageWord (a - a % 2)).rst
    if a % 2 = 0 then loByte w else hiByte w
  else 0

/-- Read one byte. -/
def Cellar.get : List Host.Cell → Nat → Byte
  | [], a => Cellar.blank a
  | (k, v) :: m, a => if k = a then v else Cellar.get m a

/-- Put a byte into a sorted list, or take its entry out where the byte is the blank one. DESIGN CHOICE (log 1). -/
def Cellar.set : List Host.Cell → Nat → Byte → List Host.Cell
  | [], a, v => if v = Cellar.blank a then [] else [(a, v)]
  | (k, w) :: m, a, v =>
    if a < k then (if v = Cellar.blank a then (k, w) :: m else (a, v) :: (k, w) :: m)
    else if a = k then (if v = Cellar.blank a then m else (a, v) :: m)
    else (k, w) :: Cellar.set m a v

/-- Every address of a list is above a given one. -/
def Cellar.above (a : Nat) : List Host.Cell → Bool
  | [] => true
  | (k, _) :: _ => decide (a < k)

/-- The canonical form: addresses strictly rising, no entry equal to the blank byte. -/
def Cellar.wf : List Host.Cell → Bool
  | [] => true
  | (k, v) :: m => decide (v ≠ Cellar.blank k) && Cellar.above k m && Cellar.wf m

/-- The 20-bit byte address space wraps (R109). -/
def cellarSize : Nat := 0x100000

/-- Read a word, low byte first (R5). -/
def Cellar.getWord (m : List Host.Cell) (a : Nat) : Word := wordOfBytes (Cellar.get m a) (Cellar.get m (a + 1))

/-- Write a word, low byte first (R5). -/
def Cellar.setWord (m : List Host.Cell) (a : Nat) (v : Word) : List Host.Cell :=
  Cellar.set (Cellar.set m a (loByte v)) (a + 1) (hiByte v)

/-- The number whose bytes lie at a, a + 1, …, the lowest byte first. -/
def Cellar.getNat (m : List Host.Cell) : Nat → Nat → Nat
  | _, 0 => 0
  | a, n + 1 => (Cellar.get m a).toNat + 256 * Cellar.getNat m (a + 1) n

/-- Write n bytes of a number from a upwards, the lowest byte first. -/
def Cellar.setNat (m : List Host.Cell) : Nat → Nat → Nat → List Host.Cell
  | _, 0, _ => m
  | a, n + 1, v => Cellar.setNat (Cellar.set m a (BitVec.ofNat 8 v)) (a + 1) n (v / 256)

/-- A line of 16 bytes: pixel s of the line is bit s (R305). -/
def Cellar.getLine (m : List Host.Cell) (a : Nat) : BitVec 128 := BitVec.ofNat 128 (Cellar.getNat m a 16)

/-- Write a line of 16 bytes. -/
def Cellar.setLine (m : List Host.Cell) (a : Nat) (v : BitVec 128) : List Host.Cell := Cellar.setNat m a 16 v.toNat

/-- Write zeros to n bytes from a upwards. -/
def Cellar.zero (m : List Host.Cell) (a n : Nat) : List Host.Cell := Cellar.setNat m a n 0

/-- The address of buffer k of layer l of a bank (R305). -/
def bufAddr (b : Bank) (l k : Nat) : Nat := 0x1000 * b.num + 0x300 * l + 0x100 * k

/-- The address of a bank's tell-tale mask (R305). -/
def maskAddr (b : Bank) : Nat := 0xF00 + 0x1000 * b.num

/-- The address of a bank's fallback tell-tale mask on the layers-and-animation page (Table LAY-4). -/
def fbMaskAddr (b : Bank) : Nat := 0xCA00 + 0x100 * b.num

/-- The address of the accumulator word of pixel (c, s) (R278). -/
def accAddr (b : Bank) (c s : Nat) : Nat := 0x8000 + 0x2000 * b.num + 4 * (128 * c + s)

/-- A Cellar address of the Balance cask (Table CEL-1). -/
def inBalance (a : Nat) : Bool := decide (0x8000 ≤ a ∧ a < 0xC000)

end Sys2Proof.Machine
end

