-- ==== Sys2Proof/Machine/Reset.lean ====
section
/-! DEFINITION. The state of each unit at READY of a cold boot (Table REG-1, the Reset columns of the chapters), and
what a power-on leaves before the boot has run. -/

namespace Sys2Proof.Machine

open Sys2Proof

/-- SYSSTAT, SYSCTL and the straps at READY, strapped Gen2, crystal, ROLE low (log entry 2). -/
def Power.ready : Power :=
  { mode := .standby, trans := .idle, reduced := false, collapse := false, colSleep := false, bstep := 0, rcause := 0,
    expert := false, face := .full, rst := .noReset, corkPort := .portP, shipG := true,
    strapPull := false, strapBuf := false, gen := .gen2, roleStrap := false, vio := true }

/-- CLKSTAT at READY (Table CLK-4): crystal, one start attempt with fast-start. DESIGN CHOICE (log 2). -/
def Clock.ready : Clock :=
  { src := false, rootOk := true, pllLock := true, hold := false, rootLoss := false, unlock := false, timeSub := false,
    fsUsed := true, starts := 1, attempting := false, released := true, holdLimit := 100, expiring := false,
    sleepLost := false, xtalRuns := true }

/-- No record (Tables REG-7, REG-8). -/
def ErrRec.none : ErrRec := { code := 0, ahi := 0, cell := false, src := 0, ovr := false, info := 0 }

/-- A port at READY: IRQEN 0x0001 (R75), WCTL 0x0005, window 0x0_0000 with its prefetch word loaded.
The last data read and the Gen1 address latch, which holds the address of the last ALE falling edge (R101), have no value
in the spec before a first read and a first edge. DESIGN CHOICE (log 12). -/
def PortSt.ready : PortSt :=
  { irqEn := 1, ale := 0, waddr := 0, ainc := true, page := false, wdrop := false, dropCnt := 0, pre := [0],
    follow := none,
    fresh := true, load := none, buf := [], held := .none, g1rd := none, g1wr := none, rtcSnap := none,
    rtcHold := none, rawSnap := none, socSnap := none, disc := 0, rdata := 0 }

/-- PORTCTL at READY (Table SUP-6): PPRI from the ROLE strap, no forced-display-on, key 0x5A expected. -/
def Roles.ready (ppri : Bool) (now : Nat) : Roles :=
  { ppri := ppri, swpnd := none, fdon := false, fallbk := false, hbNext := false, hbLast := none, hbRef := now,
    hbMissed := false, fbBeat := none, fbEnding := false }

/-- DCTL fields and the sequence of a bank at READY: 1/16 duty, 1/5 bias, 100 Hz, Balanced (R266), state 0. -/
def Drive.ready : Drive :=
  { duty := 7, bias := 4, frate := 2, wave := 0, dutyNow := 7, flushing := false, rateNow := 100, waveNow := 0,
    ninvNow := 2, ladNow := 5, sta := .off, req := false, latch := false, vgood := false, t20Out := false,
    pend := .none, vlossRun := false, vlostCnt := 0, novlcdCnt := 0, fcnt := 0, slot := 0, slotAt := 0, burst := none,
    offLeft := 0,
    setCap := 0, setElapsed := 0, setReqAt := 0, setSlots := 0, setFrame := 0, reqNext := none,
    dutyWait := false, halt := 0, haltAt := none }

def Trim.ready : Trim :=
  { target := 0, slew := 1, tcomp := false, tcompNow := false, slewNow := 1, tc := 0, now := 0, armed := false,
    wait := none, waitArm := false }

def Ledger.ready : Ledger :=
  { recs := [], passes := [], plan := [], settle := [], units := (15360, 16), clr := false, peak := 0, peakAddr := 0,
    invCnt := 0, settleLast := 0,
    capped := false, skipped := false, capCnt := 0, satCnt := 0, rstCnt := 0, passCnt := 0 }

def LayerSt.ready : LayerSt :=
  { live2 := false, vint := 0, cur := none, next := none, catchup := 0, late := false, super := false, coal := false,
    lateCnt := 0, superCnt := 0, coalCnt := 0, lateRun := 0 }

def BlinkSt.ready : BlinkSt := { en := false, pre := 0, e := 0, onPhase := false }

def Thread.ready : Thread :=
  { startReq := false, stopReq := false, pc := 0, stat := 0, fcode := 0, unk := false,
    barK := Vector.replicate 4 0, bars := Vector.replicate 4 none, loops := Vector.replicate 4 0, waitN := 0,
    sync := none, execd := 0, changed := 0 }

def Crack.ready : Crack :=
  { en := true, sta := 0, loopR := 0, trendR := 0, base := 0, leakNa := 0, evt := 0, recent := [], learned := 0,
    learnSum := 0, baseBad := false, openRun := 0, leakRun := 0, fixNow := false, startNext := false,
    measured := false }

def BankSt.ready : BankSt :=
  { drv := Drive.ready, trim := Trim.ready, led := Ledger.ready, layers := Vector.replicate 5 LayerSt.ready,
    maskCopy := Vector.replicate 16 0, maskNow := Vector.replicate 16 0, fbMaskNow := Vector.replicate 16 0,
    fbNow := false, fbWait := false,
    mapNow := Vector.replicate 32 0, blinkOn := Vector.replicate 4 false, blink := Vector.replicate 4 BlinkSt.ready,
    lateLast := false, ttLateLast := false, held := [], thr := Thread.ready, crack := Crack.ready }

/-- DESIGN CHOICE (log 2). -/
def Display.ready : Display :=
  { dctlView := .bankA, dvlcdView := .bankA, viewLayer := 0, viewBank := .bankA, dblink := 0, ttStale := false,
    rlock := Vector.replicate 4 true, crackPol := 0, temp := 0, twarnF := false }

/-- KCTL 0x7F34 and the keys page at READY. -/
def KeySet.ready : KeySet :=
  { diodes := false, kslot := 1, deb := 3, lines := 15, kins := 7, klev := 1, offper := 120, offlu := 30 }

/-- What R359 keeps, at READY. -/
def KeysWas.ready : KeysWas :=
  { set := KeySet.ready, en := false, run := false, due := false, line := 0, counts := Vector.replicate 128 0,
    logEn := true, ovfCnt := 0, logWrap := 0, ghostCnt := 0, cleared := false }

/-- The Trellis at READY: a boot scan of three full scans is due (R352). -/
def Keys.ready : Keys :=
  { en := false, run := false, due := false, reg := KeySet.ready, was := KeysWas.ready, regAt := none,
    scanAt := none, capt := [], enNext := none, logHold := none, clr := false, cur := KeySet.ready, line := 0, boot := 3,
    counts := Vector.replicate 128 0, kmap := 0, amap := 0, fifo := [], ovf := false,
    ghost := false, scanCnt := 0, seqNext := 0, ovfSeq := 0, ovfEnd := 0, ovfCnt := 0, logWrap := 0, ghostCnt := 0,
    logQ := [], logged := 0 }

/-- A lamp channel at READY (Table REG-23): single, 200 Hz, 100 %, 2.4 A for 40 ms, 3 retries at 100 ms. -/
def Lamp.ready : Lamp :=
  { duty := 1000, pwmf := 1, inrush := 2, retry := 1, gang := false, flash := false, mode := .off, conducting := false,
    limA := 0, winEnd := 0, winMs := 0, derlvl := 0, rleft := 3, retryN := 3, senseless := false, gangDer := false,
    gangCap := 1000,
    causes := 0, flt := false, hot := false, otWait := false, retryRdy := false, pwmP := 15360, pwmHz := 200,
    dutyNow := 1000, pwmRun := false, openNow := false, offDiag := true, runI := 120, boutI := 0, retryMs := 100,
    onAt := 0,
    tripAt := 0, cut := none, inr := false, fltCnt := 0, iOn := 0 }

/-- The energy unit of a cluster budget: mJ / 300 000, in which every REFILL / 1000 mJ step and every 0.1 °C of its
falling range is a whole number. -/
def mJ : Nat := 300000

/-- DESIGN CHOICE (log 2). -/
def Cluster.ready : Cluster := { b := 1000 * mJ, bPrev := 1000 * mJ, sinceStep := 10, derCnt := 0, eMax := 1000, shortE := 0, tCl := 0 }

def Lamps.ready : Lamps :=
  { lctl := 0, selCh := 0, selParam := 0, ch := Vector.replicate 8 Lamp.ready, cl := Vector.replicate 2 Cluster.ready,
    flRun := false, flOut := false, flPeriod := 1334, flDuty := 50, bout := false, boutSeen := false, ttClaim := 0,
    ttMode := 0, ttFb := 0, flkBank := .bankA, flkMul := 1, flkAt := 0, epoch := 0 }

def Acc.zero : Acc := { n := 0, v := 0, i := 0, tn := 0, t := 0, orV := false, orI := false, cnt := 0, dis := 0 }

/-- BCTL 0x0027 and channel A at READY: started, no valid conversion yet. -/
def BatA.ready : BatA :=
  { ena := true, harv := true, hdec := 0, iq := 0, started := true, ending := false, valid := false, ts := 0,
    anchorTs := 0,
    anchorSec := 0, anchorSub := 0, bva := 0, bia := 0x8000, bta := 0x8000, acc := Acc.zero, due := none, held := none,
    hacc := Acc.zero, hTs := 0, hLen := 4, hStart := true, hQ := [], hwp := 0, hwrapCnt := 0, hfull := false,
    hepoch := 0,
    trig := none, htrigd := false, ora := false, hwrap := false, orCnt := 0, rawV := 0, rawI := 0, rawT := 0,
    mstat := 0, mbusy := false, minval := false, chgEff := 995, slpI := 0 }

def BatB.ready : BatB :=
  { raw := 0, bvb := 0, bvbMin := 0xFFFF, sumN := 0, sumV := 0, recent := [], dipU := none, dipMin := 0, dipLen := 0,
    aboveRun := 0, crank := false, inCrank := false, crkCnt := 0, crkMin := 0xFFFF, crkDur := 0,
    mstat := 0, mbusy := false, minval := false, crkDv := 150, crkT := 20 }

def Est.ready : Est :=
  { valid := false, int := 0, rep := 0, q := ⟨0, 1⟩, qOpen := false, f := ⟨0, 1⟩, flow := 0, chgRun := 0, chgIq := 0,
    fullRun := 0, fullDone := false, lowRun := 0, restFrac := 0, restS := 0, restDone := 0, fcc := 0, soh := 0xFFFF,
    r0s := 1024, ecyc := 0, ecycQ := ⟨0, 1⟩, src := 0, degr := false, learned := false, corrCnt := 0,
    rst := false, lrn := [], lastV := none, vHist := [], initLeft := 400, restore := none, v1 := ⟨0, 1⟩,
    ib := ⟨0, 1⟩, capb := 0, pendCount := 0, pendDis := 0, pendOr := false }

/-- The PIL decoder outside a frame, no falling edge seen (R469). -/
def Pil.idle : Pil := { seen := false, low := none, high := 0, inFrame := false, bits := [], len := 16, since := 0, barred := false }

/-- R462: the decoder taken out of a frame without its end being seen; a frame that was in progress has ended, and the next
is barred until PIL has been high for 40 cycles. -/
def Pil.outside (d : Pil) : Pil := { Pil.idle with barred := d.inFrame || d.barred }

/-- Thermistor mode, presence not yet known (BCTL.IDM 1, Table REG-28). DESIGN CHOICE (log 2). -/
def Pack.ready : Pack :=
  { idm := 1, pres := 2, verif := false, swap := false, rem := false, frozen := false, idseq := 0, open_ := false,
    pid := 0, pidv := false, line := false, candN := 0, cand := 0, goodCnt := 0, crcCnt := 0, shortCnt := 0,
    longCnt := 0, syncCnt := 0, badRun := 0, remCnt := 0, swapCnt := 0, payload := Vector.replicate 32 0,
    offNow := 0, idLenNow := 8, pil := Pil.idle }

def Auth.ready : Auth :=
  { acmd := 0, acntL := 0, acntH := 0, done := false, result := 0, claim := none, tag := [], msg := none,
    verify := none, accepted := none, restoreDrop := false, wipe := false, badRun := 0, cfgLock := false, dbgBs := false, dbgTest := false,
    tagFail := 0, cntFail := 0,
    lastCmd := 0, lockOn := false, lockLeft := 0, lockLvl := 0 }

/-- As shipped (R11): both slots unprovisioned, the replay counter at 0. The UID is the model's (log entry 3). -/
def Nv.shipped : Nv :=
  { kApp := .blank, kSup := .blank, uid := 0, cells := Vector.replicate 16 (0, true), nextCell := 0, acc := 0 }

/-- The always-on island after a cold boot (R508, Tables REG-31 to REG-33). DESIGN CHOICE (log 2). -/
def Aon.ready : Aon :=
  { sec := 0, sub := 0, phase := 0, calLeft := 0, calNeg := false, edges := 0, alarm := none,
    wakectl := 0x0103, wakeIs := 0x0103, latch := 0, ign := false, chg := false, kw := false, kwPolNow := false,
    vlowTrip := false,
    vlowTimer := false, q := [], sleepSec := 0, sleepSub := false }

/-- VBKUP tied to VSS, as Table PKG-7 allows (log entry 2). -/
def Backup.ready : Backup := { powered := false, sec := 0, bkv := false, follow := false, unbroken := false }

/-- The arbiter at READY: the default shares loaded, no wait recorded, no error known, scrub at 0x0_0000. The first scrub
burst is due at once. DESIGN CHOICE (log 49). -/
def Arb.ready : Arb :=
  { lvl := 0, maxw := Vector.replicate 7 0, rem := #v[8, 2, 4, 4, 1], paid := Vector.replicate 5 0, yieldP := false, yieldS := false,
    l0At := none, scrubAt := 0, scrubLeft := 0, ceCnt := 0, ueCnt := 0, lastCe := 0, cev := false, lastUe := 0,
    uev := false, ueOpen := false,
    passCnt := 0, wbDrop := 0, wbQ := [], ecc := [] }

/-- Test-Logic-Reset selects IDCODE (R567). DESIGN CHOICE (log 2). -/
def Tap.ready : Tap := { ir := 2, boundary := 0, latch := 0 }

end Sys2Proof.Machine
end

