-- ==== Sys2Proof/Machine/State.lean ====
section
/-! DEFINITION. The machine's state: every register, buffer, counter, mode and pin state the spec gives the SX-4096, the
Cellar, what outlives OFF, and the queue of waiting commands, first in, first out. -/

namespace Sys2Proof.Machine

open Sys2Proof

/-- The whole machine. `now` counts CK_FRAME cycles (1536 a millisecond); `freeCtr` is the model's own counter that
the free values of Config are applied to. -/
structure State where
  now : Nat
  freeCtr : Nat
  pw : Power
  clk : Clock
  irqStat : Word
  err : ErrRec
  portP : PortSt
  portS : PortSt
  spi : SpiResp
  roles : Roles
  scratch : Word
  bankA : BankSt
  bankB : BankSt
  disp : Display
  keys : Keys
  lamps : Lamps
  batA : BatA
  batB : BatB
  estA : Est
  estB : Est
  pack : Pack
  auth : Auth
  nv : Nv
  aon : Aon
  bak : Backup
  arb : Arb
  tap : Tap
  mem : List Host.Cell
  pending : List Instr
  deriving DecidableEq, Repr

/-- Why the machine stops with a fault. There is no such reason: the spec gives every command of the table an effect,
and none raises a fault. -/
inductive Fault where
  deriving DecidableEq, Repr

/-- Why the model has no outcome. -/
inductive Refusal where
  /-- Raised only by an arm of `exec` that has no meaning yet, by its mnemonic. Safe: nothing is claimed. -/
  | notModelled (mnemonic : String)
  deriving DecidableEq, Repr

/-- The machine right after reset: READY of a power-on cold boot (Table REG-1), with IRQSTAT.READY set, nothing in the
Cellar beyond the zero-fill of R216, and no command waiting. DESIGN CHOICE (log 2). -/
def State.reset : State :=
  { now := 0, freeCtr := 0, pw := Power.ready, clk := Clock.ready, irqStat := 1, err := ErrRec.none,
    portP := PortSt.ready, portS := PortSt.ready, spi := .status, roles := Roles.ready true 0, scratch := 0,
    bankA := BankSt.ready, bankB := BankSt.ready, disp := Display.ready, keys := Keys.ready, lamps := Lamps.ready,
    batA := BatA.ready, batB := BatB.ready, estA := Est.ready, estB := Est.ready, pack := { Pack.ready with pres := 0 },
    auth := Auth.ready, nv := Nv.shipped, aon := Aon.ready, bak := Backup.ready, arb := Arb.ready, tap := Tap.ready,
    mem := [], pending := [] }

end Sys2Proof.Machine
end

