-- ==== Sys2Proof/Machine/Flags.lean ====
section
/-! DEFINITION. The flag computations every unit shares: IRQSTAT bits (Table REG-5), the error record (R170, R175,
R176), the interrupt pins (R14), write-one-to-clear fields (R205) and the change-driven IRQSTAT causes. -/

namespace Sys2Proof.Machine

open Sys2Proof

/-! ### IRQSTAT bit numbers (Table REG-5) -/
abbrev irqREADY : Nat := 0
abbrev irqERR : Nat := 1
abbrev irqCOMMIT : Nat := 2
abbrev irqLATE : Nat := 3
abbrev irqKEY : Nat := 4
abbrev irqKOVF : Nat := 5
abbrev irqLAMP : Nat := 6
abbrev irqBAT : Nat := 7
abbrev irqPACK : Nat := 8
abbrev irqAUTH : Nat := 9
abbrev irqALARM : Nat := 10
abbrev irqWAKE : Nat := 11
abbrev irqCRACK : Nat := 12
abbrev irqVLCD : Nat := 13
abbrev irqROLE : Nat := 14
abbrev irqHB : Nat := 15

/-! ### ERRSTAT codes (Table REG-8) -/
abbrev eSTATE : Byte := 0x01
abbrev eRANGE : Byte := 0x02
abbrev eOWNER : Byte := 0x03
abbrev eTAG : Byte := 0x04
abbrev eCOUNTER : Byte := 0x05
abbrev eBUSY : Byte := 0x06
abbrev eBOOTWR : Byte := 0x07
abbrev eWDROP : Byte := 0x08
abbrev eECC : Byte := 0x09
abbrev eLOCKED : Byte := 0x0A
abbrev eNOVLCD : Byte := 0x0B
abbrev ePILFRAME : Byte := 0x0C

/-- Set one bit of IRQSTAT (R172). -/
def setIrq (s : State) (i : Nat) : State := { s with irqStat := s.irqStat ||| wordOf (2 ^ i) }

/-- Set one bit of IRQSTAT where a condition holds. -/
def setIrqIf (c : Bool) (s : State) (i : Nat) : State := if c then setIrq s i else s

/-- ERRSTAT.SRC (Table REG-7): 0b00 device, 0b01 Port P, 0b10 Port S. -/
def srcCode : Option Port → BitVec 2
  | none => 0
  | some .portP => 1
  | some .portS => 2

/-- R170: make a record, replacing the previous one, and set IRQSTAT.ERR. -/
def record (s : State) (code : Byte) (src : Option Port) (ahi : BitVec 4) (cell : Bool) (info : Word) : State :=
  setIrq
    { s with err := { code := code, ahi := ahi, cell := cell, src := srcCode src,
                      ovr := s.err.ovr || decide (s.err.code ≠ 0), info := info } } irqERR

/-- A record whose ERRINFO is a plain value (Table REG-8, CELL 0). -/
def recordInfo (s : State) (code : Byte) (src : Option Port) (info : Nat) : State :=
  record s code src 0 false (wordOf info)

/-- A record whose ERRINFO and AHI hold a Cellar address (CELL 1). -/
def recordCell (s : State) (code : Byte) (src : Option Port) (a : Nat) : State :=
  record s code src (BitVec.ofNat 4 (a / 0x10000)) true (wordOf a)

/-- R175: a write of 1 to OVR clears the whole record. -/
def clearErr (s : State) : State := { s with err := ErrRec.none }

/-- R173: a write of ones to IRQSTAT clears the bits written, but KEY only while the key FIFO is empty. -/
def clearIrq (s : State) (v : Word) : State :=
  let keep : Word := if s.keys.fifo.isEmpty then 0 else wordOf (2 ^ irqKEY)
  { s with irqStat := s.irqStat &&& ((~~~ v) ||| keep) }

/-- R14: an enabled IRQSTAT bit of a port is set. -/
def irqLow (s : State) (pt : PortSt) : Bool := decide (s.irqStat &&& pt.irqEn ≠ 0)

end Sys2Proof.Machine
end

