-- ==== Sys2Proof/Machine/Operands.lean ====
section
/-! DEFINITION. The operand forms of the host rows: ports and banks of the state, roles (R142, R143, R151), page fields,
and the gate every register write passes (R69, R71, R91, R104, R105, R165, R535, R577). -/

namespace Sys2Proof.Machine

open Sys2Proof

/-! ### Ports and banks -/

def getPort (s : State) : Port → PortSt
  | .portP => s.portP
  | .portS => s.portS

def setPort (s : State) (p : Port) (x : PortSt) : State :=
  match p with
  | .portP => { s with portP := x }
  | .portS => { s with portS := x }

def getBank (s : State) : Bank → BankSt
  | .bankA => s.bankA
  | .bankB => s.bankB

def setBank (s : State) (b : Bank) (x : BankSt) : State :=
  match b with
  | .bankA => { s with bankA := x }
  | .bankB => { s with bankB := x }

/-- Change the drive part of a bank. -/
def setDrv (s : State) (b : Bank) (d : Drive) : State := setBank s b { getBank s b with drv := d }
/-- Change the ledger part of a bank. -/
def setLed (s : State) (b : Bank) (l : Ledger) : State := setBank s b { getBank s b with led := l }
/-- Change the trim part of a bank. -/
def setTrim (s : State) (b : Bank) (t : Trim) : State := setBank s b { getBank s b with trim := t }
/-- Change the thread of a bank. -/
def setThr (s : State) (b : Bank) (t : Thread) : State := setBank s b { getBank s b with thr := t }
/-- Change the crack loop of a bank. -/
def setCrack (s : State) (b : Bank) (c : Crack) : State := setBank s b { getBank s b with crack := c }

/-- A layer of a bank; the Base layer stands for a number above 4. -/
def getLayer (x : BankSt) (l : Nat) : LayerSt := if h : l < 5 then x.layers[l] else x.layers[0]

/-- Change one layer of a bank. -/
def setLayer (x : BankSt) (l : Nat) (y : LayerSt) : BankSt :=
  if h : l < 5 then { x with layers := x.layers.set l y } else x

/-- An element of a fixed-length vector by number, the first for a number out of range. -/
def vget {α : Type} {n : Nat} (v : Vector α (n + 1)) (i : Nat) : α := if h : i < n + 1 then v[i] else v[0]

/-- Change an element of a fixed-length vector by number; nothing for a number out of range. -/
def vset {α : Type} {n : Nat} (v : Vector α n) (i : Nat) (x : α) : Vector α n := if h : i < n then v.set i x else v

/-! ### Page fields -/

/-- The stored bits of a page word (R214): the working copy. -/
def pg (s : State) (a : Nat) : Word := Cellar.getWord s.mem a

/-- A field of a page word. -/
def pgf (s : State) (a lo n : Nat) : Nat := fld (pg s a) lo n

/-- Bit i of a page word. -/
def pgb (s : State) (a i : Nat) : Bool := bit (pg s a) i

/-- One millisecond in CK_FRAME cycles (Table CLK-2). -/
abbrev msCycles : Nat := 1536

/-! ### Roles -/

/-- PORTCTL.SOLO (R143): the parallel port is strapped off. DEDUCED (log 31). -/
def solo (s : State) : Bool := decide (s.pw.gen = .portOff)

/-- The port that holds the Supervisor role. -/
def supPort (s : State) : Port := if solo s then .portS else if s.roles.ppri then .portS else .portP

/-- Whether a port holds the Supervisor role; with SOLO Port S holds both (R143). DEDUCED (log 31). -/
def isSup (s : State) (p : Port) : Bool := decide (p = supPort s)

/-- Whether a port holds the Primary role; with SOLO Port S holds both (R143). DEDUCED (log 31). -/
def isPri (s : State) (p : Port) : Bool :=
  if solo s then decide (p = .portS) else decide (p ≠ supPort s)

/-! ### Banks by state -/

/-- A bank is driven in states 3, 4 and 5. -/
def driven (d : Drive) : Bool := d.sta == .allOff || d.sta == .content || d.sta == .settling

/-- VLEN is high in states 1 to 6 (R249). -/
def vlen (d : Drive) : Bool := !(d.sta == .off || d.sta == .release)

/-- The ladder and buffers are on from entry to state 2 to entry to state 7 or 0 (R251). -/
def ladderOn (d : Drive) : Bool :=
  d.sta == .biasSettle || d.sta == .allOff || d.sta == .content || d.sta == .settling || d.sta == .grounding

/-- DSTAT code of a sequence state (Table REG-11). -/
def Sta.code : Sta → Nat
  | .off => 0 | .waitVlcd => 1 | .biasSettle => 2 | .allOff => 3
  | .content => 4 | .settling => 5 | .grounding => 6 | .release => 7

/-- SYSSTAT.MODE code (Table PWR-8); OFF and Cork mode answer no read. -/
def Mode.code : Mode → Nat
  | .boot => 0 | .standby => 1 | .run => 2 | .sleep => 3 | .corkEntry => 4 | .off => 0 | .cork => 0

/-- The line slots run, in STANDBY and RUN only (R315). -/
def slotsRun (s : State) : Bool := s.pw.mode == .standby || s.pw.mode == .run

/-! ### The gate of a register write -/

/-- Byte offset of a word address (R94). -/
def offOf (a : Fin 64) : Nat := 2 * a.val

/-- Refuse a register write with a code: one record with the byte offset, SRC the writing port (R169, R176). -/
def refuse (s : State) (p : Port) (code : Byte) (off : Nat) : State := recordInfo s code (some p) off

/-- Refuse a window write: the record holds the Cellar address (Table REG-8). -/
def refuseCell (s : State) (p : Port) (code : Byte) (a : Nat) : State := recordCell s code (some p) a

/-- A wake from SLEEP is accepted: the transition of R79 begins. -/
def startWake (s : State) : State :=
  if s.pw.mode = .sleep ∧ s.pw.trans = .idle then { s with pw := { s.pw with trans := .wake } } else s

/-- Whether a write that the boot face sees is the host wake of R71: in SLEEP with HOSTWAKE 1, SYSCTL with MREQ 1 and
RSTKEY 0; in Gen1 its low byte comes from the write latch (R107). -/
def isHostWake (s : State) (p : Port) (a : Fin 64) (v : Word) : Bool :=
  let g1 := p == .portP && s.pw.gen == .gen1
  let low : Option Nat := if g1 then (match s.portP.g1wr with
    | some (a', lo) => if a' = a then some (lo.toNat % 8) else none
    | none => none) else some (fld v 0 3)
  s.pw.mode == .sleep && pgb s 0xE406 1 && decide (offOf a = 0x06) && decide (low = some 1)
    && decide (fld v 8 8 = 0)

/-- The write latch holds a low byte of a register on Port P in Gen1 (R104, R105). -/
def latchHolds (s : State) (a : Fin 64) : Bool :=
  match s.portP.g1wr with
  | some (a', _) => a' == a
  | none => false

/-- Port P in Gen1 latches the byte address of every strobe at ALE (R101), those of the register rows included.
DEDUCED (log 56). -/
def gen1Ale (s : State) (p : Port) (ad : Byte) : State :=
  if p = .portP ∧ s.pw.gen = .gen1 then { s with portP := { s.portP with ale := ad } } else s

/-- The byte addresses of a register's low and high byte (R94, R101). -/
def loAddr (a : Fin 64) : Byte := BitVec.ofNat 8 (2 * a.val)
def hiAddr (a : Fin 64) : Byte := BitVec.ofNat 8 (2 * a.val + 1)

/-- The write latch after a high-byte strobe of a register: a pair that it completes empties it, whatever becomes of the
word (R105, R107); a byte of another register stays. DEDUCED (log 56). -/
def gen1Spent (s : State) (p : Port) (a : Fin 64) : State :=
  let s := gen1Ale s p (hiAddr a)
  if p = .portP ∧ s.pw.gen = .gen1 ∧ latchHolds s a then { s with portP := { s.portP with g1wr := none } } else s

/-- R71: the boot face discards a write and counts it; a host wake is neither discarded nor counted. -/
def bootFace (s : State) (p : Port) (a : Fin 64) (v : Word) : State :=
  if isHostWake s p a v then startWake (gen1Spent s p a)
  else
    let s := gen1Spent s p a
    setPort s p { getPort s p with disc := (getPort s p).disc + 1 }

/-- Whether an access of the port reaches the device: VIO present (R535), supply present, for Port P the parallel port
not strapped off (R91), and no earlier access still held by WAIT# (R119). -/
def portLive (s : State) (p : Port) : Bool :=
  s.pw.vio && !(p == .portP && s.pw.gen == .portOff) && !(s.pw.face == .dead) && (getPort s p).held == .none

/-- R104, R105: in Gen1 a Port P write row is the high-byte strobe; the word takes its low byte from the matching
write latch. `none` where no low byte is held for the offset. DEDUCED (log 56). -/
def gen1Word (s : State) (p : Port) (a : Fin 64) (v : Word) : Option Word :=
  if p = .portP ∧ s.pw.gen = .gen1 then
    match s.portP.g1wr with
    | some (a', lo) => if a' = a then some (wordOfBytes lo (hiByte v)) else none
    | none => none
  else some v

/-- The latches after a register's word has been formed (R101, R105). DEDUCED (log 56). -/
def gen1Empty (s : State) (p : Port) (a : Fin 64) : State :=
  if p = .portP ∧ s.pw.gen = .gen1 then { s with portP := { s.portP with g1wr := none, ale := hiAddr a } } else s

/-- The gate of every register write row (R69 to R72, R91, R105, R165, R535, R577): a port that is not live changes
nothing, the boot face discards and counts, a reserved offset is discarded, CORK-ENTRY and an unmatched Gen1 high byte
are refused with STATE, and any other write goes on to the register's own rule. A refusal in CORK-ENTRY leaves a Gen3
page valid (R122). DEDUCED (log 50). DESIGN CHOICE (log 37). -/
def gate (s : State) (p : Port) (a : Fin 64) (v : Word) (body : State → Word → State) : State :=
  if !portLive s p then s
  else if s.pw.face = .bootFace then bootFace s p a v
  else if 0x68 ≤ offOf a then gen1Spent s p a
  else match gen1Word s p a v with
    | none => refuse (gen1Ale s p (hiAddr a)) p eSTATE (offOf a)
    | some w =>
      let s := gen1Empty s p a
      if s.pw.mode = .corkEntry ∧ offOf a ≠ 0x16 then refuse s p eSTATE (offOf a) else body s w

/-- The word with which a register write reaches its register's own rule, where it does. DEDUCED (log 34). -/
def reaches (s : State) (p : Port) (a : Fin 64) (v : Word) : Option Word :=
  if !portLive s p || s.pw.face == .bootFace || s.pw.mode == .corkEntry then none else gen1Word s p a v

/-! ### Reads -/

/-- SYSSTAT as it reads (Table PWR-8). -/
def sysstat (s : State) : Word :=
  wordOf (s.pw.mode.code + flag s.pw.reduced 3 + flag s.pw.collapse 4 + flag (s.pw.trans != .idle) 5
    + 0x100 * (s.pw.bstep % 16) + 0x1000 * (s.pw.rcause % 8))

/-- The data of a finished register read; in Gen1 on Port P the strobe is that of the low byte, which it returns alone,
and the high byte goes into the read latch (R102); the strobe's address is latched at ALE (R101). -/
def readDone (s : State) (p : Port) (a : Fin 64) (v : Word) : State :=
  if p = .portP ∧ s.pw.gen = .gen1 then
    { s with portP := { s.portP with rdata := (loByte v).zeroExtend 16, g1rd := some (a, hiByte v)
                                     ale := loAddr a } }
  else setPort s p { getPort s p with rdata := v }

/-- What the boot face answers to a read (R69). -/
def bootRead (s : State) (a : Fin 64) : Word := if offOf a = 0 then 0x4096 else if offOf a = 4 then sysstat s else 0

/-- The boot face takes the place of the register file while WAIT# holds an access (R69, R71): the face never asserts
WAIT#, so it answers a read of WDATA with 0x0000, and discards and counts a write. DEDUCED (log 37). -/
def faceTakesHeld (s : State) : State :=
  let x := s.portP
  match x.held with
  | .none => s
  | .read => { s with portP := { x with held := .none, rdata := 0 } }
  | _ => { s with portP := { x with held := .none, disc := x.disc + 1 } }

/-- The gate of every register read row: a port that is not live answers nothing, the boot face answers CHIPID and
SYSSTAT and 0x0000 elsewhere (R69), and the register file answers by `body`, which gives the value and the state its
side effect leaves. -/
def readGate (s : State) (p : Port) (a : Fin 64) (body : State → Word × State) : State :=
  if !portLive s p then s
  else if s.pw.face = .bootFace then
    readDone s p a (bootRead s a)
  else
    let r := body s
    readDone r.2 p a r.1

/-- R423: BSOCA or BSOCB as it reads: floor(reported / 100), or 0xFFFF without a valid estimate. -/
def bsoc (e : Est) : Word := if e.valid then wordOf (e.rep / 100) else 0xFFFF

/-! ### The answer to a Port S frame (R137, R138) -/

/-- The SRC code 0b11 stands in the error record while a Port S write is performed, so that a refusal of it shows.
DEDUCED (log 37). -/
def probeSrc : BitVec 2 := 3

/-- The response to a performed access (Table SUP-4). -/
def answerOf (addr : BitVec 6) (data : Word) (refused : Option Byte) : SpiResp :=
  match refused with
  | some e => .answer 2 addr (e.zeroExtend 16)
  | none => .answer 0 addr data

/-- A Port S write `act` of word v to register a, with the response that the next frame carries (R137, R138): REFUSED
with the code of the refusal, else DONE; after the boot face a status frame. DEDUCED (log 37). -/
def answered (s : State) (a : Fin 64) (v : Word) (act : State → State) : State :=
  if !portLive s .portS then act s
  else
    let boot := s.pw.face == .bootFace
    let t := act { s with err := { s.err with src := probeSrc } }
    let code := if t.err.src = srcCode (some .portS) ∧ t.err.code ≠ 0 then some t.err.code else none
    { t with err := if t.err.src = probeSrc then { t.err with src := s.err.src } else t.err
             spi := if boot then .status else answerOf (BitVec.ofNat 6 a.val) v code }

/-! ### Clock domains -/

/-- The PLL-derived domains run (Table CLK-2): STANDBY, RUN and CORK-ENTRY; in BOOT from the divider release of R36. -/
def domains (s : State) : Bool :=
  s.pw.mode == .standby || s.pw.mode == .run || s.pw.mode == .corkEntry || (s.pw.mode == .boot && s.clk.released)

/-- The register file answers and the units run: STANDBY, RUN and CORK-ENTRY. -/
def active (s : State) : Bool := s.pw.mode == .standby || s.pw.mode == .run || s.pw.mode == .corkEntry

/-- The always-on island has supply: every mode but OFF and Cork mode (Table CLK-2). -/
def islandOn (s : State) : Bool := !(s.pw.mode == .off || s.pw.mode == .cork)

/-- CK_AON runs: the root is confirmed, or holdover feeds the island (R42, R47, R76). -/
def ckAon (s : State) : Bool := islandOn s && (s.clk.rootOk || s.clk.hold)

/-! ### Locked page fields -/

/-- R8: whether an LW write that changes a field is refused. -/
def lwLocked (s : State) : Bool := !s.pw.expert || s.auth.cfgLock

end Sys2Proof.Machine
end

