-- ==== Sys2Proof/Machine/Ops.lean ====
section
/-! DEFINITION. The named operations over the Cellar: arbiter grants and shares (R223 to R227), ECC detection and its
bookkeeping (R218 to R221), window and device reads and writes. -/

namespace Sys2Proof.Machine

open Sys2Proof

/-! ### ECC words -/

/-- The address of the 8-byte ECC word that holds a byte (R218). -/
def eccWord (a : Nat) : Nat := a % cellarSize / 8 * 8

/-- The error an ECC word holds, if any. -/
def eccAt (s : State) (w : Nat) : Option EccErr := (s.arb.ecc.find? (fun e => e.1 == w)).map (·.2)

/-- Put an error into an ECC word. -/
def eccPut (s : State) (w : Nat) (e : EccErr) : State :=
  { s with arb := { s.arb with ecc := (w, e) :: s.arb.ecc.filter (fun x => x.1 != w) } }

/-- An ECC word has been written with fresh check bits: it holds no error, and a later detection there makes a new
record (R220). -/
def eccWritten (s : State) (w : Nat) : State :=
  { s with arb := { s.arb with ecc := s.arb.ecc.filter (fun x => x.1 != w)
                               ueOpen := s.arb.ueOpen && decide (s.arb.lastUe.toNat ≠ w) } }

/-- A memory upset arises (R218). A single-bit error leaves the data as they will be corrected; an uncorrectable error
leaves the 64 bits it names in the SRAM. In the Parameter cask `mem` holds the working copies, which it does not touch
(R214, Table CEL-3). DEDUCED (log 51). DEDUCED (log 20). -/
def upset (s : State) : Upset → State
  | .single w => if eccAt s (eccWord w) = some .double then s else eccPut s (eccWord w) .single
  | .double w d =>
    let s := eccPut s (eccWord w) .double
    { s with mem := if isPage (eccWord w) then s.mem else Cellar.setNat s.mem (eccWord w) 8 d.toNat }

/-- The upsets that stand when a command reads the Cellar. -/
def upsets (s : State) (l : List Upset) : State := l.foldl upset s

/-- R219: a single-bit error found by a read of ECC word w. DEDUCED (log 51). -/
def detectCe (s : State) (w : Nat) : State :=
  let c := BitVec.ofNat 20 w
  let queued := s.arb.wbQ.contains c
  let full := decide (4 ≤ s.arb.wbQ.length)
  { s with arb := { s.arb with
      ceCnt := sat1 s.arb.ceCnt, lastCe := c, cev := true
      wbQ := if queued || full then s.arb.wbQ else s.arb.wbQ ++ [c]
      wbDrop := if !queued && full then sat1 s.arb.wbDrop else s.arb.wbDrop } }

/-- R220: an uncorrectable error found by a read of ECC word w. After CNTCLR has cleared UEV (R232) a
later detection in the same, still unwritten word makes a new record. DESIGN CHOICE (log 51). -/
def detectUe (s : State) (w : Nat) : State :=
  let c := BitVec.ofNat 20 w
  let again := s.arb.uev && s.arb.ueOpen && decide (s.arb.lastUe = c)
  let s := { s with arb := { s.arb with ueCnt := sat1 s.arb.ueCnt } }
  if again then s
  else
    let s := { s with arb := { s.arb with lastUe := c, uev := true, ueOpen := true } }
    recordCell s eECC none w

/-- Whether a window read of an address reads no SRAM (R211): the reserved ranges. -/
def noSram (a : Nat) : Bool := decide (0x35000 ≤ a ∧ a < 0x40000) || decide (0xF000 ≤ a ∧ a < 0x10000)

/-- A read of ECC word w by any requester but the write-back: the bookkeeping of R219 and R220. DEDUCED (log 51). -/
def eccRead (s : State) (w : Nat) : State :=
  match eccAt s w with
  | none => s
  | some .single => detectCe s w
  | some .double => detectUe s w

/-- Whether a read of ECC word w meets an uncorrectable error. -/
def eccBad (s : State) (w : Nat) : Bool := decide (eccAt s w = some .double)

/-- Reads of n consecutive ECC words from w. -/
def eccReadN (s : State) (w : Nat) : Nat → State
  | 0 => s
  | n + 1 => eccReadN (eccRead s w) (w + 8) n

/-- Whether any of n consecutive ECC words from w holds an uncorrectable error. -/
def eccBadN (s : State) (w : Nat) : Nat → Bool
  | 0 => false
  | n + 1 => eccBad s w || eccBadN s (w + 8) n

/-! ### Stores -/

/-- A store of one word, as a window write makes it (R221): the rest of the ECC word is kept as read, which is a
detection, and the check bits are fresh. -/
def storeWord (s : State) (a : Nat) (v : Word) : State :=
  let w := eccWord a
  let s := eccWritten (eccRead s w) w
  { s with mem := Cellar.setWord s.mem a v }

/-- A device write of n whole ECC words from w, whose bytes are those of a number, lowest byte first. -/
def storeEcc (s : State) (w n v : Nat) : State :=
  match n with
  | 0 => s
  | n + 1 =>
    let s := eccWritten s w
    storeEcc { s with mem := Cellar.setNat s.mem w 8 v } (w + 8) n (v / 2 ^ 64)

/-- A device write of a line of 16 bytes, two whole ECC words (R314). -/
def storeLine (s : State) (a : Nat) (v : BitVec 128) : State := storeEcc s a 2 v.toNat

/-- Read a word of the Cellar as the SRAM holds it. -/
def readWord (s : State) (a : Nat) : Word := Cellar.getWord s.mem a

/-- Read a line of 16 bytes. -/
def readLine (s : State) (a : Nat) : BitVec 128 := Cellar.getLine s.mem a

/-! ### The accumulators (Table BAL-1) -/

/-- ACC of an accumulator word. -/
def accOf (w : BitVec 32) : Int := (w.truncate 24).toInt

/-- Read an accumulator word. -/
def readAcc (s : State) (b : Bank) (c x : Nat) : BitVec 32 :=
  BitVec.ofNat 32 (Cellar.getNat s.mem (accAddr b c x) 4)

/-! ### The model block of a channel (Table BAT-3) -/

def modelBase : BatCh → Nat
  | .chA => 0x40000
  | .chB => 0x48000

/-- A word of a block, by offset. -/
def modelWord (s : State) (c : BatCh) (k : Nat) : Word := readWord s (modelBase c + k)

def modelNsoc (s : State) (c : BatCh) : Nat := fld (modelWord s c 4) 0 8
def modelNtemp (s : State) (c : BatCh) : Nat := fld (modelWord s c 4) 8 8
def modelLen (s : State) (c : BatCh) : Nat := (modelWord s c 2).toNat

/-- Tables of a block: two on channel A, four on channel B. -/
def modelTables : BatCh → Nat
  | .chA => 2
  | .chB => 4

/-- TYPE of a channel's block. -/
def modelType : BatCh → Word
  | .chA => 0xA501
  | .chB => 0xB501

/-- The sizes of a block's header (R412). -/
def modelSizesOk (s : State) (c : BatCh) : Bool :=
  let ns := modelNsoc s c
  let nt := modelNtemp s c
  decide (2 ≤ ns ∧ ns ≤ 64 ∧ 1 ≤ nt ∧ nt ≤ 8 ∧ modelLen s c = 32 + 2 * nt + 2 * ns + 2 * modelTables c * nt * ns)

/-! ### Arbiter -/

/-- A grant at L1 to a port: it owes a yield from then on (R225). DESIGN CHOICE (log 49). -/
def grantL1 (s : State) (p : Port) : State :=
  match p with
  | .portP => { s with arb := { s.arb with yieldP := true } }
  | .portS => { s with arb := { s.arb with yieldS := true } }

/-- n grants at one of L2 to L6: the remaining share falls by n, down to 0, and no port owes a yield (R225, R227).
DESIGN CHOICE (log 49). -/
def grantLow (s : State) (lvl n : Nat) : State :=
  { s with arb := { s.arb with rem := vset s.arb.rem (lvl - 2) (vget s.arb.rem (lvl - 2) - n)
                               yieldP := false, yieldS := false } }

/-- A burst of work of many bursts is granted ahead of the row that stands for the end of that work, which then takes no
share for it. DESIGN CHOICE (log 49). -/
def grantAhead (s : State) (lvl : Nat) : State :=
  let t := grantLow s lvl 1
  { t with arb := { t.arb with paid := vset t.arb.paid (lvl - 2) (vget t.arb.paid (lvl - 2) + 1) } }

/-- The n bursts of work that ends: those granted ahead have taken their shares already, and where that is all of them
nothing is granted. DESIGN CHOICE (log 49). -/
def grantRest (s : State) (lvl n : Nat) : State :=
  let k := vget s.arb.paid (lvl - 2)
  let t := if k < n then grantLow s lvl (n - k) else s
  { t with arb := { t.arb with paid := vset t.arb.paid (lvl - 2) (k - n) } }

/-- A port is held back at L1 (R225): it owes a yield while a request of a level with share remaining is pending.
DESIGN CHOICE (log 49). -/
def heldBack (s : State) (p : Port) (shareHolderPending : Bool) : Bool :=
  (match p with | .portP => s.arb.yieldP | .portS => s.arb.yieldS) && shareHolderPending

/-- What the arbiter grants (R224): the L0 burst, an access of a port, or a burst of a level from 2 to 6. -/
inductive Grant where
  | frame
  | window (p : Port)
  | low (lvl : Nat)
  deriving DecidableEq, Repr

/-- The highest level from L2 to L6 among those for which a condition holds; `k` counts the level 2 as 0. -/
def firstLow (f : Nat → Bool) : Option Nat := ((List.range 5).find? f).map (· + 2)

/-- A request of a level with share remaining is pending at L2 to L6 (R225). -/
def sharePending (s : State) (low : Vector Bool 5) : Option Nat :=
  firstLow (fun k => vget low k && decide (0 < vget s.arb.rem k))

/-- R224, R225: the request that is granted at an edge at which the Cellar is free. DESIGN CHOICE (log 49). -/
def arbGrant (s : State) (l0 reqS reqP : Bool) (low : Vector Bool 5) : Option Grant :=
  let share := sharePending s low
  if l0 then some .frame
  else if reqS && !heldBack s .portS share.isSome then some (.window .portS)
  else if reqP && !heldBack s .portP share.isSome then some (.window .portP)
  else match share with
    | some l => some (.low l)
    | none => (firstLow (fun k => vget low k)).map .low

/-- A port has an L1 request (R111, R115): the window write at the front of its buffer, or a load that waits behind no
entry. -/
def windowReq (s : State) (p : Port) : Bool :=
  (match (getPort s p).buf with | .wdata _ _ :: _ => true | _ => false)
    || (match (getPort s p).load with | some l => l.behind == 0 | none => false)

/-- Bursts of n lines of accumulators (R283): four accumulators each. -/
def lineBursts (n : Nat) : Nat := 32 * n

/-- A command is being verified or executed: ASTAT.STATE reads 2 (R487). -/
def authBusy (s : State) : Bool := s.auth.accepted.isSome || s.auth.verify.isSome

/-- The ATAG word at the front of a port's buffer begins a message: the command engine reads the Mailbox at L3 (R13,
R482). -/
def messageReq (s : State) (p : Port) : Bool :=
  match (getPort s p).buf with
  | .atag _ :: _ => s.auth.tag.isEmpty && !authBusy s
  | _ => false

/-- Work of many bursts for which one row stands: a booking pass (R283), a validation of a model block (R412), and an
update of channel A that reads its block (R413). DESIGN CHOICE (log 49). -/
inductive LongWork where
  | pass (b : Bank)
  | validation (c : BatCh)
  | update
  deriving DecidableEq, Repr

/-- The ECC words of a model block that a validation reads: the four of its header, and where that holds all of the
block (R412). DESIGN CHOICE (log 49). -/
def blockWords (s : State) (c : BatCh) : Nat :=
  if !eccBadN s (modelBase c) 4 && modelWord s c 0 == modelType c && modelSizesOk s c then (modelLen s c + 7) / 8 else 4

/-- The work of many bursts that asks at a level, one at a time: at L2 bank A's booking passes before bank B's, at L4 channel
A's validation, its update, then channel B's validation. DESIGN CHOICE (log 49). -/
def longWork (s : State) : Nat → Option LongWork
  | 2 =>
    if !s.bankA.led.passes.isEmpty then some (.pass .bankA)
    else if !s.bankB.led.passes.isEmpty then some (.pass .bankB) else none
  | 4 =>
    if s.batA.mbusy then some (.validation .chA)
    else if s.batA.due.isSome && s.batA.mstat == 1 && slotsRun s then some .update
    else if s.batB.mbusy then some (.validation .chB) else none
  | _ => none

/-- The bursts of such work: 512 of a booking pass (R283), one an ECC word of a model read. DESIGN CHOICE (log 49). -/
def workBursts (s : State) : LongWork → Nat
  | .pass _ => lineBursts 16
  | .validation c => blockWords s c
  | .update => (modelLen s .chA + 7) / 8

/-- The bursts that the work of many bursts in progress needs at a level. DESIGN CHOICE (log 49). -/
def longCost (s : State) (lvl : Nat) : Nat :=
  match longWork s lvl with
  | some w => workBursts s w
  | none => 0

/-- n bursts at a level of work of many bursts, which may have been granted in part ahead of its row if it is the work
that asks there. DESIGN CHOICE (log 49). -/
def grantWork (s : State) (lvl n : Nat) (first : Bool) : State := if first then grantRest s lvl n else grantLow s lvl n

/-- The thread of a bank runs and may execute: the animation engine has a burst to ask for at L5 (R13, R327). Between a
write of EN and the boundary at which it acts the thread goes on. DESIGN CHOICE (log 40). -/
def threadReq (s : State) (b : Bank) : Bool :=
  let t := (getBank s b).thr
  slotsRun s && decide (t.stat = 1 ∧ t.execd < 64)

/-- A scrub burst is due at L6 (R222). -/
def scrubReq (s : State) : Bool := domains s && pgb s 0xE802 4 && decide (s.arb.scrubLeft = 0)

/-- Work of many bursts asks for one that no row stands for: any but its last, which its row takes.
DESIGN CHOICE (log 49). -/
def longReq (s : State) (lvl : Nat) : Bool := decide (vget s.arb.paid (lvl - 2) + 1 < longCost s lvl)

/-- A burst that a row stands for asks at a level: the last one of work of many bursts (L2, L4), the Mailbox read of a
message (L3), a Harvest record (L4), a Key-log entry or an instruction of a thread (L5), a write-back or a due scrub burst
(L6); and at L3 the wipe of the Mailbox that a refused provisioning request leaves. DESIGN CHOICE (log 49). -/
def rowReq (s : State) (lvl : Nat) : Bool :=
  (decide (0 < longCost s lvl) && !longReq s lvl) ||
    match lvl with
    | 3 => messageReq s .portS || messageReq s .portP || s.auth.wipe
    | 4 => !s.batA.hQ.isEmpty
    | 5 => !s.keys.logQ.isEmpty || threadReq s .bankA || threadReq s .bankB
    | 6 => !s.arb.wbQ.isEmpty || scrubReq s
    | _ => false

/-- The requests of L2 to L6 that stand in the state. A row's own request is added with `own`.
DESIGN CHOICE (log 49). -/
def lowReqs (s : State) (own : Option Nat) : Vector Bool 5 :=
  Vector.ofFn fun k : Fin 5 => longReq s (k.val + 2) || rowReq s (k.val + 2) || own == some (k.val + 2)

/-- What the arbiter grants in a state, with the request of the row at hand among the others. DESIGN CHOICE (log 49). -/
def arbNow (s : State) (own : Grant) : Option Grant :=
  match own with
  | .frame => some .frame
  | .window p => arbGrant s false (windowReq s .portS || p == .portS) (windowReq s .portP || p == .portP) (lowReqs s none)
  | .low l => arbGrant s false (windowReq s .portS) (windowReq s .portP) (lowReqs s (some l))

/-- The bursts of work of many bursts that the arbiter grants before a request, for no row of the table stands for one of
them. DESIGN CHOICE (log 49). -/
def burstsFirst (own : Grant) : Nat → State → State
  | 0, s => s
  | n + 1, s =>
    match arbNow s own with
    | some (.low l) => if own ≠ .low l ∧ longReq s l ∧ !rowReq s l then burstsFirst own n (grantAhead s l) else s
    | _ => s

/-- R224 to R227: the state in which the request of a row is granted, `none` where another request goes first. The
shares sum to at most 25 (R228), so 32 bursts are all that can come before. DESIGN CHOICE (log 49). -/
def arbServe (s : State) (own : Grant) : Option State :=
  let t := burstsFirst own 32 s
  if arbNow t own = some own then some t else none

/-- An access of the Cellar that the arbiter must grant first: nothing happens where another request goes first.
DESIGN CHOICE (log 49). -/
def granted (s : State) (own : Grant) (act : State → State) : State :=
  match arbServe s own with
  | some t => act t
  | none => s

/-- The SHARE field of L(k + 2) on the arbitration page (Table CEL-7). -/
def shareField (s : State) (k : Nat) : Nat := if k < 4 then pgf s 0xE800 (4 * k) 4 else pgf s 0xE802 0 4

end Sys2Proof.Machine
end

