-- ==== Sys2Proof/Machine/Lamps.lean ====
section
/-! DEFINITION. Lamp channels: requests, states, inrush, PWM, diagnostics, the cluster budget, ganged pairs, the flasher
and the LCTL, LSEL, LPARAM and LFAULT registers ("Lamp channels", R188 to R192, R203). -/

namespace Sys2Proof.Machine

open Sys2Proof

/-! ### Channels -/

def getLamp (s : State) (n : Fin 8) : Lamp := s.lamps.ch[n]

def setLamp (s : State) (n : Fin 8) (c : Lamp) : State := { s with lamps := { s.lamps with ch := s.lamps.ch.set n c } }

/-- The cluster of a channel (R362). -/
def clusterOf (n : Fin 8) : Fin 2 := if n.val < 4 then 0 else 1

def getCluster (s : State) (c : Fin 2) : Cluster := s.lamps.cl[c]

def setCluster (s : State) (c : Fin 2) (x : Cluster) : State :=
  { s with lamps := { s.lamps with cl := s.lamps.cl.set c x } }

/-- The even channel of a pair. -/
def evenOf (n : Fin 8) : Fin 8 := ⟨n.val - n.val % 2, by omega⟩

/-- The other channel of a pair. -/
def pairOf (n : Fin 8) : Fin 8 := ⟨if n.val % 2 = 0 then n.val + 1 else n.val - 1, by split <;> omega⟩

/-- Whether a channel is half of a gang (R191). -/
def ganged (s : State) (n : Fin 8) : Bool := (getLamp s (evenOf n)).gang

/-- The channel whose request and parameters govern a channel: the even one of a gang (R188, R381). -/
def leader (s : State) (n : Fin 8) : Fin 8 := if ganged s n then evenOf n else n

/-- The channels that switch with a channel: both halves of its gang, or the channel alone. DEDUCED (log 23). -/
def mates (s : State) (n : Fin 8) : List (Fin 8) := if ganged s n then [evenOf n, pairOf (evenOf n)] else [n]

/-- Change a channel together with the other half of its gang. DEDUCED (log 23). -/
def eachMate (s : State) (n : Fin 8) (f : Lamp → Lamp) : State :=
  (mates s n).foldl (fun s m => setLamp s m (f (getLamp s m))) s

/-- Whether the tell-tale lamp policy claims a channel (R385): its own bit of TT_CLAIM, also in a gang. -/
def claimed (s : State) (n : Fin 8) : Bool := s.lamps.ttClaim.getLsbD n.val

/-- The page block of a channel (Table LMP-7). -/
def lampPage (n : Fin 8) : Nat := 0xD000 + 0x10 * n.val

/-- The page block of a cluster (Table LMP-7). -/
def clusterPage (c : Fin 2) : Nat := 0xD100 + 0x10 * c.val

/-- LCTL as it reads: a ganged odd channel's bits equal the even channel's (R188). -/
def gangOdd (s : State) : Nat :=
  (List.finRange 4).foldl (fun m k =>
    if (s.lamps.ch[2 * k.val]).gang then m + 2 ^ (2 * k.val + 1) + 2 ^ (2 * k.val + 9) else m) 0

/-- R188: LCTL as it reads; the bits of the odd half of a gang read as its partner's. DEDUCED (log 43). -/
def lctlRead (s : State) : Word :=
  let m := wordOf (gangOdd s)
  (s.lamps.lctl &&& ~~~ m) ||| ((s.lamps.lctl <<< 1) &&& m)

/-! ### Requests (Table LMP-1) -/

/-- TT_MODE and TT_FB of a channel. -/
def ttModeOf (s : State) (n : Fin 8) : Nat := fld s.lamps.ttMode (2 * n.val) 2
def ttFbOf (s : State) (n : Fin 8) : Nat := fld s.lamps.ttFb (2 * n.val) 2

/-- What a channel's request comes from. -/
inductive ReqSrc where
  | lctl | flasher | one | zero | lctlFlasher
  deriving DecidableEq, Repr

/-- The request source of an unclaimed channel. -/
def plainSrc (s : State) (n : Fin 8) : ReqSrc := if (getLamp s n).flash then .lctlFlasher else .lctl

/-- The request source of a claimed channel outside fallback. -/
def policySrc (s : State) (n : Fin 8) : ReqSrc :=
  match ttModeOf s n with
  | 1 => .one
  | 2 => .flasher
  | _ => plainSrc s n

/-- The request source of a channel that leads itself or its gang (Table LMP-1). -/
def reqSrc (s : State) (n : Fin 8) : ReqSrc :=
  if claimed s n then
    if s.roles.fallbk then
      match ttFbOf s n with
      | 0 => policySrc s n
      | 1 => .one
      | 2 => .zero
      | _ => .flasher
    else policySrc s n
  else plainSrc s n

/-- The lamps are held off beyond R364 while the machine is leaving RUN: the RUN-to-STANDBY transition, a software reset
that powers down (Table PWR-3), RESET#, and the expiry reaction of R45. DEDUCED (log 43). -/
def lampsHeld (s : State) : Bool :=
  s.pw.trans == .toStandby || s.pw.rst != .noReset || s.clk.expiring

/-- R364: the conditions outside the request source. -/
def lampsAllowed (s : State) : Bool := s.pw.mode == .run && !s.pw.reduced && !lampsHeld s

/-- R383: whether a channel asks for the flasher to run: one with LPARAM.FLASH 1 by its LCTL.ON bit or by a policy request
of 1, whatever its source, and a claimed one whose source is the flasher. -/
def wantsFlasher (s : State) (n : Fin 8) : Bool :=
  decide (leader s n = n) &&
    ((getLamp s n).flash && (bit s.lamps.lctl n.val || reqSrc s n == .one) || reqSrc s n == .flasher)

/-- A flasher channel (R383, R384): LPARAM.FLASH 1, or claimed with the flasher as its source. -/
def onFlasher (s : State) (n : Fin 8) : Bool :=
  (getLamp s (leader s n)).flash || reqSrc s (leader s n) == .flasher

/-- The request source's value for a channel (Table LMP-1). -/
def srcValue (s : State) (n : Fin 8) : Bool :=
  match reqSrc s (leader s n) with
  | .lctl => bit s.lamps.lctl (leader s n).val
  | .lctlFlasher => bit s.lamps.lctl (leader s n).val && s.lamps.flOut
  | .flasher => s.lamps.flOut
  | .one => true
  | .zero => false

/-- R364: a channel's effective request. -/
def effReq (s : State) (n : Fin 8) : Bool := lampsAllowed s && srcValue s n

/-! ### Settings (Tables LMP-4 and LMP-5) -/

/-- INRUSH: the limit in 0.1 A and the window in ms. -/
def inrushOf (s : State) (n : Fin 8) : Nat × Nat :=
  match (getLamp s (leader s n)).inrush with
  | 0 => (4, 5)
  | 1 => (12, 20)
  | 2 => (24, 40)
  | 3 => (32, 100)
  | _ => (pgf s (lampPage (leader s n)) 0 6, pgf s (lampPage (leader s n)) 8 7)

/-- RETRY: the number of retries. -/
def retriesOf (s : State) (n : Fin 8) : Nat :=
  match (getLamp s (leader s n)).retry with
  | 0 => 0
  | 1 => 3
  | 2 => 10
  | _ => pgf s (lampPage (leader s n) + 2) 8 4

/-- Table LMP-5: the retry interval in ms; for RETRY 0, which has none, it is free. DESIGN CHOICE (log 14). -/
def retryIntervalOf (s : State) (n : Fin 8) : Nat :=
  match (getLamp s (leader s n)).retry with
  | 0 => Config.noRetryInterval
  | 3 => 10 * pgf s (lampPage (leader s n) + 6) 0 7
  | _ => 100

/-- R370: the retry time has run, from the instant the channel was switched off. -/
def retryTimeOver (s : State) (c : Lamp) : Bool := decide (c.tripAt + c.retryMs * msCycles ≤ s.now)

/-- R367: the limit of a channel in INRUSH before the window's mid-point, in units of 25 mA: at least 0.4 A. -/
def inrushLimit (c : Lamp) : Nat := max 16 (c.limA * (4 - c.derlvl))

/-- R367: the window in whole milliseconds. -/
def windowMs (c : Lamp) : Int := roundTie c.winEnd 4

/-- R367: the time at which the window of a channel in INRUSH ends. -/
def windowOver (c : Lamp) : Nat := c.onAt + (windowMs c).toNat * msCycles

/-- R367: the limit of a channel in INRUSH at a time, in mA: I_L up to the window's mid-point, then in a straight line
down to RUN_I at its end. -/
def inrushLimitAt (c : Lamp) (now : Nat) : Frac :=
  let w := (windowMs c).toNat * msCycles
  let el := now - c.onAt
  let il : Int := 25 * inrushLimit c
  if 2 * el ≤ w then Frac.ofInt il
  else if w ≤ el then Frac.ofInt (10 * c.runI)
  else Frac.mk' (il * w - (il - 10 * c.runI) * (2 * el - w : Nat)) w

/-- R367: the limit in mA that a channel's own state gives it. -/
def ownLimit (c : Lamp) (now : Nat) : Frac :=
  if c.mode = .inrush then inrushLimitAt c now else Frac.ofInt (10 * c.runI)

/-- The retry setting a reload takes (R366): what the last switch-on loaded while the channel conducts, else the present
setting (log entry 14). -/
def reloadValue (s : State) (n : Fin 8) : Nat :=
  let c := getLamp s n
  if c.mode = .inrush ∨ c.mode = .on then c.retryN else retriesOf s n

/-- R367, R381: the current limit of a channel in mA, while its switch is closed. The conducting half of a derated gang
takes both halves' limits added together, in INRUSH as in ON; a partner that is switched off, which the even channel's
settings govern too, adds what this half's state gives. DEDUCED (log 23). -/
def currentLimit (s : State) (n : Fin 8) : Frac :=
  let c := getLamp s n
  let m := getLamp s (pairOf n)
  let own := ownLimit c s.now
  if c.gangDer then own.add (if m.mode = .inrush ∨ m.mode = .on then ownLimit m s.now else own) else own

/-- Whether a cluster's budget is below a quarter of E_MAX (R372 to R374), as the last tick took E_MAX (R387). -/
def budgetLow (s : State) (k : Fin 2) : Bool :=
  decide (4 * (getCluster s k).b < (getCluster s k).eMax * mJ)

/-- A channel is held back by its cluster's budget (R373, R374): one without tell-tale priority, while the budget is low. -/
def budgetHolds (s : State) (n : Fin 8) : Bool := !claimed s n && budgetLow s (clusterOf n)

/-- CK_LAMP cycles of a PWM period (R376); 0 stands for the lock to the LCD frame. -/
def pwmPeriod (code hz : Nat) : Nat :=
  match code with
  | 0 => 30720
  | 1 => 15360
  | 2 => 3072
  | 3 => 154
  | 4 => 0
  | _ => (roundTie 3072000 hz).toNat

/-- PWM_HZ of a channel, and the period that LPARAM.PWMF and PWM_HZ select for it now. -/
def hzOf (s : State) (n : Fin 8) : Nat := pgf s (lampPage (leader s n) + 4) 0 16
def periodOf (s : State) (n : Fin 8) : Nat := pwmPeriod (getLamp s (leader s n)).pwmf (hzOf s n)

/-! ### Transitions (Table LMP-3) -/

/-- Entry to INRUSH: the limit, the window and the other switch-on settings are loaded, and R373 gives the derating
level. A channel that is off has no PWM period in progress, so the grid written meanwhile is in force (R377), but for
the lock, which a frame boundary begins (R392). DEDUCED (log 43). BOUT_I comes from the channel's own page block, that of the
odd half of a gang too. DESIGN CHOICE (log 43). -/
def switchOn (s : State) (n : Fin 8) : State :=
  let c := getLamp s n
  let l := leader s n
  let ir := inrushOf s n
  setLamp s n { c with
    mode := .inrush, conducting := true, limA := ir.1, winMs := ir.2, winEnd := 4 * ir.2
    derlvl := if budgetHolds s n then 1 else 0
    retryN := retriesOf s n, retryMs := retryIntervalOf s n, boutI := pgf s (lampPage n + 8) 0 8
    onAt := s.now, inr := true, runI := pgf s (lampPage l + 2) 0 8, offDiag := pgb s (lampPage l + 2) 12
    retryRdy := false, otWait := false, pwmRun := false
    pwmP := if periodOf s n = 0 then c.pwmP else periodOf s n, pwmHz := if periodOf s n = 0 then c.pwmHz else hzOf s n }

/-- The switch opens and the channel is OFF; its retries are kept. DEDUCED (log 43). -/
def switchOff (s : State) (n : Fin 8) : State :=
  setLamp s n { getLamp s n with mode := .off, conducting := false, derlvl := 0, retryRdy := false, otWait := false,
                                 pwmRun := false }

/-- Follow the effective request of one channel (Table LMP-3). -/
def followReq (s : State) (n : Fin 8) : State :=
  match (getLamp s n).mode, effReq s n with
  | .off, true => switchOn s n
  | .inrush, false => switchOff s n
  | .on, false => switchOff s n
  | .wait, false => switchOff s n
  | _, _ => s

/-- R383: the flasher starts in its on phase with the first request for it, in RUN, and stops with the last. The bulb-out
flag outlives a stop, so that a start with the flag set begins with FL_PERIOD / 2 (R384), and an on phase that a stop cuts
is not judged for it. DESIGN CHOICE (log 43). -/
def flasherFollow (s : State) : State :=
  let want := s.pw.mode == .run && !lampsHeld s && (List.finRange 8).any (wantsFlasher s)
  if want then
    if s.lamps.flRun then s
    else { s with lamps := { s.lamps with
             flRun := true, flOut := true, boutSeen := false
             flPeriod := if s.lamps.bout then (pg s 0xD140).toNat else 2 * (pg s 0xD140).toNat
             flDuty := pgf s 0xD142 0 8
             ch := s.lamps.ch.map (fun c => { c with openNow := false }) } }
  else { s with lamps := { s.lamps with flRun := false, flOut := false } }

/-- Bring the flasher and every channel into step with the requests. -/
def lampsSettle (s : State) : State := (List.finRange 8).foldl followReq (flasherFollow s)

/-- A cause latches; FLT is set at the first one and raises IRQSTAT.LAMP (R379, Table REG-5). -/
def latchCause (s : State) (n : Fin 8) (i : Nat) : State :=
  let c := getLamp s n
  let s := setLamp s n { c with causes := c.causes ||| BitVec.ofNat 8 (2 ^ i), flt := true }
  if c.flt then s else setIrq s irqLAMP

/-- Cause bit numbers, LFAULT bit less 8 (Table REG-24). -/
abbrev cSHORT : Nat := 0
abbrev cOPENON : Nat := 1
abbrev cOPENOFF : Nat := 2
abbrev cSTB : Nat := 3
abbrev cOT : Nat := 4
abbrev cSENSE : Nat := 5
abbrev cGANGDR : Nat := 6
abbrev cBUDGET : Nat := 7

/-- A channel in INRUSH or ON. -/
def powered (c : Lamp) : Bool := c.mode == .inrush || c.mode == .on

/-- WAIT or LATCHED, as a channel that is switched off by a fault has retries left (Table LMP-3). -/
def afterTrip (c : Lamp) : LampMode := if c.rleft = 0 then .latched else .wait

/-- A half of a gang is switched off by the fault that channel `n` has met. DEDUCED (log 23). -/
def openedBy (s : State) (n m : Fin 8) (cause : Nat) (c : Lamp) : Lamp :=
  if powered c then
    { c with mode := afterTrip (getLamp s n), conducting := false, derlvl := 0, pwmRun := false, retryRdy := false
             tripAt := s.now, otWait := decide (m = n ∧ cause = cOT)
             cut := if c.conducting ∧ ¬ (m = n ∧ cause = cSHORT) then some c.mode else none }
  else c

/-- A short or an overtemperature: switch off, latch, and WAIT or LATCHED as retries are left (Table LMP-3). The halves
of a gang switch off together; the cause is that of the half that met it. DEDUCED (log 23). -/
def lampTrip (s : State) (n : Fin 8) (cause : Nat) : State :=
  let s := (mates s n).foldl (fun t m => setLamp t m (openedBy s n m cause (getLamp t m))) s
  latchCause (setLamp s n { getLamp s n with fltCnt := sat1 (getLamp s n).fltCnt }) n cause

/-- The energy that a channel has dissipated from the onset of a short waits for the cluster's next tick (R371, R388).
-/
def shortEnergy (s : State) (n : Fin 8) (e : Nat) : State :=
  let cl := getCluster s (clusterOf n)
  setCluster s (clusterOf n) { cl with shortE := cl.shortE + e }

/-- A fault, the channel's own or its partner's, has switched the channel off in this very cycle. -/
def tripsNow (s : State) (n : Fin 8) : Bool :=
  let c := getLamp s n
  (c.mode == .wait || c.mode == .latched) && decide (c.tripAt = s.now)

/-- The state in which a fault of this very cycle has found the channel's switch closed, while no short of its own is
booked. DEDUCED (log 23). -/
def cutNow (s : State) (n : Fin 8) : Option LampMode := if tripsNow s n then (getLamp s n).cut else none

/-- A second cause of the cycle in which the switch was opened latches and counts too, and the channel's own retries say
whether it waits (R388, R556, Table LMP-3). DEDUCED (log 23). -/
def secondTrip (s : State) (n : Fin 8) (cause : Nat) : State :=
  let c := getLamp s n
  latchCause (setLamp s n { c with
    mode := afterTrip c, otWait := c.otWait || decide (cause = cOT), fltCnt := sat1 c.fltCnt
    cut := if cause = cSHORT then none else c.cut }) n cause

/-- A retry that is due starts the channel where it is permitted (R369, R370, R374, Table LMP-3), with the other half of
its gang where that half waits too, its own retry time has run (R370) and the budget does not hold it back (R374).
DEDUCED (log 23). -/
def tryRetry (s : State) (n : Fin 8) : State :=
  let c := getLamp s n
  if c.mode = .wait ∧ c.retryRdy then
    let hot := (mates s n).any (fun m => (getLamp s m).otWait && (getLamp s m).hot)
    if hot ∨ budgetHolds s n ∨ !effReq s n then s
    else (mates s n).foldl (fun s m =>
      if (getLamp s m).mode = .wait ∧ ((getLamp s m).retryRdy ∨ retryTimeOver s (getLamp s m)) ∧ !budgetHolds s m then
        switchOn (setLamp s m { getLamp s m with rleft := (getLamp s m).rleft - 1 }) m
      else s) s
  else s

/-! ### PWM (R376 to R378, R392) -/

/-- Whether a channel in ON runs PWM: its LCTL.PWM bit, or the caps of R380 and R381. -/
def pwmOn (s : State) (n : Fin 8) : Bool :=
  let c := getLamp s n
  bit s.lamps.lctl ((leader s n).val + 8) || c.senseless || c.gangDer

/-- The duty of a channel's PWM in 0.1 % under the cap of R380; a channel that is fully on counts as 1000. -/
def ownDuty (s : State) (n : Fin 8) : Nat :=
  let c := getLamp s n
  let d := if bit s.lamps.lctl ((leader s n).val + 8) then c.dutyNow else 1000
  if c.senseless then min d 600 else d

/-- The duty of a channel's PWM in 0.1 % under the caps of R380 and R381. -/
def pwmDuty (s : State) (n : Fin 8) : Nat :=
  let c := getLamp s n
  if c.gangDer then min (ownDuty s n) c.gangCap else ownDuty s n

/-- R376: the on-time of a PWM period of P CK_LAMP cycles. -/
def pwmOnTime (P d : Nat) : Int := roundTie (P * d) 1000

/-- R241: CK_FRAME cycles of a frame at f hertz; no rate of R242 makes a half. -/
def frameCycles (f : Nat) : Nat := (2 * 1536000 + f) / (2 * f)

/-- R378: CK_LAMP cycles of a locked PWM period. -/
def lockedPeriod (s : State) : Nat :=
  2 * frameCycles (getBank s s.lamps.flkBank).drv.rateNow / s.lamps.flkMul

/-- The period in force of a channel: its own grid, the locked one, or 1 kHz for a channel that is fully on but capped
(R380, R381). The last locked period of a frame, which absorbs the remainder (R378), counts with the length of the others.
DESIGN CHOICE (log 43). -/
def periodInForce (s : State) (n : Fin 8) : Nat :=
  let c := getLamp s n
  if bit s.lamps.lctl ((leader s n).val + 8) then (if c.pwmP = 0 then lockedPeriod s else c.pwmP) else 3072

/-- The duty in 0.1 % that keeps a mean of 0.75 A at an on-current in mA, rounded down (R381). DESIGN CHOICE (log 43). -/
def gangCapOf (ma : Nat) : Nat := if ma ≤ 750 then 1000 else 750 * 1000 / ma

/-- The on-time of a channel's PWM period in CK_LAMP cycles: R376's, in a derated half never longer than the cap of R381
allows, so that the mean stays within 0.75 A. DESIGN CHOICE (log 43). -/
def onTime (s : State) (n : Fin 8) : Int :=
  let c := getLamp s n
  let P := periodInForce s n
  let t := pwmOnTime P (ownDuty s n)
  if c.gangDer then min t (P * c.gangCap / 1000 : Nat) else t

/-- A channel that is fully on but capped runs its own 1 kHz periods, whatever its PWMF (R380, R381). -/
def ownPeriods (s : State) (n : Fin 8) : Bool := !bit s.lamps.lctl ((leader s n).val + 8) && pwmOn s n

/-- The grid of a channel in CK_LAMP cycles: its own, or 1 kHz where it is fully on but capped; 0 while it is locked to
the LCD frame. -/
def gridOf (s : State) (n : Fin 8) : Nat := if ownPeriods s n then 3072 else (getLamp s n).pwmP

/-- R376, R378: a period boundary of a channel lies at a CK_LAMP edge: n × floor(P / 8) cycles after the epoch and
every P cycles from then on; while it is locked, one of the further periods of the frame. The odd half of a gang keeps
the stagger of its own number. DEDUCED (log 23). -/
def boundaryAt (s : State) (n : Fin 8) (t : Nat) : Bool :=
  let P := gridOf s n
  if P = 0 then
    let q := lockedPeriod s
    let d := t - 2 * s.lamps.flkAt
    decide (0 < d) && d % q == 0 && decide (d / q < s.lamps.flkMul)
  else
    let start := s.lamps.epoch + n.val * (P / 8)
    decide (start ≤ t) && (t - start) % P == 0

/-- A period boundary of a channel lies in the present CK_FRAME cycle, which is two CK_LAMP cycles. -/
def gridEdge (s : State) (n : Fin 8) : Bool := boundaryAt s n (2 * s.now) || boundaryAt s n (2 * s.now + 1)

/-- A PWM period starts: DUTY takes effect, a derated half is capped by its measured on-current (R381), and a
channel in ON with PWM conducts for its on-time (R376). -/
def periodStart (s : State) (n : Fin 8) : State :=
  let l := getLamp s (leader s n)
  let c := getLamp s n
  let s := setLamp s n { c with dutyNow := l.duty, gangCap := if c.gangDer then gangCapOf c.iOn.toNat else c.gangCap }
  let c := getLamp s n
  if c.mode = .on ∧ pwmOn s n then
    setLamp s n { c with pwmRun := true, conducting := decide (0 < onTime s n) }
  else s

/-- A new P takes effect at the end of a PWM period: the switch of a PWM channel stays off until the first boundary of
the new grid (R377). DEDUCED (log 43). -/
def takeGrid (s : State) (n : Fin 8) : State :=
  let c := getLamp s n
  let c := { c with pwmP := periodOf s n, pwmHz := hzOf s n, dutyNow := (getLamp s (leader s n)).duty }
  setLamp s n (if bit s.lamps.lctl ((leader s n).val + 8) ∧ c.mode = .on then
    { c with conducting := false, pwmRun := true } else c)

/-- PWM_PERIOD_START: a period boundary of the channel's grid (R376). A change to the lock waits for the frame boundary
(R392); a channel that is fully on but capped takes a new P and stays on its own 1 kHz (R380, R381). A boundary of the new
grid at the very end of the old period is not its first one (R377). DEDUCED (log 43). DESIGN CHOICE (log 43). -/
def pwmBoundary (s : State) (n : Fin 8) : State :=
  if !gridEdge s n then s
  else
    let t := if periodOf s n ≠ 0 ∧ periodOf s n ≠ (getLamp s n).pwmP then takeGrid s n else s
    if bit s.lamps.lctl ((leader s n).val + 8) ∧ periodOf s n ≠ 0 ∧ periodOf s n ≠ (getLamp s n).pwmP then t
    else periodStart t n

/-- A channel at a frame boundary of the bank of the lock: a locked one takes the lock and, but for one on its own 1 kHz
periods (R380, R381), starts a period (R378); the period of one that is to leave the lock ends there (R377, R392).
DEDUCED (log 43). -/
def lampLocked (s : State) (n : Fin 8) : State :=
  if (getLamp s (leader s n)).pwmf = 4 then
    let t := setLamp s n { getLamp s n with pwmP := 0 }
    if ownPeriods t n then t else periodStart t n
  else if (getLamp s n).pwmP = 0 then takeGrid s n
  else s

/-- A frame boundary of the bank that FLK_BANK names reaches every locked channel (R378, R387, R392). -/
def lampFrame (s : State) (b : Bank) : State :=
  let named := Bank.ofBit (pgb s 0xD154 0)
  let s := if named = b then
      { s with lamps := { s.lamps with flkBank := b, flkMul := max 1 (pgf s 0xD154 4 5) } } else s
  if s.lamps.flkBank = b then
    (List.finRange 8).foldl lampLocked { s with lamps := { s.lamps with flkAt := s.now } }
  else s

/-- PWM_ON_TIME_END: the on-time of the period ends, with the mean on-current of the period. -/
def pwmOnEnd (s : State) (n : Fin 8) (ion : Word) : State :=
  let c := getLamp s n
  if c.mode = .on ∧ c.pwmRun ∧ c.conducting then
    setLamp s n { c with conducting := decide (1000 ≤ pwmDuty s n), iOn := ion }
  else s

/-! ### Events -/

/-- INRUSH_END (Table LMP-3): ON, conducting fully until its first period boundary (R377); with it the other half of its
gang, unless that half's window ends later, because it began later or has been lengthened (R367). DEDUCED (log 23). -/
def inrushEnds (s : State) (n : Fin 8) : State :=
  let x := getLamp s n
  eachMate s n (fun c =>
    if x.mode = .inrush ∧ c.mode = .inrush ∧ windowOver c ≤ windowOver x then { c with mode := .on, derlvl := 0, conducting := true, pwmRun := false } else c)

/-- R368, R388: a short condition of a channel whose switch is closed in a state that it applies to, or was when another
cause of the cycle opened it. `e` is the energy that the switch has dissipated since the onset, until it is off (R371).
-/
def shortArises (s : State) (n : Fin 8) (e : Nat) (applies : LampMode → Bool) : State :=
  let c := getLamp s n
  if powered c ∧ c.conducting then
    if applies c.mode then lampTrip (shortEnergy s n e) n cSHORT else s
  else match cutNow s n with
    | some m => if applies m then secondTrip (shortEnergy s n e) n cSHORT else s
    | none => s

/-- R368: an absolute short, in any state in which the switch conducts. -/
def absoluteShort (s : State) (n : Fin 8) (e : Nat) : State := shortArises s n e (fun _ => true)

/-- R368: short by desaturation; a sense-less channel has no current limit to stand at (R380). -/
def desaturation (s : State) (n : Fin 8) (e : Nat) : State :=
  shortArises s n e (fun _ => !(getLamp s n).senseless)

/-- R368: overload, in ON only. -/
def overload (s : State) (n : Fin 8) (e : Nat) : State :=
  shortArises s n e (fun m => m == .on && !(getLamp s n).senseless)

/-- R369: the local sensor exceeds 165 °C. Where a fault has switched the channel off in the same cycle both causes
latch, and the retry waits for the sensor (R556). -/
def overtemp (s : State) (n : Fin 8) : State :=
  let s := setLamp s n { getLamp s n with hot := true }
  let c := getLamp s n
  if powered c then lampTrip s n cOT
  else if tripsNow s n ∧ !c.otWait then secondTrip s n cOT
  else s

/-- R369: the local sensor reads below 145 °C; a retry that waited for it starts. -/
def overtempRelease (s : State) (n : Fin 8) : State := tryRetry (setLamp s n { getLamp s n with hot := false }) n

/-- R370: the retry time has run. -/
def retryDueAt (s : State) (n : Fin 8) : State :=
  let c := getLamp s n
  if c.mode = .wait ∧ retryTimeOver s c then tryRetry (setLamp s n { c with retryRdy := true }) n else s

/-- R366: a channel has spent 1 s in ON without a short or overtemperature. DEDUCED (log 14). -/
def retryReloads (s : State) (n : Fin 8) : State :=
  let c := getLamp s n
  if c.mode = .on then setLamp s n { c with rleft := c.retryN } else s

/-- OPENON (Table LMP-6); a sense-less channel cannot detect it (R380). -/
def openOn (s : State) (n : Fin 8) : State :=
  let c := getLamp s n
  if c.mode = .on ∧ !c.senseless then latchCause (setLamp s n { c with openNow := true }) n cOPENON else s

/-- OPENOFF (Table LMP-6). -/
def openOff (s : State) (n : Fin 8) : State :=
  let c := getLamp s n
  if c.mode = .off ∧ c.offDiag ∧ slotsRun s then latchCause s n cOPENOFF else s

/-- STB (Table LMP-6), whatever OFFDIAG holds. DESIGN CHOICE (log 43). -/
def stuckHigh (s : State) (n : Fin 8) : State :=
  if active s ∧ !powered (getLamp s n) then latchCause s n cSTB else s

/-- SENSE (Table LMP-6, R380, R382). -/
def senseBad (s : State) (n : Fin 8) : State :=
  let c := getLamp s n
  if powered c ∧ c.conducting then latchCause (setLamp s n { c with senseless := true }) n cSENSE else s

/-- R381: a gang is derated onto the half that still conducts, whose duty is capped for a mean of 0.75 A; a half whose
sense has failed derates nothing (R382, R394). -/
def gangDerate (s : State) (k : Fin 4) (odd : Bool) (onMa : Nat) : State :=
  let e : Fin 8 := ⟨2 * k.val, by omega⟩
  let o : Fin 8 := ⟨2 * k.val + 1, by omega⟩
  let a := getLamp s e
  let b := getLamp s o
  if a.gang ∧ a.mode = .on ∧ b.mode = .on ∧ !a.senseless ∧ !b.senseless then
    let h := if odd then o else e
    let s := setLamp s h { getLamp s h with gangDer := true, gangCap := gangCapOf onMa }
    latchCause (latchCause s e cGANGDR) o cGANGDR
  else s

/-! ### The cluster budget (R371 to R374) -/

/-- Whether a channel of a cluster can take a derating step, and whether it is a tell-tale one. -/
def canDerate (s : State) (k : Fin 2) (n : Fin 8) (tt : Bool) : Bool :=
  let c := getLamp s n
  decide (clusterOf n = k) && c.mode == .inrush && decide (c.derlvl < 3) && (claimed s n == tt)

/-- The channel R372 chooses among some: the lowest level, ties to the highest number; the same order holds among tell-tale
channels. DESIGN CHOICE (log 43). -/
def derateChoice (s : State) (k : Fin 2) (tt : Bool) : Option (Fin 8) :=
  (List.finRange 8).foldl (fun best n =>
    if canDerate s k n tt then
      match best with
      | none => some n
      | some m => if (getLamp s m).derlvl < (getLamp s n).derlvl then best else some n
    else best) none

/-- R372: one derating step of one channel, its limit and window extension from this tick. DEDUCED (log 23). -/
def derateStep (s : State) (k : Fin 2) : State :=
  let pick := match derateChoice s k false with
    | some n => some n
    | none => derateChoice s k true
  match pick with
  | none => s
  | some n =>
    let c := getLamp s n
    let s := setLamp s n { c with derlvl := c.derlvl + 1, winEnd := c.winEnd + c.winMs }
    let cl := getCluster s k
    latchCause (setCluster s k { cl with sinceStep := 0, derCnt := sat1 cl.derCnt }) n cBUDGET

/-- R371: the refill of one tick in mJ/300 000: REFILL/1000 mJ, falling to zero over 30 °C above TDER. -/
def refillOf (s : State) (k : Fin 2) (t : Word) : Nat :=
  let d := clampInt 0 300 (t.toInt - 10 * (pgf s (clusterPage k + 4) 0 8 : Nat))
  (pg s (clusterPage k + 2)).toNat * (300 - d.toNat)

/-- R371, steps 1 and 2: the energy that a cluster is charged at a tick: of its channels that were in INRUSH during the
millisecond, by channel, and of the shorts since the last tick. -/
def tickCharge (s : State) (k : Fin 2) (e : Vector Nat 8) : Nat :=
  (List.finRange 8).foldl (fun a n => if clusterOf n = k && (getLamp s n).inr then a + e[n] else a) (getCluster s k).shortE

/-- R371, R372, R374: a cluster's millisecond: charge, refill, clamp, a derating step where all of R372 holds, and the
retries that waited for the budget. -/
def clusterTick (s : State) (k : Fin 2) (e : Vector Nat 8) (t : Word) : State :=
  let cl := getCluster s k
  let eMax := (pg s (clusterPage k)).toNat
  let b := (clampInt 0 (eMax * mJ) ((cl.b : Int) - tickCharge s k e + refillOf s k t)).toNat
  let s := setCluster s k { cl with b := b, bPrev := cl.b, sinceStep := cl.sinceStep + 1, eMax := eMax, shortE := 0, tCl := t }
  let s := if budgetLow s k ∧ b < cl.b ∧ 10 ≤ cl.sinceStep + 1 then derateStep s k else s
  (List.finRange 8).foldl (fun s n => if clusterOf n = k then tryRetry s n else s) s

/-- The millisecond begins anew: a channel in INRUSH is charged for it (R371). -/
def inrushMarks (s : State) : State :=
  { s with lamps := { s.lamps with ch := s.lamps.ch.map (fun c => { c with inr := c.mode == .inrush }) } }

/-- BUDGET_TICK: both clusters, and the mean on-current over the millisecond of a channel without PWM (Table LMP-7).
`e` is the energy that each channel's switch has dissipated in it. -/
def budgetTick (s : State) (e : Vector Nat 8) (t0 t1 : Word) (ion : Vector Word 8) : State :=
  if active s then
    let s := (List.finRange 8).foldl (fun s n =>
      if (getLamp s n).pwmRun then s else setLamp s n { getLamp s n with iOn := ion[n] }) s
    inrushMarks (clusterTick (clusterTick s 0 e t0) 1 e t1)
  else s

/-! ### The flasher (R383, R384) -/

/-- An on phase begins a flasher period; the channels follow once every change of the cycle is made (R393). -/
def flasherOn (s : State) : State :=
  if s.lamps.flRun ∧ !s.lamps.flOut then
    { s with lamps := { s.lamps with
      flOut := true, boutSeen := false
      flPeriod := if s.lamps.bout then (pg s 0xD140).toNat else 2 * (pg s 0xD140).toNat
      flDuty := pgf s 0xD142 0 8
      ch := s.lamps.ch.map (fun c => { c with openNow := false }) } }
  else s

/-- An on phase ends: the bulb-out flag takes what the phase has shown. `low` are the channels that conducted below
BOUT_I for 10 ms after their window, BOUT_I as their switch-on took it (R387). -/
def flasherOff (s : State) (low : Byte) : State :=
  if s.lamps.flRun ∧ s.lamps.flOut then
    let met := (List.finRange 8).any (fun n =>
      onFlasher s n && ((getLamp s n).openNow
        || (low.getLsbD n.val && !(getLamp s n).senseless && decide ((getLamp s n).boutI ≠ 0))))
    { s with lamps := { s.lamps with flOut := false, bout := met, boutSeen := met } }
  else s

/-! ### Registers -/

/-- A channel in ON that runs no PWM conducts fully (R376, R380, R381). -/
def fullyOn (s : State) : State :=
  (List.finRange 8).foldl (fun s n =>
    let c := getLamp s n
    if c.mode = .on ∧ !pwmOn s n then setLamp s n { c with conducting := true, pwmRun := false } else s) s

/-- R188: LCTL. While a pair is ganged the odd channel's stored bits stay as they were, and they read and request
again once the pair is un-ganged. OWNER is judged by the stored bits of the claimed channels, so that with the odd half alone
claimed a write of the even bits, which the odd half then reads and follows, is accepted. DEDUCED (log 50). DESIGN CHOICE
(log 43). -/
def lctlWrite (s : State) (p : Port) (v : Word) : State :=
  let m := wordOf (gangOdd s)
  let old := s.lamps.lctl
  let new := (v &&& ~~~ m) ||| (old &&& m)
  let owned : Word := wordOf (s.lamps.ttClaim.toNat * 0x101)
  if !isSup s p ∧ (new ^^^ old) &&& owned ≠ 0 then refuse s p eOWNER 0x30
  else if s.pw.mode = .standby ∧ new &&& ~~~ old &&& 0xFF ≠ 0 then refuse s p eSTATE 0x30
  else
    let s := { s with lamps := { s.lamps with lctl := new } }
    lampsSettle (fullyOn s)

/-- LSTAT.STn of a state (Table LMP-2). -/
def lstatCode : LampMode → Nat
  | .off => 0
  | .on => 1
  | .inrush => 2
  | .wait => 3
  | .latched => 3

/-- R189: LSTAT. -/
def lstatRead (s : State) : Word :=
  wordOf ((List.finRange 8).foldl (fun a n => a + lstatCode (getLamp s n).mode * 4 ^ n.val) 0)

/-- R190: LSEL. -/
def lselWrite (s : State) (p : Port) (v : Word) : State :=
  if 6 ≤ fld v 4 3 then refuse s p eRANGE 0x34
  else { s with lamps := { s.lamps with selCh := ⟨fld v 0 3, Nat.mod_lt _ (by decide)⟩, selParam := fld v 4 3 } }

def lselRead (s : State) : Word := wordOf (s.lamps.selCh.val + 16 * s.lamps.selParam)

/-- The largest value of a parameter (Table REG-23). -/
def lparamMax : Nat → Nat
  | 0 => 1000
  | 1 => 5
  | 2 => 4
  | 3 => 3
  | _ => 1

/-- R191: LPARAM acts on the channel and parameter that LSEL holds. -/
def lparamWrite (s : State) (p : Port) (v : Word) : State :=
  let n := s.lamps.selCh
  let k := s.lamps.selParam
  let c := getLamp s n
  if s.lamps.ttClaim.getLsbD n.val ∧ !isSup s p then refuse s p eOWNER 0x36
  else if lparamMax k < v.toNat ∨ (k = 4 ∧ n.val % 2 = 1) then refuse s p eRANGE 0x36
  else if 4 ≤ k ∧ (c.mode ≠ .off ∨ (getLamp s (pairOf n)).mode ≠ .off) then refuse s p eSTATE 0x36
  else
    match k with
    | 0 => setLamp s n { c with duty := v.toNat }
    | 1 => setLamp s n { c with pwmf := v.toNat }
    | 2 => setLamp s n { c with inrush := v.toNat }
    | 3 => setLamp s n { c with retry := v.toNat }
    | 4 => lampsSettle (setLamp s n { c with gang := decide (v.toNat = 1) })
    | _ => lampsSettle (setLamp s n { c with flash := decide (v.toNat = 1) })

def lparamRead (s : State) : Word :=
  let c := getLamp s s.lamps.selCh
  wordOf (match s.lamps.selParam with
    | 0 => c.duty
    | 1 => c.pwmf
    | 2 => c.inrush
    | 3 => c.retry
    | 4 => flag c.gang 0
    | _ => flag c.flash 0)

/-- Table LMP-3: LATCHED ends in OFF. -/
def unlatch (m : LampMode) : LampMode := if m = .latched then .off else m

/-- R192, R365, R366, R380, R381: FLT of one channel is cleared, with its causes; its retries are reloaded, sense-less mode
ends, the derating of a gang ends with the even channel's FLT, and the channel, if it is LATCHED, is OFF. The other half
of a gang goes by its own FLT bit; one that its partner's fault has latched, with no FLT of its own, is freed with it.
DEDUCED (log 14). DEDUCED (log 23). DEDUCED (log 43). -/
def clearFault (s : State) (n : Fin 8) : State :=
  let c := getLamp s n
  if c.flt then
    let s := setLamp s n { c with
      flt := false, causes := 0, senseless := false, rleft := reloadValue s n, mode := unlatch c.mode }
    let m := getLamp s (pairOf n)
    let s := if ganged s n ∧ !m.flt then setLamp s (pairOf n) { m with mode := unlatch m.mode } else s
    if n.val % 2 = 0 then
      let s := setLamp s n { getLamp s n with gangDer := false }
      setLamp s (pairOf n) { getLamp s (pairOf n) with gangDer := false }
    else s
  else s

/-- R192, R391: LFAULT; a channel for which a cause has latched in the same cycle keeps its FLT and that cause, as R205 has
it, and LATCHED. Its older causes stay too, its retries are not reloaded, and FLT that was set already sets no IRQSTAT.LAMP
anew. DESIGN CHOICE (log 43). -/
def lfaultWrite (s : State) (v : Word) (kept : List (Fin 8)) : State :=
  lampsSettle (fullyOn ((List.finRange 8).foldl (fun s n =>
    if bit v n.val && !kept.contains n then clearFault s n else s) s))

/-- A cause of Table LMP-6 arises (R379). -/
def causeArises (s : State) (c : LampCause) : State :=
  match c.cause.val with
  | 0 => absoluteShort s c.n c.e
  | 1 => openOn s c.n
  | 2 => openOff s c.n
  | 3 => stuckHigh s c.n
  | 4 => overtemp s c.n
  | 5 => senseBad s c.n
  | k => latchCause s c.n k

def lfaultRead (s : State) : Word :=
  wordOf ((List.finRange 8).foldl (fun a n => a + flag (getLamp s n).flt n.val) 0
    + 256 * (getLamp s s.lamps.selCh).causes.toNat)

/-! ### The commands -/

/-- LCTL_WRITE (R188). -/
def execLctlWrite (p : Port) (v : Word) (s : State) : Host.Outcome State Fault Refusal :=
  .next (gate s p 0x18 v (fun s w => lctlWrite s p w))

/-- LPARAM_WRITE (R191). -/
def execLparamWrite (p : Port) (v : Word) (s : State) : Host.Outcome State Fault Refusal :=
  .next (gate s p 0x1B v (fun s w => lparamWrite s p w))

/-- LFAULT_CLEAR (R192). -/
def execLfaultClear (p : Port) (v : Word) (new : List LampCause) (s : State) : Host.Outcome State Fault Refusal :=
  .next (gate (new.foldl causeArises s) p 0x1C v (fun s w => lfaultWrite s w (new.map (·.n))))

/-- INRUSH_END (R365). -/
def execInrushEnd (n : Fin 8) (s : State) : Host.Outcome State Fault Refusal := .next (inrushEnds s n)

/-- LAMP_ABSOLUTE_SHORT (R368). -/
def execLampAbsoluteShort (n : Fin 8) (e : Nat) (s : State) : Host.Outcome State Fault Refusal := .next (absoluteShort s n e)

/-- LAMP_DESATURATION (R368). -/
def execLampDesaturation (n : Fin 8) (e : Nat) (s : State) : Host.Outcome State Fault Refusal := .next (desaturation s n e)

/-- LAMP_OVERLOAD (R368). -/
def execLampOverload (n : Fin 8) (e : Nat) (s : State) : Host.Outcome State Fault Refusal := .next (overload s n e)

/-- LAMP_OVERTEMP (R369). -/
def execLampOvertemp (n : Fin 8) (s : State) : Host.Outcome State Fault Refusal := .next (overtemp s n)

/-- LAMP_OVERTEMP_RELEASE (R369). -/
def execLampOvertempRelease (n : Fin 8) (s : State) : Host.Outcome State Fault Refusal := .next (overtempRelease s n)

/-- RETRY_DUE (R370). -/
def execRetryDue (n : Fin 8) (s : State) : Host.Outcome State Fault Refusal := .next (retryDueAt s n)

/-- RETRY_RELOAD (R366). -/
def execRetryReload (n : Fin 8) (s : State) : Host.Outcome State Fault Refusal := .next (retryReloads s n)

/-- BUDGET_TICK (R371). -/
def execBudgetTick (e : Vector Nat 8) (t0 t1 : Word) (ion : Vector Word 8) (s : State) :
    Host.Outcome State Fault Refusal := .next (budgetTick s e t0 t1 ion)

/-- PWM_PERIOD_START (R376). -/
def execPwmPeriodStart (n : Fin 8) (s : State) : Host.Outcome State Fault Refusal := .next (pwmBoundary s n)

/-- PWM_ON_TIME_END (R376). -/
def execPwmOnTimeEnd (n : Fin 8) (ion : Word) (s : State) : Host.Outcome State Fault Refusal :=
  .next (pwmOnEnd s n ion)

/-- OPEN_LOAD_ON (R379). -/
def execOpenLoadOn (n : Fin 8) (s : State) : Host.Outcome State Fault Refusal := .next (openOn s n)

/-- OPEN_LOAD_OFF (R379). -/
def execOpenLoadOff (n : Fin 8) (s : State) : Host.Outcome State Fault Refusal := .next (openOff s n)

/-- SHORT_TO_BATTERY (R379). -/
def execShortToBattery (n : Fin 8) (s : State) : Host.Outcome State Fault Refusal := .next (stuckHigh s n)

/-- SENSE_IMPLAUSIBLE (R379, R380). -/
def execSenseImplausible (n : Fin 8) (s : State) : Host.Outcome State Fault Refusal := .next (senseBad s n)

/-- GANG_DERATE (R381). -/
def execGangDerate (pair : Fin 4) (oddConducts : Bool) (onCurrent : Nat) (s : State) :
    Host.Outcome State Fault Refusal := .next (gangDerate s pair oddConducts onCurrent)

end Sys2Proof.Machine
end

