-- ==== Sys2Proof/Machine/Ledger.lean ====
section
/-! DEFINITION. The DC balance ledger: slot values, booking passes, the Balanced scheduler, the ledger clear and the
settle test ("The DC balance ledger"). -/

namespace Sys2Proof.Machine

open Sys2Proof

/-! ### Duty, bias and slots -/

/-- The used COM lines of a DCTL.DUTY code (Table REG-9). -/
def dutyLines : Nat → Nat
  | 0 => 1
  | 1 => 2
  | 2 => 3
  | 3 => 4
  | 4 => 6
  | 5 => 8
  | 6 => 12
  | _ => 16

/-- Slots of a frame (R241): one for each used line, or two at static duty. -/
def dutySlots (d : Nat) : Nat := if d = 0 then 2 else dutyLines d

/-- The a of a bias 1/a for a DCTL.BIAS code; 1 stands for static bias. -/
def biasA (k : Nat) : Nat := k + 1

/-- R241: the length of slot k of a frame of F cycles and M slots. -/
def slotLen (F M k : Nat) : Nat := (k + 1) * F / M - k * F / M

/-- The frame length, slots and lines a bank runs at. -/
def frameLen (d : Drive) : Nat := frameCycles d.rateNow
def frameSlots (d : Drive) : Nat := dutySlots d.dutyNow
def frameLines (d : Drive) : Nat := dutyLines d.dutyNow

/-- The line that slot k selects (R241): both slots of a static frame select line 0. -/
def slotLine (d : Drive) (k : Nat) : Nat := if d.dutyNow = 0 then 0 else k

/-! ### What a slot books (R276, R281, R282) -/

/-- Table DRV-3: pixel voltage in units of VLCD/60, positive polarity, bias code k. -/
def pixelUnits (k : Nat) (selected on : Bool) : Int :=
  if k = 0 then (if on then 60 else 0)
  else
    let a : Int := biasA k
    match selected, on with
    | true, true => 60
    | true, false => 60 - 120 / a
    | false, true => 60 / a
    | false, false => -(60 / a)

/-- R276: q of a stretch of d cycles, in 1/64 LU for each unit of VLCD/60. -/
def stretchQ (r : SlotRec) (d : Nat) : Int := roundAway (64 * d * r.slots) r.frameLen

/-- The voltage of pixel (c, x) in the drive part of a slot. -/
def driveUnits (r : SlotRec) (c x : Nat) : Int :=
  if r.driven ∧ c < r.lines then
    let v := pixelUnits r.bias (c == r.line) (r.pix.getLsbD x)
    if r.neg then -v else v
  else 0

/-- The voltage of pixel (c, x) in the key part: minus the key level on the active scan line of bank A (R282). -/
def keyUnits (b : Bank) (r : SlotRec) (c x : Nat) : Int :=
  if b = .bankA ∧ x = r.keyLine ∧ x < 16 ∧ c < r.lines then - r.keyLevel else 0

/-- The limits of an accumulator (R277). -/
def satAcc (i : Int) : Int := clampInt (-0x800000) 0x7FFFFF i

/-- An accumulator while it is booked: its value, whether it has saturated, and the T_s it counts in. -/
structure Booking where
  acc : Int
  sat : Bool
  units : Nat × Nat
  deriving DecidableEq, Repr

/-- Add one stretch and saturate (R286). -/
def Booking.add (k : Booking) (v : Int) : Booking :=
  let i := k.acc + v
  { k with acc := satAcc i, sat := k.sat || decide (satAcc i ≠ i) }

/-- R285: rescale to another T_s = F / M, to the nearest 1/64 LU. -/
def Booking.rescale (k : Booking) (u : Nat × Nat) : Booking :=
  if k.units.1 * u.2 = k.units.2 * u.1 then { k with units := u }
  else
    let i := roundTie (k.acc * (k.units.1 * u.2 : Nat)) (k.units.2 * u.1)
    { acc := satAcc i, sat := k.sat || decide (satAcc i ≠ i), units := u }

/-- Book one slot record: its drive part, then its key part, each a stretch of its own (R276). -/
def Booking.slot (b : Bank) (c x : Nat) (k : Booking) (r : SlotRec) : Booking :=
  let k := k.rescale (r.frameLen, r.slots)
  let k := k.add (driveUnits r c x * stretchQ r r.cycles)
  k.add (keyUnits b r c x * stretchQ r r.keyCycles)

/-- Book a list of records and end in the given units (R285). -/
def bookAll (b : Bank) (c x : Nat) (recs : List SlotRec) (k : Booking) (u : Nat × Nat) : Booking :=
  (recs.foldl (Booking.slot b c x) k).rescale u

/-! ### Accumulator words (Table BAL-1) -/

/-- A frame's worth W in LU (R276). -/
def frameWorth (d : Drive) : Nat :=
  if d.dutyNow = 0 then 60 else 60 + (frameLines d - 1) * 60 / biasA d.bias

/-- Bit i of an accumulator word. -/
def accBit (w : BitVec 32) (i : Nat) : Bool := w.getLsbD i

/-- Assemble an accumulator word. -/
def accWord (acc : Int) (sat rst unused kcol : Bool) (pass : Nat) (out : Bool) : BitVec 32 :=
  BitVec.ofNat 32 ((BitVec.ofInt 24 acc).toNat + flag sat 24 + flag rst 25 + flag unused 26 + flag kcol 27
    + (pass % 4) * 2 ^ 28 + flag out 30)

/-- Whether the Trellis scans: KCTL.EN, or a boot scan (R352). DEDUCED (log 21). -/
def scanning (k : Keys) : Bool := k.en || decide (0 < k.boot)

/-- How many columns of a bank receive key slots now (KCOL of Table BAL-1, log entry 22): the scanned lines of bank A
while the Trellis scans. -/
def keyColumns (s : State) (b : Bank) : Nat :=
  if b == .bankA && (scanning s.keys || s.keys.due) && slotsRun s then s.keys.cur.lines + 1 else 0

/-- The word that a read of an uncorrectable ECC word leaves an accumulator with (R295): 0, restarted, with the fields
of Table BAL-1 that name its place. DEDUCED (log 26). -/
def accRestarted (s : State) (b : Bank) (c x : Nat) : BitVec 32 :=
  accWord 0 false true (decide (frameLines (getBank s b).drv ≤ c)) (decide (x < keyColumns s b))
    (getBank s b).led.passCnt false

/-- A balance-engine read and write of the two accumulators of one ECC word (x even): R219, R220 and R295 on the read,
fresh check bits on the write; SAT_CNT counts each word whose SAT the write sets. DEDUCED (log 26). -/
def rmwPair (s : State) (b : Bank) (c x : Nat) (f : Nat → BitVec 32 → BitVec 32) : State :=
  let a := accAddr b c x
  let bad := eccBad s a
  let w0 := if bad then accRestarted s b c x else readAcc s b c x
  let w1 := if bad then accRestarted s b c (x + 1) else readAcc s b c (x + 1)
  let s := eccWritten (eccRead s a) a
  let v0 := f x w0
  let v1 := f (x + 1) w1
  let new (w v : BitVec 32) : Nat := if accBit v 24 && !accBit w 24 then 1 else 0
  let l := (getBank s b).led
  let s := setLed s b { l with rstCnt := if bad then sat1 l.rstCnt else l.rstCnt
                               satCnt := satAdd 0xFFFF l.satCnt (new w0 v0 + new w1 v1) }
  { s with mem := Cellar.setNat s.mem a 8 (v0.toNat + v1.toNat * 2 ^ 32) }

/-- The same over every accumulator of a line. -/
def rmwLine (s : State) (b : Bank) (c : Nat) (f : Nat → BitVec 32 → BitVec 32) : State :=
  (List.range 64).foldl (fun s i => rmwPair s b c (2 * i) f) s

/-- One accumulator under a pass (R277, R283, R285, R286). -/
def passWord (b : Bank) (d : Drive) (l : Ledger) (q : Pass) (n c x : Nat) (kcol : Bool) (w : BitVec 32) : BitVec 32 :=
  let k := bookAll b c x q.recs ⟨accOf w, false, l.units⟩ q.units
  accWord k.acc (accBit w 24 || k.sat) (accBit w 25) (decide (frameLines d ≤ c)) kcol n
    (if q.boundary then decide (frameWorth d * 64 < k.acc.natAbs) else accBit w 30)

/-- An accumulator on an unused line, which a pass writes only to rescale it (R279, R285). -/
def unusedWord (l : Ledger) (q : Pass) (n : Nat) (w : BitVec 32) : BitVec 32 :=
  let k := (Booking.mk (accOf w) false l.units).rescale q.units
  accWord k.acc (accBit w 24 || k.sat) (accBit w 25) (accBit w 26) (accBit w 27) n (accBit w 30)

/-- The largest |ACC| of the used accumulators and the lowest address that has it (Table BAL-5). DEDUCED (log 25). -/
def peakOf (s : State) (b : Bank) (lines : Nat) : Nat × Nat :=
  (List.range lines).foldl (fun p c => (List.range 128).foldl (fun (p : Nat × Nat) x =>
    let m := (accOf (readAcc s b c x)).natAbs
    if p.1 < m ∨ (p.1 = 0 ∧ p.2 = 0) then (m, accAddr b c x) else p) p) (0, 0)

/-- PEAK and PEAK_ADDR after a pass: in LU, rounded up, saturating. DEDUCED (log 25). -/
def setPeak (s : State) (b : Bank) : State :=
  let p := peakOf s b (frameLines (getBank s b).drv)
  let l := (getBank s b).led
  setLed s b { l with peak := min 0xFFFF ((p.1 + 63) / 64), peakAddr := p.2 % 0x10000 }

/-- R296: every word of the bank loses ACC, SAT, RST and OUT; PEAK reads 0, and PEAK_ADDR names the lowest word. The
words are written at L2 (R13). DEDUCED (log 25). -/
def clearWords (s : State) (b : Bank) : State :=
  let s := grantLow s 2 (lineBursts 16)
  let s := (List.range 16).foldl (fun s c => rmwLine s b c (fun _ w => w &&& 0x3C000000)) s
  let l := (getBank s b).led
  setLed s b { l with peak := 0, peakAddr := accAddr b 0 0 % 0x10000, clr := false }

/-- R283: the oldest pass of a bank runs to its end: it books its records onto every used accumulator, rescales, and
increments PASS_CNT. A clear that waited follows it (R303). DEDUCED (log 26). DESIGN CHOICE (log 49). -/
def passEnds (s : State) (b : Bank) : State :=
  let x := getBank s b
  match x.led.passes with
  | [] => s
  | q :: rest =>
    let n := (x.led.passCnt + 1) % 0x10000
    let used := frameLines x.drv
    let first := decide (longWork s 2 = some (.pass b))
    let s := setLed s b { x.led with passes := rest, passCnt := n }
    let s := (List.range used).foldl (fun s c => rmwLine s b c (fun k w =>
      passWord b x.drv x.led q n c k (decide (k < q.keyCols)) w)) s
    let scale := decide (x.led.units.1 * q.units.2 ≠ x.led.units.2 * q.units.1)
    let s := if scale then
        (List.range (16 - used)).foldl (fun s i => rmwLine s b (used + i) (fun _ w => unusedWord x.led q n w)) s
      else s
    let s := setLed s b { (getBank s b).led with units := q.units }
    let s := setPeak (grantWork s 2 (lineBursts 16) first) b
    if (getBank s b).led.clr then clearWords s b else s

/-- R279: at L2 the words of the lines whose use a duty change alters take UNUSED, with the present bits of PASS_CNT.
DEDUCED (log 26). -/
def markUnused (s : State) (b : Bank) (old new : Nat) : State :=
  let n := (getBank s b).led.passCnt
  let mark (u : Bool) (w : BitVec 32) : BitVec 32 :=
    accWord (accOf w) (accBit w 24) (accBit w 25) u (accBit w 27) n (accBit w 30)
  let lines := max old new - min old new
  (List.range lines).foldl (fun s i =>
    rmwLine s b (min old new + i) (fun _ w => mark (decide (new < old)) w)) (grantLow s 2 (lineBursts lines))

/-- A pass of the records gathered so far begins (R283). DEDUCED (log 22). DEDUCED (log 26). -/
def passBegins (s : State) (b : Bank) (boundary : Bool) : State :=
  let x := getBank s b
  setLed s b { x.led with recs := [], passes := x.led.passes ++ [{ recs := x.led.recs
                                                                   units := (frameLen x.drv, frameSlots x.drv)
                                                                   keyCols := keyColumns s b
                                                                   boundary := boundary }] }

/-! ### Projection, settle test and plan (R288, R260, R292) -/

/-- Every record that no pass has booked yet. -/
def unbooked (l : Ledger) : List SlotRec := (l.passes.map (·.recs)).flatten ++ l.recs

/-- An accumulator with everything driven so far, in the units of the bank's present T_s. -/
def projected (s : State) (b : Bank) (c x : Nat) : Int :=
  let k := getBank s b
  (bookAll b c x (unbooked k.led) ⟨accOf (readAcc s b c x), false, k.led.units⟩
    (frameLen k.drv, frameSlots k.drv)).acc

/-- R260: every used accumulator of the bank is within ±1 LU. DESIGN CHOICE (log 6). -/
def settled (s : State) (b : Bank) : Bool :=
  (List.range (frameLines (getBank s b).drv)).all fun c =>
    (List.range 128).all fun x => decide ((projected s b c x).natAbs ≤ 64)

/-- The used pixels of a bank in order. -/
def usedPixels (lines : Nat) : List (Nat × Nat) :=
  ((List.range lines).map (fun c => (List.range 128).map (fun x => (c, x)))).flatten

/-- R288: the cost of a projection: the largest |ACC|, then the sum of the excesses over COMP_TH. -/
def planCost (th : Nat) (p : List Int) : Nat × Nat :=
  p.foldl (fun (m, e) i => (max m i.natAbs, e + (i.natAbs - th))) (0, 0)

def costLt (a b : Nat × Nat) : Bool := decide (a.1 < b.1 ∨ (a.1 = b.1 ∧ a.2 < b.2))

/-- The projection with slot i inverted; `v` are the slot's drive values under the present plan. -/
def invertSlot (p v : List Int) : List Int := List.zipWith (fun a d => a - 2 * d) p v

/-- The slot whose inversion costs least, ties to the lower line (R288). `done` are the slots already inverted. -/
def bestInversion (th : Nat) (p : List Int) (vals : List (List Int)) (done : List Nat) : Option (Nat × (Nat × Nat)) :=
  (List.range vals.length).foldl (fun best i =>
    if done.contains i then best
    else
      let c := planCost th (invertSlot p (vals.getD i []))
      match best with
      | none => some (i, c)
      | some (_, c') => if costLt c c' then some (i, c) else best) none

/-- R288: choose inversions one at a time, at most n; the answer is the slots inverted. -/
def chooseInversions (th : Nat) (vals : List (List Int)) : Nat → List Int → List Nat → List Nat
  | 0, _, done => done
  | n + 1, p, done =>
    let cost := planCost th p
    if cost.1 ≤ th then done
    else match bestInversion th p vals done with
      | none => done
      | some (i, c) =>
        if costLt c cost then chooseInversions th vals n (invertSlot p (vals.getD i [])) (i :: done) else done

/-- The default plan of R287: slot i of frame f is negative where i + f is odd. -/
def defaultPlan (f M : Nat) : List Bool := (List.range M).map (fun i => decide ((i + f) % 2 = 1))

/-- R287, R288: the polarities of a frame of a Balanced bank, from the frame just ended (`last`) and the slots of the frame
with the key slots that the Trellis will run (`blanks`); with the number of inversions. -/
def balancedPlan (s : State) (b : Bank) (last : List SlotRec) (blanks : List SlotRec) : List Bool × Nat :=
  let d := (getBank s b).drv
  let M := frameSlots d
  let base := 0xC400 + 0x20 * b.num
  let plan := defaultPlan d.fcnt M
  if !pgb s base 4 then (plan, 0)
  else
    let th := 64 * (pg s (base + 2)).toNat
    let recs := (blanks.take M).mapIdx (fun i r =>
      { r with pix := ((last[i]?).map (·.pix)).getD 0, neg := plan.getD i false })
    let px := usedPixels (frameLines d)
    let vals := recs.map (fun r => px.map (fun (c, x) => driveUnits r c x * stretchQ r r.cycles))
    let start := px.map (fun (c, x) =>
      projected s b c x
        + recs.foldl (fun a r => a + driveUnits r c x * stretchQ r r.cycles
                                   + keyUnits b r c x * stretchQ r r.keyCycles) 0)
    let inv := chooseInversions th vals (pgf s base 0 4) start []
    (plan.mapIdx (fun i n => if inv.contains i then !n else n), inv.length)

/-! ### The settle plan (R292, R293, R299, R302) -/

/-- A settle slot's choice: the polarity (true negative) and the states of the pixels on the selected line. -/
abbrev SettleSlot := Bool × BitVec 128

/-- The used accumulators of a bank with everything driven so far, in the units of the present T_s (R288, R302): one
list for each column, its lines in order. -/
def settleColumns (s : State) (b : Bank) : List (List Int) :=
  (List.range 128).map fun x => (List.range (frameLines (getBank s b).drv)).map fun c => projected s b c x

/-- The test of R260 on a projection. -/
def columnsSettled (cols : List (List Int)) : Bool := cols.all fun l => l.all fun a => decide (a.natAbs ≤ 64)

/-- One column after a slot: its drive part and its key part (R282). -/
def settleColumn (b : Bank) (r : SlotRec) (x : Nat) (l : List Int) : List Int :=
  l.mapIdx fun c a => a + driveUnits r c x * stretchQ r r.cycles + keyUnits b r c x * stretchQ r r.keyCycles

/-- Every column after a slot that drives a choice; `r` is the slot with nothing on it yet. -/
def settleStep (b : Bank) (r : SlotRec) (w : SettleSlot) (cols : List (List Int)) : List (List Int) :=
  cols.mapIdx fun x l => settleColumn b { r with neg := w.1, pix := w.2 } x l

/-- How far a column is from 0: the sum of the squares. -/
def columnCost (l : List Int) : Nat := l.foldl (fun n a => n + a.natAbs * a.natAbs) 0

/-- The pixel states that bring every column nearest to 0 in a slot of a given polarity. -/
def nearestPixels (b : Bank) (r : SlotRec) (neg : Bool) (cols : List (List Int)) : BitVec 128 :=
  let on (x : Nat) (l : List Int) : Bool :=
    decide (columnCost (settleColumn b { r with neg := neg, pix := BitVec.allOnes 128 } x l)
      ≤ columnCost (settleColumn b { r with neg := neg, pix := 0 } x l))
  BitVec.ofNat 128 ((cols.mapIdx fun x l => if on x l then 2 ^ x else 0).foldl (· + ·) 0)

/-- The polarity of slot k where the duty fixes it: at static duty that of R246. -/
def fixedNeg (static : Bool) (k : Nat) : Option Bool := if static then some (decide (k % 2 = 1)) else none

/-- The choice that brings the accumulators nearest to 0 in one slot. DESIGN CHOICE (log 6). -/
def nearestSlot (b : Bank) (static : Bool) (r : SlotRec) (k : Nat) (cols : List (List Int)) : SettleSlot :=
  let choice (neg : Bool) : SettleSlot := (neg, nearestPixels b r neg cols)
  let cost (w : SettleSlot) : Nat := ((settleStep b r w cols).map columnCost).foldl (· + ·) 0
  match fixedNeg static k with
  | some neg => choice neg
  | none => if cost (choice true) < cost (choice false) then choice true else choice false

/-! A slot of polarity p on line c gives every pixel of column x the voltage t·u, where t is p for the state on and −p for
off, and the pixels of its band p·(60 − u) more (Table DRV-3, in units of VLCD/60). With a bias 1/a, u is 60/a and the band
is line c; with static bias u is 30 and the band is every line. What the slots of a plan book is therefore a part of the
band, which the polarities of its slots give, and a part of the column, for which every column has a free sign t in each
slot. So a plan exists exactly where for some n the bands' slots admit sums, and each column's n signs a sum, that bring
every accumulator to ±1 LU. -/

/-- u of a bias code. -/
def columnUnit (k : Nat) : Int := if k = 0 then 30 else 60 / (biasA k : Int)

/-- The band of a slot. -/
def bandOf (r : SlotRec) : Nat := if r.bias = 0 then 0 else r.line

/-- What a unit of voltage books in a slot's drive part. -/
def driveQ (r : SlotRec) : Int := stretchQ r r.cycles

/-- The different values of a list, each with its count. -/
def countsOf (l : List Int) : List (Int × Nat) := l.eraseDups.map fun q => (q, l.count q)

/-- Every sum of signs that slots of given values admit, with the number of positive slots of each value. -/
def signSums : List (Int × Nat) → List (Int × List (Int × Nat))
  | [] => [(0, [])]
  | (q, n) :: g =>
    ((List.range (n + 1)).map fun (a : Nat) => (signSums g).map fun o => (o.1 + q * (2 * a - n), (q, a) :: o.2)).flatten

/-- How many steps of each size, out of so many, bring v into an interval. DESIGN CHOICE (log 6). -/
def stepsInto : List (Int × Nat) → Int → Int × Int → Option (List Nat)
  | [], v, i => if i.1 ≤ v ∧ v ≤ i.2 then some [] else none
  | [(w, n)], v, i =>
    let a := clampInt 0 n (ceilDiv (i.1 - v) w.toNat)
    if i.1 ≤ v + w * a ∧ v + w * a ≤ i.2 then some [a.toNat] else none
  | (w, n) :: g, v, i => (List.range (n + 1)).findSome? fun (a : Nat) => (stepsInto g (v + w * a) i).map (a :: ·)

/-- A band of lines: their accumulators with the key parts to come, one list for each line, and the sums that its slots
admit, with the slots that are positive. -/
structure Band where
  rows : List (List Int)
  sums : List (Int × List (Int × Nat))

/-- What is left of the columns' intervals once the lines of a band, v above what they were, are within ±1 LU. -/
def narrowed (rows : List (List Int)) (v : Int) (iv : List (Int × Int)) : List (Int × Int) :=
  rows.foldl (fun iv row => List.zipWith (fun i a => (max i.1 (-64 - (a + v)), min i.2 (64 - (a + v)))) iv row) iv

/-- The choice of a sum for every band that leaves every column an interval that its signs reach, and the intervals.
DESIGN CHOICE (log 6). -/
def bandSearch (w : Int) (ok : Int × Int → Bool) :
    List Band → List (Int × Int) → Option (List (List (Int × Nat)) × List (Int × Int))
  | [], iv => some ([], iv)
  | d :: ds, iv =>
    d.sums.findSome? fun o =>
      let iv' := narrowed d.rows (w * o.1) iv
      if iv'.all (fun i => decide (i.1 ≤ i.2)) && iv'.all ok then
        (bandSearch w ok ds iv').map fun r => (o.2 :: r.1, r.2)
      else none

/-- Whether the i-th slot is among the first of its kind that a choice takes, by value. -/
def among (choice : List (Int × Nat)) (kind : List Int) (q : Int) : Bool :=
  decide (kind.count q < ((choice.find? fun e => e.1 == q).map (·.2)).getD 0)

/-- The slots of a plan: of each band the first slots of each value that its choice takes are positive, and each column is
driven up in its first slots of each value. `seen` are the slots before. -/
def planSlots (static : Bool) (bands cols : List (List (Int × Nat))) : List SlotRec → List SlotRec → Nat → List SettleSlot
  | [], _, _ => []
  | r :: rs, seen, k =>
    let q := driveQ r
    let pos := match fixedNeg static k with
      | some neg => !neg
      | none => among (bands.getD (bandOf r) []) ((seen.filter fun y => bandOf y == bandOf r).map driveQ) q
    let before := seen.map driveQ
    let pix := BitVec.ofNat 128 ((cols.mapIdx fun x c => if pos == among c before q then 2 ^ x else 0).foldl (· + ·) 0)
    (!pos, pix) :: planSlots static bands cols rs (r :: seen) (k + 1)

/-- A plan of exactly the slots `rs` from slot k on that brings every accumulator within ±1 LU, where there is one.
DESIGN CHOICE (log 6). -/
def exactPlan (b : Bank) (static : Bool) (k : Nat) (cols : List (List Int)) (rs : List SlotRec) : Option (List SettleSlot) :=
  let bias := (rs.head?.map (·.bias)).getD 0
  let lines := (cols.headD []).length
  let u := columnUnit bias
  let keyed := cols.mapIdx fun x l =>
    let key := rs.foldl (fun a r => a + keyUnits b r 0 x * stretchQ r r.keyCycles) 0
    l.map (· + key)
  let row (c : Nat) : List Int := keyed.map (·.getD c 0)
  let slots (c : Nat) : List (Nat × SlotRec) := ((List.range rs.length).zip rs).filter fun e => bandOf e.2 == c
  let sums (c : Nat) : List (Int × List (Int × Nat)) :=
    if static then [((slots c).foldl (fun a e => a + if (k + e.1) % 2 = 1 then -driveQ e.2 else driveQ e.2) 0, [])]
    else signSums (countsOf ((slots c).map fun e => driveQ e.2))
  let bands : List Band :=
    if bias = 0 then [⟨(List.range lines).map row, sums 0⟩] else (List.range lines).map fun c => ⟨[row c], sums c⟩
  let qs := countsOf (rs.map driveQ)
  let steps := qs.map fun e => (2 * u * e.1, e.2)
  let low := - qs.foldl (fun a e => a + u * e.1 * e.2) 0
  match bandSearch (60 - u) (fun i => (stepsInto steps low i).isSome) bands (cols.map fun _ => (low, -low)) with
  | none => none
  | some r =>
    let ups := r.2.map fun i => (qs.map (·.1)).zip ((stepsInto steps low i).getD [])
    some (planSlots static r.1 ups rs [] k)

/-- The accumulators after the slots of a plan. -/
def settleRun (b : Bank) : List SlotRec → List SettleSlot → List (List Int) → List (List Int)
  | r :: rs, w :: l, cols => settleRun b rs l (settleStep b r w cols)
  | _, _, cols => cols

/-- The shortest plan of whole slots, at most n of those `rs` from slot k on, that brings every accumulator within ±1 LU.
DESIGN CHOICE (log 6). -/
def findPlan (b : Bank) (static : Bool) (n k : Nat) (rs : List SlotRec) (cols : List (List Int)) :
    Option (List SettleSlot) :=
  (List.range (n + 1)).findSome? fun n =>
    (exactPlan b static k cols (rs.take n)).filter fun p => columnsSettled (settleRun b rs p cols)

/-- Whether a plan ends the settle, or leaves it able to end within n slots from slot k on. DESIGN CHOICE (log 6). -/
def keepsEnd (b : Bank) (static : Bool) : List SettleSlot → Nat → Nat → List SlotRec → List (List Int) → Bool
  | w :: l, n + 1, k, r :: rs, cols =>
    columnsSettled cols || keepsEnd b static l n (k + 1) rs (settleStep b r w cols)
  | [], n, k, rs, cols => (findPlan b static n k rs cols).isSome
  | _, _, _, _, cols => columnsSettled cols

/-- The nearest choices of the slots `rs` from slot k on. DESIGN CHOICE (log 6). -/
def nearestPlan (b : Bank) (static : Bool) : List SlotRec → Nat → List (List Int) → List SettleSlot
  | [], _, _ => []
  | r :: rs, k, cols =>
    let w := nearestSlot b static r k cols
    w :: nearestPlan b static rs (k + 1) (settleStep b r w cols)

/-- A free plan of n slots from slot k on; at static duty the polarity is that of R246. -/
def freePlan (ctr : Nat) (static : Bool) (k n : Nat) : List SettleSlot :=
  (List.range n).map fun i => ((fixedNeg static (k + i)).getD (Config.settleNeg ctr (k + i)), Config.settlePix ctr (k + i))

/-- R292, R293: the settle plan of the slots of a frame from slot k on, from the projection of everything driven so far
and the slots to come, `rs`, with their key slots. The choice is free where the settle can still end within the 8 frames of
R293 after it; otherwise it is the shortest plan of whole slots that ends there, and where there is none every slot brings
the accumulators nearest to 0. DESIGN CHOICE (log 6). -/
def settlePlan (s : State) (b : Bank) (k : Nat) (rs : List SlotRec) : List SettleSlot :=
  let d := (getBank s b).drv
  let M := frameSlots d
  let static := decide (d.dutyNow = 0)
  let cols := settleColumns s b
  let left := 8 * M - 1 - d.setSlots
  let free := freePlan s.freeCtr static k (M - k)
  List.replicate k (false, 0) ++
    (if keepsEnd b static free left k rs cols then free
     else (findPlan b static left k rs cols).getD (nearestPlan b static (rs.take (M - k)) k cols))

/-- Take the plan of the slots from k on into the ledger (R292, R299). DESIGN CHOICE (log 6). -/
def planSettle (s : State) (b : Bank) (k : Nat) (rs : List SlotRec) : State :=
  let l := (getBank s b).led
  setLed { s with freeCtr := s.freeCtr + 1 } b { l with settle := settlePlan s b k rs }

/-! ### Commands -/

/-- BOOKING_PASS_END (R283), where the arbiter grants its bursts (R224). DESIGN CHOICE (log 49). -/
def execBookingPassEnd (b : Bank) (ups : List Upset) (s : State) : Host.Outcome State Fault Refusal :=
  .next (if domains s ∧ !(getBank s b).led.passes.isEmpty then granted s (.low 2) (fun s => passEnds (upsets s ups) b)
    else s)

end Sys2Proof.Machine
end

