-- ==== Sys2Proof/Machine/Layers.lean ====
section
/-! DEFINITION. Layers, composition, batches, racking, swaps, blink groups and region locks, with the DCOMMIT, DLAYER and
DBLINK registers ("Layers, the Decanter and racking", R180 to R182). -/

namespace Sys2Proof.Machine

open Sys2Proof

/-! ### Buffers (R305) -/

/-- The address of line i of a layer's live copy. -/
def liveLine (b : Bank) (l : Nat) (y : LayerSt) (i : Nat) : Nat := bufAddr b l (if y.live2 then 2 else 1) + 16 * i

/-- The address of line i of a layer's idle copy. -/
def idleLine (b : Bank) (l : Nat) (y : LayerSt) (i : Nat) : Nat := bufAddr b l (if y.live2 then 1 else 2) + 16 * i

/-- The address of line i of a layer's Decanter. -/
def decLine (b : Bank) (l : Nat) (i : Nat) : Nat := bufAddr b l 0 + 16 * i

/-! ### Composition (R306, R307, R321, R322) -/

/-- Eight on bits at octet j of a line. -/
def octetMask (j : Nat) : BitVec 128 := BitVec.ofNat 128 (0xFF * 2 ^ (8 * j))

/-- The pixels of line i whose blink group is enabled and in its off phase (R322). -/
def blinkOffMask (x : BankSt) (i : Nat) : BitVec 128 :=
  (List.range 16).foldl (fun m j =>
    let w := vget x.mapNow (2 * i + j / 8)
    if vget x.blinkOn (fld w (2 * (j % 8)) 2) then m else m ||| octetMask j) 0

/-- The pixels of the ECC words of a line that hold an uncorrectable error: the low and the high 64. -/
def badPixels (s : State) (a : Nat) : BitVec 128 :=
  BitVec.ofNat 128 ((if eccBad s a then 2 ^ 64 - 1 else 0) + (if eccBad s (a + 8) then (2 ^ 64 - 1) * 2 ^ 64 else 0))

/-- The pixel rule of R306 and R307 on a whole line, with the substitutions of Table CEL-3 for pixels whose ECC word is
uncorrectable (`kB` … `kT`). -/
def composeBits (base ovl anim blink tt kB kO kA kL kT mask fbMask off : BitVec 128) (fb : Bool) : BitVec 128 :=
  let ttBits := if fb then fbMask else (tt &&& ~~~ kT) ||| (fbMask &&& kT)
  let shown := ((base &&& ~~~ kB) ||| (ovl &&& ~~~ kO) ||| (anim &&& ~~~ kA)) &&& ~~~ (blink &&& ~~~ kL &&& off)
  (mask &&& ttBits) ||| (~~~ mask &&& shown)

/-- The composed line i, from the five live lines as the Cellar holds them. -/
def composedLine (s : State) (b : Bank) (i : Nat) : BitVec 128 :=
  let x := getBank s b
  let at' (l : Nat) : Nat := liveLine b l (getLayer x l) i
  composeBits (readLine s (at' 0)) (readLine s (at' 1)) (readLine s (at' 2)) (readLine s (at' 3))
    (readLine s (at' 4)) (badPixels s (at' 0)) (badPixels s (at' 1)) (badPixels s (at' 2)) (badPixels s (at' 3))
    (badPixels s (at' 4)) (vget x.maskNow i) (vget x.fbMaskNow i) (blinkOffMask x i) x.fbNow

/-- The reads of the frame fetch of line i: the five live lines. -/
def fetchReads (s : State) (b : Bank) (i : Nat) : State :=
  (List.range 5).foldl (fun s l => eccReadN s (liveLine b l (getLayer (getBank s b) l) i) 2) s

/-! ### Batches (R310, R311, R317, R337) -/

/-- Whether line k still has a slot in the running frame: the slots below `drv.slot` have begun. -/
def slotAhead (d : Drive) (k : Nat) : Bool :=
  if d.dutyNow = 0 then decide (k = 0 ∧ d.slot < 2) else decide (d.slot ≤ k ∧ k < frameLines d)

/-- The lines of a set that still have a slot in the running frame. DEDUCED (log 54). -/
def aheadSet (d : Drive) : BitVec 16 :=
  (List.range 16).foldl (fun m k => if slotAhead d k then m ||| lineBit k else m) 0

/-- Whether the current batch is due at the end of the running frame: all its unracked lines still have a slot in it.
DEDUCED (log 54). -/
def dueSoon (d : Drive) (c : Batch) : Bool := decide (c.named &&& ~~~ c.racked &&& ~~~ aheadSet d = 0)

/-- R310, R316, R317: a host commit of some lines to a layer. It coalesces with a batch that the layer has even where no
line is left to place; with none it then creates no batch. DEDUCED (log 54). -/
def placeCommit (d : Drive) (y : LayerSt) (lines : BitVec 16) : LayerSt :=
  match y.cur with
  | none =>
    let busy := y.next.isSome
    { y with cur := if lines = 0 then none else some ⟨lines, 0, lines⟩, coal := y.coal || busy
             coalCnt := if busy then sat1 y.coalCnt else y.coalCnt }
  | some c =>
    let joins := if dueSoon d c then lines &&& aheadSet d else lines
    let waiting := c.named &&& ~~~ c.racked
    let into := lines &&& (waiting ||| joins)
    let rest := lines &&& ~~~ into
    let sup := decide (lines &&& c.named &&& c.racked ≠ 0)
    let nx := y.next.getD ⟨0, 0, 0⟩
    { y with
      cur := some { named := c.named ||| into, racked := c.racked &&& ~~~ (into &&& ~~~ waiting), host := c.host ||| into }
      next := if rest = 0 then y.next else some { named := nx.named ||| rest, racked := 0, host := nx.host ||| rest }
      coal := true, coalCnt := sat1 y.coalCnt
      super := y.super || sup, superCnt := if sup then sat1 y.superCnt else y.superCnt }

/-- A bank's next slot begins in this CK_FRAME cycle, by the slot lengths of R241, or the frame boundary before it does.
DEDUCED (log 54). -/
def slotDueNow (s : State) (b : Bank) : Bool :=
  let d := (getBank s b).drv
  (driven d || slotsRun s) &&
    (match d.slot with
     | 0 => decide (d.slotAt = s.now)
     | k + 1 => decide (d.slotAt + slotLen (frameLen d) (frameSlots d) k = s.now))

/-- Where the line slots of a bank stand for a commit: while none runs, at the beginning of the frame with which they
resume (R315). DEDUCED (log 54). -/
def slotsStand (s : State) (d : Drive) : Drive := if slotsRun s then d else { d with slot := 0 }

/-- A commit's lines below the count in force are placed in each layer that it names (R310). -/
def commitPlaced (s : State) (b : Bank) (v : Word) : State :=
  let x := getBank s b
  let lines := lineSet (fld v 8 4) (fld v 12 4) &&& linesBelow (frameLines x.drv)
  setBank s b ((List.range 5).foldl (fun x l =>
    if bit v l then setLayer x l (placeCommit (slotsStand s x.drv) (getLayer x l) lines) else x) x)

/-- Commits of a bank have to wait: for the end of a running duty flush (R337), or, where line slots run, for the slot that
begins in this CK_FRAME cycle, which counts as begun, and the swap of a boundary there (R311, R331). DEDUCED (log 54). -/
def commitsWait (s : State) (b : Bank) : Bool := (getBank s b).drv.flushing || (slotsRun s && slotDueNow s b)

/-- A DCOMMIT takes effect on one bank, behind those that wait there. DEDUCED (log 54). -/
def commitBank (s : State) (b : Bank) (v : Word) : State :=
  let x := getBank s b
  if commitsWait s b || !x.held.isEmpty then setBank s b { x with held := x.held ++ [v] } else commitPlaced s b v

/-- The commits that have waited are placed, in their order, once nothing holds them (R311, R331, R337). DEDUCED (log 54).
-/
def heldPlaced (s : State) (b : Bank) : State :=
  let x := getBank s b
  if commitsWait s b || x.held.isEmpty then s
  else x.held.foldl (fun s v => commitPlaced s b v) (setBank s b { x with held := [] })

/-- A DCOMMIT leaves the write buffer (R100, R310). -/
def commitEffect (s : State) (v : Word) : State :=
  let s := if bit v 5 then commitBank s .bankA v else s
  if bit v 6 then commitBank s .bankB v else s

/-- R180: the checks of a DCOMMIT at its capture, in the order of R578; `none` where it is accepted. -/
def commitRefusal (s : State) (p : Port) (v : Word) : Option Byte :=
  let beyond (b : Bank) (i : Nat) : Bool := bit v i && decide (dutyLines (getBank s b).drv.duty ≤ fld v 12 4)
  if bit v 4 ∧ !isSup s p then some eOWNER
  else if fld v 0 5 = 0 ∨ fld v 5 2 = 0 ∨ fld v 12 4 < fld v 8 4 ∨ beyond .bankA 5 ∨ beyond .bankB 6 then some eRANGE
  else if !slotsRun s then some eSTATE
  else none

/-! ### Racking (R312 to R314) -/

/-- Write a line into a layer's idle copy. -/
def intoIdle (s : State) (b : Bank) (l i : Nat) (v : BitVec 128) : State :=
  storeLine s (idleLine b l (getLayer (getBank s b) l) i) v

/-- Whether a layer's current batch still has to rack line i. -/
def rackDue (y : LayerSt) (i : Nat) : Bool :=
  match y.cur with
  | some c => decide (c.named &&& ~~~ c.racked &&& lineBit i ≠ 0)
  | none => false

/-- Whether a layer's catch-up record of line i is to be emptied in a slot that does not rack the line (R312). -/
def copyDue (y : LayerSt) (i : Nat) : Bool := !rackDue y i && decide (y.catchup &&& lineBit i ≠ 0)

/-- A layer whose line i the slot takes: racked, and without a catch-up record (R312, R313). -/
def lineTaken (y : LayerSt) (i : Nat) : LayerSt :=
  if rackDue y i then
    { y with cur := y.cur.map (fun c => { c with racked := c.racked ||| lineBit i }), catchup := y.catchup &&& ~~~ lineBit i }
  else { y with catchup := y.catchup &&& ~~~ lineBit i }

/-- The layers, one bit each, for which a condition holds. -/
def layerBits (x : BankSt) (f : LayerSt → Bool) : BitVec 5 :=
  BitVec.ofNat 5 ((List.range 5).foldl (fun n l => if f (getLayer x l) then n + 2 ^ l else n) 0)

/-- R312: the slot of line i begins where line slots run: its burst takes what each layer has to do for that line now, so
that a commit after it waits for the line's next slot (R311). -/
def burstOf (s : State) (b : Bank) (i : Nat) (shown : Bool) : Burst :=
  let x := getBank s b
  if slotsRun s then
    { line := i, shown := shown, rack := layerBits x (rackDue · i), copy := layerBits x (copyDue · i) }
  else { line := i, shown := shown, rack := 0, copy := 0 }

/-- Every layer's line i is taken by its slot, where line slots run. -/
def linesTaken (s : State) (b : Bank) (i : Nat) : State :=
  if slotsRun s then
    setBank s b ((List.range 5).foldl (fun x l => setLayer x l (lineTaken (getLayer x l) i)) (getBank s b))
  else s

/-- R312, R314: the burst for one layer: a Decanter line that differs from the idle line is written there, and a
catch-up of a slot that shows content writes the live line that the fetch has read. An idle line that equals the
Decanter line but meets an uncorrectable error is written too. DESIGN CHOICE (log 54). -/
def rackLayer (s : State) (b : Bank) (q : Burst) (l : Nat) : State :=
  let y := getLayer (getBank s b) l
  if q.rack.getLsbD l then
    let s := eccReadN (eccReadN s (decLine b l q.line) 2) (idleLine b l y q.line) 2
    let v := readLine s (decLine b l q.line)
    if v = readLine s (idleLine b l y q.line) ∧ !eccBadN s (idleLine b l y q.line) 2 then s else intoIdle s b l q.line v
  else if q.copy.getLsbD l then
    let live := readLine s (liveLine b l y q.line)
    intoIdle (if q.shown then s else eccReadN s (liveLine b l y q.line) 2) b l q.line live
  else s

/-- A slot's burst that has not run before a frame boundary or the next slot is put back: the lines that it was to rack are
unracked again, and its line of each layer is to be carried later. DEDUCED (log 54). -/
def lineReturned (q : Burst) (y : LayerSt) (l : Nat) : LayerSt :=
  if q.rack.getLsbD l || q.copy.getLsbD l then
    { y with cur := if q.rack.getLsbD l then y.cur.map (fun c => { c with racked := c.racked &&& ~~~ lineBit q.line })
                    else y.cur
             catchup := y.catchup ||| lineBit q.line }
  else y

/-- The layers of a bank after a burst is put back. DEDUCED (log 54). -/
def linesReturned (s : State) (b : Bank) (q : Burst) : State :=
  setBank s b ((List.range 5).foldl (fun x l => setLayer x l (lineReturned q (getLayer x l) l)) (getBank s b))

/-- A slot's L0 burst on the Cellar: the fetch where the slot shows content, then every layer (R312, R314). -/
def burstWork (s : State) (b : Bank) (q : Burst) : State :=
  (List.range 5).foldl (fun s l => rackLayer s b q l) (if q.shown then fetchReads s b q.line else s)

/-! ### Swaps and late layers (R309, R313, R318 to R320) -/

/-- A current batch whose every named line is racked. -/
def batchDone (c : Batch) : Bool := decide (c.named &&& ~~~ c.racked = 0)

/-- The boundary of one layer: the layer, whether it is late, and whether a host commit has been completed. -/
def layerBoundary (y : LayerSt) : LayerSt × Bool × Bool :=
  match y.cur with
  | none => ({ y with lateRun := 0 }, false, false)
  | some c =>
    if batchDone c then
      ({ y with live2 := !y.live2, vint := y.vint + 1, catchup := y.catchup ||| c.racked, cur := y.next, next := none
                lateRun := 0 }, false, decide (c.host ≠ 0))
    else ({ y with late := true, lateCnt := sat1 y.lateCnt, lateRun := y.lateRun + 1 }, true, false)

/-- Every layer of a bank at a frame boundary, with IRQSTAT.COMMIT and LATE, DSTAT.LATE and TTSTALE. -/
def layersBoundary (s : State) (b : Bank) : State :=
  let x := getBank s b
  let r := (List.range 5).map (fun l => layerBoundary (getLayer x l))
  let x' := (List.range 5).foldl (fun x l => setLayer x l (layerBoundary (getLayer x l)).1) x
  let late := r.any (·.2.1)
  let ttLate := ((r[4]?).map (·.2.1)).getD false
  let s := setBank s b { x' with lateLast := late, ttLateLast := ttLate }
  let s := setIrqIf late (setIrqIf (r.any (·.2.2)) s irqCOMMIT) irqLATE
  let stale := decide (3 ≤ (getLayer x' 4).lateRun)
  let anyTt := s.bankA.ttLateLast || s.bankB.ttLateLast
  let s := setIrqIf stale s irqLATE
  { s with disp := { s.disp with ttStale := stale || (s.disp.ttStale && anyTt) } }

/-- R308: the masks and the blink-group maps written since take effect at a frame boundary of the bank, from the working
copies: the Cellar's copy of the tell-tale mask is not read. DEDUCED (log 55). -/
def masksInForce (s : State) (b : Bank) : State :=
  let x := getBank s b
  setBank s b { x with
    maskNow := x.maskCopy
    fbMaskNow := Vector.ofFn (fun i : Fin 16 => readLine s (fbMaskAddr b + 16 * i.val))
    mapNow := Vector.ofFn (fun i : Fin 32 => readWord s (0xC900 + 0x40 * b.num + 2 * i.val)) }

/-! ### Blink groups (R182, R321, R581) -/

/-- Period and phase in CK_FRAME cycles and the on fraction of a group. DEDUCED (log 42). -/
def blinkTiming (s : State) (g pre : Nat) : Nat × Nat × Nat :=
  match pre with
  | 0 => (500 * msCycles, 0, 50)
  | 1 => (1000 * msCycles, 0, 50)
  | 2 => (250 * msCycles, 0, 50)
  | _ => ((pg s (0xC860 + 6 * g)).toNat * msCycles, (pg s (0xC864 + 6 * g)).toNat * msCycles, (pg s (0xC862 + 6 * g)).toNat)

/-- R321: whether a group is in its on phase at phase time e. -/
def blinkPhase (P phi D e : Nat) : Bool := decide (100 * ((e + P - phi) % P) < D * P)

/-- One group at a frame boundary (R182, R321); `F` are the CK_FRAME cycles since the last one. A change of PRE0
restarts group 0 while it is locked to the flasher too. DESIGN CHOICE (log 42). -/
def blinkGroup (s : State) (k : BlinkSt) (g F : Nat) : BlinkSt :=
  let en := bit s.disp.dblink (4 * g)
  let pre := fld s.disp.dblink (4 * g + 1) 2
  let e := if (en && !k.en) || pre != k.pre then 0 else k.e + F
  let t := blinkTiming s g pre
  let on := if g = 0 ∧ bit s.disp.dblink 3 then s.lamps.flOut else blinkPhase t.1 t.2.1 t.2.2 e
  { en := en, pre := pre, e := e, onPhase := on }

/-- Every group of a bank at a frame boundary; a disabled group shows its pixels. -/
def blinkBoundary (s : State) (b : Bank) (F : Nat) : State :=
  let x := getBank s b
  let n := Vector.ofFn (fun g : Fin 4 => blinkGroup s x.blink[g] g.val F)
  setBank s b { x with blink := n, blinkOn := n.map (fun k => !k.en || k.onPhase) }

/-- R581: a group enters the wanted phase at a boundary, from its states at the previous boundary and at this one. -/
def entersPhase (old new : BlinkSt) (edge : Bool) : Bool :=
  if edge then new.en && !new.onPhase && !(old.en && !old.onPhase)
  else new.en && new.onPhase && !(old.en && old.onPhase)

/-! ### Regions (R323 to R325) -/

/-- Whether region r is defined and locked. -/
def regionOn (s : State) (r : Fin 4) : Bool := pgb s (0xC8A0 + 8 * r.val) 15 && s.disp.rlock[r]

/-- The pixels of line c that region r covers on a bank in layer l, where it names them. -/
def regionPixels (s : State) (r : Fin 4) (b : Bank) (l c : Nat) : BitVec 128 :=
  let a := 0xC8A0 + 8 * r.val
  if regionOn s r ∧ pgb s a 8 = decide (b = .bankB) ∧ l < 4 ∧ pgb s a (9 + l) ∧ pgf s a 0 4 ≤ c ∧ c ≤ pgf s a 4 4
      ∧ pgf s (a + 2) 0 7 ≤ pgf s (a + 2) 8 7 then
    BitVec.ofNat 128 (2 ^ (pgf s (a + 2) 8 7 + 1) - 2 ^ pgf s (a + 2) 0 7)
  else 0

/-- The pixels of line c of a layer that a locked region covers. -/
def lockedPixels (s : State) (b : Bank) (l c : Nat) : BitVec 128 :=
  regionPixels s 0 b l c ||| regionPixels s 1 b l c ||| regionPixels s 2 b l c ||| regionPixels s 3 b l c

/-- R323: whether a window write to an address of a Decanter meets a locked region. -/
def decanterLocked (s : State) (a : Nat) : Bool :=
  let b := Bank.ofBit (decide (0x1000 ≤ a))
  let o := a % 0x1000
  let l := o / 0x300
  let c := o % 0x300 / 16
  decide (a < 0x2000 ∧ o < 0xF00 ∧ o % 0x300 < 0x100)
    && decide (lockedPixels s b l c &&& BitVec.ofNat 128 (0xFFFF * 2 ^ (16 * (o % 16 / 2))) ≠ 0)

/-- Lock a region (R323). -/
def lockRegion (s : State) (r : Fin 4) : State :=
  { s with disp := { s.disp with rlock := s.disp.rlock.set r true } }

/-! ### DLAYER and DBLINK -/

/-- R181: DLAYER selects a layer and clears its flags written 1. -/
def dlayerWrite (s : State) (p : Port) (v : Word) : State :=
  if 4 < fld v 0 3 then refuse s p eRANGE 0x22
  else
    let b := Bank.ofBit (bit v 3)
    let l := fld v 0 3
    let s := { s with disp := { s.disp with viewLayer := l, viewBank := b } }
    let y := getLayer (getBank s b) l
    setBank s b (setLayer (getBank s b) l
      { y with late := y.late && !bit v 5, super := y.super && !bit v 6, coal := y.coal && !bit v 7 })

/-- R181: DLAYER as it reads. PEND counts the current and the next batch, not a commit that is held or still in a write
buffer. DESIGN CHOICE (log 54). -/
def dlayerRead (s : State) : Word :=
  let y := getLayer (getBank s s.disp.viewBank) s.disp.viewLayer
  wordOf (s.disp.viewLayer + 8 * s.disp.viewBank.num + flag (y.cur.isSome || y.next.isSome) 4 + flag y.late 5
    + flag y.super 6 + flag y.coal 7 + 256 * (y.vint.toNat % 256))

/-- R182: DBLINK keeps its RW bits; its fields take effect at each bank's next frame boundary. -/
def dblinkWrite (s : State) (v : Word) : State := { s with disp := { s.disp with dblink := v &&& 0x777F } }

/-- DLAYER_WRITE (R181). -/
def execDlayerWrite (p : Port) (v : Word) (s : State) : Host.Outcome State Fault Refusal :=
  .next (gate s p 0x11 v (fun s w => dlayerWrite s p w))

/-- DBLINK_WRITE (R182). -/
def execDblinkWrite (p : Port) (v : Word) (s : State) : Host.Outcome State Fault Refusal :=
  .next (gate s p 0x12 v dblinkWrite)

end Sys2Proof.Machine
end

