-- ==== Sys2Proof/Machine/Anim.lean ====
section
/-! DEFINITION. The animation engine: boundary work, the eight instructions and BAR (R326 to R329, R335, R580, R581). -/

namespace Sys2Proof.Machine

open Sys2Proof

/-- An offset in the Animation cask, reduced modulo 0x2_0000 (R328). -/
def animAddr (o : Nat) : Nat := 0x10000 + o % 0x20000

/-- A word of the Animation cask. -/
def animWord (s : State) (o : Nat) : Word := readWord s (animAddr o)

/-- The ECC words that hold n words of the Animation cask from an offset, each once, in order. -/
def animWords (o n : Nat) : List Nat := ((List.range n).map (fun j => eccWord (animAddr (o + 2 * j)))).eraseDups

/-- Read n words of the Animation cask at L5, eight ECC words a burst (R13, R223): whether one is uncorrectable, and the
state after the reads (R219, R220). DESIGN CHOICE (log 49). -/
def animRead (s : State) (o n : Nat) : Bool × State :=
  ((animWords o n).any (eccBad s), grantLow ((animWords o n).foldl eccRead s) 5 (((animWords o n).length + 7) / 8))

/-! ### Writing pixels of the Animation Decanter (R325) -/

/-- Put the pixels of m of line c to those of v, but for locked ones, in one L5 burst that reads the line and writes
it; a line that changes is to be carried, and `anew` says that it changes whatever it holds (R18). DEDUCED (log 40).
The read of the line counts as one that finds an error (R219, R220) also where no pixel changes. DESIGN CHOICE (log
40). -/
def animPut (s : State) (b : Bank) (c : Nat) (anew : Bool) (m v : BitVec 128) : State :=
  let a := decLine b 2 c
  let m := m &&& ~~~ lockedPixels s b 2 c
  let old := readLine s a
  let new := (old &&& ~~~ m) ||| (v &&& m)
  let s := grantLow (eccReadN s a 2) 5 1
  if new = old ∧ (m = 0 ∨ !anew) then s
  else
    let s := storeLine s a new
    let t := (getBank s b).thr
    setThr s b { t with changed := t.changed ||| lineBit c }

/-- Pixels S0 to S1 of a line. -/
def segRange (s0 s1 : Nat) : BitVec 128 := BitVec.ofNat 128 (2 ^ (s1 + 1) - 2 ^ s0)

/-! ### Threads -/

/-- R328: a fault stops the thread and its bars. -/
def animFault (s : State) (b : Bank) (code : Nat) : State :=
  setThr s b { (getBank s b).thr with stat := 3, fcode := code, bars := Vector.replicate 4 none }

/-! ### BAR (R329, Table LAY-3) -/

/-- A bar's source value; the supply monitor's reading is a free value (log entry 8). -/
def barSource (s : State) (src : Nat) : Word :=
  match src with
  | 0 => bsoc s.estA
  | 1 => bsoc s.estB
  | 2 => s.batA.bva
  | 3 => s.batA.bia
  | 4 => s.batA.bta
  | 5 => Config.vsup s.freeCtr
  | 6 => s.disp.temp
  | _ => s.scratch

/-- Whether a source is compared as signed. -/
def barSigned (src : Nat) : Bool := src == 3 || src == 4 || src == 6

/-- A word as its source's comparison reads it. -/
def barNum (src : Nat) (v : Word) : Int := if barSigned src then v.toInt else v.toNat

/-- Whether a source reads unknown. -/
def barUnknown (src : Nat) (v : Word) : Bool :=
  ((src == 0 || src == 1) && v == 0xFFFF) || ((src == 3 || src == 4) && v == 0x8000)

/-- R329: k for a source value between LO and HI, LO < HI. -/
def barK (mode count : Nat) (q lo hi : Int) : Nat :=
  let n := (q - lo) * count
  let d := (hi - lo).toNat
  (clampInt 0 count (if mode % 2 = 0 then floorDiv n d else ceilDiv n d)).toNat

/-- Whether entry j of a bar with value k is lit. -/
def barLit (mode k j : Nat) : Bool := if mode < 2 then decide (j < k) else decide (j + 1 = k)

/-- Draw the entries of a bar whose state differs from that last rendered (R18, R326), in ascending order; the first
rendering draws every entry. The reserved bits 15:11 of a list entry are ignored. DEDUCED (log 40). DESIGN CHOICE (log 40). -/
def barDraw (s : State) (b : Bank) (i : Nat) (r : BarSt) (lit : Nat → Bool) : State :=
  let s := (List.range r.count).foldl (fun s j =>
    if r.shown[j]? = some (lit j) then s
    else
      let e := animWord s (r.list + 4 + 2 * j)
      let m := BitVec.ofNat 128 (2 ^ fld e 4 7)
      animPut s b (fld e 0 4) true m (if lit j then m else 0)) s
  let t := (getBank s b).thr
  setThr s b { t with bars := vset t.bars i (some { r with shown := (List.range r.count).map lit }) }

/-- R326 step 1 for one bar slot. BARK reads 0 while the source of the slot is unknown, and a bar that is stopped keeps
its last k. DEDUCED (log 40). DESIGN CHOICE (log 40). -/
def barRender (s : State) (b : Bank) (i : Nat) : State :=
  match vget (getBank s b).thr.bars i with
  | none => s
  | some r =>
    let rd := animRead s r.list (r.count + 2)
    if rd.1 then animFault rd.2 b 4
    else
      let s := rd.2
      let v := barSource s r.src
      let s := if r.src = 5 then { s with freeCtr := s.freeCtr + 1 } else s
      let lo := barNum r.src (animWord s r.list)
      let hi := barNum r.src (animWord s (r.list + 2))
      if hi ≤ lo then animFault s b 2
      else
        let unk := barUnknown r.src v
        let k := if unk then 0 else barK r.mode r.count (barNum r.src v) lo hi
        let t := (getBank s b).thr
        barDraw (setThr s b { t with unk := t.unk || unk, barK := vset t.barK i k }) b i r (barLit r.mode k)

/-! ### Boundary work (R326, R335, R580) -/

/-- Step 2 for one line: the Decanter line is racked into the idle copy by the engine, in one L5 burst. DEDUCED (log
40). DEDUCED (log 40). -/
def animCarry (s : State) (b : Bank) (c : Nat) : State :=
  if (getBank s b).thr.changed &&& lineBit c ≠ 0 ∧ c < frameLines (getBank s b).drv then
    let s := grantLow (eccReadN s (decLine b 2 c) 2) 5 1
    let s := intoIdle s b 2 c (readLine s (decLine b 2 c))
    let y := getLayer (getBank s b) 2
    let q := y.cur.getD ⟨0, 0, 0⟩
    setBank s b (setLayer (getBank s b) 2 { y with
      cur := some { q with named := q.named ||| lineBit c, racked := q.racked ||| lineBit c }
      catchup := y.catchup &&& ~~~ lineBit c })
  else s

/-- START of a thread (Table LAY-4). -/
def animStart (s : State) (b : Bank) : BitVec 17 :=
  BitVec.ofNat 17 ((pg s (0xC882 + 0x10 * b.num)).toNat + 0x10000 * pgf s (0xC884 + 0x10 * b.num) 0 1)

/-- Step 3: start, stop or resume the thread; `old` are the blink groups at the previous boundary. -/
def animResume (s : State) (b : Bank) (old : Vector BlinkSt 4) : State :=
  let x := getBank s b
  let t := { x.thr with execd := 0 }
  if t.startReq then
    setThr s b { t with startReq := false, stopReq := false, pc := animStart s b, stat := 1, fcode := 0
                        loops := Vector.replicate 4 0, waitN := 0, sync := none }
  else if t.stopReq then
    setThr s b { t with stopReq := false, stat := if t.stat = 3 then 3 else 0, waitN := 0, sync := none }
  else if t.stat = 2 then
    match t.sync with
    | some (g, edge) =>
      if entersPhase (vget old g) (vget x.blink g) edge then setThr s b { t with stat := 1, sync := none }
      else setThr s b t
    | none =>
      if t.waitN ≤ 1 then setThr s b { t with stat := 1, waitN := 0 } else setThr s b { t with waitN := t.waitN - 1 }
  else setThr s b t

/-- The engine's boundary work of a bank, after its layers and blink groups; the slots render from 0 to 3 (R326).
DEDUCED (log 40). DESIGN CHOICE (log 40). -/
def animBoundary (s : State) (b : Bank) (old : Vector BlinkSt 4) : State :=
  let t := (getBank s b).thr
  let t := if t.startReq || t.stopReq then { t with bars := Vector.replicate 4 none } else t
  let s := setThr s b { t with unk := false }
  let s := (List.range 4).foldl (fun s i => barRender s b i) s
  let s := (List.range 16).foldl (fun s c => animCarry s b c) s
  let s := setThr s b { (getBank s b).thr with changed := 0 }
  animResume s b old

/-! ### Instructions (Table LAY-2, R328) -/

/-- A field of an instruction. -/
def ifld (w : BitVec 64) (lo n : Nat) : Nat := w.toNat / 2 ^ lo % 2 ^ n

/-- The instruction at the thread's PC. -/
def animFetch (s : State) (b : Bank) : BitVec 64 :=
  BitVec.ofNat 64 (Cellar.getNat s.mem (animAddr (getBank s b).thr.pc.toNat) 8)

/-- The program counter after an instruction. -/
def nextPc (t : Thread) : BitVec 17 := t.pc + 8

/-- The instruction at PC is run: an ECC error in the fetch faults (Table CEL-3), a set reserved
bit faults with FCODE 1, and `body` does the rest. DEDUCED (log 40). -/
def animOne (s : State) (b : Bank) (rsvLo rsvN : Nat) (body : State → BitVec 64 → State) : State :=
  let a := animAddr (getBank s b).thr.pc.toNat
  let bad := eccBad s a
  let w := animFetch s b
  let s := grantLow (eccRead s a) 5 1
  let s := setThr s b { (getBank s b).thr with execd := (getBank s b).thr.execd + 1 }
  if bad then animFault s b 4
  else if ifld w rsvLo rsvN ≠ 0 then animFault s b 1
  else body s w

/-- Change the thread's PC. -/
def animGo (s : State) (b : Bank) (pc : BitVec 17) : State := setThr s b { (getBank s b).thr with pc := pc }

/-- Go on to the next instruction. -/
def animNext (s : State) (b : Bank) : State := animGo s b (nextPc (getBank s b).thr)

/-- Go to TARGET, or fault where it is not a multiple of 8. -/
def animTarget (s : State) (b : Bank) (w : BitVec 64) : State :=
  if ifld w 0 17 % 8 ≠ 0 then animFault s b 3 else animGo s b (BitVec.ofNat 17 (ifld w 0 17))

/-- END. -/
def doEnd (s : State) (b : Bank) : State :=
  let s := animNext s b
  setThr s b { (getBank s b).thr with stat := 0, bars := Vector.replicate 4 none }

/-- The word of a COPY source for word j of the whole copy, at its place in a line. -/
def copyLine (s : State) (src w0 n k : Nat) : BitVec 128 :=
  (List.range n).foldl (fun v j =>
    v ||| BitVec.ofNat 128 ((animWord s (src + 2 * (k * n + j))).toNat * 2 ^ (16 * (w0 + j)))) 0

/-- COPY. DEDUCED (log 40). -/
def doCopy (s : State) (b : Bank) (w : BitVec 64) : State :=
  let l0 := ifld w 57 4
  let l1 := ifld w 53 4
  let w0 := ifld w 50 3
  let w1 := ifld w 47 3
  let src := ifld w 0 17
  if l1 < l0 ∨ w1 < w0 then animFault s b 2
  else if src % 2 = 1 then animFault s b 3
  else
    let n := w1 + 1 - w0
    let rd := animRead s src ((l1 + 1 - l0) * n)
    if rd.1 then animFault rd.2 b 4
    else
      let m := segRange (16 * w0) (16 * w1 + 15)
      animNext ((List.range (l1 + 1 - l0)).foldl (fun s k => animPut s b (l0 + k) false m (copyLine s src w0 n k)) rd.2) b

/-- FILL. -/
def doFill (s : State) (b : Bank) (w : BitVec 64) : State :=
  let l0 := ifld w 57 4
  let l1 := ifld w 53 4
  let s0 := ifld w 46 7
  let s1 := ifld w 39 7
  if l1 < l0 ∨ s1 < s0 then animFault s b 2
  else
    let m := segRange s0 s1
    let v := if ifld w 38 1 = 1 then m else 0
    animNext ((List.range (l1 + 1 - l0)).foldl (fun s k => animPut s b (l0 + k) false m v) s) b

/-- WAIT. -/
def doWait (s : State) (b : Bank) (w : BitVec 64) : State :=
  if ifld w 0 12 = 0 then animFault s b 2
  else
    let s := animNext s b
    setThr s b { (getBank s b).thr with stat := 2, waitN := ifld w 0 12, sync := none }

/-- LOOP: counter C is loaded with N where it is 0; N = 0 loops without end. DEDUCED (log 40). -/
def doLoop (s : State) (b : Bank) (w : BitVec 64) : State :=
  let t := (getBank s b).thr
  let c := ifld w 59 2
  let n := ifld w 32 12
  if ifld w 17 15 ≠ 0 then animFault s b 1
  else if ifld w 0 17 % 8 ≠ 0 then animFault s b 3
  else if n = 0 then animTarget s b w
  else
    let k := (if vget t.loops c = 0 then n else vget t.loops c) - 1
    let s := setThr s b { t with loops := vset t.loops c k }
    if k = 0 then animNext s b else animTarget s b w

/-- SYNC. -/
def doSync (s : State) (b : Bank) (w : BitVec 64) : State :=
  let s := animNext s b
  setThr s b { (getBank s b).thr with stat := 2, waitN := 0, sync := some (ifld w 59 2, decide (ifld w 58 1 = 1)) }

/-- BAR: start or stop a bar slot; a start checks that HI exceeds LO. DEDUCED (log 40). -/
def doBar (s : State) (b : Bank) (w : BitVec 64) : State :=
  let i := ifld w 59 2
  let src := ifld w 56 3
  let list := ifld w 0 17
  if list % 2 = 1 then animFault s b 3
  else if ifld w 53 1 = 1 then
    let t := (getBank s b).thr
    animNext (setThr s b { t with bars := vset t.bars i none }) b
  else
    let rd := animRead s list 2
    if rd.1 then animFault rd.2 b 4
    else
      let s := rd.2
      if barNum src (animWord s (list + 2)) ≤ barNum src (animWord s list) then animFault s b 2
      else
        let t := (getBank s b).thr
        animNext (setThr s b { t with
          bars := vset t.bars i (some { src := src, mode := ifld w 54 2, count := ifld w 47 6 + 1, list := list, shown := [] }) }) b

/-- R327: 64 instructions have run: the thread resumes at the next boundary. -/
def animLimit (s : State) (b : Bank) : State :=
  let t := (getBank s b).thr
  if t.stat = 1 ∧ 64 ≤ t.execd then setThr s b { t with stat := 2, waitN := 1, sync := none } else s

/-! ### One instruction by its opcode (Table LAY-2) -/

/-- The instruction at PC with an opcode: its reserved bits, and its effect. -/
def animInstr (s : State) (b : Bank) : Nat → State
  | 0 => animOne s b 0 61 (fun s _ => doEnd s b)
  | 1 => animOne s b 17 30 (fun s w => doCopy s b w)
  | 2 => animOne s b 0 38 (fun s w => doFill s b w)
  | 3 => animOne s b 12 49 (fun s w => doWait s b w)
  | 4 => animOne s b 44 15 (fun s w => doLoop s b w)
  | 5 => animOne s b 0 58 (fun s w => doSync s b w)
  | 6 => animOne s b 17 30 (fun s w => doBar s b w)
  | _ => animOne s b 17 44 (fun s w => animTarget s b w)

/-- The opcode at PC. -/
def animOp (s : State) (b : Bank) : Nat := ifld (animFetch s b) 61 3

/-- Run the instruction at PC where the thread runs, fewer than 64 instructions have run since the boundary, its opcode
is `op` (or its fetch fails), and the arbiter grants its L5 burst (R13, R224, R327). DEDUCED (log 40).
DESIGN CHOICE (log 49). -/
def animRun (s : State) (b : Bank) (ups : List Upset) (op : Nat) : State :=
  let u := upsets s ups
  if threadReq s b ∧ (eccBad u (animAddr (getBank s b).thr.pc.toNat) ∨ animOp u b = op) then
    granted s (.low 5) (fun s => animInstr (upsets s ups) b op)
  else s

/-! ### The commands -/

/-- END (opcode 0): every other bit is reserved. -/
def execAnimEnd (b : Bank) (ups : List Upset) (s : State) : Host.Outcome State Fault Refusal := .next (animRun s b ups 0)

/-- COPY (opcode 1): bits 46:17 are reserved. -/
def execAnimCopy (b : Bank) (ups : List Upset) (s : State) : Host.Outcome State Fault Refusal := .next (animRun s b ups 1)

/-- FILL (opcode 2): bits 37:0 are reserved. -/
def execAnimFill (b : Bank) (ups : List Upset) (s : State) : Host.Outcome State Fault Refusal := .next (animRun s b ups 2)

/-- WAIT (opcode 3): bits 60:12 are reserved. -/
def execAnimWait (b : Bank) (ups : List Upset) (s : State) : Host.Outcome State Fault Refusal := .next (animRun s b ups 3)

/-- LOOP (opcode 4): bits 58:44 and 31:17 are reserved. -/
def execAnimLoop (b : Bank) (ups : List Upset) (s : State) : Host.Outcome State Fault Refusal := .next (animRun s b ups 4)

/-- SYNC (opcode 5): bits 57:0 are reserved. -/
def execAnimSync (b : Bank) (ups : List Upset) (s : State) : Host.Outcome State Fault Refusal := .next (animRun s b ups 5)

/-- BAR (opcode 6): bits 46:17 are reserved. -/
def execAnimBar (b : Bank) (ups : List Upset) (s : State) : Host.Outcome State Fault Refusal := .next (animRun s b ups 6)

/-- JUMP (opcode 7): bits 60:17 are reserved. -/
def execAnimJump (b : Bank) (ups : List Upset) (s : State) : Host.Outcome State Fault Refusal := .next (animRun s b ups 7)

/-- INSTRUCTION_LIMIT (R327). -/
def execInstructionLimit (b : Bank) (s : State) : Host.Outcome State Fault Refusal := .next (animLimit s b)

end Sys2Proof.Machine
end

