-- ==== Sys2Proof/Machine/Time.lean ====
section
/-! DEFINITION. The real-time clock, its alarm, the backup timekeeper, the wake inputs and the die temperature
("Timekeeping, wake, crack loop and fault reactions", R199 to R201, R207). -/

namespace Sys2Proof.Machine

open Sys2Proof

/-! ### WAKESTAT latches and wake events -/

/-- WAKESTAT bit numbers (Table REG-33). -/
abbrev wkIGN : Nat := 0
abbrev wkCHG : Nat := 1
abbrev wkKWAKE : Nat := 2
abbrev wkALARM : Nat := 3
abbrev wkPACK : Nat := 4
abbrev wkVLOW : Nat := 5
abbrev wkRED : Nat := 6
abbrev wkCOL : Nat := 7

/-- Latch a WAKESTAT bit; IRQSTAT.WAKE is set where the bit becomes 1 (Table REG-5). -/
def latchWake (s : State) (i : Nat) : State :=
  let was := s.aon.latch.getLsbD i
  let s := { s with aon := { s.aon with latch := s.aon.latch ||| BitVec.ofNat 8 (2 ^ i) } }
  if was then s else setIrq s irqWAKE

/-- R149: a heartbeat miss is declared: IRQSTAT.HB and PORTCTL.FALLBK are set, once an episode. DEDUCED (log 36). -/
def declareMiss (s : State) : State :=
  lampsSettle (setIrq { s with roles := { s.roles with fallbk := true, hbMissed := true, fbEnding := false
                                                       fbBeat := none } } irqHB)

/-- R148: the heartbeat is supervised now, and no miss of this episode has been declared. -/
def hbSupervised (s : State) : Bool :=
  pgb s 0xEC00 0 && slotsRun s && s.pw.trans == .idle && !s.roles.hbMissed

/-- R148: HB_PERIOD has passed since the latest event the supervision counts from. DEDUCED (log 36). -/
def hbOverdue (s : State) : Bool :=
  hbSupervised s && decide (s.roles.hbRef + (pg s 0xEC02).toNat * msCycles < s.now)

/-- R86, R163: a SLEEP entry is abandoned; a miss that is overdue by then is declared. -/
def abandonSleep (s : State) : State :=
  let s := setIrq { s with pw := { s.pw with trans := .idle } } irqWAKE
  if hbOverdue s then declareMiss s else s

/-- A wake event of a source (R514): in SLEEP the exit of R79 begins; during SLEEP entry the entry is abandoned (R86).
A source that WAKECTL does not enable wakes nothing. -/
def wakeEvent (s : State) (i : Nat) : State :=
  if bit s.aon.wakeIs i then
    if s.pw.trans = .toSleep then abandonSleep s else startWake s
  else s

/-- The filtered level of a wake input. -/
def wakeLevel (s : State) : WakeIn → Bool
  | .ign => s.aon.ign
  | .chg => s.aon.chg
  | .kwake => s.aon.kw

/-- The WAKESTAT bit of a wake input. -/
def wakeBit : WakeIn → Nat
  | .ign => wkIGN
  | .chg => wkCHG
  | .kwake => wkKWAKE

/-- Set the filtered level of a wake input; KW_POL takes effect here (R523). -/
def setWakeLevel (s : State) (i : WakeIn) (l : Bool) : State :=
  match i with
  | .ign => { s with aon := { s.aon with ign := l } }
  | .chg => { s with aon := { s.aon with chg := l } }
  | .kwake => { s with aon := { s.aon with kw := l, kwPolNow := pgb s 0xEC0A 0 } }

/-- Whether a level is the one whose change wakes (Table DIA-1). -/
def isWakeLevel (s : State) (i : WakeIn) (l : Bool) : Bool :=
  match i with
  | .ign => l
  | .chg => l
  | .kwake => l != s.aon.kwPolNow

/-- R512 to R514: the filtered level of an input changes, its latch is set, and a change to the wake level is a wake
event. The filter runs on CK_AON; a level that already holds is no change. -/
def wakeInput (s : State) (i : WakeIn) (l : Bool) : State :=
  if ckAon s ∧ wakeLevel s i ≠ l then
    let s := latchWake (setWakeLevel s i l) (wakeBit i)
    if isWakeLevel s i l then wakeEvent s (wakeBit i) else s
  else s

/-- R47, R77: before root confirmation, or while the root is lost in SLEEP, an edge is latched unfiltered. -/
def wakeEdge (s : State) (i : WakeIn) : State :=
  if islandOn s ∧ !ckAon s then latchWake s (wakeBit i) else s

/-- R515: whether an enabled source is active. -/
def wakeActive (s : State) : Bool :=
  let en := s.aon.wakectl.truncate 8 &&& (0x3F : Byte)
  decide (s.aon.latch &&& en ≠ 0)
    || (bit s.aon.wakectl wkIGN && s.aon.ign) || (bit s.aon.wakectl wkCHG && s.aon.chg)
    || (bit s.aon.wakectl wkKWAKE && isWakeLevel s .kwake s.aon.kw) || (bit s.aon.wakectl wkVLOW && s.aon.vlowTrip)

/-- Whether WAKECTL enables a source (Table PWR-1). DEDUCED (log 28). -/
def wakeEnabled (s : State) : Bool := decide (s.aon.wakectl &&& 0x3F ≠ 0)

/-! ### The RTC -/

/-- A second that ends when the count becomes a multiple of 64 is a calibration second (R509). -/
def calSecond (sec : BitVec 32) : Bool := decide (sec.toNat % 64 = 63)

/-- RTC_CAL, two's complement (Table DIA-3). -/
def rtcCal (s : State) : Int := (pg s 0xEC08).toInt

/-- Start a second: a calibration second takes its number of edges to adjust from RTC_CAL (R509, R523).
DESIGN CHOICE (log 7). -/
def startSecond (s : State) (sec : BitVec 32) (cal : Bool) : State :=
  { s with aon := { s.aon with sec := sec, sub := 0, edges := 0
                               calLeft := if cal then (rtcCal s).natAbs else 0
                               calNeg := cal && decide (rtcCal s < 0) } }

/-- BKSEC takes the RTC's count while it follows it (R511), in CORK-ENTRY and a warm boot as in STANDBY, RUN and SLEEP.
DEDUCED (log 13). -/
def backupFollow (s : State) : State :=
  if s.bak.powered ∧ s.bak.follow then { s with bak := { s.bak with sec := s.aon.sec } } else s

/-- R42, R48: the RTC has counted on the substitute clock; a clear of TIMESUB in holdover lasts until the next count.
DEDUCED (log 30). -/
def substituted (s : State) : State :=
  { s with clk := { s.clk with timeSub := s.clk.timeSub || (s.clk.hold && active s) } }

/-- R508, R510: RTC_SUB passes 32 767: the seconds count increments, an armed alarm counts down. DEDUCED (log 29). -/
def rtcSecond (s : State) : State :=
  if ckAon s then
    let s := substituted s
    let sec := s.aon.sec + 1
    let s := startSecond s sec (calSecond sec)
    backupFollow { s with aon := { s.aon with alarm := s.aon.alarm.map (· - 1) } }
  else s

/-- R508, R509: one rising edge of CK_AON inside a second. The count stops at 32 767 until the command RTC_SECOND.
DESIGN CHOICE (log 7). DEDUCED (log 29). -/
def aonEdge (s : State) : State :=
  let s := substituted s
  let a := s.aon
  let forced := if a.calNeg then decide (a.sub = 32767) else decide (32768 ≤ a.sub + 2 * a.calLeft)
  let adj := decide (0 < a.calLeft) && (Config.calEdge a.sec a.edges || forced)
  let step := if adj then (if a.calNeg then 0 else 2) else 1
  { s with aon := { a with sub := min 32767 (a.sub + step), edges := a.edges + 1
                           calLeft := if adj then a.calLeft - 1 else a.calLeft } }

/-- R510: an armed alarm whose count has reached 0 fires. -/
def alarmFires (s : State) : State :=
  if s.aon.alarm = some 0 ∧ islandOn s then
    let s := { s with aon := { s.aon with alarm := none } }
    wakeEvent (setIrq (latchWake s wkALARM) irqALARM) wkALARM
  else s

/-- R511: BKSEC counts a second of root cycles on its own. DEDUCED (log 13). -/
def backupSecond (s : State) : State :=
  if s.bak.powered ∧ !s.bak.follow ∧ s.pw.mode ≠ .cork then { s with bak := { s.bak with sec := s.bak.sec + 1 } } else s

/-- R511: VBKUP leaves its range: the backup domain loses its supply, BKSEC and BKV read 0. In OFF the crystal, which
VBKUP alone fed, stops (R33, R554). DEDUCED (log 13). -/
def vbkupLoss (s : State) : State :=
  { s with clk := { s.clk with xtalRuns := s.clk.xtalRuns && s.pw.mode != .off }
           bak := { powered := false, sec := 0, bkv := false, follow := s.bak.follow, unbroken := false } }

/-- R511: VBKUP comes into its range: BKSEC follows the RTC where RTC_H has been written since the cold boot, and counts from
0 on its own until then. DEDUCED (log 13). -/
def vbkupReturn (s : State) : State :=
  if s.bak.powered then s else backupFollow { s with bak := { s.bak with powered := true, sec := 0 } }

/-! ### VSUP-low comparator (R516) -/

def vlowTrips (s : State) : State :=
  if islandOn s ∧ !s.aon.vlowTrip then { s with aon := { s.aon with vlowTrip := true, vlowTimer := true } } else s

def vlowReleases (s : State) : State :=
  if islandOn s then { s with aon := { s.aon with vlowTrip := false, vlowTimer := false } } else s

/-- VSUP has been below VLOW_LVL for 1 s: WAKESTAT.VLOW latches, once a trip, and wakes where enabled (Table DIA-1). -/
def vlowLatches (s : State) : State :=
  if islandOn s ∧ s.aon.vlowTrip ∧ s.aon.vlowTimer then
    wakeEvent (latchWake { s with aon := { s.aon with vlowTimer := false } } wkVLOW) wkVLOW
  else s

/-! ### Register writes (R200, R201) -/

/-- Queue a write on its way to the island (R39). -/
def aonPush (s : State) (w : AonWrite) : State := { s with aon := { s.aon with q := s.aon.q ++ [w] } }

/-- R200: RTC_L is held for the port's next RTC_H write. -/
def rtcLWrite (s : State) (p : Port) (v : Word) : State := setPort s p { getPort s p with rtcHold := some v }

/-- R200: RTC_H sets the seconds count from the held RTC_L, or is refused with STATE. -/
def rtcHWrite (s : State) (p : Port) (v : Word) : State :=
  match (getPort s p).rtcHold with
  | none => refuse s p eSTATE 0x56
  | some l => aonPush (setPort s p { getPort s p with rtcHold := none }) (.rtc (v ++ l))

def rtcAlmWrite (s : State) (v : Word) : State := aonPush s (.alm v)

/-- WAKECTL keeps bits 5:0 and 9:8 (Table REG-32). It reads back at once and governs the SLEEP condition; the island
has it later (R99, R201). DEDUCED (log 28). -/
def wakectlWrite (s : State) (v : Word) : State :=
  aonPush { s with aon := { s.aon with wakectl := v &&& 0x033F } } (.wakectl (v &&& 0x033F))

/-- R201: ones clear WAKESTAT latches at once; the island learns of it later. DEDUCED (log 28). -/
def wakestatWrite (s : State) (v : Word) : State :=
  aonPush { s with aon := { s.aon with latch := s.aon.latch &&& ~~~ (loByte v) } } (.wakestat (v &&& 0xFF))

/-- R39, R200, R201, R525, R527: the oldest write reaches the island. A clear has already taken effect. An alarm whose
count has reached 0 fires before a write of RTC_ALM replaces it. DEDUCED (log 28). DEDUCED (log 29).
DEDUCED (log 13). -/
def aonArrive (s : State) : State :=
  if ckAon s then
    match s.aon.q with
    | [] => s
    | w :: rest =>
      let s := { s with aon := { s.aon with q := rest } }
      match w with
      | .rtc secs =>
        let s := startSecond s secs (calSecond secs && !calSecond s.aon.sec)
        let s := { s with aon := { s.aon with phase := 0 } }
        backupFollow { s with bak := { s.bak with follow := true } }
      | .alm n =>
        let s := alarmFires s
        { s with aon := { s.aon with alarm := if n = 0 then none else some n.toNat } }
      | .wakectl v => { s with aon := { s.aon with wakeIs := v } }
      | .wakestat _ => s
  else s

/-! ### Register reads (R199) -/

/-- A read of RTC_L: the low seconds word, and the port's snapshot of RTC_H and RTC_SUB from the same instant. -/
def rtcLReadOp (s : State) (p : Port) : Word × State :=
  let hi := wordOf (s.aon.sec.toNat / 0x10000)
  (wordOf s.aon.sec.toNat,
   setPort s p { getPort s p with rtcSnap := some (hi, wordOf s.aon.sub) })

def rtcHRead (s : State) (p : Port) : Word :=
  match (getPort s p).rtcSnap with
  | some (h, _) => h
  | none => wordOf (s.aon.sec.toNat / 0x10000)

def rtcSubRead (s : State) (p : Port) : Word :=
  match (getPort s p).rtcSnap with
  | some (_, b) => b
  | none => wordOf s.aon.sub

/-- The value of an RTC_ALM write on its way to the island. -/
def almWritten : AonWrite → Option Word
  | .alm v => some v
  | _ => none

/-- RTC_ALM reads the value written last while that is on its way to the island (R99), and from then on the remaining
count (R201). DEDUCED (log 28). -/
def rtcAlmRead (s : State) : Word :=
  match (s.aon.q.filterMap almWritten).getLast? with
  | some v => v
  | none => wordOf (s.aon.alarm.getD 0)

def wakestatRead (s : State) : Word :=
  wordOf (s.aon.latch.toNat + flag s.aon.ign 8 + flag s.aon.chg 9 + flag s.aon.kw 10)

/-! ### Die temperature (R202, R521) -/

/-- TEMP takes the highest die sensor's reading; above TWARN it sets TWARN_F. -/
def tempUpdate (s : State) (t : Word) : State :=
  if active s then
    let hot := decide ((pg s 0xEC0E).toNat * 10 < t.toInt)
    { s with disp := { s.disp with temp := t, twarnF := s.disp.twarnF || hot } }
  else s

/-! ### The commands -/

/-- RTC_L_READ (R199). -/
def execRtcLRead (p : Port) (s : State) : Host.Outcome State Fault Refusal :=
  .next (readGate s p 0x2A (fun s => rtcLReadOp s p))

/-- RTC_L_WRITE (R200). -/
def execRtcLWrite (p : Port) (v : Word) (s : State) : Host.Outcome State Fault Refusal :=
  .next (gate s p 0x2A v (fun s w => rtcLWrite s p w))

/-- RTC_H_WRITE (R200, R207). -/
def execRtcHWrite (p : Port) (v : Word) (s : State) : Host.Outcome State Fault Refusal :=
  .next (gate s p 0x2B v (fun s w => rtcHWrite s p w))

/-- RTC_ALM_WRITE (R201). -/
def execRtcAlmWrite (p : Port) (v : Word) (s : State) : Host.Outcome State Fault Refusal :=
  .next (gate s p 0x2D v rtcAlmWrite)

/-- WAKESTAT_CLEAR (R201). -/
def execWakestatClear (p : Port) (v : Word) (s : State) : Host.Outcome State Fault Refusal :=
  .next (gate s p 0x2F v wakestatWrite)

/-- AON_WRITE_ARRIVAL (R39). -/
def execAonWriteArrival (s : State) : Host.Outcome State Fault Refusal := .next (aonArrive s)

/-- RTC_SECOND (R508). -/
def execRtcSecond (s : State) : Host.Outcome State Fault Refusal := .next (rtcSecond s)

/-- ALARM (R510). -/
def execAlarm (s : State) : Host.Outcome State Fault Refusal := .next (alarmFires s)

/-- BACKUP_SECOND (R511). -/
def execBackupSecond (s : State) : Host.Outcome State Fault Refusal := .next (backupSecond s)

/-- WAKE_INPUT_CHANGE (R512). -/
def execWakeInputChange (i : WakeIn) (level : Bool) (s : State) : Host.Outcome State Fault Refusal :=
  .next (wakeInput s i level)

/-- WAKE_EDGE_UNFILTERED (R47, R77). -/
def execWakeEdgeUnfiltered (i : WakeIn) (s : State) : Host.Outcome State Fault Refusal := .next (wakeEdge s i)

/-- VSUP_LOW (R516). -/
def execVsupLow (s : State) : Host.Outcome State Fault Refusal := .next (vlowLatches s)

/-- VSUP_LOW_TRIP (R516). -/
def execVsupLowTrip (s : State) : Host.Outcome State Fault Refusal := .next (vlowTrips s)

/-- VSUP_LOW_RELEASE (R516). -/
def execVsupLowRelease (s : State) : Host.Outcome State Fault Refusal := .next (vlowReleases s)

/-- VBKUP_LOSS (R511). -/
def execVbkupLoss (s : State) : Host.Outcome State Fault Refusal := .next (vbkupLoss s)

/-- VBKUP_RETURN (R511). -/
def execVbkupReturn (s : State) : Host.Outcome State Fault Refusal := .next (vbkupReturn s)

/-- TEMP_UPDATE (R202). -/
def execTempUpdate (t : Word) (s : State) : Host.Outcome State Fault Refusal := .next (tempUpdate s t)

end Sys2Proof.Machine
end

