-- ==== Sys2Proof/Machine/Drive.lean ====
section
/-! DEFINITION. Segment drive: the bank sequence of Table DRV-5, slots and frames, contrast trim, the crack loop, and the
DCTL, DPWR, DSTAT, DVLCD and DCRACK registers ("Segment drive, bias and glass power", R177 to R179, R183, R184,
R517 to R520). -/

namespace Sys2Proof.Machine

open Sys2Proof

/-- The base of a bank's display-drive block (Table DRV-6). -/
def drivePage (b : Bank) : Nat := 0xC000 + 0x40 * b.num

/-! ### Contrast trim (R253 to R257) -/

/-- R254: the effective target. -/
def trimEff (t : Trim) : Int := clampInt (-128) 127 (t.target + if t.tcompNow then t.tc else 0)

/-- Set IRQSTAT.VLCD and disarm where an armed trim is at its effective target (R257). -/
def trimArrived (s : State) (b : Bank) : State :=
  let t := (getBank s b).trim
  if t.armed ∧ t.now = trimEff t then setIrq (setTrim s b { t with armed := false }) irqVLCD else s

/-- What follows a change of the target: while VLEN is low the present code takes it at once (R256). A slew that a fall of
VLEN has stopped stands, with the target unchanged, until the next update of TC or write of DVLCD, which sets the present
code. DESIGN CHOICE (log 42). -/
def trimRetarget (s : State) (b : Bank) : State :=
  let x := getBank s b
  if vlen x.drv then trimArrived s b else setTrim s b { x.trim with now := trimEff x.trim }

/-- One trim step (R256); the slew written takes effect with it (R183). -/
def trimStep (s : State) (b : Bank) : State :=
  let x := getBank s b
  let t := x.trim
  if vlen x.drv ∧ t.now ≠ trimEff t then
    trimArrived (setTrim s b { t with now := if t.now < trimEff t then t.now + 1 else t.now - 1, slewNow := t.slew }) b
  else s

/-- An entry of the temperature-compensation table, two's complement (Table DRV-6). -/
def tcEntry (s : State) (b : Bank) (i : Nat) : Int :=
  let w := pg s (drivePage b + 8 + 2 * (i / 2))
  ((if i % 2 = 0 then loByte w else hiByte w)).toInt

/-- R255: TC(T), T in 0.1 °C: linear between the entries at −40, −20, … 100 °C, to the nearest code. -/
def tcValue (e : Nat → Int) (t : Int) : Int :=
  if t ≤ -400 then e 0
  else if 1000 ≤ t then e 7
  else
    let i := ((t + 400) / 200).toNat
    roundAway (e i * 200 + (e (i + 1) - e i) * ((t + 400) % 200)) 200

/-- The temperature that R255 takes. -/
def tcTemp (s : State) (b : Bank) : Int :=
  if pgb s (drivePage b + 6) 12 ∧ s.batA.bta ≠ 0x8000 then s.batA.bta.toInt else s.disp.temp.toInt

/-- The 10 ms update of one bank (R255, R257, R272). -/
def tcBank (s : State) (b : Bank) : State :=
  let t := (getBank s b).trim
  trimRetarget (setTrim s b { t with tc := tcValue (tcEntry s b) (tcTemp s b), tcompNow := t.tcomp }) b

/-- Every DVLCD write sets the view to the bank it names (R183). -/
def dvlcdShow (s : State) (v : Word) : State := { s with disp := { s.disp with dvlcdView := Bank.ofBit (bit v 15) } }

/-- TRIM, SLEW and TCOMP take effect on a bank (R183, R256); `arms` says that the write was made while VLEN was high and
arms the trim interrupt (R257). -/
def trimTakes (s : State) (b : Bank) (w : Int × Nat × Bool) (arms : Bool) : State :=
  let x := getBank s b
  trimRetarget (setTrim s b { x.trim with target := w.1, slew := w.2.1, tcomp := w.2.2, wait := none, waitArm := false
                                          armed := arms }) b

/-- TRIM, SLEW and TCOMP of a DVLCD word (Table REG-12). -/
def trimFields (v : Word) : Int × Nat × Bool := ((loByte v).toInt, fld v 8 2, bit v 10)

/-- The fields of a DVLCD write take effect on the bank it names, in place of those that wait there (R99, R183). -/
def dvlcdFields (s : State) (v : Word) : State :=
  let b := Bank.ofBit (bit v 15)
  trimTakes s b (trimFields v) (vlen (getBank s b).drv)

/-- R183: DVLCD. A write with VIEW sets the view only. DEDUCED (log 42). -/
def dvlcdWrite (s : State) (v : Word) : State :=
  if bit v 14 then dvlcdShow s v else dvlcdFields (dvlcdShow s v) v

/-- Whether a bank's trim is slewing (R254). -/
def trimBusy (x : BankSt) : Bool := vlen x.drv && decide (x.trim.now ≠ trimEff x.trim)

/-- DVLCD as it reads: the fields as written, whether or not they wait for a frame boundary (R99, R208).
DEDUCED (log 60). -/
def dvlcdRead (s : State) : Word :=
  let x := getBank s s.disp.dvlcdView
  let w := x.trim.wait.getD (x.trim.target, x.trim.slew, x.trim.tcomp)
  wordOf ((BitVec.ofInt 8 w.1).toNat + 256 * w.2.1 + flag w.2.2 10 + flag (trimBusy x) 12 + 0x8000 * s.disp.dvlcdView.num)

/-! ### The crack loop (R517 to R520) -/

/-- The base of a bank's crack block (Table DIA-3). -/
def crackPage (b : Bank) : Nat := 0xEC20 + 0x10 * b.num

/-- Learning starts, or is skipped with BASE_FIX in force (R518). The measurements that TREND_R is the mean of stay:
they go back to the entry to state 3 (R517). DEDUCED (log 15). -/
def crackLearn (s : State) (b : Bank) : State :=
  let c := (getBank s b).crack
  if c.en then
    setCrack s b { c with sta := if c.fixNow then 2 else 1, learned := 0, learnSum := 0, baseBad := false
                          openRun := 0, leakRun := 0, startNext := false }
  else setCrack s b { c with startNext := false }

/-- Entry to state 3: BASE_FIX and BASE_SET take effect (R518, R520, R523). -/
def crackEntry (s : State) (b : Bank) : State :=
  let c := (getBank s b).crack
  let fix := pgb s (crackPage b + 8) 0
  crackLearn (setCrack s b { c with fixNow := fix
                                    base := if fix then (pg s (crackPage b + 6)).toNat else c.base
                                    recent := [], learned := 0, learnSum := 0 }) b

/-- The place of a status code in the list of R519; a code is replaced only by one above it. -/
def crackRank : Nat → Nat
  | 4 => 0
  | 5 => 1
  | 6 => 2
  | 3 => 3
  | 1 => 4
  | _ => 5

/-- R519: the first code that applies. No drift test is made while the baseline is being learned (log entry 15). -/
def crackCode (c : Crack) (drift : Nat) : Nat :=
  let learning := !c.fixNow && decide (c.learned < 8)
  if 2 ≤ c.openRun then 4
  else if 2 ≤ c.leakRun then 5
  else if c.baseBad then 6
  else if !learning ∧ c.base * (100 + drift) ≤ 100 * c.trendR then 3
  else if learning then 1
  else 2

/-- Record one measurement (R517, R518): leakage in frame 0 of each group of 16, resistance in the others.
DEDUCED (log 15). -/
def crackRecord (s : State) (c : Crack) (frame m : Nat) : Crack :=
  if frame % 16 = 0 then
    { c with leakNa := min 0xFFFF m, leakRun := if (pg s 0xEC12).toNat * 100 < m then c.leakRun + 1 else 0 }
  else
    let r := min 6000 m
    let recent := (c.recent ++ [r]).drop ((c.recent.length + 1) - 16)
    let learn := !c.fixNow && decide (c.learned < 8)
    let n := if learn then c.learned + 1 else c.learned
    let sum := if learn then c.learnSum + r else c.learnSum
    let done := learn && decide (n = 8)
    { c with
      loopR := r, recent := recent, trendR := (roundOpen (recent.foldl (· + ·) 0 : Nat) recent.length).toNat
      openRun := if 5000 < m then c.openRun + 1 else 0
      learned := n, learnSum := sum
      base := if done then (roundOpen sum 8).toNat else c.base
      baseBad := if done then decide (sum < 8 * 50 ∨ 8 * 500 < sum) else c.baseBad }

/-! ### The L0 burst of a slot (R226, R306, R312, R314) -/

/-- A slot's burst has the Cellar at L0. -/
def l0Burst (s : State) (b : Bank) (q : Burst) : State :=
  let s := burstWork s b q
  { s with arb := { s.arb with l0At := some s.now } }

/-- A bank's waiting burst runs. -/
def burstRuns (s : State) (b : Bank) : State :=
  let d := (getBank s b).drv
  match d.burst with
  | none => s
  | some q => l0Burst (setDrv s b { d with burst := none }) b q

/-- R226: a burst of the bank has no place in this CK_FRAME cycle: an L0 burst has run in it already, or bank A's slot work
falls in the cycle of bank B's. DESIGN CHOICE (log 49). -/
def l0Taken (s : State) (b : Bank) : Bool := s.arb.l0At == some s.now || (b == .bankB && slotDueNow s .bankA)

/-- R226: a slot's burst is presented at its CK_FRAME edge, or at the next one where the edge is taken.
DESIGN CHOICE (log 49). -/
def burstDue (s : State) (b : Bank) (q : Burst) : State :=
  if l0Taken s b then setDrv s b { (getBank s b).drv with burst := some q } else l0Burst s b q

/-- A frame boundary or the next slot comes while a burst of the bank still waits: it runs first, or, where the edge is
taken (R226), its lines go back to their batches. DEDUCED (log 54). -/
def burstSettled (s : State) (b : Bank) : State :=
  let d := (getBank s b).drv
  match d.burst with
  | none => s
  | some q => if l0Taken s b then linesReturned (setDrv s b { d with burst := none }) b q else burstRuns s b

/-- At a CK_FRAME edge bank A's waiting burst goes first, and bank B's waits for the next edge (R226). -/
def burstEdge (s : State) : State :=
  if s.bankA.drv.burst.isSome then burstRuns s .bankA else burstRuns s .bankB

/-! ### The bank sequence (Table DRV-5) -/

/-- Slot records that a cut leaves: the last one is shortened to what has run of it (R283). DEDUCED (log 26). -/
def cutRecs (d : Drive) (now : Nat) (l : List SlotRec) : List SlotRec :=
  l.mapIdx (fun i r => if i + 1 = l.length then { r with cycles := min r.cycles (now - d.slotAt) } else r)

/-- Frames of a settle, rounded up (Table BAL-5). DESIGN CHOICE (log 6). DEDUCED (log 39). -/
def settleFrames (d : Drive) : Nat := (d.setSlots + frameSlots d - 1) / frameSlots d

/-- Bank A's entry to state 1 or 6 ends the key slot in progress (R344). DEDUCED (log 24). -/
def keySlotGone (s : State) (b : Bank) : State :=
  if b = .bankA then { s with keys := { s.keys with due := false } } else s

/-- Entry to state 6 (R261, R294): the part of the frame driven so far, where there is one, gets a pass of its own
(R283). `cut` says that it happens inside a slot; `skip` and `cap` how the settle went. A power-down that skips
settling from its start reads CAPPED 0 too, whatever an earlier settle left. The shadow timer then goes on with the
running frame at its slot, and a burst that waits for its edge goes on waiting (R226). SETTLE_LAST takes a number of frames
above 15 modulo 16. DESIGN CHOICE (log 6). DESIGN CHOICE (log 59). DESIGN CHOICE (log 53). -/
def enterGround (s : State) (b : Bank) (cut skip cap : Bool) : State :=
  let x := getBank s b
  let frames := if x.drv.sta = .settling then settleFrames x.drv else 0
  let recs := if cut then cutRecs x.drv s.now x.led.recs else x.led.recs
  let s := setLed s b { x.led with recs := recs, settleLast := frames % 16, capped := cap, skipped := skip
                                   capCnt := if cap then sat1 x.led.capCnt else x.led.capCnt }
  let s := keySlotGone (if recs.isEmpty then s else passBegins s b false) b
  setDrv s b { x.drv with sta := .grounding, pend := .none, vlossRun := false, setSlots := 0 }

/-- Entry to state 2. -/
def enterBias (s : State) (b : Bank) : State := setDrv s b { (getBank s b).drv with sta := .biasSettle }

/-- Entry to state 1: VLEN high, VADJ at the effective target (R253), LATCH cleared; where VLCD-good already reads 1 the
bank goes on. DEDUCED (log 39). -/
def bankUp (s : State) (b : Bank) : State :=
  let x := getBank s b
  let s := keySlotGone (setTrim s b { x.trim with now := trimEff x.trim }) b
  let s := setDrv s b { x.drv with sta := .waitVlcd, req := true, latch := false, t20Out := false, pend := .none
                                   vlossRun := false }
  if x.drv.vgood then enterBias s b else s

/-- A bank may start its power-up sequence: not in reduced function (R61, R63), and not while the expiry reaction brings
every bank down (R45). DEDUCED (log 30). -/
def mayPowerUp (s : State) : Bool := !s.pw.reduced && !s.clk.expiring

/-- State 0 is reached: a latched or kept request powers the bank up at once, or at the exit from reduced function
(R61, R63). -/
def enterOff (s : State) (b : Bank) : State :=
  let d := (getBank s b).drv
  let s := setDrv s b { d with sta := .off }
  if (d.latch || d.req) && mayPowerUp s then bankUp s b else s

/-- A power-down from state 1 or 2 skips settling from its start (R269, R294, Table DRV-11). DEDUCED (log 59). -/
def settleSkipped (s : State) (b : Bank) : State :=
  let x := getBank s b
  if x.drv.sta = .waitVlcd ∨ x.drv.sta = .biasSettle then
    setLed s b { x.led with settleLast := 0, capped := false, skipped := true }
  else s

/-- Entry to state 7: VLEN low, ladder off, the trim interrupt disarmed (R257); where VLCD-good reads 0 the bank is off
at once. DEDUCED (log 59). -/
def enterRelease (s : State) (b : Bank) : State :=
  let s := settleSkipped s b
  let x := getBank s b
  let s := setTrim s b { x.trim with armed := false, waitArm := false }
  let s := setDrv s b { x.drv with sta := .release, pend := .none }
  if x.drv.vgood then s else enterOff s b

/-- A bank's DPWR bit and LATCH are cleared, and a DPWR change that waits for its frame boundary with them (R582).
DEDUCED (log 60). -/
def noRequest (d : Drive) : Drive := { d with req := false, latch := false, reqNext := none }

/-- State 1 times out (Table DRV-5): NOVLCD, a record with SRC of the device (R176). DESIGN CHOICE (log 51). -/
def noVlcd (s : State) (b : Bank) : State :=
  let x := getBank s b
  let s := setTrim s b { x.trim with armed := false, waitArm := false }
  let s := setDrv s b { noRequest x.drv with sta := .off, novlcdCnt := sat1 x.drv.novlcdCnt }
  setIrq (recordInfo s eNOVLCD none b.num) irqVLCD

/-- The kind of a pending request after another one: a request that no DPWR set cancels stays so. -/
def PendDown.join (old new : PendDown) : PendDown := if old = .none ∨ new = .other then new else old

/-- A power-down request by its kind acts on the bank's state (Table DRV-5, R269): from state 3 it waits for the next
CK_FRAME edge, from state 4 for the next common-slot boundary, with the settle cap of R260 from here.
DEDUCED (log 39). -/
def downAct (s : State) (b : Bank) (k : PendDown) : State :=
  let d := (getBank s b).drv
  match d.sta with
  | .waitVlcd => enterRelease s b
  | .biasSettle => enterRelease s b
  | .allOff => setDrv s b { d with pend := d.pend.join k }
  | .content =>
    if d.pend = .none then
      setDrv s b { d with pend := k, setReqAt := s.now, setFrame := frameLen d
                          setCap := pgf s (drivePage b + 6) 8 4 * frameLen d }
    else setDrv s b { d with pend := d.pend.join k }
  | _ => s

/-- A CK_FRAME edge: a power-down that is pending in state 3 acts, with settling skipped, and a DPWR set made
meanwhile is applied in state 6 (R269, Table DRV-5). DEDUCED (log 39). -/
def downEdge (s : State) (b : Bank) : State :=
  let d := (getBank s b).drv
  if d.sta = .allOff ∧ d.pend ≠ .none then
    let s := enterGround s b true true false
    setDrv s b { (getBank s b).drv with latch := d.req }
  else s

/-- A power-down request of any kind but the clearing of the DPWR bit: it clears that bit and LATCH (R582).
DEDUCED (log 39). -/
def bankDown (s : State) (b : Bank) : State :=
  downAct (setDrv s b (noRequest (getBank s b).drv)) b .other

/-- Both banks. -/
def banksDown (s : State) : State := bankDown (bankDown s .bankA) .bankB

/-- VSUP below 4.5 V or RESET# (Table DRV-5, R62, R89): a driven bank is grounded, a powering one released.
DEDUCED (log 39). -/
def bankEmergency (s : State) (b : Bank) : State :=
  let d := (getBank s b).drv
  if driven d then enterGround s b true true false
  else if d.sta = .waitVlcd ∨ d.sta = .biasSettle then enterRelease s b
  else s

/-- R262: a bank's power-down is complete, or it was not up. -/
def bankQuiet (d : Drive) : Bool := d.sta == .off || d.sta == .release

/-- Every bank's power-down is complete. -/
def banksQuiet (s : State) : Bool := bankQuiet s.bankA.drv && bankQuiet s.bankB.drv

/-- A DPWR bit is set (Table DRV-5, R269). While the expiry reaction runs, a bank that is off stays off (R45). In reduced
function, which a set that waited for a frame boundary (R208) can meet there, it stays off until the exit, as with the
requests of R61 and R63. DEDUCED (log 30). DESIGN CHOICE (log 60). -/
def powerSet (s : State) (b : Bank) : State :=
  let d := (getBank s b).drv
  match d.sta with
  | .off => if mayPowerUp s then bankUp s b else setDrv s b { d with req := true }
  | .grounding => setDrv s b { d with req := true, latch := true }
  | .release => setDrv s b { d with req := true, latch := true }
  | _ => setDrv s b { d with req := true, pend := if d.pend = .byClear then .none else d.pend }

/-- A DPWR bit is cleared (Table DRV-5, R269). -/
def powerClear (s : State) (b : Bank) : State :=
  downAct (setDrv s b { (getBank s b).drv with req := false, latch := false }) b .byClear

/-- A bank's DPWR bit as it reads: a change that waits for a frame boundary (R208) shows at once (R99).
DEDUCED (log 60). -/
def reqShown (d : Drive) : Bool := d.reqNext.getD d.req

/-- One bank's bit of a DPWR write: only a change acts (R178). A change back to the value in force ends the wait of the
one before it (R208). -/
def powerBit (s : State) (b : Bank) (v : Bool) : State :=
  let d := (getBank s b).drv
  if v = reqShown d then s
  else if v = d.req then setDrv s b { d with reqNext := none }
  else if v then powerSet s b
  else powerClear s b

/-- R178: the refusal that a DPWR write meets, from the values of ONA and ONB before it. DEDUCED (log 50).
DESIGN CHOICE (log 61). -/
def dpwrError (s : State) (a b : Bool) (v : Word) : Option Byte :=
  let sets := (bit v 0 && !a) || (bit v 1 && !b)
  let clears := (!bit v 0 && a) || (!bit v 1 && b)
  if s.pw.trans ≠ .idle ∨ (sets ∧ (s.pw.mode = .standby ∨ s.pw.reduced)) ∨ (clears ∧ s.roles.fdon ∧ s.pw.mode = .run) then
    some eSTATE
  else none

/-- R178: DPWR. DEDUCED (log 50). -/
def dpwrWrite (s : State) (p : Port) (v : Word) : State :=
  match dpwrError s (reqShown s.bankA.drv) (reqShown s.bankB.drv) v with
  | some e => refuse s p e 0x1C
  | none => powerBit (powerBit s .bankA (bit v 0)) .bankB (bit v 1)

def dpwrRead (s : State) : Word := wordOf (flag (reqShown s.bankA.drv) 0 + flag (reqShown s.bankB.drv) 1)

/-- R179: DSTAT. -/
def dstatRead (s : State) : Word :=
  let a := s.bankA
  let b := s.bankB
  wordOf (a.drv.sta.code + 8 * b.drv.sta.code + flag a.drv.latch 6 + flag b.drv.latch 7 + flag a.drv.vgood 8
    + flag b.drv.vgood 9 + flag (trimBusy a) 10 + flag (trimBusy b) 11 + flag (a.lateLast || b.lateLast) 12
    + flag s.disp.ttStale 13)

/-- Every DCTL write sets the view to the bank it names (R177). -/
def dctlShow (s : State) (v : Word) : State := { s with disp := { s.disp with dctlView := Bank.ofBit (bit v 15) } }

/-- R177: the refusal that a DCTL write meets, in the order of R578. DEDUCED (log 42). -/
def dctlError (s : State) (v : Word) : Option Byte :=
  let d := (getBank s (Bank.ofBit (bit v 15))).drv
  let duty := fld v 0 3
  let bias := fld v 3 3
  if bit v 14 then none
  else if 5 ≤ bias ∨ 5 ≤ fld v 6 3 ∨ (duty = 0 ∧ bias ≠ 0) ∨ (duty ≠ 0 ∧ bias = 0) then some eRANGE
  else if (duty ≠ d.duty ∨ bias ≠ d.bias) ∧ d.sta ≠ .off then some eSTATE
  else none

/-- The fields of a DCTL write take effect on the bank it names (R177); a change of DUTY begins the flush of R316, but a
change back to the duty in force only ends the wait of the one before it (R208). -/
def dctlFields (s : State) (v : Word) : State :=
  let b := Bank.ofBit (bit v 15)
  let d := (getBank s b).drv
  let duty := fld v 0 3
  setDrv s b { d with duty := duty, bias := fld v 3 3, frate := fld v 6 3, wave := fld v 9 2
                      flushing := d.flushing || decide (duty ≠ d.duty ∧ ¬(d.dutyWait ∧ duty = d.dutyNow))
                      dutyWait := d.dutyWait && decide (duty = d.duty) }

/-- R177: DCTL. A write with VIEW sets the view only. DEDUCED (log 42). -/
def dctlWrite (s : State) (p : Port) (v : Word) : State :=
  match dctlError s v with
  | some e => refuse s p e 0x1A
  | none => if bit v 14 then dctlShow s v else dctlFields (dctlShow s v) v

def dctlRead (s : State) : Word :=
  let d := (getBank s s.disp.dctlView).drv
  wordOf (d.duty + 8 * d.bias + 64 * d.frate + 512 * d.wave + 0x8000 * s.disp.dctlView.num)

/-- R184, R519, R520, R528, R529, R582: CRACK_MEASUREMENT of one frame, in 10 Ω or 10 nA units. With POL 1 a status of 4 or
5 requests the power-down, which clears the DPWR bit; one that is already in progress goes on as it is (R528), but no DPWR
set made before cancels it. DEDUCED (log 15). -/
def crackMeasure (s : State) (b : Bank) (m : Nat) : State :=
  let x := getBank s b
  if driven x.drv ∧ x.crack.en ∧ !x.crack.startNext then
    let c := crackRecord s x.crack x.drv.fcnt m
    let code := crackCode c (pgf s (crackPage b + 8) 8 8)
    let held := decide (3 ≤ c.sta)
    let new := if held ∧ crackRank c.sta ≤ crackRank code then c.sta else code
    let hit := decide (new ≠ c.sta ∧ 3 ≤ new)
    let s := setCrack s b { c with sta := new, evt := if hit then sat1 c.evt else c.evt }
    let s := setIrqIf hit s irqCRACK
    if hit ∧ s.disp.crackPol = 1 ∧ (new = 4 ∨ new = 5) then bankDown s b else s
  else s

/-- Setting or clearing ENx (R520). DEDUCED (log 15). -/
def crackEnable (s : State) (b : Bank) (v : Bool) : State :=
  let x := getBank s b
  if v = x.crack.en then s
  else if v then setCrack s b { x.crack with en := true, startNext := driven x.drv }
  else setCrack s b { x.crack with en := false, sta := 0, startNext := false }

/-- R184: DCRACK. -/
def dcrackWrite (s : State) (p : Port) (v : Word) : State :=
  if 2 ≤ fld v 2 2 then refuse s p eRANGE 0x28
  else
    let s := crackEnable (crackEnable s .bankA (bit v 0)) .bankB (bit v 1)
    { s with disp := { s.disp with crackPol := fld v 2 2 } }

def dcrackRead (s : State) : Word :=
  wordOf (flag s.bankA.crack.en 0 + flag s.bankB.crack.en 1 + 4 * s.disp.crackPol + 16 * s.bankA.crack.sta
    + 128 * s.bankB.crack.sta)

/-! ### Key slots on bank A timing (R247, R339, R340) -/

/-- Table KEY-1: K of a KSLOT code. -/
def keyCycles : Nat → Nat
  | 0 => 18
  | 1 => 37
  | 2 => 55
  | _ => 74

/-- Table KEY-2: the level of the active line in units of VLCD/60, under given settings. -/
def keyLevelOf (d : Drive) (k : KeySet) : Int :=
  if driven d then
    if d.bias = 0 then 60
    else match k.klev with
      | 0 => 60 / (biasA d.bias : Int)
      | 1 => 120 / (biasA d.bias : Int)
      | _ => 60
  else k.offlu

/-- The level under the settings in force. -/
def keyLevel (s : State) : Int := keyLevelOf s.bankA.drv s.keys.cur

/-- The keys of the matrix that a setting scans (R338), as a set of key numbers. -/
def scannedKeys (k : KeySet) : BitVec 128 :=
  (List.range 16).foldl (fun m l =>
    if l ≤ k.lines then m ||| BitVec.ofNat 128 ((2 ^ (k.kins + 1) - 1) * 2 ^ (8 * l)) else m) 0

/-- Whether key slots run on a bank's common slots. -/
def keysOn (s : State) (b : Bank) : Bool := decide (b = .bankA) && scanning s.keys && slotsRun s

/-- The settings as written so far: KCTL's fields and those of the keys page (R185, R356). -/
def keySettings (s : State) : KeySet :=
  { s.keys.reg with klev := pgf s 0xCC00 0 2, offper := (pg s 0xCC02).toNat, offlu := (pg s 0xCC04).toNat }

/-- A key slot to come, as what is written so far has it: whether the Trellis runs one, the settings of its full scan, its
line, and the full scans of the boot scan that are left. -/
structure KeyAhead where
  on : Bool
  set : KeySet
  line : Nat
  boot : Nat

/-- The first key slot of a full scan takes the settings written and EN (R185, R352, R356, R359). -/
def KeyAhead.scanned (k : KeyAhead) (set : KeySet) (en : Bool) : KeyAhead :=
  if k.line = 0 ∧ k.boot = 0 then { k with set := set, on := k.on && en } else k

/-- The next key slot of a bank's common slots; settings written in this CK_FRAME cycle wait for the full scan after the one
that begins in it (R359). DESIGN CHOICE (log 6). -/
def keyFirst (s : State) (b : Bank) : KeyAhead :=
  let k := s.keys
  (KeyAhead.mk (keysOn s b) k.cur k.line k.boot).scanned (if k.regAt = some s.now then k.was.set else keySettings s)
    (k.enNext.getD k.en)

/-- The key slot after one: the next line, or the first of the next full scan, with which the boot scan may end (R342,
R352). -/
def KeyAhead.next (s : State) (k : KeyAhead) : KeyAhead :=
  if k.set.lines ≤ k.line then
    (KeyAhead.mk k.on k.set 0 (k.boot - 1)).scanned (keySettings s) (s.keys.enNext.getD s.keys.en)
  else { k with line := k.line + 1 }

/-! ### Slots and frames (R241, R243 to R247, R260, R312, R315) -/

/-- The frame rate a bank's DCTL.FRATE selects, in Hz (R242). -/
def rateOf (s : State) (b : Bank) : Nat :=
  match (getBank s b).drv.frate with
  | 0 => 64
  | 1 => 80
  | 2 => 100
  | 3 => 128
  | _ => (pg s (drivePage b)).toNat

/-- A slot record of slot i of the frame, which may count on into later frames, with nothing on it yet and a key slot. -/
def blankWith (s : State) (b : Bank) (i : Nat) (k : KeyAhead) : SlotRec :=
  let d := (getBank s b).drv
  let F := frameLen d
  let M := frameSlots d
  let K := if k.on then keyCycles k.set.kslot else 0
  { line := slotLine d (i % M), neg := false, pix := 0, driven := true, cycles := slotLen F M (i % M) - K
    keyLine := k.line, keyLevel := keyLevelOf s.bankA.drv k.set, keyCycles := K
    frameLen := F, slots := M, lines := frameLines d, bias := d.bias }

/-- The record of a slot with the next key slot that the Trellis will run. -/
def blankRec (s : State) (b : Bank) (i : Nat) : SlotRec := blankWith s b i (keyFirst s b)

/-- The records of n slots from slot i on, with the key slots that the Trellis will run in them (R288, R292). -/
def blanksFrom (s : State) (b : Bank) : Nat → Nat → KeyAhead → List SlotRec
  | 0, _, _ => []
  | n + 1, i, k => blankWith s b i k :: blanksFrom s b n (i + 1) (k.next s)

/-- The slots to come, from the next one on, to the end of the 8 frames of R293. DESIGN CHOICE (log 6). -/
def slotsAhead (s : State) (b : Bank) : List SlotRec :=
  let d := (getBank s b).drv
  blanksFrom s b (9 * frameSlots d) d.slot (keyFirst s b)

/-- The polarity of slot i of the running frame in states 3 and 4 (R246, Table DRV-4). DEDUCED (log 27). -/
def slotNeg (x : BankSt) (i : Nat) : Bool :=
  let d := x.drv
  if d.dutyNow = 0 then decide (i = 1)
  else match d.waveNow with
    | 0 => x.led.plan.getD i (decide ((i + d.fcnt) % 2 = 1))
    | 1 => decide ((i + d.fcnt) % 2 = 1)
    | 2 => decide (d.fcnt % 2 = 1)
    | _ => decide ((i / d.ninvNow + d.fcnt) % 2 = 1)

/-- A settling bank that an on request brings back to content at the next common-slot boundary, but not while the expiry
reaction brings every bank down (R45). DEDUCED (log 30). DEDUCED (log 27). -/
def returning (s : State) (d : Drive) : Bool := d.sta == .settling && d.req && !s.clk.expiring

/-- Whether the frame that begins at this boundary follows the Balanced plan: the settle plan of R292 stands for it from
the boundary at which settle drive begins to that at which content returns (R300). DEDUCED (log 27). -/
def planned (s : State) (d : Drive) : Bool :=
  match d.sta with
  | .allOff => true
  | .content => d.pend == .none
  | _ => returning s d

/-- The Balanced plan of the frame that begins (R287), or in a settle its settle plan (R292), with the default plan of
R287 for slots that show content again (R300). The content of the frame just ended is what its slots drove, the settle
plan's pixels where it drove settle slots (R288). DESIGN CHOICE (log 27). DEDUCED (log 27). -/
def planFrame (s : State) (b : Bank) : State :=
  let x := getBank s b
  if x.drv.sta = .settling ∧ !returning s x.drv then
    planSettle (setLed s b { x.led with plan := [] }) b 0 (slotsAhead s b)
  else if planned s x.drv ∧ x.drv.waveNow = 0 ∧ x.drv.dutyNow ≠ 0 then
    let last := ((x.led.passes.getLast?.map (·.recs)).getD []).filter (·.driven)
    let r := balancedPlan s b last (slotsAhead s b)
    setLed s b { x.led with plan := r.1, invCnt := (x.led.invCnt + r.2) % 0x10000 }
  else setLed s b { x.led with plan := [] }

/-- R149, R150: the fallback mask of a bank follows FALLBK at its frame boundary; FALLBK clears when both banks show the
Tell-tale layer again. DEDUCED (log 36). DEDUCED (log 55). -/
def fallbackBoundary (s : State) (b : Bank) : State :=
  let x := getBank s b
  let s := setBank s b { x with fbNow := s.roles.fallbk && !s.roles.fbEnding, fbWait := false }
  if s.roles.fallbk ∧ s.roles.fbEnding ∧ !s.bankA.fbWait ∧ !s.bankB.fbWait then
    lampsSettle { s with roles := { s.roles with fallbk := false, fbEnding := false, hbMissed := false, fbBeat := none } }
  else s

/-- The CK_FRAME cycles that the running frame has lasted where it is cut: the slots that have ended and the running
one's part (R241, R321). DEDUCED (log 42). -/
def frameElapsed (s : State) (b : Bank) : Nat :=
  let d := (getBank s b).drv
  match d.slot with
  | 0 => 0
  | k + 1 => k * frameLen d / frameSlots d + min (s.now - d.slotAt) (slotLen (frameLen d) (frameSlots d) k)

/-- Line slots stop (R315): the cycles that the running frame has lasted, and the time where CK_FRAME goes on (R321).
DEDUCED (log 42). -/
def slotsStop (s : State) (b : Bank) (ckFrame : Bool) : State :=
  setDrv s b { (getBank s b).drv with halt := frameElapsed s b, haltAt := if ckFrame then some s.now else none }

/-- A DUTY and a DVLCD write that waited for this boundary take effect (R208). DEDUCED (log 60). -/
def waitsTaken (s : State) (b : Bank) : State :=
  let x := getBank s b
  let d := x.drv
  let s := setDrv s b { d with dutyWait := false, flushing := d.flushing || (d.dutyWait && d.duty != d.dutyNow) }
  match x.trim.wait with
  | some w => trimTakes s b w x.trim.waitArm
  | none => s

/-- A DPWR change that waited for this boundary takes effect (R208), in the state that the boundary enters: a clear at the
end of the last all-off frame is a request of state 4. DEDUCED (log 60). -/
def reqTaken (s : State) (b : Bank) : State :=
  let d := (getBank s b).drv
  match d.reqNext with
  | some v => powerBit (setDrv s b { d with reqNext := none }) b v
  | none => s

/-- What every frame boundary does, from the frame timer or the shadow timer; `first` is the first boundary after
entry to state 3, at which no frame has ended, and `cut` the cycles that the running frame has lasted where the
boundary cuts it short. The racking side runs in STANDBY and RUN only (R315). DEDUCED (log 27). The settle cap of a DPWR clear
that waited for this boundary takes the frame period that the boundary has put in force (R208, R302). DESIGN CHOICE (log
60). DEDUCED (log 60). -/
def frameWork (s : State) (b : Bank) (first : Bool) (cut : Option Nat) : State :=
  let s := waitsTaken (burstSettled s b) b
  let d := (getBank s b).drv
  let old := (getBank s b).blink
  let e := cut.getD (frameLen d)
  let on := driven d
  let left := if on ∧ !first ∧ d.sta = .allOff then d.offLeft - 1 else d.offLeft
  let s := setDrv s b { d with
    rateNow := rateOf s b, waveNow := d.wave, ninvNow := pgf s (drivePage b + 2) 0 4, slot := 0, slotAt := s.now
    fcnt := if first then 0 else if on then d.fcnt + 1 else d.fcnt
    offLeft := left, sta := if d.sta = .allOff ∧ left = 0 then .content else d.sta }
  let s := reqTaken s b
  let s := if on ∧ !first then passBegins s b true else s
  let s := if slotsRun s then
      let s := layersBoundary s b
      let s := masksInForce (fallbackBoundary s b) b
      let s := blinkBoundary s b e
      animBoundary s b old
    else s
  let s := planFrame s b
  let s := if (getBank s b).crack.startNext ∧ on then crackLearn s b else s
  lampFrame s b

/-- FRAME_BOUNDARY: while the bank's line slots run. DESIGN CHOICE (log 53). -/
def frameBoundary (s : State) (b : Bank) : State :=
  let s := downEdge s b
  if driven (getBank s b).drv ∨ slotsRun s then frameWork s b false none else s

/-! ### Writes beside a frame boundary (R208), and of both ports in one cycle (R275) -/

/-- A write that reaches its register beside frame boundaries of some banks, once the boundaries' work is done: DBLINK,
whose fields every boundary takes, is written (R334); the fields of DCTL are too, but a change of DUTY begins its flush at
the boundary after (R208, R316), and so does what DVLCD and the banks' DPWR bits hold. In `before` the write was made; it
arms the trim interrupt where VLEN was high then and is so still (R257). DEDUCED (log 60). -/
def besideAfter (before : State) (bs : List Bank) (s : State) (w : Fin 64 × Word) : State :=
  let v := w.2
  let b := Bank.ofBit (bit v 15)
  match offOf w.1 with
  | 0x1A =>
    let d := (getBank s b).drv
    setDrv s b { d with duty := fld v 0 3, bias := fld v 3 3, frate := fld v 6 3, wave := fld v 9 2
                        dutyWait := decide (fld v 0 3 ≠ d.dutyNow) && (d.dutyWait || decide (fld v 0 3 ≠ d.duty)) }
  | 0x26 => setTrim s b { (getBank s b).trim with
      wait := some (trimFields v), waitArm := vlen (getBank before b).drv && vlen (getBank s b).drv }
  | 0x24 => dblinkWrite s v
  | 0x1C => bs.foldl (fun s b =>
      let d := (getBank s b).drv
      setDrv s b { d with reqNext := if bit v b.num = d.req then none else some (bit v b.num) }) s
  | _ => s

/-- The DPWR bits of the banks that have no boundary in the cycle act at once (R208). DEDUCED (log 60). -/
def powerOthers (s : State) (bs : List Bank) (v : Word) : State :=
  [Bank.bankA, Bank.bankB].foldl (fun s b => if bs.contains b then s else powerBit s b (bit v b.num)) s

/-- R208, R334: a DCTL, DVLCD or DPWR write that reaches its register in the CK_BUS cycle of a frame boundary of the
named bank is checked before the boundary; the result names what takes effect at the boundary after it, and DBLINK
with them. Any other write is performed by `act`. A write with VIEW, and the DPWR bit of a bank without a boundary, wait
for nothing. DEDUCED (log 60). -/
def besideWait (s : State) (p : Port) (bs : List Bank) (a : Fin 64) (v : Word) (act : State → State) :
    State × List (Fin 64 × Word) :=
  let named := !bit v 14 && bs.contains (Bank.ofBit (bit v 15))
  match offOf a with
  | 0x1A =>
    if !named then (act s, [])
    else match dctlError s v with
      | some e => (refuse s p e 0x1A, [])
      | none => (dctlShow s v, [(a, v)])
  | 0x26 => if named then (dvlcdShow s v, [(a, v)]) else (act s, [])
  | 0x24 => (s, [(a, v)])
  | 0x1C =>
    match dpwrError s (reqShown s.bankA.drv) (reqShown s.bankB.drv) v with
    | some e => (refuse s p e 0x1C, [])
    | none => (powerOthers s bs v, [(a, v)])
  | _ => (act s, [])

/-- R275: DPWR writes of both ports in one CK_BUS cycle. Port S's is judged first and Port P's on its result; the last
value accepted stands. `wS` and `wP` are the words that reach DPWR; the result is the state with the refusals recorded
and answered, and the word that stands, if one was accepted. -/
def dpwrJudged (s : State) (wS wP : Word) : State × Option Word :=
  let a := reqShown s.bankA.drv
  let b := reqShown s.bankB.drv
  let eS := dpwrError s a b wS
  let eP := dpwrError s (if eS.isSome then a else bit wS 0) (if eS.isSome then b else bit wS 1) wP
  let s := answered s 0x0E wS (fun s => match eS with
    | some e => refuse s .portS e 0x1C
    | none => s)
  let s := match eP with
    | some e => refuse s .portP e 0x1C
    | none => s
  (s, if eP.isNone then some wP else if eS.isNone then some wS else none)

/-- R275: Table DRV-5 acts on the final value alone. -/
def dpwrBoth (s : State) (wS wP : Word) : State :=
  match dpwrJudged s wS wP with
  | (t, some v) => powerBit (powerBit t .bankA (bit v 0)) .bankB (bit v 1)
  | (t, none) => t

/-- The same beside frame boundaries: the bit of a bank without one acts, and the others wait (R208). -/
def dpwrBothWait (s : State) (bs : List Bank) (wS wP : Word) : State × List (Fin 64 × Word) :=
  match dpwrJudged s wS wP with
  | (t, some v) => (powerOthers t bs v, [(0x0E, v)])
  | (t, none) => (t, [])

/-! ### Common slots -/

/-- What a common-slot boundary does to the sequence (Table DRV-5, R260, R271): settle drive begins with its plan
(R292), goes on, past the end of a plan that was not met with a plan made anew, ends in state 6, or gives way to content,
but not while the expiry reaction runs (R45). A DPWR set made while the request was pending is applied in the state
entered (R269). After a DPWR clear that waited for a frame
boundary (R208) settle drive begins with slot 0 of that same boundary. DESIGN CHOICE (log 60). DESIGN CHOICE (log 53).
DESIGN CHOICE (log 6). DEDUCED (log 30). -/
def slotState (s : State) (b : Bank) : State :=
  let d := (getBank s b).drv
  let begins := d.sta == .content && d.pend != .none
  if returning s d then setDrv s b { d with sta := .content, pend := .none }
  else if begins ∨ d.sta = .settling then
    let e := if begins then max 1 (s.now - d.setReqAt) else d.setElapsed
    let latch (s : State) : State := setDrv s b { (getBank s b).drv with latch := d.req }
    let d := { d with sta := .settling, pend := .none, setElapsed := e, setSlots := if begins then 0 else d.setSlots }
    let s := setDrv s b d
    if settled s b then latch (enterGround s b false false false)
    else if d.setCap < e + slotLen (frameLen d) (frameSlots d) d.slot then
      latch (enterGround s b false false true)
    else if begins ∨ (getBank s b).led.settle.length ≤ d.slot then planSettle s b d.slot (slotsAhead s b)
    else s
  else s

/-- The record of the slot that begins, for a driven bank (R244, R245, R292): its whole length is drive until a key slot
takes its end (R247), and content is the composed line, whenever the slot's burst reads it (R226).
DESIGN CHOICE (log 6). -/
def slotDrive (s : State) (b : Bank) : State :=
  let x := getBank s b
  let d := x.drv
  let k := d.slot
  let len := slotLen (frameLen d) (frameSlots d) k
  let r := { blankRec s b k with cycles := len, keyCycles := 0 }
  let put (r : SlotRec) : State := setLed s b { x.led with recs := x.led.recs ++ [r] }
  match d.sta with
  | .allOff => put { r with neg := slotNeg x k }
  | .content => put { r with neg := slotNeg x k, pix := composedLine s b r.line }
  | .settling =>
    let w := x.led.settle.getD k (slotNeg x k, 0)
    setDrv (put { r with neg := w.1, pix := w.2 }) b { d with setSlots := d.setSlots + 1, setElapsed := d.setElapsed + len }
  | _ => s

/-- On bank A the common slot that begins has a key slot at its end where the Trellis scans (R185, R247).
DEDUCED (log 21). -/
def keySlotDue (s : State) (b : Bank) (on : Bool) : State :=
  if b = .bankA ∧ on then
    { s with keys := { s.keys with due := keysOn s b, run := s.keys.run || keysOn s b } }
  else s

/-- SLOT_BOUNDARY: the next slot of the frame begins: LAD_I takes effect (R251), the sequence moves, the outputs switch,
and the racking burst of its line runs; the commits of its cycle follow it (R311). A frame whose slots have all begun waits
for its boundary.
DESIGN CHOICE (log 53). -/
def slotBoundary (s : State) (b : Bank) (ups : List Upset) : State :=
  let s := downEdge (burstSettled s b) b
  let d := (getBank s b).drv
  if (driven d ∨ slotsRun s) ∧ d.slot < frameSlots d then
    let s := setDrv s b { d with ladNow := pgf s (drivePage b + 2) 4 4 }
    let s := slotState s b
    let s := slotDrive (upsets s ups) b
    let s := keySlotDue s b (driven (getBank s b).drv)
    let q := burstOf s b (slotLine d d.slot) ((getBank s b).drv.sta == .content)
    let s := setDrv (linesTaken s b q.line) b { (getBank s b).drv with slot := d.slot + 1, slotAt := s.now }
    heldPlaced (burstDue s b q) b
  else s

/-- BIAS_SETTLE_END: state 3, whose first frame boundary this is (R243). -/
def biasEnds (s : State) (b : Bank) : State :=
  let d := (getBank s b).drv
  if d.sta = .biasSettle then
    frameWork (crackEntry (setDrv s b { d with sta := .allOff, offLeft := 2, vlossRun := false }) b) b true (some (frameElapsed s b))
  else s

/-- The catch-up records of a bank, by layer and line. -/
def catchUps (x : BankSt) : List (Nat × Nat) :=
  ((List.range 5).map fun l =>
    ((List.range 16).filter fun i => (getLayer x l).catchup &&& lineBit i != 0).map fun i => (l, i)).flatten

/-- One catch-up record is emptied: its live line is copied. -/
def recordFlushed (b : Bank) (s : State) (r : Nat × Nat) : State :=
  let y := getLayer (getBank s b) r.1
  let a := liveLine b r.1 y r.2
  let s := intoIdle (eccReadN s a 2) b r.1 r.2 (readLine s a)
  setBank s b (setLayer (getBank s b) r.1 { y with catchup := y.catchup &&& ~~~ lineBit r.2 })

/-- A flush burst (R316): 2 cycles of set-up, and a read and a write for each of at most 11 records, in 24 CK_CORE
cycles. DESIGN CHOICE (log 54). -/
def flushBurst (s : State) (b : Bank) : State :=
  let s := ((catchUps (getBank s b)).take 11).foldl (recordFlushed b) s
  { s with arb := { s.arb with l0At := some s.now } }

/-- A bank has catch-up records to flush, where line slots run (R315, R316). -/
def flushWants (s : State) (b : Bank) : Bool :=
  (getBank s b).drv.flushing && slotsRun s && !(catchUps (getBank s b)).isEmpty

/-- A CK_FRAME edge: one flush burst, where no slot's burst takes the edge (R226, R316). DESIGN CHOICE (log 54). -/
def flushEdge (s : State) : State :=
  if s.arb.l0At = some s.now ∨ slotDueNow s .bankA ∨ slotDueNow s .bankB then s
  else if flushWants s .bankA then flushBurst s .bankA
  else if flushWants s .bankB then flushBurst s .bankB
  else s

/-- A duty flush is at its end: the bank's catch-up records are empty (R316). Where no line slot runs, records and
batches are kept, and the flush with them (R315, Table ARC-6). DEDUCED (log 54). -/
def flushReady (s : State) (b : Bank) : Bool :=
  (getBank s b).drv.flushing && slotsRun s && (catchUps (getBank s b)).isEmpty

/-- DUTY_FLUSH_END (R316, R279, R337): the new duty takes effect, lines it does not use leave every batch, the shadow
timer begins a frame, and the held commits wait for its first slot alone, which counts as begun (R311).
DEDUCED (log 54). A flush that begins at the end of bias settling runs in state 3, and its end cuts the first all-off frame,
which counts. DESIGN CHOICE (log 60). -/
def dutyFlushEnds (s : State) (b : Bank) : State :=
  if flushReady s b then
    let s := burstSettled s b
    let x := getBank s b
    let e := frameElapsed s b
    let old := frameLines x.drv
    let s := setDrv s b { x.drv with flushing := false, dutyNow := x.drv.duty }
    let keep := linesBelow (frameLines (getBank s b).drv)
    let cut (c : Batch) : Batch := { named := c.named &&& keep, racked := c.racked &&& keep, host := c.host &&& keep }
    let s := (List.range 5).foldl (fun s l =>
      let y := getLayer (getBank s b) l
      setBank s b (setLayer (getBank s b) l { y with cur := y.cur.map cut, next := y.next.map cut })) s
    let s := markUnused s b old (frameLines (getBank s b).drv)
    frameWork s b false (some e)
  else s

/-! ### The boundaries that a write meets (R208) -/

/-- Whether the boundary happens in a state. -/
def edgeHappens (s : State) : BesideEdge → Bool
  | .frame b => driven (getBank s b).drv || slotsRun s
  | .first b => (getBank s b).drv.sta == .biasSettle
  | .flush b => flushReady s b

/-- The boundary's own work. -/
def edgeWork (s : State) : BesideEdge → State
  | .frame b => frameBoundary s b
  | .first b => biasEnds s b
  | .flush b => dutyFlushEnds s b

/-- The boundaries' own work, and the writes that take effect at the ones after them (R208, R334). -/
def besideBoundary (s : State) (es : List BesideEdge) (l : List (Fin 64 × Word)) : State :=
  l.foldl (besideAfter s (es.map edgeBank)) (es.foldl edgeWork s)

/-! ### VLCD-good (R250, R264, R265, R274) -/

/-- VLCD-good rises. -/
def vgoodRise (s : State) (b : Bank) : State :=
  let d := { (getBank s b).drv with vgood := true, vlossRun := false }
  if (getBank s b).drv.vgood then s else
  let s := setDrv s b d
  if d.sta = .waitVlcd then enterBias s b else s

/-- VLCD-good falls. -/
def vgoodFall (s : State) (b : Bank) : State :=
  let d := { (getBank s b).drv with vgood := false }
  if !(getBank s b).drv.vgood then s else
  let s := setDrv s b d
  match d.sta with
  | .biasSettle =>
    let s := setDrv s b { d with sta := .waitVlcd }
    if d.t20Out then noVlcd s b else s
  | .release => enterOff s b
  | .allOff => setIrq (setDrv s b { d with vlossRun := true }) irqVLCD
  | .content => setIrq (setDrv s b { d with vlossRun := true }) irqVLCD
  | .settling => setIrq (setDrv s b { d with vlossRun := true }) irqVLCD
  | _ => s

/-- The 20 ms timer from VLEN rising runs out. -/
def novlcdTimer (s : State) (b : Bank) : State :=
  let d := (getBank s b).drv
  match d.sta with
  | .waitVlcd => noVlcd s b
  | .biasSettle => setDrv s b { d with t20Out := true }
  | _ => s

/-- VLCD-good has stayed at 0 for VLOSS_T (R264): counted; with VLOSS_POL the bank is grounded without settling. -/
def vlcdLost (s : State) (b : Bank) : State :=
  let d := (getBank s b).drv
  if driven d ∧ d.vlossRun then
    let s := setDrv s b { d with vlossRun := false, vlostCnt := sat1 d.vlostCnt }
    if pgb s (drivePage b + 2) 8 then
      enterGround (setDrv s b (noRequest (getBank s b).drv)) b true true false
    else s
  else s

/-- 20 ms of grounding have run. -/
def groundingEnds (s : State) (b : Bank) : State :=
  if (getBank s b).drv.sta = .grounding then enterRelease s b else s

/-- 50 ms of release have run. -/
def releaseEnds (s : State) (b : Bank) : State := if (getBank s b).drv.sta = .release then enterOff s b else s

/-! ### The commands -/

/-- DCTL_WRITE (R177). -/
def execDctlWrite (p : Port) (v : Word) (s : State) : Host.Outcome State Fault Refusal :=
  .next (gate s p 0x0D v (fun s w => dctlWrite s p w))

/-- DCTL_VIEW (R177): a DCTL write with VIEW. -/
def execDctlView (p : Port) (b : Bank) (s : State) : Host.Outcome State Fault Refusal :=
  .next (gate s p 0x0D (wordOf (0x4000 + 0x8000 * b.num)) (fun s w => dctlWrite s p w))

/-- DUTY_FLUSH_END (R316). -/
def execDutyFlushEnd (b : Bank) (s : State) : Host.Outcome State Fault Refusal := .next (dutyFlushEnds s b)

/-- DPWR_SET (R178). -/
def execDpwrSet (p : Port) (v : Word) (s : State) : Host.Outcome State Fault Refusal :=
  .next (gate s p 0x0E v (fun s w => dpwrWrite s p w))

/-- DPWR_CLEAR (R178). -/
def execDpwrClear (p : Port) (v : Word) (s : State) : Host.Outcome State Fault Refusal :=
  .next (gate s p 0x0E v (fun s w => dpwrWrite s p w))

/-- VLCD_GOOD_RISE (R250). -/
def execVlcdGoodRise (b : Bank) (s : State) : Host.Outcome State Fault Refusal := .next (vgoodRise s b)

/-- NOVLCD_TIMEOUT (Table DRV-5). -/
def execNovlcdTimeout (b : Bank) (s : State) : Host.Outcome State Fault Refusal := .next (novlcdTimer s b)

/-- BIAS_SETTLE_END (R243). -/
def execBiasSettleEnd (b : Bank) (s : State) : Host.Outcome State Fault Refusal := .next (biasEnds s b)

/-- VLCD_GOOD_FALL (R264, R265). -/
def execVlcdGoodFall (b : Bank) (s : State) : Host.Outcome State Fault Refusal := .next (vgoodFall s b)

/-- FRAME_BOUNDARY (R243). -/
def execFrameBoundary (b : Bank) (s : State) : Host.Outcome State Fault Refusal := .next (frameBoundary s b)

/-- SLOT_BOUNDARY (R245). -/
def execSlotBoundary (b : Bank) (ups : List Upset) (s : State) : Host.Outcome State Fault Refusal :=
  .next (slotBoundary s b ups)

/-- TRIM_WRITE (R183). -/
def execTrimWrite (p : Port) (v : Word) (s : State) : Host.Outcome State Fault Refusal :=
  .next (gate s p 0x13 v dvlcdWrite)

/-- DVLCD_VIEW (R183): a DVLCD write with VIEW. -/
def execDvlcdView (p : Port) (b : Bank) (s : State) : Host.Outcome State Fault Refusal :=
  .next (gate s p 0x13 (wordOf (0x4000 + 0x8000 * b.num)) dvlcdWrite)

/-- TRIM_STEP (R256). -/
def execTrimStep (b : Bank) (s : State) : Host.Outcome State Fault Refusal := .next (trimStep s b)

/-- TC_UPDATE (R255): every 10 ms, both banks. -/
def execTcUpdate (s : State) : Host.Outcome State Fault Refusal :=
  .next (if domains s then tcBank (tcBank s .bankA) .bankB else s)

/-- CRACK_MEASUREMENT (R517). -/
def execCrackMeasurement (b : Bank) (m : Nat) (s : State) : Host.Outcome State Fault Refusal :=
  .next (crackMeasure s b m)

end Sys2Proof.Machine
end

