-- ==== Sys2Proof/Machine/Battery.lean ====
section
/-! DEFINITION. The battery channels' measuring side and the Harvest: conversions, scaling, records, the ring, its
trigger, channel B samples and crank dips ("Battery channels and the Harvest", R435). -/

namespace Sys2Proof.Machine

open Sys2Proof

/-! ### What a lost or stopped channel A leaves -/

/-- An estimate is cleared (R437): BSOCA leaves or holds 0xFFFF; leaving a valid value sets IRQSTAT.BAT. -/
def clearEstimate (s : State) : State :=
  let s := setIrqIf s.estA.valid s irqBAT
  { s with estA := { s.estA with valid := false, int := 0, rep := 0, q := Frac.zero, src := 0 } }

/-- R437, R443: the clearing of ENA takes the whole estimator state of channel A, the flow state, the rest timer and RSTA among
it; FCC, SOH with it, R0_SCALE and ECYC, with the discharge it counts, stay, and a restore that waits.
DEDUCED (log 45). -/
def enaClear (s : State) : State :=
  let s := setIrqIf (decide (s.estA.flow ≠ 0)) (clearEstimate s) irqBAT
  let e := s.estA
  { s with estA := { Est.ready with fcc := e.fcc, soh := e.soh, r0s := e.r0s, ecyc := e.ecyc, ecycQ := e.ecycQ
                                    pendDis := e.pendDis, restore := e.restore } }

/-- R447, R474: an accepted RESTORE_A that is not yet queued is to be discarded. -/
def dropAccepted (s : State) : State :=
  match s.auth.accepted with
  | some a => if a.cmd = .restoreA then { s with auth := { s.auth with restoreDrop := true } } else s
  | none => s

/-- R439, R447: a swap or a removal clears channel A's estimate and what belongs to the pack, and discards a restore
that waits. -/
def packClear (s : State) : State :=
  let s := dropAccepted (clearEstimate s)
  { s with estA := { s.estA with fcc := 0, soh := 0xFFFF, r0s := 1024, ecyc := 0, ecycQ := Frac.zero, degr := false
                                 learned := false, rst := false, lrn := [], restore := none
                                 pendCount := 0, pendDis := 0, pendOr := false } }

/-- R409: the record being accumulated is discarded; the next one is marked START. -/
def dropRecord (s : State) : State := { s with batA := { s.batA with hacc := Acc.zero, hStart := true } }

/-- Charge counted in an interval that an update has not taken is kept for the next update (R426). -/
def keepCharge (e : Est) (a : Acc) : Est :=
  { e with pendCount := e.pendCount + a.cnt, pendDis := e.pendDis + a.dis, pendOr := e.pendOr || a.orI }

/-- R398: channel A stops; the record and the estimator interval in progress end, their charge stays counted. Where ENA
has been cleared the estimate goes after it (R443). -/
def stopA (s : State) : State :=
  let a := s.batA
  let e := keepCharge s.estA a.acc
  let e := match a.due with
    | some d => keepCharge e d
    | none => e
  let s := { s with estA := e }
  let s := if a.ending then enaClear s else s
  dropRecord { s with batA := { a with started := false, ending := false, valid := false, acc := Acc.zero, due := none, held := none } }

/-- R398, R402, R425, R438: channel A starts: intervals, records, the filtered current, the rest timer and the 100 ms of
the initial estimate begin anew. -/
def startA (s : State) : State :=
  let a := { s.batA with started := true, valid := false, acc := Acc.zero, due := none, held := none }
  dropRecord { s with batA := a, estA := { s.estA with
    f := Frac.zero, restS := 0, restFrac := 0, restDone := 0, chgRun := 0, fullRun := 0, lowRun := 0, lastV := none
    vHist := [], initLeft := 400 } }

/-! ### Trigger (R410) -/

/-- HARV is cleared: the record in progress is discarded. -/
def harvOff (s : State) : State := dropRecord { s with batA := { s.batA with harv := false } }

/-- R410: an enabled trigger event arms the countdown, or with HPOST 0 ends the logging at once. -/
def trigger (s : State) (i : Nat) : State :=
  if pgb s 0xD416 i ∧ s.batA.harv ∧ !s.batA.htrigd ∧ s.batA.trig = none then
    if pg s 0xD418 = 0 then harvOff { s with batA := { s.batA with htrigd := true } }
    else { s with batA := { s.batA with trig := some (pg s 0xD418).toNat } }
  else s

abbrev trORA : Nat := 0
abbrev trPACK : Nat := 1
abbrev trCRANK : Nat := 2

/-! ### Scaling (R399 to R401) -/

/-- Limits of the unsigned and signed 24-bit formats. -/
def satU24 (i : Int) : Int := clampInt 0 0xFFFFFF i
def satS24 (i : Int) : Int := clampInt (-0x800000) 0x7FFFFF i

/-- V(BAV) over range: above 1.25 V, in nV. -/
def overV (m : Sample) : Bool := decide (1250000000 < m.vBav)

/-- The shunt voltage over range: beyond 75 mV, in nV. -/
def overI (m : Sample) : Bool := decide (75000000 < m.vShunt.natAbs)

/-- Pack voltage in 10 µV. -/
def scaleV (s : State) (m : Sample) : Int :=
  let nv := min m.vBav 1250000000
  let d : Nat := 256 * 32768 * 10000
  satU24 (roundAway (nv * (pg s 0xD400).toNat * (pg s 0xD404).toNat + (pg s 0xD406).toInt * d) d)

/-- Current in 100 µA. -/
def scaleI (s : State) (m : Sample) : Int :=
  let nv := clampInt (-75000000) 75000000 m.vShunt
  let d := (pg s 0xD402).toNat * 32768
  satS24 (roundAway (10 * nv * (pg s 0xD408).toNat + (pg s 0xD40A).toInt * d) d)

/-- Temperature in 0.01 °C, or none where R400 calls it invalid. DESIGN CHOICE (log 10). -/
def scaleT (s : State) (m : Sample) : Option Int :=
  let one := 2 ^ 24
  if 100 * m.x < 2 * one ∨ 98 * one < 100 * m.x then none
  else
    let l := fxLn (1000 * m.x) ((one - m.x) * (pg s 0xD40C).toNat)
    let beta : Int := (pg s 0xD40E).toNat * fxOne
    let den := beta * 100 + l * 29815
    if den ≤ 0 then none
    else
      let num := 100 * 29815 * beta + ((pg s 0xD410).toInt - 27315) * den
      if num < -4000 * den ∨ 12500 * den < num then none else some (satS24 (roundAway num den.toNat))

/-- R426: a conversion's current as it is counted: positive currents times CHG_EFF / 1000, as the last update took
CHG_EFF (R444). -/
def countedI (s : State) (i : Int) : Int := if 0 < i then i * s.batA.chgEff else i * 1000

/-- One conversion added to a run. -/
def Acc.add (k : Acc) (v i : Int) (t : Option Int) (oV oI : Bool) (cnt : Int) : Acc :=
  { n := k.n + 1, v := k.v + v, i := k.i + i, tn := k.tn + (if t.isSome then 1 else 0), t := k.t + t.getD 0
    orV := k.orV || oV, orI := k.orI || oI, cnt := k.cnt + cnt, dis := k.dis + (-i).toNat }

/-! ### The Harvest (R405 to R409) -/

/-- Conversions of a record. -/
def recordLen (s : State) : Nat :=
  match s.batA.hdec with
  | 0 => 4
  | 1 => 40
  | 2 => 400
  | _ => (pg s 0xD412).toNat

/-- The record of an interval that is complete (Table BAT-2). DEDUCED (log 44). -/
def makeRecord (s : State) (k : Acc) (ts : BitVec 32) (start : Bool) : HRec :=
  let v := roundAway k.v k.n
  let i := roundAway k.i k.n
  let t : Int := if k.tn = 0 then 0x800000 else roundAway k.t k.tn
  { w0 := ts
    w1 := BitVec.ofInt 24 v |>.zeroExtend 32 |>.or
      (BitVec.ofNat 32 (2 ^ 24 + 2 ^ 25 * s.batA.hepoch + flag start 27 + flag k.orV 28))
    w2 := BitVec.ofInt 24 i |>.zeroExtend 32 |>.or
      (BitVec.ofNat 32 (flag k.orI 24 + 2 ^ 25 * s.estA.flow + 2 ^ 27 * (s.pack.idseq.toNat % 16) + flag s.pack.verif 31))
    w3 := BitVec.ofInt 24 t |>.zeroExtend 32 |>.or (BitVec.ofNat 32 (2 ^ 24 * s.pack.pres)) }

/-- R405: a conversion enters the record in progress; the last one of its interval completes the record. -/
def harvestConv (s : State) (ts : BitVec 32) (add : Acc → Acc) : State :=
  if s.batA.harv ∧ s.batA.ena then
    let a := s.batA
    let first := decide (a.hacc.n = 0)
    let len := if first then recordLen s else a.hLen
    let t0 := if first then ts else a.hTs
    let k := add a.hacc
    if len ≤ k.n then
      { s with batA := { a with hacc := Acc.zero, hLen := len, hTs := t0, hStart := false
                                hQ := a.hQ ++ [makeRecord s k t0 a.hStart] } }
    else { s with batA := { a with hacc := k, hLen := len, hTs := t0 } }
  else s

/-- R406, R407, R410: a record is written as two whole ECC words at L4; `rest` are those that wait behind it. -/
def recordWritten (s : State) (r : HRec) (rest : List HRec) : State :=
  let a := s.batA
  let v := r.w0.toNat + 2 ^ 32 * r.w1.toNat + 2 ^ 64 * r.w2.toNat + 2 ^ 96 * r.w3.toNat
  let s := storeEcc (grantLow s 4 1) (0x80000 + 16 * (a.hwp % 32768)) 2 v
  let wraps := decide (32767 ≤ a.hwp)
  let s := { s with batA := { a with
    hQ := rest, hwp := if wraps then 0 else a.hwp + 1
    hwrapCnt := if wraps then a.hwrapCnt + 1 else a.hwrapCnt, hfull := a.hfull || wraps
    hwrap := a.hwrap || a.hfull, trig := a.trig.map (· - 1) } }
  if s.batA.trig = some 0 then harvOff { s with batA := { s.batA with trig := none, htrigd := true } } else s

/-- R406: the oldest waiting record is written where the arbiter grants its L4 burst. -/
def harvestWrite (s : State) : State :=
  match s.batA.hQ with
  | [] => s
  | r :: rest => if domains s then granted s (.low 4) (fun s => recordWritten s r rest) else s

/-- R408, R417: HCLR restarts the Harvest in a new epoch; records not yet written are discarded. -/
def harvestRestart (s : State) : State :=
  dropRecord { s with batA := { s.batA with hQ := [], hwp := 0, hwrapCnt := 0, hfull := false, hepoch := (s.batA.hepoch + 1) % 4 } }

/-! ### A conversion (R397, R398, R401, R402) -/

/-- BSTAT.ORA is set; where it becomes 1 it signals and may trigger. -/
def setOra (s : State) : State :=
  if s.batA.ora then s else trigger (setIrq { s with batA := { s.batA with ora := true } } irqBAT) trORA

/-- R402: a conversion enters the estimator interval; the 40th makes an update due. DEDUCED (log 44). -/
def intervalConv (s : State) (add : Acc → Acc) : State :=
  let k := add s.batA.acc
  let s := { s with estA := { s.estA with initLeft := s.estA.initLeft - 1 } }
  if 40 ≤ k.n then
    let e := match s.batA.due with
      | some d => keepCharge s.estA d
      | none => s.estA
    { s with estA := e, batA := { s.batA with acc := Acc.zero, due := some k } }
  else { s with batA := { s.batA with acc := k } }

/-- R193, R398: with the conversion in progress when ENA was cleared channel A stops, and starts anew where ENA has
been set again since. DEDUCED (log 44). -/
def endConversion (s : State) : State :=
  if s.batA.ending then (if s.batA.ena then startA (stopA s) else stopA s) else s

/-- A conversion of channel A completes; the 24-bit decimator codes are kept sign-extended (R415). The last one after ENA was cleared ends the channel (R193, R398).
DEDUCED (log 44). -/
def conversion (s : State) (m : Sample) : State :=
  if s.batA.started ∧ slotsRun s then
    let v := scaleV s m
    let i := scaleI s m
    let t := scaleT s m
    let a := s.batA
    let ts := a.ts
    let oV := overV m
    let oI := overI m
    let or' := (if oV then 1 else 0) + (if oI then 1 else 0)
    let add (k : Acc) : Acc := k.add v i t oV oI (countedI s i)
    let s := { s with batA := { a with
      ts := ts + 1, valid := true, rawV := m.rawV.signExtend 32, rawI := m.rawI.signExtend 32
      rawT := m.rawT.signExtend 32
      anchorTs := if a.valid then a.anchorTs else ts
      anchorSec := if a.valid then a.anchorSec else s.aon.sec
      anchorSub := if a.valid then a.anchorSub else wordOf s.aon.sub
      orCnt := min 0xFFFF (a.orCnt + or') } }
    let s := if oV ∨ oI then setOra s else s
    endConversion (harvestConv (intervalConv s add) ts add)
  else s

/-! ### BCTL (R193) -/

def bctlRead (s : State) : Word :=
  wordOf (flag s.batA.ena 0 + 2 + flag s.batA.harv 2 + 8 * s.batA.hdec + 32 * s.pack.idm + 128 * s.batA.iq)

/-- R193, R409, R410: the fields of BCTL beside IDM take a written value. -/
def bctlFields (s : State) (v : Word) : State :=
  let a := s.batA
  let ena := bit v 0
  let harv := bit v 2
  let s := { s with batA := { a with
    ena := ena, harv := harv, hdec := fld v 3 2, iq := fld v 7 2, ending := a.ending || (a.started && a.ena && !ena)
    htrigd := a.htrigd && !harv, trig := if harv then a.trig else none } }
  let s := if (a.ena ∧ !ena) ∨ (a.harv ∧ !harv) then dropRecord s else s
  if ena ∧ !a.started ∧ slotsRun s then startA s else s

def bstatRead (s : State) : Word :=
  wordOf (s.estA.flow + 4 * s.estB.flow + flag s.estA.valid 4 + flag s.estB.valid 5 + flag s.batB.crank 6
    + flag s.batA.hwrap 7 + flag s.batA.ora 8 + flag s.estA.rst 9 + flag s.estB.rst 10)

/-- BSTAT's W1C flags (R194). -/
def bstatWrite (s : State) (v : Word) : State :=
  { s with batA := { s.batA with hwrap := s.batA.hwrap && !bit v 7, ora := s.batA.ora && !bit v 8 }
           batB := { s.batB with crank := s.batB.crank && !bit v 6 } }

/-! ### Channel B (R403, R404, R435) -/

/-- R404: a sample in mV. -/
def scaleB (s : State) (raw : BitVec 12) : Nat :=
  let d : Nat := 4096 * 32768
  (clampInt 0 20000
    (roundTie (raw.toNat * 20000 * (pg s 0xD800).toNat + (pg s 0xD802).toInt * d) d)).toNat

/-- Whether v is below U − k × 5 mV, U being a mean: exact. -/
def belowU (u : Nat × Nat) (v k : Nat) : Bool := decide (v * u.2 + 5 * k * u.2 < u.1)

/-- R435: the dip that samples may be in. A first sample more than CRK_DV below the mean of the 100 ms that it ends
(103 samples) begins one; a sample above ends it, unless it has been declared. DEDUCED (log 44). -/
def crankTrack (s : State) (v : Nat) : State :=
  let b := s.batB
  let dv := 2 * b.crkDv
  let recent := (v :: b.recent).take 103
  match b.dipU with
  | none =>
    let u := (recent.foldl (· + ·) 0, recent.length)
    if belowU u v dv then
      { s with batB := { b with recent := recent, dipU := some u, dipMin := v, dipLen := 1, aboveRun := 0 } }
    else { s with batB := { b with recent := recent } }
  | some u =>
    if b.inCrank then
      let up := decide (u.1 < v * u.2 + 5 * b.crkDv * u.2)
      { s with batB := { b with recent := recent, dipMin := min b.dipMin v, dipLen := b.dipLen + 1
                                aboveRun := if up then b.aboveRun + 1 else 0 } }
    else if belowU u v dv then
      { s with batB := { b with recent := recent, dipMin := min b.dipMin v, dipLen := b.dipLen + 1 } }
    else { s with batB := { b with recent := recent, dipU := none, dipLen := 0 } }

/-- R404, R435: where the 1024 S/s samples end, at SLEEP and CORK-ENTRY, the samples gathered, those of the 10 ms
interval in progress among them, and a dip in progress go with them. DEDUCED (log 44). -/
def crankStop (s : State) : State :=
  { s with batB := { s.batB with recent := [], dipU := none, dipLen := 0, aboveRun := 0, inCrank := false
                                 sumN := 0, sumV := 0 } }

/-- R403, R404: a channel B sample. In SLEEP BVB holds the latest sample, and no crank is detected. -/
def sampleB (s : State) (raw : BitVec 12) : State :=
  if (slotsRun s ∨ s.pw.mode = .sleep) ∧ ckAon s then
    let v := scaleB s raw
    let b := { s.batB with raw := raw, bvbMin := min s.batB.bvbMin v }
    if slotsRun s then
      crankTrack { s with batB := { b with sumN := b.sumN + 1, sumV := b.sumV + v } } v
    else { s with batB := { b with bvb := v, sumN := 1, sumV := v } }
  else s

/-- n samples from the first one span at least t ms at 1024 S/s. -/
def sampleSpan (n t : Nat) : Bool := decide (t * 1024 + 1000 ≤ n * 1000)

/-- R435: the samples have stayed low for CRK_T: the dip is declared. -/
def crankDip (s : State) : State :=
  let b := s.batB
  if slotsRun s ∧ b.dipU.isSome ∧ !b.inCrank ∧ sampleSpan b.dipLen b.crkT then
    let s := { s with batB := { b with inCrank := true, crank := true, aboveRun := 0, crkCnt := sat1 b.crkCnt } }
    if b.crank then s else trigger (setIrq s irqBAT) trCRANK
  else s

/-- R435: the samples have stayed above U − CRK_DV / 2 for 50 ms: the dip ends. -/
def crankEnd (s : State) : State :=
  let b := s.batB
  if slotsRun s ∧ b.inCrank ∧ sampleSpan b.aboveRun 50 then
    { s with batB := { b with
      inCrank := false, dipU := none, dipLen := 0, crkMin := b.dipMin
      crkDur := min 0xFFFF (roundOpen (((b.dipLen - 1 : Nat) : Int) * 1000) 1024).toNat } }
  else s

/-! ### The commands -/

/-- CONVERSION (R397). -/
def execConversion (m : Sample) (s : State) : Host.Outcome State Fault Refusal := .next (conversion s m)

/-- HARVEST_RECORD_WRITE (R406). -/
def execHarvestRecordWrite (s : State) : Host.Outcome State Fault Refusal := .next (harvestWrite s)

/-- CHANNEL_B_SAMPLE (R403). -/
def execChannelBSample (raw : BitVec 12) (s : State) : Host.Outcome State Fault Refusal := .next (sampleB s raw)

/-- CRANK_DIP (R435). -/
def execCrankDip (s : State) : Host.Outcome State Fault Refusal := .next (crankDip s)

/-- CRANK_END (R435). -/
def execCrankEnd (s : State) : Host.Outcome State Fault Refusal := .next (crankEnd s)

end Sys2Proof.Machine
end

