-- ==== Sys2Proof/Machine/Pack.lean ====
section
/-! DEFINITION. Pack identity and swap detection: sessions, presence, PIL frames, the digest and its verification, and
BCTL.IDM ("Pack identity and swap detection", R196). -/

namespace Sys2Proof.Machine

open Sys2Proof

/-! ### Sessions (R453 to R456) -/

/-- IRQSTAT.PACK where PRES, VERIF or FROZEN differ, or SWAP or REM becomes 1 (Table REG-5). -/
def packSignal (old s : State) : State :=
  let a := old.pack
  let b := s.pack
  setIrqIf (decide (a.pres ≠ b.pres) || a.verif != b.verif || a.frozen != b.frozen || (b.swap && !a.swap)
    || (b.rem && !a.rem)) s irqPACK

/-- TPACK (R410): REM or SWAP becomes 1. -/
def packTrigger (old s : State) : State :=
  if (s.pack.swap ∧ !old.pack.swap) ∨ (s.pack.rem ∧ !old.pack.rem) then trigger s trPACK else s

/-- R453, R470: a session begins; ID_OFF and ID_LEN take effect. -/
def beginSession (s : State) : State :=
  { s with pack := { s.pack with open_ := true, idseq := s.pack.idseq + 1
                                 offNow := pgf s 0xDC02 0 5, idLenNow := pgf s 0xDC02 8 6 } }

/-- R514: a change of presence between absent and present latches WAKESTAT.PACK and is a wake event. -/
def presenceWake (s : State) : State := wakeEvent (latchWake s wkPACK) wkPACK

/-- R456, R468, R469, R471: the decoder is outside a frame, with the level it last saw: a frame in progress is discarded
uncounted, and the next one waits as after any frame (R462). -/
def pilIdle (s : State) : State := { s with pack := { s.pack with pil := s.pack.pil.outside } }

/-- R455, R471: a removal. -/
def removal (s : State) : State :=
  let old := s
  let s := { s with pack := { s.pack with pil := s.pack.pil.outside, pres := 0, rem := true, verif := false, frozen := false, open_ := false
                                          candN := 0, remCnt := sat1 s.pack.remCnt } }
  let s := packTrigger old (packSignal old (packClear s))
  if old.pack.pres = 1 then presenceWake s else s

/-- Table PAK-1: x, in units of 2⁻²⁴, is above 0.98 or below 0.02. -/
def xAbsent (x : Nat) : Bool := decide (98 * 2 ^ 24 < 100 * x) || decide (100 * x < 2 * 2 ^ 24)

/-- Table PAK-1: x is from 0.03 to 0.97. -/
def xPresent (x : Nat) : Bool := decide (3 * 2 ^ 24 ≤ 100 * x) && decide (100 * x ≤ 97 * 2 ^ 24)

/-- Presence detection ends a filter time for absence: in thermistor mode 16 CK_AON cycles with the ratio x of R396
(R457), in identity mode 164 of them with PIL low (R459), which also discards a frame in progress (R463), whatever PRES
reads. DESIGN CHOICE (log 52). DEDUCED (log 46). -/
def packAbsent (s : State) (x : Nat) : State :=
  if ckAon s ∧ (s.pack.idm = 1 ∧ xAbsent x ∨ s.pack.idm = 2) then
    let s := if s.pack.idm = 2 then pilIdle { s with pack := { s.pack with line := false } } else s
    if s.pack.pres ≠ 0 then removal s else s
  else s

/-- The 100 ms of R438 begin again with an event inside a conversion. -/
def restartInit (s : State) : State := { s with estA := { s.estA with initLeft := 401 } }

/-- Presence detection ends a filter time PRS_T for presence, with the ratio x (R457) or PIL high (R459); in
thermistor mode that begins a session (R453). DESIGN CHOICE (log 52). -/
def packPresent (s : State) (x : Nat) : State :=
  if ckAon s ∧ s.pack.pres ≠ 1 ∧ (s.pack.idm = 1 ∧ xPresent x ∨ s.pack.idm = 2) then
    let old := s
    let s := restartInit { s with pack := { s.pack with
      pres := 1, line := s.pack.line || decide (s.pack.idm = 2) } }
    let s := if s.pack.idm = 1 then beginSession s else s
    let s := packSignal old s
    if old.pack.pres = 0 then presenceWake s else s
  else s

/-- R454, R456: IDM changes. The session ends as at a removal, which is counted; REM is set only where PRES was 1;
detection restarts, with PRES 2, or 1 and a new session for IDM 0. DEDUCED (log 46). -/
def idmChange (s : State) (idm : Nat) : State :=
  if idm = s.pack.idm then s
  else
    let old := s
    let was := decide (s.pack.pres = 1)
    let none' := decide (idm = 0)
    let p := s.pack
    let s := { s with pack := { p with
      idm := idm, pres := if none' then 1 else 2, verif := false, frozen := false, open_ := false, candN := 0
      rem := !none' && (p.rem || was), swap := p.swap && !none', remCnt := sat1 p.remCnt, pil := p.pil.outside } }
    let s := packClear s
    let s := if none' then restartInit (beginSession s) else s
    packTrigger old (packSignal old s)

/-- R193: a write of BCTL. IDM takes effect at once; 3 is refused with RANGE. -/
def bctlWrite (s : State) (p : Port) (v : Word) : State :=
  if fld v 5 2 = 3 then refuse s p eRANGE 0x3A else bctlFields (idmChange s (fld v 5 2)) v

/-! ### PIL frames (R461 to R467) -/

/-- A byte of a frame, most significant bit first. -/
def byteOfBits (l : List Bool) : Byte := BitVec.ofNat 8 (l.foldl (fun n b => 2 * n + (if b then 1 else 0)) 0)

/-- The bytes of a frame's bits. -/
def bytesOfBits (bits : List Bool) (n : Nat) : List Byte :=
  (List.range n).map (fun j => byteOfBits ((bits.drop (8 * j)).take 8))

/-- R463: the cause of a discarded frame: 0 CRC, 1 SHORT, 2 LONG, 3 sync byte; none for a good frame (R462). -/
def frameCause (bits : List Bool) (len : Nat) : Option Nat :=
  if bits.length < 24 + 8 * len then some 1
  else if 24 + 8 * len < bits.length then some 2
  else
    let l := bytesOfBits bits (len + 3)
    if l.getD 0 0 ≠ 0xA5 then some 3
    else
      let c := crc16 ((l.drop 1).take len)
      if l.getD (len + 1) 0 = hiByte c ∧ l.getD (len + 2) 0 = loByte c then none else some 0

/-- R463, R466: a discarded frame is counted and recorded; the third in a row freezes. -/
def badFrame (s : State) (cause : Nat) : State :=
  let old := s
  let p := s.pack
  let run := satAdd 255 p.badRun 1
  let p := { p with badRun := run, candN := 0
                    crcCnt := if cause = 0 then sat1 p.crcCnt else p.crcCnt
                    shortCnt := if cause = 1 then sat1 p.shortCnt else p.shortCnt
                    longCnt := if cause = 2 then sat1 p.longCnt else p.longCnt
                    syncCnt := if cause = 3 then sat1 p.syncCnt else p.syncCnt }
  let p := if run = 3 then { p with verif := false, frozen := true } else p
  recordInfo (packSignal old { s with pack := p }) ePILFRAME none (cause + 256 * run)

/-- R464, R465: the candidate is verified. -/
def verifyPack (s : State) (d : BitVec 32) : State :=
  let p := s.pack
  let other := p.pidv && decide (d ≠ p.pid)
  let s := { s with pack := { p with verif := true, frozen := false, pid := d, pidv := true
                                     swap := p.swap || other
                                     swapCnt := if other then sat1 p.swapCnt else p.swapCnt } }
  let s := if other then packClear s else s
  if !p.open_ ∨ other then beginSession s else s

/-- R464: a good frame while PRES is 1 carries a digest: it continues the candidate or begins one, and may verify it. -/
def digestSeen (s : State) (d : BitVec 32) : State :=
  let p := s.pack
  let same := decide (0 < p.candN) && decide (p.cand = d)
  let p := { p with cand := d, candN := if same then satAdd 7 p.candN 1 else 1
                    verif := p.verif && decide (d = p.pid) }
  let s := { s with pack := p }
  let s := if same ∨ p.verif then s else restartInit s
  let need := if p.frozen then pgf s 0xDC04 4 3 else pgf s 0xDC04 0 3
  if !p.verif ∧ need ≤ p.candN then verifyPack s d else s

/-- R463: a good frame: BADRUN 0, GOODCNT, PAYLOAD, and its digest. -/
def goodFrame (s : State) (pay : List Byte) : State :=
  let old := s
  let p := s.pack
  let s : State := { s with pack := { p with
    badRun := 0, goodCnt := p.goodCnt + 1
    payload := Vector.ofFn (fun j : Fin 32 => if j.val < pay.length then pay.getD j.val 0 else p.payload[j]) } }
  let s := if s.pack.pres = 1 then digestSeen s (crc32 ((pay.drop p.offNow).take p.idLenNow)) else s
  packTrigger old (packSignal old s)

/-- A frame has ended with these bits and is judged for its PIL_LEN (R462, R463). -/
def judgeFrame (s : State) (bits : List Bool) (len : Nat) : State :=
  match frameCause bits len with
  | some c => badFrame s c
  | none => goodFrame s ((bytesOfBits bits (len + 3)).drop 1 |>.take len)

/-- Change the decoder. -/
def setPil (s : State) (d : Pil) : State := { s with pack := { s.pack with pil := d } }

/-- The frame in progress ends and is judged; the next one is barred until PIL has been high for 40 cycles (R462). -/
def frameEnds (s : State) : State :=
  let d := s.pack.pil
  judgeFrame (setPil s { d with inFrame := false, bits := [], high := 0, barred := true }) d.bits d.len

/-- The falling edge of a low pulse of n cycles, `since` cycles after the last bit's, or after the end of the break, is
accepted (Table PAK-2). DEDUCED (log 46). -/
def edgeOk (d : Pil) : Bool :=
  if d.bits.isEmpty then decide (3 ≤ d.since) && decide (d.since ≤ 39) else decide (16 ≤ d.since) && decide (d.since ≤ 23)

/-- The bit of a low pulse (Table PAK-2). -/
def pulseBit (n : Nat) : Option Bool :=
  if 3 ≤ n ∧ n ≤ 8 then some false else if 10 ≤ n ∧ n ≤ 16 then some true else none

/-- The CK_SCAN cycles within the 164 CK_AON cycles of R459: a low pulse of more has met absence. DEDUCED (log 46). -/
abbrev absenceCycles : Nat := 960

/-- A low pulse of n cycles ends (R460 to R462): one under 3 cycles is ignored; one that has met absence leaves no frame,
bars the next and is no break (R462, R463, Table PAK-2); a break ends a frame in progress and begins the next, unless it is barred; in a frame a pulse of a bit window gives its bit where its falling edge is
accepted, and one outside both windows ends the frame; outside a frame a pulse is ignored. DEDUCED (log 46). -/
def pulseEnds (s : State) (n : Nat) : State :=
  let d := s.pack.pil
  if n < 3 then setPil s { d with low := none, high := d.high + n, since := d.since + n }
  else if absenceCycles < n then pilIdle s
  else if 70 ≤ n then
    let barred := d.barred && !d.inFrame
    let s := if d.inFrame then frameEnds s else s
    let d := { s.pack.pil with low := none, high := 0, since := 0 }
    if barred then setPil s d
    else setPil s { d with inFrame := true, bits := [], len := pgf s 0xDC00 0 6, barred := false }
  else
    let d := { d with low := none, high := 0 }
    if !d.inFrame then setPil s d
    else
      match pulseBit n with
      | some b =>
        if edgeOk d then setPil s { d with bits := d.bits ++ [b], since := n } else setPil s { d with since := d.since + n }
      | none => frameEnds (setPil s d)

/-- PIL stays high for n cycles: the frame ends where no falling edge has come in time (R462), and 40 cycles high after its
end free the decoder for the next. DEDUCED (log 46). -/
def pilHigh (s : State) (n : Nat) : State :=
  let d := s.pack.pil
  let d' := { d with seen := true, high := d.high + n, since := d.since + n
                     barred := d.barred && decide (d.high + n < 40) }
  let limit := if d.bits.isEmpty then 39 else 23
  if d.inFrame ∧ limit < d.since + n then
    let s := frameEnds (setPil s d')
    let left := min n (d.since + n - limit - 1)
    setPil s { s.pack.pil with high := left, barred := decide (left < 40) }
  else setPil s d'

/-- The decoder sees PIL at a level for n cycles (R460). A low pulse counts once its falling edge has been seen
(R469). -/
def pilRun (s : State) (level : Bool) (n : Nat) : State :=
  let s := { s with pack := { s.pack with line := level } }
  if s.pack.idm ≠ 2 then s
  else if level then
    let s := match s.pack.pil.low with
      | some l => pulseEnds s l
      | none => s
    pilHigh s n
  else
    match s.pack.pil.low with
    | some l => setPil s { s.pack.pil with low := some (l + n) }
    | none => if s.pack.pil.seen then setPil s { s.pack.pil with low := some n } else s

/-- PIL_FRAME: the PIL decoder runs over what PIL did since the last such row, as levels and CK_SCAN cycles; a frame
that ends there is judged (R460 to R463, R469). It runs in STANDBY and RUN. DEDUCED (log 46). -/
def pilFrame (s : State) (wave : List (Bool × Nat)) : State :=
  if slotsRun s then wave.foldl (fun s r => pilRun s r.1 r.2) s else s

/-- R467: no good frame for ID_TMO; the time starts again at a SLEEP exit (R468). DEDUCED (log 46). -/
def identityTimeout (s : State) : State :=
  if s.pack.idm = 2 ∧ active s ∧ s.pack.verif then
    packSignal s { s with pack := { s.pack with verif := false } }
  else s

/-! ### Registers (R196) -/

def bpackRead (s : State) : Word :=
  let p := s.pack
  wordOf (p.pres + flag p.verif 2 + flag p.swap 3 + flag p.rem 4 + flag p.frozen 5 + 256 * p.idseq.toNat)

/-- BPACK's W1C flags. -/
def bpackWrite (s : State) (v : Word) : State :=
  { s with pack := { s.pack with swap := s.pack.swap && !bit v 3, rem := s.pack.rem && !bit v 4 } }

/-- R470: CNTCLR clears every counter of the page except GOODCNT. -/
def packCountersClear (s : State) : State :=
  { s with pack := { s.pack with crcCnt := 0, shortCnt := 0, longCnt := 0, syncCnt := 0, badRun := 0, remCnt := 0
                                 swapCnt := 0 } }

/-! ### The commands -/

/-- BCTL_WRITE (R193). -/
def execBctlWrite (p : Port) (v : Word) (s : State) : Host.Outcome State Fault Refusal :=
  .next (gate s p 0x1D v (fun s w => bctlWrite s p w))

/-- IDM_CHANGE (R456): a BCTL write that changes IDM alone. -/
def execIdmChange (p : Port) (idm : BitVec 2) (s : State) : Host.Outcome State Fault Refusal :=
  .next (gate s p 0x1D (wordOf ((bctlRead s).toNat % 32 + 32 * idm.toNat + 128 * s.batA.iq))
    (fun s w => bctlWrite s p w))

/-- PACK_ABSENCE (R455). -/
def execPackAbsence (x : Nat) (s : State) : Host.Outcome State Fault Refusal := .next (packAbsent s x)

/-- PACK_PRESENT (R457). -/
def execPackPresent (x : Nat) (s : State) : Host.Outcome State Fault Refusal := .next (packPresent s x)

/-- PIL_FRAME (R462). -/
def execPilFrame (wave : List (Bool × Nat)) (s : State) : Host.Outcome State Fault Refusal := .next (pilFrame s wave)

/-- IDENTITY_TIMEOUT (R467). -/
def execIdentityTimeout (s : State) : Host.Outcome State Fault Refusal := .next (identityTimeout s)

end Sys2Proof.Machine
end

