-- ==== Sys2Proof/Machine/Soc.lean ====
section
/-! DEFINITION. Model blocks and their validation, the estimators of both channels and the monotonic report (R411 to
R413, "State-of-charge estimation and the monotonic report"). -/

namespace Sys2Proof.Machine

open Sys2Proof

/-! ### The model block of a channel (Table BAT-3) -/

/-- CAP_NOM, 10 mAh. -/
def capNom (s : State) (c : BatCh) : Nat := (modelWord s c 6).toNat

/-- TEMPS, 0.1 °C. -/
def tempRow (s : State) (c : BatCh) (i : Nat) : Int := (modelWord s c (0x20 + 2 * i)).toInt

/-- SOCS, 0.01 %. -/
def socPoint (s : State) (c : BatCh) (j : Nat) : Nat :=
  (modelWord s c (0x20 + 2 * modelNtemp s c + 2 * j)).toNat

/-- Entry (t, j) of table k: 0 OCV, 1 R0, 2 R1, 3 TAU. -/
def modelEntry (s : State) (c : BatCh) (k t j : Nat) : Nat :=
  let ns := modelNsoc s c
  let nt := modelNtemp s c
  (modelWord s c (0x20 + 2 * nt + 2 * ns + 2 * (ns * nt * k + ns * t + j))).toNat

/-! ### Lookup (R428) -/

/-- The TEMPS rows a temperature lies between: the lower row and the part of the way to the next. -/
def rowPos (s : State) (c : BatCh) (t : Int) : Nat × Frac :=
  let nt := modelNtemp s c
  if t ≤ tempRow s c 0 then (0, Frac.zero)
  else if tempRow s c (nt - 1) ≤ t then (nt - 1, Frac.zero)
  else
    let i := ((List.range (nt - 1)).find? (fun i => decide (tempRow s c i ≤ t ∧ t < tempRow s c (i + 1)))).getD 0
    (i, Frac.mk' (t - tempRow s c i) (tempRow s c (i + 1) - tempRow s c i).toNat)

/-- A straight line between two values. -/
def lerp (a b w : Frac) : Frac := a.add ((b.sub a).mul w)

/-- Point j of the row of table k interpolated at a temperature. -/
def rowVal (s : State) (c : BatCh) (k : Nat) (p : Nat × Frac) (j : Nat) : Frac :=
  let a := Frac.ofInt (modelEntry s c k p.1 j)
  if p.2.num = 0 then a else lerp a (Frac.ofInt (modelEntry s c k (p.1 + 1) j)) p.2

/-- Table k at (x, t), x in 0.01 %. DESIGN CHOICE (log 16). -/
def modelAt (s : State) (c : BatCh) (k : Nat) (t : Int) (x : Frac) : Frac :=
  let p := rowPos s c t
  let pt (j : Nat) : Frac := Frac.ofInt (socPoint s c j)
  match (List.range (modelNsoc s c - 1)).find? (fun j => (pt j).le x && x.lt (pt (j + 1))) with
  | some j => lerp (rowVal s c k p j) (rowVal s c k p (j + 1)) ((x.sub (pt j)).div ((pt (j + 1)).sub (pt j)))
  | none => rowVal s c k p (if x.lt (pt 0) then 0 else modelNsoc s c - 1)

/-- SOC_ocv(V, t) in 0.01 %, V in the units of the OCV table: the lowest s at which the row equals V. -/
def socOcv (s : State) (c : BatCh) (t : Int) (v : Frac) : Frac :=
  let p := rowPos s c t
  let pt (j : Nat) : Frac := Frac.ofInt (socPoint s c j)
  match (List.range (modelNsoc s c)).find? (fun j => v.le (rowVal s c 0 p j)) with
  | none => Frac.ofInt 10000
  | some 0 => Frac.zero
  | some (j + 1) =>
    let a := rowVal s c 0 p j
    lerp (pt j) (pt (j + 1)) ((v.sub a).div ((rowVal s c 0 p (j + 1)).sub a))

/-! ### Reading a block (R413, log entry 17) -/

def getMstat (s : State) : BatCh → Nat
  | .chA => s.batA.mstat
  | .chB => s.batB.mstat

def setMstat (s : State) (c : BatCh) (v : Nat) : State :=
  match c with
  | .chA => { s with batA := { s.batA with mstat := v } }
  | .chB => { s with batB := { s.batB with mstat := v } }

/-- A read of n ECC words of a block, one L4 burst each; whether all were good. DEDUCED (log 17).
DESIGN CHOICE (log 49). -/
def modelFetch (s : State) (c : BatCh) (n : Nat) (first : Bool) : Bool × State :=
  (!eccBadN s (modelBase c) n, eccReadN (grantWork s 4 n first) (modelBase c) n)

/-- An estimator's read of its block: with MSTAT 1 the whole block; an uncorrectable error sets MSTAT to 6. The result
says whether the update has a model. DEDUCED (log 17). -/
def modelRead (s : State) (c : BatCh) (first : Bool) : Bool × State :=
  if getMstat s c = 1 then
    let r := modelFetch s c ((modelLen s c + 7) / 8) first
    if r.1 then r else (false, setMstat r.2 c 6)
  else (false, s)

/-- Channel A's block as it stands. -/
def blockCells (s : State) : List (Nat × BitVec 8) := s.mem.filter (fun c => decide (0x40000 ≤ c.1 ∧ c.1 < 0x48000))

/-- A window write is about to invalidate channel A's model during an update: the block as the update reads it is kept until
that has completed (R449). DEDUCED (log 17). -/
def modelHeld (s : State) (a : Nat) : State :=
  if 0x40000 ≤ a ∧ a < 0x48000 ∧ s.batA.mstat = 1 ∧ s.batA.due.isSome ∧ !eccBadN s (modelBase .chA) ((modelLen s .chA + 7) / 8)
  then { s with batA := { s.batA with held := some (blockCells s) } }
  else s

/-- The block that an update of channel A goes on with although its model has been invalidated meanwhile: none by R420, the
one kept by R449. DESIGN CHOICE (log 17). -/
def keptModel (s : State) : Option (List (Nat × BitVec 8)) := if Config.updateKeepsModel then s.batA.held else none

/-- The machine with a kept block in place of the one in the Cellar, for the reads of an update. DEDUCED (log 17). -/
def modelView (s : State) (kept : Option (List (Nat × BitVec 8))) : State :=
  match kept with
  | some l => { s with mem := s.mem.filter (fun c => decide (c.1 < 0x40000)) ++ l
                                ++ s.mem.filter (fun c => decide (0x48000 ≤ c.1)) }
  | none => s

/-! ### Validation (R412, Table BAT-4) -/

/-- A write of 1 to MLOAD takes effect: validation begins. -/
def modelLoads (s : State) (c : BatCh) : State :=
  match c with
  | .chA => { s with batA := { s.batA with mbusy := true, minval := false } }
  | .chB => { s with batB := { s.batB with mbusy := true, minval := false } }

def modelBusy (s : State) : BatCh → Bool
  | .chA => s.batA.mbusy
  | .chB => s.batB.mbusy

/-- R411: a window write reaches a block's range. -/
def modelTouched (s : State) (a : Nat) : State :=
  if 0x40000 ≤ a ∧ a < 0x48000 then { s with batA := { s.batA with mstat := 0, minval := s.batA.mbusy } }
  else if 0x48000 ≤ a ∧ a < 0x50000 then { s with batB := { s.batB with mstat := 0, minval := s.batB.mbusy } }
  else s

def modelOrderOk (s : State) (c : BatCh) : Bool :=
  let ns := modelNsoc s c
  let nt := modelNtemp s c
  (List.range (nt - 1)).all (fun i => decide (tempRow s c i < tempRow s c (i + 1)))
    && (List.range (ns - 1)).all (fun j => decide (socPoint s c j < socPoint s c (j + 1)))
    && decide (socPoint s c 0 = 0 ∧ socPoint s c (ns - 1) = 10000)
    && (List.range nt).all (fun t =>
      (List.range (ns - 1)).all (fun j => decide (modelEntry s c 0 t j ≤ modelEntry s c 0 t (j + 1))))

/-- The CRC of a block, +0x1E and +0x1F left out. -/
def modelCrc (s : State) (c : BatCh) : BitVec 16 :=
  (List.range (modelLen s c)).foldl (fun r k =>
    if k = 0x1E ∨ k = 0x1F then r else crc16Byte r (Cellar.get s.mem (modelBase c + k))) 0xFFFF

/-- The MSTAT that a validation reaches: the header is read, then the whole block; an uncorrectable error met by a
read gives 6 (R413), else the first failing check. DEDUCED (log 17). -/
def validate (s : State) (c : BatCh) : Nat × State :=
  let first := decide (longWork s 4 = some (.validation c))
  let h := modelFetch s c 4 first
  if !h.1 then (6, h.2)
  else if modelWord s c 0 ≠ modelType c then (2, h.2)
  else if !modelSizesOk s c then (3, h.2)
  else
    let r := modelFetch s c ((modelLen s c + 7) / 8) first
    if !r.1 then (6, r.2)
    else if !modelOrderOk s c then (4, r.2)
    else if modelCrc s c ≠ modelWord s c 0x1E then (5, r.2)
    else (1, r.2)

/-- R412, R420: validation ends. -/
def validated (s : State) (c : BatCh) : State :=
  let r := validate s c
  let inval := match c with
    | .chA => r.2.batA.minval
    | .chB => r.2.batB.minval
  let s := setMstat r.2 c (if inval then 0 else r.1)
  match c with
  | .chA => { s with batA := { s.batA with mbusy := false, minval := false } }
  | .chB => { s with batB := { s.batB with mbusy := false, minval := false } }

/-- MODEL_VALIDATION_DONE, where the arbiter grants the reads at L4 (R13, R224). DESIGN CHOICE (log 49). -/
def validationDone (s : State) (c : BatCh) (ups : List Upset) : State :=
  if modelBusy s c ∧ active s then granted s (.low 4) (fun s => validated (upsets s ups) c) else upsets s ups

/-! ### Charge and internal value -/

/-- Full scale of the internal and reported values. -/
abbrev socFull : Nat := 1000000

/-- Charge units in 10 mAh: 25 nC on channel A, 1 µC on channel B. -/
def capUnit : BatCh → Nat
  | .chA => 1440000000
  | .chB => 36000000

/-- R426, R434: the internal value of a charge, clamped. DESIGN CHOICE (log 16). -/
def intOf (c : BatCh) (q : Frac) (cap prev : Nat) : Nat :=
  if cap = 0 then Config.openSoc prev 0 % (socFull + 1)
  else (clampInt 0 socFull (roundOpen (socFull * q.num) (q.den * (cap * capUnit c)))).toNat

/-- The charge that matches an internal value. -/
def qOf (c : BatCh) (i cap : Nat) : Frac := Frac.mk' (i * (cap * capUnit c)) socFull

/-- An internal value from a state of charge in 0.01 %. -/
def fine (x : Frac) : Nat := (clampInt 0 socFull (roundOpen (100 * x.num) x.den)).toNat

/-- An internal value in 0.01 %. -/
def pct (i : Nat) : Frac := Frac.mk' i 100

/-! ### Flow (R425, Table SOC-1, R452) -/

/-- One update of the filtered current, the flow state and the rest timer; w is the weight's divisor, iq the threshold,
dt the update's length in ms. -/
def flowStep (e : Est) (i : Frac) (w iq dt : Nat) : Est :=
  let f := e.f.add (Frac.mk' ((i.sub e.f).num) ((i.sub e.f).den * w))
  let q := Frac.ofInt iq
  let run := if q.lt f then min 2000 ((if e.chgIq = iq then e.chgRun else 0) + dt) else 0
  let flow := if f.lt (Frac.neg q) then 1 else if 2000 ≤ run then 2 else 0
  let tot := e.restFrac + dt
  let e := { e with f := f, chgRun := run, chgIq := iq, fullDone := e.fullDone && decide (flow = 2) }
  if flow ≠ 0 then { e with flow := flow, restFrac := 0, restS := 0, restDone := 0 }
  else if e.flow ≠ 0 then { e with flow := 0, restFrac := 0, restS := 0, restDone := 0 }
  else { e with restFrac := tot % 1000, restS := e.restS + tot / 1000 }

/-! ### The report (R436, Table SOC-2) -/

/-- The reported value at an update: r before it, i and i' the internal values before and after. Where no case of Table
SOC-2 applies r is kept (R437): Discharge from i = 0 below r, Charge from i = full above r. DEDUCED (log 45). -/
def report (flow r i i' : Nat) : Nat :=
  if flow ≠ 2 ∧ i' = 0 then 0
  else if flow = 1 then
    if r ≤ i then min r i'
    else if i = 0 then r
    else min r ((r * i' + i - 1) / i)
  else if flow = 2 then
    if i ≤ r then max r i'
    else if socFull ≤ i then r
    else max r (socFull - ((socFull - r) * (socFull - i') + (socFull - i) - 1) / (socFull - i))
  else r

/-- IRQSTAT.BAT for an update (Table REG-5): a flow state changes, or the report crosses a multiple of 100 units,
becomes 0xFFFF or leaves it. The report crosses where floor(BSOC / 100) changes: 5001 to 5000 is no crossing, 4999 to
5000 is one. DESIGN CHOICE (log 45). -/
def estSignal (old new : Est) : Bool :=
  decide (old.flow ≠ new.flow) || old.valid != new.valid
    || (new.valid && decide ((bsoc old).toNat / 100 ≠ (bsoc new).toNat / 100))

/-! ### Channel A corrections (R427, R430 to R433) -/

/-- The mean of the newest n interval means. -/
def meanHist (h : List (Frac × Frac)) (n : Nat) : Frac × Frac :=
  let t := (h.take n).foldl (fun (a : Frac × Frac) x => (a.1.add x.1, a.2.add x.2)) (Frac.zero, Frac.zero)
  (Frac.mk' t.1.num (t.1.den * n), Frac.mk' t.2.num (t.2.den * n))

/-- A voltage in 10 µV as channel A's OCV table counts it (2 mV). -/
def ocvUnits (v : Frac) : Frac := Frac.mk' v.num (v.den * 200)

/-- V − I × R0 in 10 µV; R0 in 10 µΩ, I in 100 µA. -/
def ocOf (v i r0 : Frac) : Frac := v.sub (Frac.mk' (i.mul r0).num ((i.mul r0).den * 10000))

/-- Channel A's R0 at (x, t): the table value times R0_SCALE / 1024. -/
def r0A (s : State) (e : Est) (t : Int) (x : Frac) : Frac :=
  let r := modelAt s .chA 1 t x
  Frac.mk' (r.num * e.r0s) (r.den * 1024)

/-- The internal value is set, and Q to match. -/
def setInt (e : Est) (i : Nat) : Est := { e with int := i, q := qOf .chA i e.fcc }

/-- R427: full charge. DEDUCED (log 44). -/
def fullCharge (s : State) (e : Est) (t : Int) (v i : Frac) : Est :=
  let top := modelAt s .chA 0 t (Frac.ofInt 10000)
  let ok := top.le (ocvUnits v) && i.lt (Frac.ofInt (5 * e.fcc))
  let run := if ok then min 60000 (e.fullRun + 10) else 0
  let e := { e with fullRun := run }
  if e.flow = 2 ∧ 60000 ≤ run ∧ !e.fullDone then { setInt e socFull with fullDone := true } else e

/-- R433: FCC is learned from the newest earlier correction at least 40 % away. DEDUCED (log 45). -/
def learnFcc (s : State) (e : Est) (x : Frac) : Est :=
  if pgb s 0xD446 0 then
    match e.lrn.find? (fun y => (Frac.ofInt 4000).le ((x.sub y.1).abs)) with
    | some y =>
      let m := (y.2.abs.mul (Frac.ofInt 10000)).div (((x.sub y.1).abs).mul (Frac.ofInt (capUnit .chA)))
      let cn := capNom s .chA
      let y3 := ((Frac.ofInt e.fcc).mul (Frac.ofInt 3)).add m
      let f := Frac.clamp (Frac.mk' cn 2) (Frac.mk' (6 * cn) 5) (Frac.mk' y3.num (y3.den * 4))
      let fcc := (clampInt 0 0xFFFF (roundOpen f.num f.den)).toNat
      { e with fcc := fcc, learned := true, lrn := []
               soh := if cn = 0 then 0xFFFF else (min 0xFFFF (roundOpen (10000 * fcc) cn)).toNat }
    | none => e
  else e

/-- R430: the correction from open-circuit voltage at rest. DEDUCED (log 45). -/
def restCorrection (s : State) (e : Est) (t : Int) : Est :=
  let rt := (pg s 0xD440).toNat
  if rt ≤ e.restS ∧ e.restDone / rt < e.restS / rt ∧ 100 ≤ e.vHist.length ∧ e.restore = none then
    let x := socOcv s .chA t (ocvUnits (meanHist e.vHist 100).1)
    let e := learnFcc s e x
    { setInt e (fine x) with degr := false, corrCnt := sat1 e.corrCnt, src := 2, restDone := e.restS
                             lrn := (x, Frac.zero) :: e.lrn }
  else e

/-- R431: the low-end correction under load. -/
def lowCorrection (s : State) (e : Est) (t : Int) (v i : Frac) : Est :=
  if e.flow = 1 ∧ e.int < 200000 then
    let x := socOcv s .chA t (ocvUnits (ocOf v i (r0A s e t (pct e.int))))
    if x.lt ((pct e.int).sub (Frac.ofInt 300)) then
      if 10000 ≤ e.lowRun + 10 then
        { setInt e (fine x) with lowRun := 0, src := 2, corrCnt := sat1 e.corrCnt }
      else { e with lowRun := e.lowRun + 10 }
    else { e with lowRun := 0 }
  else { e with lowRun := 0 }

/-- R432: the resistance scale is learned from a step of current. -/
def learnR0 (s : State) (e : Est) (t : Int) (v i : Frac) (past : Bool) : Est :=
  match e.lastV with
  | some (v', i', past') =>
    let di := i.sub i'
    if pgb s 0xD446 1 ∧ (Frac.ofInt 20000).le di.abs ∧ !past ∧ !past' then
      let rm := ((v.sub v').mul (Frac.ofInt 10000)).div di
      let r0 := modelAt s .chA 1 t (pct e.int)
      if (Frac.mk' r0.num (r0.den * 4)).le rm ∧ rm.le (r0.mul (Frac.ofInt 4)) then
        let target := if r0.num = 0 then Frac.ofInt (Config.overZero rm.num rm.den) else (rm.mul (Frac.ofInt 1024)).div r0
        let x := (Frac.ofInt (15 * e.r0s)).add target
        { e with r0s := (clampInt 512 4096 (roundOpen x.num (x.den * 16))).toNat }
      else e
    else e
  | none => e

/-- The corrections of a channel A update that has a model and an estimate. -/
def correctA (s : State) (e : Est) (t : Int) (v i : Frac) (past has : Bool) : Est :=
  if has ∧ e.valid then learnR0 s (lowCorrection s (restCorrection s (fullCharge s e t v i) t) t v i) t v i past
  else { e with fullRun := 0, lowRun := 0 }

/-! ### Declared events (R437, R438, R441) -/

/-- A word of a restore's arguments. -/
def rArg (r : Restore) (k : Nat) : Word := r.getD k 0

/-- R441: the internal value (k = 0) or the reported one (k = 1) that a restore sets: its own, or with CAP alone what the
channel has; one that has no state of charge becomes valid without one. DESIGN CHOICE (log 16). -/
def restoredSoc (free : Nat) (e : Est) (soc : Bool) (v k : Nat) : Nat :=
  if soc then v * 100
  else if e.valid then (if k = 0 then e.int else e.rep)
  else Config.capOnlySoc free k % (socFull + 1)

/-- R441: an accepted RESTORE_A is applied: CAP first, then SOC; `free` is the free counter. DEDUCED (log 45). -/
def applyA (e : Est) (r : Restore) (free : Nat) : Est :=
  let soc := bit (rArg r 1) 0
  let e := if bit (rArg r 1) 1 then
      { e with fcc := (rArg r 7).toNat, soh := (rArg r 8).toNat, r0s := (rArg r 9).toNat, ecyc := (rArg r 10).toNat
               ecycQ := Frac.zero }
    else e
  let i := restoredSoc free e soc (rArg r 5).toNat 0
  { e with int := i, q := qOf .chA i e.fcc, rep := restoredSoc free e soc (rArg r 6).toNat 1
           valid := true, src := 3, degr := false, rst := true
           restS := 0, restFrac := 0, restDone := 0, lrn := [], restore := none }

/-- R438: channel A's initial estimate. DESIGN CHOICE (log 16). -/
def initialA (s : State) (e : Est) (t : Int) : Est :=
  let m := meanHist e.vHist 10
  let r0 := r0A s e t (Frac.ofInt (Config.initR0At m.1.num m.1.den % 10001 : Nat))
  let i := fine (socOcv s .chA t (ocvUnits (ocOf m.1 m.2 r0)))
  let cn := capNom s .chA
  let e := if e.fcc = 0 then { e with fcc := cn, soh := if cn = 0 then 0xFFFF else 10000 } else e
  { setInt e i with rep := i, src := 1, valid := true, learned := false }

/-- Whether channel A may make its initial estimate at this update (R438). -/
def mayInitA (s : State) (e : Est) (has : Bool) : Bool :=
  has && !e.valid && decide (e.initLeft = 0 ∧ s.pack.pres = 1) && (decide (s.pack.idm ≠ 2) || s.pack.verif)

/-! ### Channel A's update (R424) -/

/-- R426: step 1. -/
def countA (e : Est) (k : Acc) : Est :=
  let cnt := Frac.mk' (e.pendCount + k.cnt) 1000
  let dis := Frac.ofInt ((e.pendDis + k.dis : Nat))
  let past := e.pendOr || k.orI
  let q := e.q.add cnt
  let tenth := Frac.ofInt (e.fcc * (capUnit .chA / 10) : Nat)
  let acc := e.ecycQ.add dis
  let n := if e.fcc = 0 then 0 else (acc.div tenth).floor
  { e with q := q, int := if e.valid then intOf .chA q e.fcc e.int else e.int, degr := e.degr || past
           lrn := if past then [] else e.lrn.map (fun y => (y.1, y.2.add cnt))
           ecyc := (e.ecyc + n.toNat) % 0x10000
           ecycQ := if e.fcc = 0 then e.ecycQ else acc.sub ((Frac.ofInt n).mul tenth)
           pendCount := 0, pendDis := 0, pendOr := false }

/-- R195, R400, R402: BVA, BIA and BTA of an interval. DEDUCED (log 44). -/
def measured (a : BatA) (k : Acc) : BatA :=
  { a with due := none, held := none
           bva := wordOfInt (clampInt 0 0xFFFF (roundAway k.v (200 * k.n)))
           bia := wordOfInt (clampInt (-0x7FFF) 0x7FFF (roundAway k.i (100 * k.n)))
           bta := if k.tn = 0 then 0x8000 else wordOfInt (clampInt (-0x7FFF) 0x7FFF (roundAway k.t (10 * k.tn))) }

/-- I_q of channel A in 100 µA (Table REG-25). -/
def iqA (s : State) : Nat :=
  10 * (match s.batA.iq with
    | 0 => 50
    | 1 => 20
    | 2 => 100
    | _ => (pg s 0xD414).toNat)

/-- The update's temperature: BTA, or TEMP while BTA reads 0x8000 (R428). -/
def tempA (s : State) : Int := if s.batA.bta = 0x8000 then s.disp.temp.toInt else s.batA.bta.toInt

/-- A restore sets the reported value: with SOC, or of a channel that it makes valid. -/
def restoreSets (e : Est) (r : Restore) : Bool := bit (rArg r 1) 0 || !e.valid

/-- Step 4 on channel A, and whether the event set the reported value: a restore that waits, in its place an initial
estimate. -/
def eventA (s : State) (e : Est) (t : Int) (has : Bool) : Est × Bool :=
  match e.restore with
  | some r => (applyA e r s.freeCtr, restoreSets e r)
  | none => if mayInitA s e has then (initialA s e t, true) else (e, false)

/-- Step 5: the reported value, where no declared event set it. `i` is the internal value before the update. -/
def stepReport (i : Nat) (r : Est × Bool) : Est :=
  if r.2 ∨ !r.1.valid then r.1 else { r.1 with rep := report r.1.flow r.1.rep i r.1.int }

/-- R424: an update of channel A, at the end of an estimator interval, with the model that it has read (R449).
DEDUCED (log 17). -/
def updateA (s : State) (ups : List Upset) : State :=
  let s := upsets s ups
  match s.batA.due with
  | none => s
  | some k =>
    if slotsRun s then
      let kept := keptModel s
      let r := modelRead { s with batA := { measured s.batA k with chgEff := (pg s 0xD442).toNat, slpI := (pg s 0xD444).toNat } } .chA
        (decide (longWork s 4 = some .update))
      let m := modelView r.2 kept
      let has := r.1 || kept.isSome
      let s := r.2
      let t := tempA s
      let v := Frac.mk' k.v k.n
      let i := Frac.mk' k.i k.n
      let past := k.orV || k.orI
      let e0 := s.estA
      let e := flowStep (countA e0 k) (Frac.mk' k.cnt (1000 * k.n)) 100 (iqA s) 10
      let e := correctA m { e with vHist := ((v, i) :: e.vHist).take 100 } t v i past has
      let e := stepReport e0.int (eventA m { e with lastV := some (v, i, past) } t has)
      setIrqIf (estSignal e0 e) { s with estA := e, freeCtr := if e0.restore.isSome then s.freeCtr + 1 else s.freeCtr } irqBAT
    else s

/-! ### Channel B's update (R424, R434, R438, R441) -/

/-- CAPB, or CAP_NOM of a valid model. -/
def capB (s : State) (e : Est) (has : Bool) : Nat := if e.capb = 0 then (if has then capNom s .chB else 0) else e.capb

/-- R434: the inferred current in mA. -/
def inferB (s : State) (e : Est) (t : Int) : Frac :=
  let x := pct e.int
  let r0 := modelAt s .chB 1 t x
  let dv := ((Frac.ofInt s.batB.bvb).sub (modelAt s .chB 0 t x)).sub e.v1
  let i := if r0.num = 0 then Frac.ofInt (Config.overZero dv.num dv.den) else (dv.mul (Frac.ofInt 100000)).div r0
  let hi := 100 * (pg s 0xD822).toNat
  let lo := if s.batB.inCrank then 1000 * (pg s 0xD828).toNat else hi
  Frac.clamp (Frac.ofInt (-(lo : Int))) (Frac.ofInt hi) i

/-- R434: the model step of dt ms; a charge that no capacity could be matched to is matched first (R441). DESIGN
CHOICE (log 10). DEDUCED (log 44). -/
def modelStepB (s : State) (e : Est) (t : Int) (dt : Nat) : Est :=
  let x := pct e.int
  let i := inferB s e t
  let r1 := modelAt s .chB 2 t x
  let tau := modelAt s .chB 3 t x
  let k := Frac.mk' ((fxOne : Int) - fxExpNeg (dt * tau.den) (100 * tau.num.toNat)) fxOne
  let aim := Frac.mk' (r1.mul i).num ((r1.mul i).den * 100000)
  let q0 := if e.qOpen then qOf .chB e.int (capB s e true) else e.q
  let q := q0.add (i.mul (Frac.ofInt dt))
  { e with qOpen := false, ib := i, v1 := e.v1.add ((aim.sub e.v1).mul k), q := q, int := intOf .chB q (capB s e true) e.int }

/-- R441: an accepted RESTORE_B is applied. While CAPB is that of a model and none is valid, Q is set to match with
the first model step. DEDUCED (log 45). -/
def applyB (s : State) (e : Est) (r : Restore) (has : Bool) : Est :=
  let soc := bit (rArg r 1) 0
  let e := if bit (rArg r 1) 1 then { e with capb := (rArg r 5).toNat } else e
  let i := restoredSoc s.freeCtr e soc (rArg r 2).toNat 0
  { e with int := i, q := qOf .chB i (capB s e has), qOpen := decide (capB s e has = 0), rep := restoredSoc s.freeCtr e soc (rArg r 3).toNat 1
           v1 := if soc then Frac.ofInt (rArg r 4).toInt else e.v1
           valid := true, src := 3, degr := false, rst := true
           restS := 0, restFrac := 0, restDone := 0, restore := none }

/-- R438: channel B's initial estimate. DESIGN CHOICE (log 16). -/
def initialB (s : State) (e : Est) (t : Int) : Est :=
  let i := fine (socOcv s .chB t (Frac.ofInt s.batB.bvb))
  { e with int := i, q := qOf .chB i (capB s e true), qOpen := false, rep := i, v1 := Frac.zero, src := 1, valid := true }

def eventB (s : State) (e : Est) (t : Int) (has : Bool) : Est × Bool :=
  match e.restore with
  | some r => (applyB s e r has, restoreSets e r)
  | none => if has ∧ !e.valid ∧ e.initLeft = 0 then (initialB s e t, true) else (e, false)

/-- R404, R424: an update of channel B: in STANDBY and RUN over the samples of 10 ms, in SLEEP at a sample.
DEDUCED (log 17). -/
def updateB (s : State) (ups : List Upset) : State :=
  let s := upsets s ups
  let b := s.batB
  if b.sumN ≠ 0 ∧ (slotsRun s ∨ s.pw.mode = .sleep) ∧ ckAon s then
    let run := slotsRun s
    let bvb := if run then (roundOpen b.sumV b.sumN).toNat else b.bvb
    let r := modelRead { s with batB := { b with sumN := 0, sumV := 0, bvb := bvb, crkDv := (pg s 0xD824).toNat
                                                 crkT := (pg s 0xD826).toNat } } .chB false
    let s := r.2
    let t := s.disp.temp.toInt
    let dt := if run then 10 else 1000
    let e0 := s.estB
    let e := { e0 with initLeft := e0.initLeft - 4 * dt }
    let e := if r.1 ∧ e.valid then modelStepB s e t dt else e
    let e := flowStep e e.ib (if run then 100 else 1) (pg s 0xD820).toNat dt
    let e := stepReport e0.int (eventB s e t r.1)
    setIrqIf (estSignal e0 e) { s with estB := e, freeCtr := if e0.restore.isSome then s.freeCtr + 1 else s.freeCtr } irqBAT
  else s

/-! ### SLEEP (R442) -/

/-- R442: what a SLEEP of t seconds leaves of channel A's estimate; `sub` says that TIMESUB became set during it. -/
def estWake (s : State) (t : Nat) (sub : Bool) : State :=
  if s.batA.ena then
    let e := s.estA
    let q := if sub then e.q else e.q.sub (Frac.ofInt (s.batA.slpI * t * 4000 : Nat))
    let e' := { e with f := Frac.zero, flow := 0, lrn := [], degr := e.degr || sub
                       restS := if sub then 0 else t, restFrac := 0, restDone := 0, q := q
                       int := if e.valid then intOf .chA q e.fcc e.int else e.int }
    setIrqIf (decide (e.flow ≠ 0)) { s with estA := e' } irqBAT
  else s

/-! ### Restores (R440) -/

/-- R440: RESTORE_A: the code of its refusal, or none. -/
def restoreAError (s : State) (r : Restore) : Option Byte :=
  let fl := (rArg r 1).toNat
  let pid := rArg r 4 ++ rArg r 3
  let p := s.pack
  if r.length ≠ 11 ∨ rArg r 0 ≠ 0x5201 ∨ fl = 0 ∨ 3 < fl ∨ 0xFF < (rArg r 2).toNat ∨ 10000 < (rArg r 5).toNat
      ∨ 10000 < (rArg r 6).toNat ∨ (rArg r 7).toNat = 0 ∨ 12000 < (rArg r 8).toNat ∨ (rArg r 9).toNat < 512
      ∨ 4096 < (rArg r 9).toNat then some eRANGE
  else if !s.batA.ena ∨ loByte (rArg r 2) ≠ p.idseq ∨ (p.idm ≠ 0 ∧ p.pres ≠ 1)
      ∨ (p.idm = 2 ∧ (!p.verif ∨ p.frozen ∨ pid ≠ p.pid)) ∨ (p.idm ≠ 2 ∧ pid ≠ 0)
      ∨ (fl % 2 = 1 ∧ s.estA.fcc = 0 ∧ fl / 2 % 2 = 0) then some eSTATE
  else none

/-- R440: RESTORE_B: the code of its refusal, or none. -/
def restoreBError (s : State) (r : Restore) : Option Byte :=
  let fl := (rArg r 1).toNat
  let v1 := (rArg r 4).toInt
  if r.length ≠ 6 ∨ rArg r 0 ≠ 0x5202 ∨ fl = 0 ∨ 3 < fl ∨ 10000 < (rArg r 2).toNat ∨ 10000 < (rArg r 3).toNat
      ∨ v1 < -2000 ∨ 2000 < v1 then some eRANGE
  else if fl % 2 = 1 ∧ fl / 2 % 2 = 0 ∧ s.estB.capb = 0 ∧ s.batB.mstat ≠ 1 then some eSTATE
  else none

/-! ### Page words -/

/-- INTSOC or INTSOCB: the internal value in 0.01 %, 0xFFFF without an estimate. -/
def intSocWord (e : Est) : Word :=
  if e.valid then wordOf (roundOpen e.int 100).toNat else 0xFFFF

/-- A fraction as a two's complement page word. DESIGN CHOICE (log 16). -/
def fracWord (x : Frac) (d : Nat) : Word :=
  let n := roundOpen x.num (x.den * d)
  if -0x8000 ≤ n ∧ n ≤ 0x7FFF then wordOfInt n else Config.overflow n

/-! ### The commands -/

/-- MODEL_VALIDATION_DONE (R412). -/
def execModelValidationDone (c : BatCh) (ups : List Upset) (s : State) : Host.Outcome State Fault Refusal :=
  .next (validationDone s c ups)

/-- An update of a channel; one that reads its model does so where the arbiter grants the reads at L4 (R13, R224).
DESIGN CHOICE (log 49). In SLEEP, where the Cellar is retained without its clock (R217, Table ARC-6), channel B's update
(Table SOC-5) reads its model all the same, unarbitrated, with the bookkeeping of R219 and R220. DESIGN CHOICE (log 17). -/
def updateOf (s : State) (c : BatCh) (ups : List Upset) : State :=
  let act (s : State) : State :=
    match c with
    | .chA => updateA s ups
    | .chB => updateB s ups
  if getMstat s c = 1 ∧ domains s then granted s (.low 4) act else act s

/-- ESTIMATOR_UPDATE (R424). -/
def execEstimatorUpdate (c : BatCh) (ups : List Upset) (s : State) : Host.Outcome State Fault Refusal :=
  .next (updateOf s c ups)

end Sys2Proof.Machine
end

