-- ==== Sys2Proof/Machine/Boot.lean ====
section
/-! DEFINITION. Resets and the boot: what each reset source reinitialises, the straps, the root, the boot steps, READY and
the clock events ("One root, nine domains", "Power states, boot and the first second", R562). -/

namespace Sys2Proof.Machine

open Sys2Proof

/-! ### Resets (Table PWR-3) -/

/-- R490: a counter write that is cut leaves the old value or the new one. DESIGN CHOICE (log 18). -/
def tornCounter (s : State) : State :=
  match s.auth.accepted with
  | some a =>
    if a.written ∨ a.cmd = .provision then s
    else
      let n := s.nv
      let keep := Config.counterSurvives s.freeCtr
      { s with
        freeCtr := s.freeCtr + 1
        nv := { n with cells := vset n.cells n.nextCell (if keep then a.counter else 0, keep)
                       nextCell := if keep then (n.nextCell + 1) % 16 else n.nextCell
                       acc := if keep then n.acc + 1 else n.acc } }
  | none => s

/-- What a reset leaves of a bank: VLCD-good is the board's. -/
def bankReset (x : BankSt) : BankSt := { BankSt.ready with drv := { Drive.ready with vgood := x.drv.vgood } }

/-- A port after a reset: the discarded writes of the boot face stay counted until READY (R73).
DESIGN CHOICE (log 12). DEDUCED (log 32). -/
def portReset (disc : Nat) : PortSt := { PortSt.ready with disc := disc }

/-- Every unit of the PLL-derived domains, the register file and the Cellar at their reset values (Table REG-1). LINE of the
pack page is the level of PIL, which a reset leaves (Table PAK-4). DEDUCED (log 46). -/
def wiped (s : State) : State :=
  { tornCounter s with
    irqStat := 0, err := ErrRec.none, portP := portReset s.portP.disc, portS := portReset s.portS.disc, spi := .status
    roles := Roles.ready (!s.pw.roleStrap) s.now, scratch := 0, bankA := bankReset s.bankA, bankB := bankReset s.bankB
    disp := Display.ready, keys := Keys.ready, lamps := Lamps.ready
    batA := { BatA.ready with started := false }, batB := BatB.ready, estA := Est.ready, estB := Est.ready
    pack := { Pack.ready with line := s.pack.line }, auth := Auth.ready, arb := Arb.ready, tap := Tap.ready, mem := [] }

/-- Every pass of a bank is run to its end, with one of what no pass has taken yet (R283), and the words of the lines
that the duty after a reset does not use are marked so (R279). DEDUCED (log 33). -/
def ledgerBooked (s : State) (b : Bank) : State :=
  let s := if (getBank s b).led.recs.isEmpty then s else passBegins s b false
  let s := (getBank s b).led.passes.foldl (fun s _ => passEnds s b) s
  markUnused s b (frameLines (getBank s b).drv) (frameLines Drive.ready)

/-- What a kept ledger holds of a bank: the units that its words count in, and how its settle went (R294).
DEDUCED (log 33). -/
def ledgerOutcome (old new : BankSt) : BankSt :=
  { new with led := { new.led with units := old.led.units, settleLast := old.led.settleLast, capped := old.led.capped
                                   skipped := old.led.skipped } }

/-- R294, Table BAL-7: a ledger that a warm boot keeps: the Balance cask with its ECC state, and how the settle went; `w` is
the machine reinitialised. DESIGN CHOICE (log 33). -/
def ledgerKept (s w : State) : State :=
  let s := ledgerBooked (ledgerBooked s .bankA) .bankB
  { w with mem := s.mem.filter (fun c => inBalance c.1)
           arb := { w.arb with ecc := s.arb.ecc.filter (fun e => inBalance e.1) }
           bankA := ledgerOutcome s.bankA w.bankA, bankB := ledgerOutcome s.bankB w.bankB }

/-- Channel B's part of the always-on island: BVB_MIN and the latest sample (R404). DEDUCED (log 28). -/
def BatB.islandPart (x : BatB) : BatB := { BatB.ready with raw := x.raw, bvbMin := x.bvbMin }

/-- Majority of the three samples of a strap (R562, R570). -/
def Samples.level (x : Samples) : Bool := (x.s1 && x.s2) || (x.s1 && x.s3) || (x.s2 && x.s3)

/-- Table BUS-1: the generation that BUSGEN1 and BUSGEN0 select. -/
def genOf (b1 b0 : Bool) : Gen :=
  match b1, b0 with
  | false, false => .gen1
  | false, true => .gen2
  | true, false => .gen3
  | true, true => .portOff

/-- R67: the straps are sampled. -/
def sampleStraps (s : State) (x : Straps) : State :=
  { s with pw := { s.pw with gen := genOf (Samples.level x.busgen1) (Samples.level x.busgen0)
                             roleStrap := Samples.level x.role, strapPull := true, strapBuf := true }
           clk := { s.clk with src := Samples.level x.clksrc } }

/-- The start of a cold boot (R65, R30 to R34): everything but what outlives OFF is reinitialised, and a root attempt
begins, but with CLKSRC high (R34); `running` says that the crystal already runs, so that fast-start does not act
(R33, R554). One that an attempt starts counts as running from its confirmation on. DEDUCED (log 33).
DEDUCED (log 28). -/
def coldBoot (s : State) (rcause : Nat) (running : Bool) : State :=
  let w := wiped s
  { w with
    portP := portReset 0, portS := portReset 0
    pw := { s.pw with mode := .boot, trans := .idle, collapse := false, colSleep := false, bstep := 1
                      rcause := rcause, expert := false, face := .dead, rst := .noReset, shipG := true }
    clk := { Clock.ready with src := s.clk.src, rootOk := false, pllLock := false, fsUsed := !s.clk.src && !running
                              attempting := !s.clk.src, released := false, xtalRuns := !s.clk.src && running }
    aon := Aon.ready }

/-- The start of a warm boot (R65, R67, R76, R168): the always-on island with the writes on their way to it, the
confirmed root and the lockout stay. A start without a confirmed root ends a holdover and seeks the root; FSUSED
changes only where a stopped crystal is started (R33). DEDUCED (log 28). Whether the ledger outlives it, as R294 and Table
BAL-7 have it, or is lost with the Cellar, as Table PWR-3 and R216 have it, is free. DESIGN CHOICE (log 33). -/
def warmBoot (s : State) (rcause : Nat) : State :=
  let w := wiped (faceTakesHeld s)
  let w := if Config.ledgerOutlives then ledgerKept s w else w
  let ok := s.clk.rootOk
  { w with
    pw := { s.pw with mode := .boot, trans := .idle, collapse := false, colSleep := false, bstep := if ok then 3 else 2
                      rcause := rcause, expert := false, face := .bootFace, rst := .noReset }
    clk := { s.clk with pllLock := false, hold := false, released := false, attempting := !ok && !s.clk.src, expiring := false
                        sleepLost := false, holdLimit := 100
                        rootLoss := s.clk.rootLoss || !ok, timeSub := s.clk.timeSub || !ok }
    aon := { s.aon with sleepSub := false }
    batB := s.batB.islandPart
    pack := { w.pack with pres := if s.pack.idm = 1 then s.pack.pres else 2 }
    auth := { w.auth with lockOn := s.auth.lockOn, lockLeft := s.auth.lockLeft, lockLvl := s.auth.lockLvl } }

/-- A clock-failure reset (R45, R47): a cold boot that keeps the straps, the supply and the backup domain. It is a
start of the crystal from rest, with FSUSED 1, where the root is not confirmed, and none where it is. DESIGN CHOICE
(log 61). -/
def clockFailure (s : State) : State := coldBoot s 3 s.clk.rootOk

/-- R45: the expiry reaction is complete: the banks are down and no counter write is in progress. Where a RESET# has been
recognised meanwhile, its warm boot takes the place of the clock-failure reset: the end of the reaction does nothing then.
DESIGN CHOICE (log 61). -/
def expiryDone (s : State) : State :=
  let writing := match s.auth.accepted with
    | some a => !a.written
    | none => false
  if s.clk.expiring ∧ s.pw.rst ≠ .pin ∧ banksQuiet s ∧ !writing then clockFailure s else s

/-! ### Supply and straps (R60, R65, R67, R562) -/

/-- VSUP falls below 3.6 V: OFF. Only OTP, the counter and the backup domain outlive it (R511, R554). -/
def powerLoss (s : State) : State :=
  if s.pw.mode = .off then s
  else
    let runs := !s.clk.src && s.clk.xtalRuns && s.bak.powered
    let w := wiped s
    { w with
      portP := portReset 0, portS := portReset 0
      pw := { s.pw with mode := .off, trans := .idle, reduced := true, collapse := false, colSleep := false
                        bstep := 0, expert := false, face := .dead, rst := .noReset, shipG := false }
      clk := { Clock.ready with src := s.clk.src, rootOk := false, pllLock := false, released := false
                                xtalRuns := runs }
      aon := Aon.ready
      bak := { s.bak with follow := false, unbroken := s.bak.powered && s.pw.mode != .cork } }

/-- VSUP rises through 3.0 V: the strap pull-ups are connected. -/
def strapsConnect (s : State) : State :=
  if s.pw.mode = .off then { s with pw := { s.pw with strapPull := true, strapBuf := true } } else s

/-- 100 µs after release the pull-ups and the strap input buffers are off. -/
def strapsRelease (s : State) : State :=
  if s.pw.mode = .off ∨ s.pw.mode = .cork then s
  else { s with pw := { s.pw with strapPull := false, strapBuf := false } }

/-- R511: the cold boot that ends OFF: BKV, and a count of its own until RTC_H is written. DEDUCED (log 13). -/
def backupBoot (s : State) : State :=
  let v := s.bak.powered && s.bak.unbroken
  { s with bak := { s.bak with bkv := v, sec := if v then s.bak.sec else 0, follow := false } }

/-- VSUP rises through 5.0 V: power-on reset is released and a cold boot begins, in reduced function until VSUP has
stayed above 6.3 V (R60, R64). -/
def powerOn (s : State) (x : Straps) : State :=
  if s.pw.mode = .off then
    let s := backupBoot (coldBoot (sampleStraps s x) 0 s.clk.xtalRuns)
    { s with pw := { s.pw with reduced := true } }
  else s

/-- R81, R511: 10 ms of CHG_DET end Cork mode with a cold boot, after which BKSEC counts from 0 as after OFF.
DEDUCED (log 13). -/
def corkExits (s : State) (x : Straps) : State :=
  if s.pw.mode = .cork then
    let s := coldBoot (sampleStraps s x) 4 false
    { s with pw := { s.pw with reduced := true }, bak := { s.bak with bkv := false, sec := 0, follow := false } }
  else s

/-- R69: the boot face goes live; BSTEP moves on to the root attempt. -/
def faceLive (s : State) : State :=
  if s.pw.mode = .boot ∧ s.pw.face = .dead then
    { s with pw := { s.pw with face := .bootFace, bstep := if s.pw.bstep = 1 then 2 else s.pw.bstep } }
  else s

/-! ### Root and PLL in BOOT and SLEEP (R31 to R36, R46, R47) -/

/-- Whether the boot that runs is a warm one (Table PWR-3). -/
def warmRunning (s : State) : Bool := s.pw.rcause == 1 || s.pw.rcause == 2

/-- R31: the root is confirmed: in BOOT the PLL starts; in SLEEP the RTC resumes; in holdover R44 goes on. `restarted`
says that the crystal was found stopped after a root loss and started with fast-start (R33, R76). An edge that was
latched unfiltered wakes only where WAKE_INPUT_CHANGE then finds the input changed (R47). DESIGN CHOICE (log 61).
FSUSED reads 1 for such a restart from here on, not from the injection. DESIGN CHOICE (log 28). DEDUCED (log 28). -/
def rootConfirmed (s : State) (restarted : Bool) : State :=
  if s.clk.rootOk ∨ !islandOn s then s
  else
    let c := { s.clk with rootOk := true, attempting := false, sleepLost := false, xtalRuns := !s.clk.src
                          fsUsed := s.clk.fsUsed || (restarted && !s.clk.src) }
    if s.pw.mode = .boot then { s with clk := c, pw := { s.pw with bstep := 3 } } else { s with clk := c }

/-- R34: 60 ms without confirmation: injection stops and the crystal rests. DEDUCED (log 28). -/
def attemptTimeout (s : State) : State :=
  if s.pw.mode = .boot ∧ !s.clk.src ∧ !s.clk.rootOk ∧ s.clk.attempting then
    { s with clk := { s.clk with attempting := false, xtalRuns := false } }
  else s

/-- R34: a new attempt, of which CLKSRC high makes none; STARTS counts those of a cold start, and none that a RESET# in the
BOOT of a cold boot leaves to the warm boot. DESIGN CHOICE (log 61). -/
def newAttempt (s : State) : State :=
  { s with clk := { s.clk with attempting := !s.clk.src, fsUsed := !s.clk.src
                               starts := if warmRunning s ∨ s.clk.src then s.clk.starts else min 15 (s.clk.starts + 1) } }

/-- The 2 ms rest ends. -/
def crystalRests (s : State) : State :=
  if s.pw.mode = .boot ∧ !s.clk.src ∧ !s.clk.rootOk ∧ !s.clk.attempting then newAttempt s else s

/-- R36: the dividers are released; the zero-fill begins. -/
def dividersRelease (s : State) : State :=
  if s.pw.mode = .boot ∧ s.clk.rootOk ∧ !s.clk.released then
    { s with clk := { s.clk with pllLock := true, released := true }, pw := { s.pw with bstep := 4 }
             lamps := { s.lamps with epoch := 2 * s.now } }
  else s

/-- What the zero-fill of a warm boot leaves where the ledger outlives one (R294). DESIGN CHOICE (log 33). -/
def fillKeeps (s : State) (a : Nat) : Bool := Config.ledgerOutlives && warmRunning s && inBalance a

/-- R216: the zero-fill of the boot is complete. -/
def zeroFill (s : State) : State :=
  if s.pw.mode = .boot ∧ s.clk.released ∧ s.pw.bstep = 4 then
    { s with mem := s.mem.filter (fun c => fillKeeps s c.1)
             arb := { s.arb with ecc := s.arb.ecc.filter (fun e => fillKeeps s e.1) }, pw := { s.pw with bstep := 5 } }
  else s

/-- R73: the writes that the boot face discarded are reported and the counts cleared. DEDUCED (log 32). -/
def bootWrites (s : State) : State :=
  let n := s.portP.disc + s.portS.disc
  if n = 0 then s
  else
    let info := flag (decide (0 < s.portS.disc)) 15 + flag (decide (0 < s.portP.disc)) 14 + min 0x3FFF n
    recordInfo { s with portP := { s.portP with disc := 0 }, portS := { s.portS with disc := 0 } } eBOOTWR none info

/-- Presence is known at READY (Table PWR-5): absent where no PACK_PRESENT came since root confirmation.
DEDUCED (log 2). -/
def presenceKnown (s : State) : State :=
  { s with pack := { s.pack with pres := if s.pack.pres = 2 then 0 else s.pack.pres } }

/-- R75, R73, R77, R142, R398: READY. IRQSTAT holds READY, ERR and WAKE at most (Table REG-1). DEDUCED (log 32). -/
def readyNow (s : State) : State :=
  if s.pw.mode = .boot ∧ s.clk.released ∧ s.pw.bstep = 5 ∧ s.pw.rst = .noReset then
    let s := { s with pw := { s.pw with mode := .standby, bstep := 0, face := .full }
                      irqStat := wordOf (1 + flag (decide (s.aon.latch &&& 7 ≠ 0)) irqWAKE)
                      roles := Roles.ready (!s.pw.roleStrap) s.now }
    let s := presenceKnown s
    let s := if s.pack.pres = 1 ∧ !s.pack.open_ then beginSession s else s
    bootWrites (backupFollow (startA s))
  else s

/-- R46: the PLL-derived domains stop in BOOT, and every step from a given one runs again. -/
def bootAgain (s : State) (step : Nat) : State :=
  { s with clk := { s.clk with pllLock := false, released := false }, pw := { s.pw with bstep := step } }

/-! ### Holdover (R41 to R47, R49) -/

/-- R45: the expiry reaction begins: lamps off, then the power-down of every driven bank. DEDUCED (log 30). -/
def expiryBegins (s : State) : State :=
  expiryDone (banksDown (lampsSettle { s with clk := { s.clk with expiring := true } }))

/-- R41, R42, R49, R52: holdover is entered, or goes on, or with HOLD_EN 0 gives way to the expiry reaction at once.
DEDUCED (log 30). -/
def enterHold (s : State) : State :=
  let c := s.clk
  let s := { s with clk := { c with hold := true, timeSub := true
                                    holdLimit := if c.hold then c.holdLimit else (pg s 0xE402).toNat } }
  if c.hold ∨ pgb s 0xE400 0 then s else expiryBegins s

/-- ROOT_LOSS (R40, R41, R46, R47, R51). The flags of a cold boot read 0 at its READY (Table CLK-4). A crystal whose
root is lost counts as stopped until the root is confirmed again. DEDUCED (log 30). -/
def rootLost (s : State) (pllToo : Bool) : State :=
  if !s.clk.rootOk then s
  else
    let c := { s.clk with xtalRuns := false }
    match s.pw.mode with
    | .boot =>
      let warm := warmRunning s
      newAttempt (bootAgain { s with clk := { c with rootOk := false, timeSub := c.timeSub || warm
                                                     rootLoss := c.rootLoss || warm
                                                     unlock := c.unlock || (pllToo && warm) } } 2)
    | .sleep =>
      { s with clk := { c with rootOk := false, rootLoss := true, timeSub := true, sleepLost := true
                               unlock := c.unlock || (pllToo && s.pw.trans == .wake) }
               aon := { s.aon with sleepSub := true } }
    | .standby | .run | .corkEntry =>
      enterHold { s with clk := { c with rootOk := false, rootLoss := true
                                         unlock := c.unlock || (pllToo && c.pllLock), pllLock := false } }
    | .off => s
    | .cork => s

/-- PLL_UNLOCK (R41, R46, R48): the PLL loses lock while the root is valid; in a warm boot before the divider release
too. In SLEEP it runs at the exit alone (R79), which goes on. DEDUCED (log 30). -/
def pllLost (s : State) : State :=
  if !s.clk.rootOk then s
  else
    let unlocked := { s with clk := { s.clk with unlock := true, pllLock := false } }
    match s.pw.mode with
    | .boot => bootAgain (if warmRunning s then unlocked else s) 3
    | .standby | .run | .corkEntry => if s.clk.pllLock then enterHold unlocked else s
    | .sleep => if s.pw.trans = .wake then unlocked else s
    | .off => s
    | .cork => s

/-- HOLDOVER_END (R44): the root is confirmed again and the PLL locked. The expiry reaction is completed even so
(R45). FSUSED of a crystal restarted with fast-start reads 1 from here on. DESIGN CHOICE (log 28). -/
def holdEnds (s : State) (restarted : Bool) : State :=
  if active s ∧ s.clk.hold ∧ !s.clk.expiring then
    { s with clk := { s.clk with hold := false, rootOk := true, pllLock := true, xtalRuns := !s.clk.src
                                 fsUsed := if restarted then !s.clk.src else s.clk.fsUsed } }
  else s

/-- HOLDOVER_EXPIRY (R45, R47, R88): in SLEEP a clock-failure reset at once, else the expiry reaction. -/
def holdExpires (s : State) : State :=
  if s.pw.mode = .sleep ∧ s.clk.sleepLost ∧ !s.clk.rootOk then clockFailure s
  else if active s ∧ s.clk.hold ∧ !s.clk.expiring then expiryBegins s
  else s

/-! ### RESET# and the warm boot -/

/-- RESET# is recognised (R65, R69, R89): lamps off, the glass grounded at once, every latched request discarded, and
the boot face takes an access that WAIT# holds. In BOOT the boot steps begin again. DEDUCED (log 33). -/
def resetPin (s : State) : State :=
  if s.pw.mode = .off ∨ s.pw.mode = .cork then s
  else
    let s := { s with pw := { s.pw with rst := .pin, trans := .idle, face := .bootFace }
                      bankA := { s.bankA with drv := noRequest s.bankA.drv }
                      bankB := { s.bankB with drv := noRequest s.bankB.drv } }
    bankEmergency (bankEmergency (lampsSettle (faceTakesHeld s)) .bankA) .bankB

/-- WARM_BOOT_START (R76): what precedes the reset is complete, and RESET# is high. A RESET# that comes while the expiry
reaction runs boots warm in place of the clock-failure reset. DESIGN CHOICE (log 61). -/
def warmStarts (s : State) : State :=
  if banksQuiet s then
    match s.pw.rst with
    | .pin => warmBoot s 1
    | .soft => if s.clk.expiring then s else warmBoot s 2
    | .noReset => s
  else s

/-! ### The commands -/

/-- POWER_ON_RESET (R65). -/
def execPowerOnReset (straps : Straps) (s : State) : Host.Outcome State Fault Refusal := .next (powerOn s straps)

/-- POWER_ON_RESET_ASSERTION (R65). -/
def execPowerOnResetAssertion (s : State) : Host.Outcome State Fault Refusal := .next (powerLoss s)

/-- STRAP_PULLUP_CONNECT (R562). -/
def execStrapPullupConnect (s : State) : Host.Outcome State Fault Refusal := .next (strapsConnect s)

/-- STRAP_PULLUP_RELEASE (R562). -/
def execStrapPullupRelease (s : State) : Host.Outcome State Fault Refusal := .next (strapsRelease s)

/-- BOOT_FACE_LIVE (R69). -/
def execBootFaceLive (s : State) : Host.Outcome State Fault Refusal := .next (faceLive s)

/-- ROOT_CONFIRMED (R31). -/
def execRootConfirmed (restarted : Bool) (s : State) : Host.Outcome State Fault Refusal :=
  .next (rootConfirmed s restarted)

/-- ROOT_ATTEMPT_TIMEOUT (R34). -/
def execRootAttemptTimeout (s : State) : Host.Outcome State Fault Refusal := .next (attemptTimeout s)

/-- CRYSTAL_REST_END (R34). -/
def execCrystalRestEnd (s : State) : Host.Outcome State Fault Refusal := .next (crystalRests s)

/-- DIVIDER_RELEASE (R36). -/
def execDividerRelease (s : State) : Host.Outcome State Fault Refusal := .next (dividersRelease s)

/-- ZERO_FILL_DONE (R216). -/
def execZeroFillDone (s : State) : Host.Outcome State Fault Refusal := .next (zeroFill s)

/-- READY (R75). -/
def execReady (s : State) : Host.Outcome State Fault Refusal := .next (readyNow s)

/-- RESET_PIN (R65). -/
def execResetPin (s : State) : Host.Outcome State Fault Refusal := .next (resetPin s)

/-- WARM_BOOT_START (R76). -/
def execWarmBootStart (s : State) : Host.Outcome State Fault Refusal := .next (warmStarts s)

/-- CORK_EXIT (R81). -/
def execCorkExit (straps : Straps) (s : State) : Host.Outcome State Fault Refusal := .next (corkExits s straps)

/-- ROOT_LOSS (R41). -/
def execRootLoss (pllToo : Bool) (s : State) : Host.Outcome State Fault Refusal := .next (rootLost s pllToo)

/-- PLL_UNLOCK (R41). -/
def execPllUnlock (s : State) : Host.Outcome State Fault Refusal := .next (pllLost s)

/-- HOLDOVER_END (R44). -/
def execHoldoverEnd (restarted : Bool) (s : State) : Host.Outcome State Fault Refusal := .next (holdEnds s restarted)

/-- HOLDOVER_EXPIRY (R45). -/
def execHoldoverExpiry (s : State) : Host.Outcome State Fault Refusal := .next (holdExpires s)

/-- VLCD_LOSS_TIMEOUT (R264). -/
def execVlcdLossTimeout (b : Bank) (s : State) : Host.Outcome State Fault Refusal := .next (vlcdLost s b)

/-- GROUNDING_END (R261); a reset that waits for it goes on (R45). -/
def execGroundingEnd (b : Bank) (s : State) : Host.Outcome State Fault Refusal := .next (expiryDone (groundingEnds s b))

/-- RELEASE_END (R259). -/
def execReleaseEnd (b : Bank) (s : State) : Host.Outcome State Fault Refusal := .next (releaseEnds s b)

end Sys2Proof.Machine
end

