-- ==== Sys2Proof/Machine/Power.lean ====
section
/-! DEFINITION. Mode requests, SLEEP and wake, reduced function, collapse, Cork mode, the software reset and the VIO supply
("Power states, boot and the first second", R22 to R27, R535). -/

namespace Sys2Proof.Machine

open Sys2Proof

/-! ### What a leaving or returning RUN does -/

/-- The DPWR power-on requests and the LCTL.ON bits are cleared (Table PWR-1, R81), lamps go off, driven banks power
down. -/
def quietOutputs (s : State) : State :=
  banksDown (lampsSettle { s with lamps := { s.lamps with lctl := s.lamps.lctl &&& 0xFF00 } })

/-- R315: line slots resume: an undriven bank's shadow timer begins a frame, and that instant is a frame boundary. The
blink phase has gone on for what of the frame had run, and for the CK_FRAME cycles since (R321). DEDUCED (log 42). -/
def slotsResume (s : State) (b : Bank) : State :=
  let d := (getBank s b).drv
  if driven d then s
  else
    let e := d.halt + (match d.haltAt with | some t => s.now - t | none => 0)
    frameWork (setDrv s b { d with halt := 0, haltAt := none }) b false (some e)

/-- Channel A starts where ENA is set (R398). -/
def restartA (s : State) : State := if s.batA.ena then startA s else s

/-! ### Mode requests (R22 to R24, R57 to R59, R569) -/

/-- R569: a test instruction that refuses RUN is in the instruction register. -/
def tapHoldsRun (s : State) : Bool :=
  s.tap.ir == 0 || s.tap.ir == 3 || s.tap.ir == 4 || (decide (0x10 ≤ s.tap.ir.toNat) && decide (s.tap.ir.toNat ≤ 0x1E))

/-- Whether Table PWR-1 and R55, R58 allow a mode request (1 STANDBY, 2 RUN, 3 SLEEP). During the power-down that an
accepted software reset waits for, requests are judged as if no reset were pending. DESIGN CHOICE (log 61). -/
def modeAllowed (s : State) (m : Nat) : Bool :=
  s.pw.trans == .idle && !s.clk.expiring &&
    match m with
    | 1 => s.pw.mode == .run && !s.roles.fdon
    | 2 => s.pw.mode == .standby && !tapHoldsRun s
    | 3 => s.pw.mode == .standby && wakeEnabled s && !wakeActive s && !authBusy s
    | _ => false

/-- A mode request that is allowed begins; RUN, whose actions are none, is reached at once. -/
def modeBegin (s : State) (m : Nat) : State :=
  match m with
  | 1 => quietOutputs { s with pw := { s.pw with trans := .toStandby } }
  | 2 => lampsSettle { s with pw := { s.pw with mode := .run } }
  | 3 => { s with pw := { s.pw with trans := .toSleep } }
  | _ => s

/-- R66: the requesting role may ask for a software reset. -/
def mayReset (s : State) (p : Port) : Bool := (isPri s p && pgb s 0xE406 2) || (isSup s p && pgb s 0xE406 3)

/-- SYSCTL.EXPERT takes a value. -/
def setExpert (s : State) (v : Word) : State := { s with pw := { s.pw with expert := bit v 3 } }

/-- R57, R58, R66, R83: a write of SYSCTL, its refusals in the order of R578. A software reset asked for while the expiry
reaction of R45 runs, which R55 does not name, is accepted: it waits, and the clock-failure reset drops it.
DESIGN CHOICE (log 61). -/
def sysctlWrite (s : State) (p : Port) (v : Word) : State :=
  let m := fld v 0 3
  let k := fld v 8 8
  if k = 0xC3 ∧ !mayReset s p then refuse s p eOWNER 0x06
  else if 3 < m ∨ (k ≠ 0 ∧ k ≠ 0xC3) ∨ (m ≠ 0 ∧ k ≠ 0) then refuse s p eRANGE 0x06
  else if k = 0xC3 then
    if s.pw.trans ≠ .idle ∨ (s.roles.fdon ∧ s.pw.mode = .run) then refuse s p eSTATE 0x06
    else banksDown (lampsSettle { s with pw := { (setExpert s v).pw with rst := .soft } })
  else if m = 0 then setExpert s v
  else if modeAllowed s m then modeBegin (setExpert s v) m
  else refuse s p eSTATE 0x06

/-- SYSCTL as it reads: EXPERT alone. -/
def sysctlRead (s : State) : Word := wordOf (flag s.pw.expert 3)

/-- SYSSTAT's W1C bit COLLAPSE (Table PWR-8). -/
def sysstatWrite (s : State) (v : Word) : State :=
  { s with pw := { s.pw with collapse := s.pw.collapse && !bit v 4 } }

/-- The SYSCTL word of a row that names a request and EXPERT. -/
def sysctlWord (m k : Nat) (expert : Bool) : Word := wordOf (m + flag expert 3 + 0x100 * k)

/-- The mode request that a SYSCTL word makes, 0 for none or one that is refused whatever the mode (R83). -/
def modeReq (w : Word) : Nat := if fld w 0 3 ≤ 3 ∧ fld w 8 8 = 0 then fld w 0 3 else 0

/-- R85, R204: the two SYSCTL writes of a merge window. Port S's is judged first; where its request is accepted an
identical one of Port P is executed with it and a different one is refused, and where it is refused Port P's is judged
alone, an identical one with a record of its own. DEDUCED (log 34). -/
def modeMerge (s : State) (vS vP : Word) : State :=
  let mS := (reaches s .portS 3 vS).map modeReq
  let mP := (reaches s .portP 3 vP).map modeReq
  let s' := answered s 3 vS (fun s => gate s .portS 3 vS (fun s w => sysctlWrite s .portS w))
  gate s' .portP 3 vP (fun t w =>
    if 0 < mS.getD 0 ∧ 0 < mP.getD 0 ∧ modeAllowed s (mS.getD 0) then
      if mS = mP then setExpert t w else refuse t .portP eSTATE 0x06
    else sysctlWrite t .portP w)

/-- STANDBY_REACHED (R23): the power-down of the last bank is complete. LCTL.ON bits that were written during it stay.
DESIGN CHOICE (log 43). -/
def standbyReached (s : State) : State :=
  if s.pw.trans = .toStandby ∧ s.pw.mode = .run ∧ banksQuiet s then
    lampsSettle { s with pw := { s.pw with mode := .standby, trans := .idle } }
  else s

/-! ### SLEEP (R78, R79, R86, R129, R355, R398, R442, R468, R481) -/

/-- SLEEP_ENTERED: the buffers are empty, no command runs, the Mailbox is wiped where that is owed, and the fast clocks
stop. A root lost during the entry ends its holdover here, and the RTC stops with it (R47, R48). A boot scan that is not
complete goes on after the wake, whatever EN holds (R352, R355). DEDUCED (log 30). DESIGN CHOICE (log 21). -/
def sleepEntered (s : State) : State :=
  if s.pw.trans = .toSleep ∧ s.pw.mode = .standby ∧ s.pw.rst = .noReset ∧ s.portP.buf.isEmpty ∧ s.portS.buf.isEmpty
      ∧ s.auth.verify.isNone ∧ !s.auth.wipe then
    let s := slotsStop (slotsStop (faceTakesHeld (pilIdle (crankStop (stopA s)))) .bankA false) .bankB false
    { s with
      pw := { s.pw with mode := .sleep, trans := .idle, face := .bootFace }
      clk := { s.clk with hold := false, sleepLost := s.clk.hold && !s.clk.rootOk
                          timeSub := s.clk.timeSub || (s.clk.hold && !s.clk.rootOk), pllLock := false, released := false }
      aon := { s.aon with sleepSec := s.aon.sec, sleepSub := s.clk.hold && !s.clk.rootOk }
      auth := { s.auth with claim := none, tag := [], msg := none }
      keys := { s.keys with counts := Vector.replicate 128 0, due := false } }
  else s

/-- WAKE_COMPLETE (R79): STANDBY again, with IRQSTAT.WAKE, the discarded writes reported, channel A resumed, the
heartbeat time restarted, channel B's first 10 ms interval (R404) and the line slots running. -/
def wakeCompletes (s : State) : State :=
  if s.pw.trans = .wake ∧ s.pw.mode = .sleep ∧ s.clk.rootOk ∧ s.pw.rst = .noReset then
    let s := { s with
      pw := { s.pw with mode := .standby, trans := .idle, face := .full
                        collapse := s.pw.collapse || s.pw.colSleep, colSleep := false }
      clk := { s.clk with pllLock := true, released := true, sleepLost := false }
      lamps := { s.lamps with epoch := 2 * s.now }
      roles := { s.roles with hbRef := s.now, hbNext := false, hbMissed := false }
      pack := { s.pack with candN := 0 }
      batB := { s.batB with sumN := 0, sumV := 0 } }
    let s := bootWrites (setIrq s irqWAKE)
    let s := estWake (restartA s) (s.aon.sec - s.aon.sleepSec).toNat s.aon.sleepSub
    slotsResume (slotsResume s .bankA) .bankB
  else s

/-! ### VSUP thresholds (R60 to R64, R87) -/

/-- VSUP falls below 6.0 V: every lamp off, the glass held. DEDUCED (log 33). -/
def reducedEntry (s : State) : State :=
  if islandOn s ∧ !s.pw.reduced then
    latchWake (lampsSettle { s with pw := { s.pw with reduced := true } }) wkRED
  else s

/-- R61, R63: at the exit from reduced function a bank in state 0 that holds a request or a latch powers up, but not
while the expiry reaction runs (R45). -/
def bankReturns (s : State) (b : Bank) : State :=
  let d := (getBank s b).drv
  if d.sta = .off ∧ (d.req ∨ d.latch) ∧ mayPowerUp s then bankUp s b else s

/-- VSUP has stayed above 6.3 V for RF_FILT. DEDUCED (log 33). -/
def reducedExit (s : State) : State :=
  if islandOn s ∧ s.pw.reduced then
    bankReturns (bankReturns (lampsSettle { s with pw := { s.pw with reduced := false } }) .bankA) .bankB
  else s

/-- R62, R63: what a collapse does to a bank. With AUTOREPWR 0 the request of every bank is cleared, also one that a bank
undriven already has kept. DESIGN CHOICE (log 33). -/
def bankCollapses (s : State) (b : Bank) : State :=
  let s := if pgb s 0xE406 0 then s else setDrv s b (noRequest (getBank s b).drv)
  bankEmergency s b

/-- VSUP falls below 4.5 V (R62): recorded in every mode but BOOT; in RUN and CORK-ENTRY the glass is grounded.
DEDUCED (log 33). -/
def collapses (s : State) : State :=
  let s := reducedEntry s
  match s.pw.mode with
  | .standby => latchWake { s with pw := { s.pw with collapse := true } } wkCOL
  | .sleep => latchWake { s with pw := { s.pw with colSleep := true } } wkCOL
  | .run | .corkEntry =>
    bankCollapses (bankCollapses (latchWake { s with pw := { s.pw with collapse := true } } wkCOL) .bankA) .bankB
  | .boot => s
  | .off => s
  | .cork => s

/-! ### Cork mode (R80, R81, R88, Table PWR-6) -/

/-- R80: whether CORK is refused. -/
def corkRefused (s : State) : Bool :=
  s.aon.chg || !(s.pw.mode == .standby || s.pw.mode == .run) || (s.roles.fdon && s.pw.mode == .run)
    || s.pw.trans != .idle

/-- CORK-ENTRY begins: lamps off, the power-down of every driven bank, and no line slot runs (R315). DEDUCED (log 48).
-/
def corkBegins (s : State) (p : Port) : State :=
  let s := slotsStop (slotsStop s .bankA true) .bankB true
  quietOutputs (crankStop (stopA { (pilIdle s) with pw := { s.pw with mode := .corkEntry, trans := .corkSeq, corkPort := p } }))

/-- Cork mode: SHIP_G low, everything but the CHG_DET comparator stopped, volatile state lost. DEDUCED (log 48). -/
def corkMode (s : State) : State :=
  let w := wiped s
  { w with
    portP := portReset 0, portS := portReset 0
    pw := { s.pw with mode := .cork, trans := .idle, collapse := false, colSleep := false, bstep := 0, expert := false
                      face := .dead, shipG := false }
    clk := { Clock.ready with src := s.clk.src, rootOk := false, pllLock := false, released := false
                              xtalRuns := false }
    aon := Aon.ready
    bak := { s.bak with follow := false, unbroken := false } }

/-- CORK_SHIP_STEP (R81): CHG_DET is sampled; a charger turns the sequence back to STANDBY. DEDUCED (log 48). -/
def corkShip (s : State) : State :=
  if s.pw.mode = .corkEntry ∧ s.pw.trans = .corkSeq ∧ banksQuiet s ∧ !s.clk.expiring ∧ s.pw.rst = .noReset
      ∧ s.portP.buf.isEmpty ∧ s.portS.buf.isEmpty then
    if s.aon.chg then
      let s := { s with pw := { s.pw with mode := .standby, trans := .idle } }
      let s := recordInfo (restartA s) eSTATE (some s.pw.corkPort) 0x4A
      slotsResume (slotsResume s .bankA) .bankB
    else corkMode s
  else s

/-! ### VIO (R535, R555) -/

/-- VIO is lost: the ports ignore everything; a held Gen3 access is discarded. DEDUCED (log 37). -/
def vioLost (s : State) : State :=
  { s with pw := { s.pw with vio := false }, portP := { s.portP with held := .none } }

def vioBack (s : State) : State := { s with pw := { s.pw with vio := true } }

/-! ### The commands -/

/-- BOOT_FACE_WRITE (R71). -/
def execBootFaceWrite (p : Port) (a : Fin 64) (v : Word) (s : State) : Host.Outcome State Fault Refusal :=
  .next (if portLive s p ∧ s.pw.face = .bootFace then bootFace s p a v else s)

/-- HOST_WAKE (R71): a SYSCTL write that the boot face sees. -/
def execHostWake (p : Port) (v : Word) (s : State) : Host.Outcome State Fault Refusal :=
  .next (if portLive s p ∧ s.pw.face = .bootFace then bootFace s p 3 v else s)

/-- MREQ_STANDBY (R23). -/
def execMreqStandby (p : Port) (expert : Bool) (s : State) : Host.Outcome State Fault Refusal :=
  .next (gate s p 3 (sysctlWord 1 0 expert) (fun s w => sysctlWrite s p w))

/-- MREQ_RUN (R59). -/
def execMreqRun (p : Port) (expert : Bool) (s : State) : Host.Outcome State Fault Refusal :=
  .next (gate s p 3 (sysctlWord 2 0 expert) (fun s w => sysctlWrite s p w))

/-- MREQ_SLEEP (R24). -/
def execMreqSleep (p : Port) (expert : Bool) (s : State) : Host.Outcome State Fault Refusal :=
  .next (gate s p 3 (sysctlWord 3 0 expert) (fun s w => sysctlWrite s p w))

/-- MODE_MERGE_WINDOW_END (R85). -/
def execModeMergeWindowEnd (vS vP : Word) (s : State) : Host.Outcome State Fault Refusal := .next (modeMerge s vS vP)

/-- SOFTWARE_RESET (R66). -/
def execSoftwareReset (p : Port) (expert : Bool) (s : State) : Host.Outcome State Fault Refusal :=
  .next (gate s p 3 (sysctlWord 0 0xC3 expert) (fun s w => sysctlWrite s p w))

/-- STANDBY_REACHED (R23). -/
def execStandbyReached (s : State) : Host.Outcome State Fault Refusal := .next (standbyReached s)

/-- SLEEP_ENTERED (R78). -/
def execSleepEntered (s : State) : Host.Outcome State Fault Refusal := .next (sleepEntered s)

/-- WAKE_COMPLETE (R79). -/
def execWakeComplete (s : State) : Host.Outcome State Fault Refusal := .next (wakeCompletes s)

/-- REDUCED_FUNCTION_ENTRY (R61). -/
def execReducedFunctionEntry (s : State) : Host.Outcome State Fault Refusal := .next (reducedEntry s)

/-- REDUCED_FUNCTION_EXIT (R63). -/
def execReducedFunctionExit (s : State) : Host.Outcome State Fault Refusal := .next (reducedExit s)

/-- COLLAPSE (R62). -/
def execCollapse (s : State) : Host.Outcome State Fault Refusal := .next (collapses s)

/-- CORK_SHIP_STEP (R81). -/
def execCorkShipStep (s : State) : Host.Outcome State Fault Refusal := .next (corkShip s)

/-- VIO_LOSS (R535). -/
def execVioLoss (s : State) : Host.Outcome State Fault Refusal := .next (vioLost s)

/-- VIO_RETURN (R535). -/
def execVioReturn (s : State) : Host.Outcome State Fault Refusal := .next (vioBack s)

end Sys2Proof.Machine
end

