-- ==== Sys2Proof/Machine/Auth.lean ====
section
/-! DEFINITION. Authenticated commands: AES-128 CMAC, the message, the checks of Table SEC-3, the replay counter, the
lockout, the commands' effects and provisioning ("Authenticated commands", R197, R198). -/

namespace Sys2Proof.Machine

open Sys2Proof

/-! ### AES-128 and CMAC (R484: FIPS 197, SP 800-38B) -/

/-- Multiplication by x in GF(2⁸) modulo x⁸ + x⁴ + x³ + x + 1. -/
def xtime (a : Byte) : Byte := if a.msb then (a <<< 1) ^^^ 0x1B else a <<< 1

/-- Multiplication in GF(2⁸). -/
def gmul (a b : Byte) : Byte :=
  ((List.range 8).foldl (fun (r : Byte × Byte) i =>
    (if b.getLsbD i then r.1 ^^^ r.2 else r.1, xtime r.2)) ((0 : Byte), a)).1

/-- The multiplicative inverse, as the 254th power; 0 for 0. -/
def ginv (a : Byte) : Byte :=
  let a2 := gmul a a
  let a4 := gmul a2 a2
  let a8 := gmul a4 a4
  let a16 := gmul a8 a8
  let a32 := gmul a16 a16
  let a64 := gmul a32 a32
  let a128 := gmul a64 a64
  gmul a2 (gmul a4 (gmul a8 (gmul a16 (gmul a32 (gmul a64 a128)))))

/-- The S-box: the inverse and the affine map. -/
def sbox (a : Byte) : Byte :=
  let b := ginv a
  b ^^^ b.rotateLeft 1 ^^^ b.rotateLeft 2 ^^^ b.rotateLeft 3 ^^^ b.rotateLeft 4 ^^^ 0x63

/-- A block or key as 16 bytes, the first byte first. -/
abbrev Block := Vector Byte 16

/-- Byte i of a block, modulo 16. -/
def bAt (x : Block) (i : Nat) : Byte := x[i % 16]

def bXor (x y : Block) : Block := Vector.zipWith (· ^^^ ·) x y

/-- The next round key from the previous one. -/
def nextKey (k : Block) (rcon : Byte) : Block :=
  let t0 := sbox (bAt k 13) ^^^ rcon
  let t1 := sbox (bAt k 14)
  let t2 := sbox (bAt k 15)
  let t3 := sbox (bAt k 12)
  let step (w p : Byte × Byte × Byte × Byte) : Byte × Byte × Byte × Byte :=
    (w.1 ^^^ p.1, w.2.1 ^^^ p.2.1, w.2.2.1 ^^^ p.2.2.1, w.2.2.2 ^^^ p.2.2.2)
  let w0 := step (bAt k 0, bAt k 1, bAt k 2, bAt k 3) (t0, t1, t2, t3)
  let w1 := step (bAt k 4, bAt k 5, bAt k 6, bAt k 7) w0
  let w2 := step (bAt k 8, bAt k 9, bAt k 10, bAt k 11) w1
  let w3 := step (bAt k 12, bAt k 13, bAt k 14, bAt k 15) w2
  #v[w0.1, w0.2.1, w0.2.2.1, w0.2.2.2, w1.1, w1.2.1, w1.2.2.1, w1.2.2.2,
     w2.1, w2.2.1, w2.2.2.1, w2.2.2.2, w3.1, w3.2.1, w3.2.2.1, w3.2.2.2]

/-- SubBytes and ShiftRows: byte 4c + r comes from column c + r of row r. -/
def subShift (x : Block) : Block :=
  Vector.ofFn (fun i : Fin 16 => sbox (bAt x (4 * (i.val / 4 + i.val % 4) + i.val % 4)))

/-- MixColumns. -/
def mixCols (x : Block) : Block :=
  Vector.ofFn (fun i : Fin 16 =>
    let c := 4 * (i.val / 4)
    let r := i.val % 4
    let a (k : Nat) : Byte := bAt x (c + (r + k) % 4)
    xtime (a 0) ^^^ (xtime (a 1) ^^^ a 1) ^^^ a 2 ^^^ a 3)

/-- AES-128 of one block. -/
def aes (key x : Block) : Block :=
  let r := (List.range 9).foldl (fun (st : Block × Block × Byte) _ =>
    let k := nextKey st.2.1 st.2.2
    (bXor (mixCols (subShift st.1)) k, k, xtime st.2.2)) (bXor x key, key, 1)
  bXor (subShift r.1) (nextKey r.2.1 r.2.2)

/-- Doubling in GF(2¹²⁸), most significant byte first (SP 800-38B). -/
def dbl (x : Block) : Block :=
  let s : Block := Vector.ofFn (fun i : Fin 16 =>
    (bAt x i.val <<< 1) ||| (if i.val < 15 then (bAt x (i.val + 1)) >>> 7 else 0))
  if (bAt x 0).msb then s.set 15 (s[15] ^^^ 0x87) else s

/-- A list of at most 16 bytes as a block; a short one is padded with 0x80 and zeros. -/
def padBlock (l : List Byte) : Block :=
  Vector.ofFn (fun i : Fin 16 => l.getD i.val (if i.val = l.length then 0x80 else 0))

/-- The CMAC chain over a message of n more blocks before the last. -/
def cmacChain (key k1 k2 : Block) : Nat → Block → List Byte → Block
  | 0, c, l => aes key (bXor c (bXor (padBlock l) (if l.length = 16 then k1 else k2)))
  | n + 1, c, l => cmacChain key k1 k2 n (aes key (bXor c (padBlock (l.take 16)))) (l.drop 16)

/-- AES-128 CMAC. -/
def cmac (key : Block) (msg : List Byte) : Block :=
  let k1 := dbl (aes key (Vector.replicate 16 0))
  cmacChain key k1 (dbl k1) ((msg.length - 1) / 16) (Vector.replicate 16 0) msg

/-- The 16 bytes of a key, the first in the most significant place. -/
def keyBlock (k : BitVec 128) : Block := Vector.ofFn (fun i : Fin 16 => BitVec.ofNat 8 (k.toNat / 2 ^ (8 * (15 - i.val))))

/-- The tag of a message as its four ATAG words (R484). -/
def tagWords (key : BitVec 128) (msg : List Byte) : List Word :=
  let t := cmac (keyBlock key) msg
  (List.range 4).map (fun k => wordOfBytes (bAt t (2 * k + 1)) (bAt t (2 * k)))

/-! ### The command table (Table SEC-1) -/

/-- ACMD codes. -/
def cmdOf (acmd : Word) : Option AuthCmd :=
  match acmd.toNat with
  | 0xA101 => some .cork
  | 0xA102 => some .restoreA
  | 0xA103 => some .restoreB
  | 0xA104 => some .ttPolicy
  | 0xA105 => some .regionUnlock
  | 0xA106 => some .cfgLock
  | 0xA107 => some .lampPolicy
  | 0xA108 => some .debugUnlock
  | 0xA1F0 => some .provision
  | _ => none

/-- ALEN. -/
def cmdLen : AuthCmd → Nat
  | .cork => 0
  | .restoreA => 22
  | .restoreB => 12
  | .ttPolicy => 1040
  | .regionUnlock => 2
  | .cfgLock => 0
  | .lampPolicy => 8
  | .debugUnlock => 4
  | .provision => 22

/-- Whether K_APP may authorise a command. -/
def cmdApp : AuthCmd → Bool
  | .ttPolicy => false
  | .lampPolicy => false
  | .debugUnlock => false
  | _ => true

/-- Whether K_SUP may authorise a command. -/
def cmdSup : AuthCmd → Bool
  | .regionUnlock => false
  | _ => true

/-! ### The replay counter and the keys -/

/-- The stored counter: the highest value among the cells whose check is valid (R490). -/
def scnt (n : Nv) : BitVec 32 :=
  n.cells.toList.foldl (fun m c => if c.2 && decide (m.toNat < c.1.toNat) then c.1 else m) 0

/-- R491: endurance exhausted. -/
def worn (n : Nv) : Bool := decide (16000000 ≤ n.acc.toNat)

/-- A slot's key, where it is provisioned. -/
def slotKey : KeySlot → Option (BitVec 128)
  | .key k _ => some k
  | _ => none

def slotFailed : KeySlot → Bool
  | .failed _ => true
  | _ => false

def slotId : KeySlot → Word
  | .blank => 0
  | .key _ i => i
  | .failed i => i

/-- R478: the keys that the roles of a port stand for, of those Table SEC-1 lists. -/
def portSlots (s : State) (p : Port) (c : AuthCmd) : List KeySlot :=
  (if isPri s p && cmdApp c then [s.nv.kApp] else []) ++ (if isSup s p && cmdSup c then [s.nv.kSup] else [])

/-! ### ASTAT and the end of a command -/

/-- ASTAT.STATE (Table REG-30, R481, R492). It reads 3 for the whole of a lockout, a claim taken during the lockout included
(log 47), but 2, with command registers BUSY, from the fourth word of a tag to its LOCKED refusal (R487).
DESIGN CHOICE (log 47). -/
def authState (s : State) : Nat :=
  if authBusy s then 2 else if s.auth.lockOn then 3 else if s.auth.claim.isSome then 1 else 0

/-- ASTAT as it reads (Table REG-30): TIDX of an accepted command keeps 4 until DONE. DESIGN CHOICE (log 47). -/
def astatRead (s : State) : Word :=
  wordOf (authState s + 4 * s.auth.tag.length + flag s.auth.done 5 + flag (slotKey s.nv.kApp).isSome 6
    + flag (slotKey s.nv.kSup).isSome 7 + 256 * s.auth.result.toNat)

/-- ASTAT's W1C bit DONE. -/
def astatWrite (s : State) (v : Word) : State := { s with auth := { s.auth with done := s.auth.done && !bit v 5 } }

/-- DONE with a result: the claim ends (R481, R486, R487). DEDUCED (log 47). -/
def authDone (s : State) (result : Byte) : State :=
  let was := s.auth.done
  let s := { s with auth := { s.auth with done := true, result := result, claim := none, tag := [], msg := none
                                          verify := none, accepted := none } }
  if was then s else setIrq s irqAUTH

/-- A refusal of a command: RESULT, DONE and the record with ERRINFO 0x4A (R486). -/
def authRefuse (s : State) (p : Port) (code : Byte) : State := recordInfo (authDone s code) code (some p) 0x4A

/-- A refusal whose record holds a Cellar address. -/
def authRefuseCell (s : State) (p : Port) (code : Byte) (a : Nat) : State :=
  recordCell (authDone s code) code (some p) a

/-! ### Writes of the command registers (R197, R481, R482) -/

/-- The code of the refusal that a write of a command register meets, by the order of R578. -/
def authPortError (s : State) (p : Port) : Option Byte :=
  if authBusy s then some eBUSY
  else if s.auth.claim = some p.other then some eSTATE
  else none

/-- The port claims the command registers, or its claim goes on. -/
def authClaim (s : State) (p : Port) : State := { s with auth := { s.auth with claim := some p } }

/-- The tag being received is abandoned. -/
def dropTag (s : State) : State := { s with auth := { s.auth with tag := [], msg := none } }

def acmdWrite (s : State) (p : Port) (v : Word) : State :=
  match authPortError s p with
  | some e => refuse s p e 0x4A
  | none => authClaim (dropTag { s with auth := { s.auth with acmd := v } }) p

def acntWrite (s : State) (p : Port) (high : Bool) (v : Word) : State :=
  match authPortError s p with
  | some e => refuse s p e 0x4A
  | none =>
    let s := authClaim s p
    dropTag { s with auth := { s.auth with
      acntL := if high then s.auth.acntL else v, acntH := if high then v else s.auth.acntH } }

/-- R482: a Mailbox write that takes effect abandons a tag of which one to three words have come. -/
def mailboxTouched (s : State) (a : Nat) : State :=
  if 0x34000 ≤ a ∧ a < 0x35000 ∧ 0 < s.auth.tag.length ∧ s.auth.tag.length < 4 then dropTag s else s

/-! ### The message (R480, R482, R483) -/

/-- The first tag word begins the message: ACMD, the counter and the Mailbox as they stand, read at L3 in bursts of four
ECC words. -/
def beginMessage (s : State) : State :=
  let acmd := s.auth.acmd
  let alen := (readWord s 0x34000).toNat
  let len := match cmdOf acmd with
    | some c => if alen = cmdLen c then alen else 0
    | none => 0
  let n := (len + 2 + 7) / 8
  let bad := eccBadN s 0x34000 n
  let s := eccReadN (grantLow s 3 ((len + 2 + 31) / 32)) 0x34000 n
  { s with auth := { s.auth with msg := some {
      cmd := acmd, cnt := s.auth.acntH ++ s.auth.acntL, alen := alen
      args := (List.range len).map (fun i => Cellar.get s.mem (0x34002 + i)), ue := bad } } }

/-- The bytes of a number, the most significant of n first. -/
def bytesBE (n v : Nat) : List Byte := (List.range n).map (fun i => BitVec.ofNat 8 (v / 256 ^ (n - 1 - i)))

/-- Table SEC-2. -/
def messageBytes (uid : BitVec 64) (m : AuthMsg) : List Byte :=
  bytesBE 8 uid.toNat ++ bytesBE 2 m.cmd.toNat ++ bytesBE 4 m.cnt.toNat ++ bytesBE 2 m.alen ++ m.args

/-- The argument words, low byte first (R5). -/
def argWords (l : List Byte) : List Word :=
  (List.range (l.length / 2)).map (fun k => wordOfBytes (l.getD (2 * k) 0) (l.getD (2 * k + 1) 0))

/-! ### Step 11: a command's own conditions (R440, R494 to R498) -/

/-- The number of the first offending argument word. -/
def firstBad (l : List Bool) : Option Nat := l.findIdx? id

/-- RESTORE_A words outside Table SOC-3. -/
def badRestoreA (a : List Word) : List Bool :=
  let w (k : Nat) : Nat := (rArg a k).toNat
  [decide (w 0 ≠ 0x5201), decide (w 1 = 0 ∨ 3 < w 1), decide (0xFF < w 2), false, false, decide (10000 < w 5),
   decide (10000 < w 6), decide (w 7 = 0), decide (12000 < w 8), decide (w 9 < 512 ∨ 4096 < w 9), false]

/-- RESTORE_B words outside Table SOC-4. -/
def badRestoreB (a : List Word) : List Bool :=
  let w (k : Nat) : Nat := (rArg a k).toNat
  [decide (w 0 ≠ 0x5202), decide (w 1 = 0 ∨ 3 < w 1), decide (10000 < w 2), decide (10000 < w 3),
   decide ((rArg a 4).toInt < -2000 ∨ 2000 < (rArg a 4).toInt), false]

/-- TT_POLICY words outside R494. -/
def badTtPolicy (a : List Word) : List Bool :=
  [decide (rArg a 0 ≠ 0x5404), decide ((rArg a 1).toNat = 0 ∨ 3 < (rArg a 1).toNat)]
    ++ (List.range 6).map (fun k => decide (rArg a (k + 2) ≠ 0))

/-- R497: a mode or fallback word that acts on an unclaimed channel, or holds a reserved code. -/
def badModes (claim w : Word) (limit : Nat) : Bool :=
  (List.range 8).any (fun n => decide (limit < fld w (2 * n) 2) || (!bit claim n && decide (fld w (2 * n) 2 ≠ 0)))

/-- R497: exactly one half of a ganged pair is claimed. -/
def halfGang (s : State) (claim : Word) : Bool :=
  (List.finRange 8).any (fun n => ganged s n && bit claim n.val != bit claim (pairOf n).val)

/-- LAMP_POLICY words outside R497. -/
def badLampPolicy (s : State) (a : List Word) : List Bool :=
  let c := rArg a 1
  [decide (rArg a 0 ≠ 0x5407), decide (0xFF < c.toNat) || halfGang s c, badModes c (rArg a 2) 2, badModes c (rArg a 3) 3]

/-- Step 11 of Table SEC-3: a refusal code, with the offending argument word of a RANGE refusal. -/
def step11 (s : State) (c : AuthCmd) (a : List Word) : Option (Byte × Option Nat) :=
  let range (l : List Bool) (rest : Option (Byte × Option Nat)) : Option (Byte × Option Nat) :=
    match firstBad l with
    | some k => some (eRANGE, some k)
    | none => rest
  match c with
  | .cork => if corkRefused s then some (eSTATE, none) else none
  | .restoreA => range (badRestoreA a) ((restoreAError s a).map (fun e => (e, none)))
  | .restoreB => range (badRestoreB a) ((restoreBError s a).map (fun e => (e, none)))
  | .ttPolicy => range (badTtPolicy a) none
  | .regionUnlock => range [decide ((rArg a 0).toNat = 0 ∨ 15 < (rArg a 0).toNat)] none
  | .cfgLock => if s.auth.cfgLock then some (eSTATE, none) else none
  | .lampPolicy => range (badLampPolicy s a) none
  | .debugUnlock => range [decide (rArg a 0 ≠ 0x5408), decide ((rArg a 1).toNat = 0 ∨ 3 < (rArg a 1).toNat)] none
  | .provision => none

/-! ### The checks (R485 to R493, R499) -/

/-- R499, R500: the request's bytes leave the Mailbox, in one L3 burst (R13). -/
def wipeMailbox (s : State) : State :=
  storeEcc (grantLow { s with auth := { s.auth with wipe := false } } 3 1) 0x34000 3 0

/-- R500: a provisioning request that step 9 or a later one refuses asks the arbiter for the burst that wipes the Mailbox.
DESIGN CHOICE (log 49). -/
def wipeAsked (s : State) : State := { s with auth := { s.auth with wipe := true } }

/-- The Mailbox is wiped where the arbiter grants the burst (R224, R500). DESIGN CHOICE (log 49). -/
def mailboxWiped (s : State) : State := if s.auth.wipe then granted s (.low 3) wipeMailbox else s

/-- R492: a tag that does not verify; the eighth in a row begins a lockout. -/
def badTag (s : State) : State :=
  let a := s.auth
  let a := { a with tagFail := sat1 a.tagFail }
  if 8 ≤ a.badRun + 1 then
    let lvl := min 7 (a.lockLvl + 1)
    { s with auth := { a with badRun := 0, lockLvl := lvl, lockOn := true
                              lockLeft := 2 ^ (lvl - 1) * 1000 * msCycles } }
  else { s with auth := { a with badRun := a.badRun + 1 } }

/-- A command is accepted (R487). LOCKLVL returns to 0 at an accepted command (R493). TIDX keeps 4 until DONE ends the claim
(R197, R481). DESIGN CHOICE (log 47). -/
def accept (s : State) (c : AuthCmd) (p : Port) (m : AuthMsg) : State :=
  let s := { s with auth := { s.auth with
    accepted := some { cmd := c, port := p, code := m.cmd, counter := m.cnt, args := argWords m.args
                       written := decide (c = .provision) }
    restoreDrop := false
    lastCmd := if c = .provision then s.auth.lastCmd else m.cmd
    lockLvl := if c = .provision then s.auth.lockLvl else 0 } }
  if c = .cork then { s with pw := { s.pw with trans := .corkSeq } } else s

/-- R499: what a provisioning request meets after its tag has verified. DEDUCED (log 47). -/
def provisionChecks (s : State) (p : Port) (m : AuthMsg) : State :=
  let a := argWords m.args
  let slot := (rArg a 1).toNat
  if (slot = 0 ∧ !isPri s p) ∨ (slot = 1 ∧ !isSup s p) then wipeAsked (authRefuse s p eOWNER)
  else if rArg a 0 ≠ 0x5A01 ∨ 1 < slot ∨ m.cnt ≠ 0 then wipeAsked (authRefuse s p eRANGE)
  else if (if slot = 0 then s.nv.kApp else s.nv.kSup) ≠ .blank then wipeAsked (authRefuse s p eSTATE)
  else accept s .provision p m

/-- The key of a provisioning request's arguments. -/
def provisionKey (l : List Byte) : BitVec 128 :=
  BitVec.ofNat 128 ((l.drop 6).foldl (fun n b => 256 * n + b.toNat) 0)

/-- Steps 10 and 11, after the tag has verified. -/
def lastChecks (s : State) (c : AuthCmd) (p : Port) (m : AuthMsg) : State :=
  if m.cnt.toNat ≤ (scnt s.nv).toNat then
    authRefuse { s with auth := { s.auth with cntFail := sat1 s.auth.cntFail } } p eCOUNTER
  else
    match step11 s c (argWords m.args) with
    | some (e, some k) => authRefuseCell s p e (0x34002 + 2 * k)
    | some (e, none) => authRefuse s p e
    | none => accept s c p m

/-- Steps 7 to 9 under the keys that may verify, then what follows. -/
def tagChecks (s : State) (c : AuthCmd) (p : Port) (m : AuthMsg) (keys : List (BitVec 128)) (tag : List Word) : State :=
  if m.alen ≠ cmdLen c then authRefuseCell s p eRANGE 0x34000
  else if m.ue then authDone s eECC
  else if keys.any (fun k => tagWords k (messageBytes s.nv.uid m) == tag) then
    let s := { s with auth := { s.auth with badRun := 0 } }
    if c = .provision then provisionChecks s p m else lastChecks s c p m
  else
    let s := authRefuse (badTag s) p eTAG
    if c = .provision then wipeAsked s else s

/-- The CK_FRAME cycles that are left of the running CK_AON cycle. -/
def aonLeft (s : State) : Nat := (375 - s.aon.phase + 7) / 8

/-- A lockout is in force for a fourth tag word that takes effect now: one that ends in the same CK_AON cycle ends first
(R506). DEDUCED (log 47). -/
def lockHolds (s : State) : Bool := s.auth.lockOn && !(ckAon s && decide (s.auth.lockLeft ≤ aonLeft s))

/-- Steps 1 and 2 of Table SEC-3, at the fourth tag word (R54, R506): the code of their refusal.
DESIGN CHOICE (log 35). -/
def earlyRefusal (s : State) (m : AuthMsg) : Option Byte :=
  let modeOk := (s.pw.mode == .standby || (s.pw.mode == .run && cmdOf m.cmd != some .debugUnlock)) && !s.clk.expiring
  if !modeOk then some eSTATE else if lockHolds s then some eLOCKED else none

/-- The other steps of Table SEC-3. DESIGN CHOICE (log 35). -/
def authChecks (s : State) (p : Port) (m : AuthMsg) (tag : List Word) : State :=
  match cmdOf m.cmd with
  | none => authRefuse s p eRANGE
  | some .provision => tagChecks s .provision p m [provisionKey m.args] tag
  | some c =>
    let slots := portSlots s p c
    let keys := slots.filterMap slotKey
    if slots.isEmpty then authRefuse s p eOWNER
    else if keys.isEmpty then authRefuse s p eSTATE
    else if worn s.nv then authRefuse s p eSTATE
    else tagChecks s c p m keys tag

/-- The verification ends with the result of Table SEC-3 (R485, R488): at the next CK_FRAME edge, or ahead of the row of
the counter write or of the effect that follows from it. DESIGN CHOICE (log 35). -/
def authVerdict (s : State) : State :=
  match s.auth.verify, s.auth.msg with
  | some v, some m =>
    let t := { s with auth := { s.auth with verify := none } }
    match v.early with
    | some e => authRefuse t v.port e
    | none => authChecks t v.port m s.auth.tag
  | _, _ => s

/-- A tag word takes effect (R100, R482, R485): the first begins the message, the fourth starts the checks. A word that
comes while a command is verified or executed begins no tag. DESIGN CHOICE (log 35). -/
def tagWord (s : State) (p : Port) (v : Word) : State :=
  if authBusy s then s
  else
    let s := if s.auth.tag.isEmpty then beginMessage s else s
    let t := s.auth.tag ++ [v]
    let s := { s with auth := { s.auth with tag := t } }
    match s.auth.msg with
    | some m =>
      if 4 ≤ t.length then { s with auth := { s.auth with verify := some { port := p, early := earlyRefusal s m } } } else s
    | none => s

/-! ### Time limits (R481, R492, R493) -/

/-- The lockout's time runs out. DEDUCED (log 47). -/
def lockoutEnds (s : State) : State :=
  if s.auth.lockOn ∧ islandOn s then { s with auth := { s.auth with lockOn := false, lockLeft := 0 } } else s

/-- A CK_FRAME cycle in which CK_AON runs shortens a lockout, which ends with its last one, ahead of anything else in
that cycle (R492, R493, R506). DEDUCED (log 47). -/
def lockoutTick (s : State) : State :=
  if s.auth.lockOn ∧ ckAon s then
    if s.auth.lockLeft ≤ 1 then lockoutEnds s
    else { s with auth := { s.auth with lockLeft := s.auth.lockLeft - 1 } }
  else s

/-- 100 ms without a write from the claiming port while STATE is 1. -/
def claimTimeout (s : State) : State :=
  if !authBusy s then { s with auth := { s.auth with claim := none, tag := [], msg := none } } else s

/-- LOCKREM in units of 10 ms. DEDUCED (log 47). -/
def lockRem (s : State) : Nat := if s.auth.lockOn then (s.auth.lockLeft + 15359) / 15360 else 0

/-! ### Effects -/

/-- COUNTER_WRITE_DONE (R487, R490): the new counter stands in the next cell, and ACC counts it.
DESIGN CHOICE (log 35). -/
def counterWritten (s : State) : State :=
  let s := authVerdict s
  match s.auth.accepted with
  | some a =>
    if a.written then s
    else
      let n := s.nv
      expiryDone { s with
        nv := { n with cells := vset n.cells n.nextCell (a.counter, true), nextCell := (n.nextCell + 1) % 16
                       acc := n.acc + 1 }
        auth := { s.auth with accepted := some { a with written := true } } }
  | none => s

/-- A command's effect: only of the accepted command it belongs to, once its counter is written.
DESIGN CHOICE (log 35). -/
def effect (s : State) (c : AuthCmd) (body : State → Accepted → State) : State :=
  let s := authVerdict s
  match s.auth.accepted with
  | some a => if a.cmd = c ∧ a.written then body s a else s
  | none => s

/-- The 16 argument bytes of one line of a mask, as its pixels (R305). -/
def maskLine (a : List Word) (w k : Nat) : BitVec 128 :=
  BitVec.ofNat 128 ((List.range 8).foldl (fun n j => n + (rArg a (w + 8 * k + j)).toNat * 2 ^ (16 * j)) 0)

/-- A mask of 16 lines is written from argument word w (R494), in L3 bursts of four ECC words (R13, R488). -/
def storeMask (s : State) (at' : Nat) (a : List Word) (w : Nat) : State :=
  (List.range 16).foldl (fun s k => storeLine s (at' + 16 * k) (maskLine a w k)) (grantLow s 3 8)

/-- The mask of 16 lines that argument word w begins. -/
def maskOf (a : List Word) (w : Nat) : Vector (BitVec 128) 16 := Vector.ofFn (fun k : Fin 16 => maskLine a w k.val)

/-- R494: the masks of the banks that BANKS names, the tell-tale mask in the working copy (R308) and in the Cellar.
DEDUCED (log 55). -/
def ttPolicy (s : State) (a : List Word) : State :=
  let one (s : State) (b : Bank) : State :=
    if bit (rArg a 1) b.num then
      let s := setBank s b { getBank s b with maskCopy := maskOf a (8 + 256 * b.num) }
      storeMask (storeMask s (maskAddr b) a (8 + 256 * b.num)) (fbMaskAddr b) a (136 + 256 * b.num)
    else s
  one (one s .bankA) .bankB

/-- R495: the named regions' RLOCK reads 0. -/
def regionUnlock (s : State) (v : Word) : State :=
  { s with disp := { s.disp with rlock := s.disp.rlock.mapIdx (fun i r => r && !bit v i) } }

/-- R497: the tell-tale lamp policy; a retry of a channel that it claims, which only the budget held back, is made
(R374, R385). -/
def lampPolicy (s : State) (a : List Word) : State :=
  let s := lampsSettle { s with lamps := { s.lamps with
    ttClaim := loByte (rArg a 1), ttMode := rArg a 2, ttFb := rArg a 3 } }
  (List.finRange 8).foldl (fun s n => if claimed s n then tryRetry s n else s) s

/-- R500: the slot is programmed and read back, and the Mailbox wiped. DEDUCED (log 47). -/
def provisionEffect (s : State) (a : Accepted) (ok : Bool) : State :=
  let id := rArg a.args 2
  let bytes := (a.args.map (fun w => [loByte w, hiByte w])).flatten
  let slot := if ok then KeySlot.key (provisionKey bytes) id else KeySlot.failed id
  let nv := if rArg a.args 1 = 0 then { s.nv with kApp := slot } else { s.nv with kSup := slot }
  let s := wipeMailbox { s with nv := nv }
  if ok then authDone s 0 else authRefuse s a.port eSTATE

/-! ### The commands -/

/-- ACMD_WRITE (R197). -/
def execAcmdWrite (p : Port) (v : Word) (s : State) : Host.Outcome State Fault Refusal :=
  .next (gate s p 0x25 v (fun s w => acmdWrite s p w))

/-- ACNT_WRITE (R197). -/
def execAcntWrite (p : Port) (high : Bool) (v : Word) (s : State) : Host.Outcome State Fault Refusal :=
  .next (gate s p (if high then 0x27 else 0x26) v (fun s w => acntWrite s p high w))

/-- LOCKOUT_END (R492). -/
def execLockoutEnd (s : State) : Host.Outcome State Fault Refusal := .next (lockoutEnds s)

/-- CLAIM_TIMEOUT (R481). -/
def execClaimTimeout (s : State) : Host.Outcome State Fault Refusal := .next (claimTimeout s)

/-- COUNTER_WRITE_DONE (R490). -/
def execCounterWriteDone (s : State) : Host.Outcome State Fault Refusal := .next (counterWritten s)

/-- CORK (R80, R81). Once RESET# has been recognised the request is discarded (R89). -/
def execCork (s : State) : Host.Outcome State Fault Refusal :=
  .next (effect s .cork (fun s a => if s.pw.rst = .pin then s else corkBegins (authDone s 0) a.port))

/-- R447, R474, R505: the restore is queued, in place of an earlier one, unless a swap or a removal has discarded it
since it was accepted. -/
def queueRestoreA (s : State) (a : Accepted) : State :=
  authDone (if s.auth.restoreDrop then s else { s with estA := { s.estA with restore := some a.args } }) 0

/-- RESTORE_A (R440, R441): queued for channel A's next update. -/
def execRestoreA (s : State) : Host.Outcome State Fault Refusal := .next (effect s .restoreA queueRestoreA)

/-- RESTORE_B (R440, R441): queued for channel B's next update. -/
def execRestoreB (s : State) : Host.Outcome State Fault Refusal :=
  .next (effect s .restoreB (fun s a => authDone { s with estB := { s.estB with restore := some a.args } } 0))

/-- TT_POLICY (R494). -/
def execTtPolicy (s : State) : Host.Outcome State Fault Refusal :=
  .next (effect s .ttPolicy (fun s a => granted s (.low 3) (fun s => authDone (ttPolicy s a.args) 0)))

/-- REGION_UNLOCK (R495). -/
def execRegionUnlock (s : State) : Host.Outcome State Fault Refusal :=
  .next (effect s .regionUnlock (fun s a => authDone (regionUnlock s (rArg a.args 0)) 0))

/-- CFG_LOCK (R496). -/
def execCfgLock (s : State) : Host.Outcome State Fault Refusal :=
  .next (effect s .cfgLock (fun s _ => authDone { s with auth := { s.auth with cfgLock := true } } 0))

/-- LAMP_POLICY (R497). -/
def execLampPolicy (s : State) : Host.Outcome State Fault Refusal :=
  .next (effect s .lampPolicy (fun s a => authDone (lampPolicy s a.args) 0))

/-- DEBUG_UNLOCK (R498). -/
def execDebugUnlock (s : State) : Host.Outcome State Fault Refusal :=
  .next (effect s .debugUnlock (fun s a => authDone { s with auth := { s.auth with
    dbgBs := s.auth.dbgBs || bit (rArg a.args 1) 0, dbgTest := s.auth.dbgTest || bit (rArg a.args 1) 1 } } 0))

/-- PROVISIONING_REQUEST (R499, R500); the operand says whether the OTP read-back equals what was programmed. -/
def execProvisioningRequest (readBackOk : Bool) (s : State) : Host.Outcome State Fault Refusal :=
  .next (effect s .provision (fun s a => granted s (.low 3) (fun s => provisionEffect s a readBackOk)))

end Sys2Proof.Machine
end

