-- ==== Sys2Proof/Machine/Arb.lean ====
section
/-! DEFINITION. The arbiter and the scrub engine (chapter "The Cellar and its arbiter", R222 to R237) and the IEEE 1149.1
port (R566 to R572). -/

namespace Sys2Proof.Machine

open Sys2Proof

/-! ### Windows -/

/-- Table CEL-5: the MAXW bound of each level in units of 4 cycles. -/
def maxwBound : Vector Nat 7 := #v[2, 10, 122, 224, 224, 224, 224]

/-- R230: the waits of a window in units of 4 cycles join MAXW; none is longer than Table CEL-5 allows (R229). -/
def recordWaits (maxw waits : Vector Nat 7) : Vector Nat 7 :=
  Vector.ofFn (fun i : Fin 7 => Nat.max (vget maxw i.val) (min (vget maxwBound i.val) ((vget waits i.val + 3) / 4)))

/-- ARB_WINDOW_START (R227, R230, R231, R236): the waits of the ended window are recorded, the shares reloaded, and the
scrub's next burst is one window nearer (R222), also while SCRUB_EN is 0, so that a scrub that has rested long enough is
due at once when SCRUB_EN is set again. `waits` are the longest wait of each level that ended in that window
after the last ARBSTAT clear in it (R230, R237), in CK_CORE cycles. DESIGN CHOICE (log 49). -/
def windowStarts (s : State) (waits : Vector Nat 7) : State :=
  if domains s then
    { s with arb := { s.arb with
        maxw := recordWaits s.arb.maxw waits
        scrubLeft := s.arb.scrubLeft - 1
        paid := Vector.ofFn (fun k : Fin 5 => min (vget s.arb.paid k.val) (longCost s (k.val + 2)))
        rem := Vector.ofFn (fun k : Fin 5 => shareField s k.val) } }
  else s

/-! ### ARBSTAT (Table REG-34) -/

/-- R202: LVL 7 is refused; CLR clears MAXW of every level. -/
def arbstatWrite (s : State) (p : Port) (v : Word) : State :=
  if fld v 0 3 = 7 then refuse s p eRANGE 0x62
  else { s with arb := { s.arb with lvl := fld v 0 3
                                    maxw := if bit v 3 then Vector.replicate 7 0 else s.arb.maxw } }

/-- ARBSTAT as it reads. -/
def arbstatRead (s : State) : Word := wordOf (s.arb.lvl + 0x10 * vget s.arb.maxw s.arb.lvl)

/-- R232: CNTCLR of the arbitration page. -/
def eccCountersClear (s : State) : State :=
  { s with arb := { s.arb with ceCnt := 0, ueCnt := 0, passCnt := 0, wbDrop := 0, cev := false, uev := false } }

/-! ### Scrub -/

/-- The scrub's reaction to ECC word w (Table CEL-3, R219, R220): a word of the Parameter cask that cannot be corrected
is rewritten from the working copy. A word of the reserved range 0xF000 to 0xFFFF has no working copy and is left
unchanged. DESIGN CHOICE (log 51). -/
def scrubUe (s : State) (w : Nat) : State :=
  let s := detectUe s w
  if isPage w then eccWritten s w else s

/-- The scrub's read of one ECC word. -/
def scrubWord (s : State) (w : Nat) : State :=
  match eccAt s w with
  | none => s
  | some .single => detectCe s w
  | some .double => scrubUe s w

/-- The scrub's reads of n ECC words from w. -/
def scrubWords (s : State) (w : Nat) : Nat → State
  | 0 => s
  | n + 1 => scrubWords (scrubWord s w) (w + 8) n

/-- The eight reads of a scrub burst (R222): PASS_CNT counts each wrap, and the next burst comes SCRUB_PACE windows
later (R231). -/
def scrubEight (s : State) (ups : List Upset) : State :=
  let s := grantLow (scrubWords (upsets s ups) s.arb.scrubAt 8) 6 1
  let next := (s.arb.scrubAt + 64) % cellarSize
  { s with arb := { s.arb with scrubAt := next, scrubLeft := (pg s 0xE804).toNat
                               passCnt := if next = 0 then sat1 s.arb.passCnt else s.arb.passCnt } }

/-- SCRUB_BURST (R219, R222, R231): eight ECC words in one L6 burst, SCRUB_PACE windows after the last and never ahead
of a queued write-back. -/
def scrubBurst (s : State) (ups : List Upset) : State :=
  if domains s ∧ pgb s 0xE802 4 ∧ s.arb.scrubLeft = 0 ∧ s.arb.wbQ.isEmpty then
    granted s (.low 6) (fun s => scrubEight s ups)
  else s

/-- The oldest queued word is re-read, which is no detection, and written corrected; an uncorrectable error found there is
treated as by a scrub read (R219, R233). -/
def writebackServed (s : State) (ups : List Upset) : State :=
  match s.arb.wbQ with
  | [] => s
  | c :: rest =>
    let s := upsets s ups
    let s := grantLow { s with arb := { s.arb with wbQ := rest } } 6 1
    match eccAt s c.toNat with
    | some .double => scrubUe s c.toNat
    | _ => eccWritten s c.toNat

/-- SCRUB_WRITEBACK (R219, R233), where the arbiter grants its L6 burst. -/
def scrubWriteback (s : State) (ups : List Upset) : State :=
  if domains s ∧ !s.arb.wbQ.isEmpty then granted s (.low 6) (fun s => writebackServed s ups) else s

/-! ### The TAP -/

/-- The IEEE 1149.1 instructions of Table PKG-8 are open (R498, R572): DEBUG_UNLOCK has opened them, and the balls have
VIO. Otherwise they leave the TAP as it is. DESIGN CHOICE (log 19). -/
def tapOpen (s : State) : Bool := s.auth.dbgBs && s.pw.vio

/-- The vendor's test instructions are open (R498). DESIGN CHOICE (log 19). -/
def tapTest (s : State) : Bool := s.auth.dbgTest && s.pw.vio

/-- R566: what the instruction register loads in Capture-IR; a scan of it shifts that out while it shifts the next
instruction in (`tapScanOut`). -/
def captureIr : BitVec 5 := 1

/-- R566: select an instruction; a closed TAP stays in Test-Logic-Reset with IDCODE selected. -/
def tapSelect (s : State) (ir : BitVec 5) : State :=
  if tapOpen s then { s with tap := { s.tap with ir := ir } } else s

/-- R567: the device identification register. -/
def idcodeValue : BitVec 32 := 0xB40969A7

/-- R566: a code of the vendor's test instructions, 0x10 to 0x1E. DESIGN CHOICE (log 19). -/
def vendorCode (c : BitVec 5) : Bool := decide (0x10 ≤ c.toNat ∧ c.toNat ≤ 0x1E)

/-- The data register that the instruction selects (Table PKG-8): its length and what it holds.
DESIGN CHOICE (log 19). -/
def tapData (s : State) : Nat × Nat :=
  if s.tap.ir = 0 ∨ s.tap.ir = 1 then (373, s.tap.boundary.toNat)
  else if s.tap.ir = 2 then (32, idcodeValue.toNat)
  else if vendorCode s.tap.ir then Config.vendorRegister s.freeCtr
  else (1, 0)

/-- A scan of the TAP: of the instruction register, or of the data register that the instruction selects. -/
inductive TapScan where
  | ir | dr
  deriving DecidableEq, Repr

/-- The length and the captured content of the register that a scan shifts (R566). -/
def tapRegister (s : State) : TapScan → Nat × Nat
  | .ir => (5, captureIr.toNat)
  | .dr => tapData s

/-- Bit n that a scan shifts out: the captured register from its TDO end (R568), and then what was shifted in on TDI.
PRESUMED (log 62). -/
def tapScanOut (s : State) (x : TapScan) (tdi : List Bool) (n : Nat) : Bool :=
  let r := tapRegister s x
  if n < r.1 then r.2.testBit n else tdi.getD (n - r.1) false

/-- VENDOR_TEST (R4, R498, R566): with DBGTEST set the vendor's code is selected, whatever SCOPE opened beside it;
otherwise every code that Table PKG-8 does not list selects BYPASS. DESIGN CHOICE (log 19). -/
def vendorSelect (s : State) (code : BitVec 5) : State :=
  if code.toNat ≤ 4 then tapSelect s code
  else if s.auth.dbgTest && vendorCode code then
    if tapTest s then { s with tap := { s.tap with ir := code }, freeCtr := s.freeCtr + 1 } else s
  else tapSelect s 0x1F

/-! ### Rows -/

/-- ARBSTAT_WRITE. -/
def execArbstatWrite (p : Port) (v : Word) (s : State) : Host.Outcome State Fault Refusal :=
  .next (gate s p 0x31 v (fun s w => arbstatWrite s p w))

/-- ARB_WINDOW_START. -/
def execArbWindowStart (waits : Vector Nat 7) (s : State) : Host.Outcome State Fault Refusal :=
  .next (windowStarts s waits)

/-- SCRUB_BURST. -/
def execScrubBurst (ups : List Upset) (s : State) : Host.Outcome State Fault Refusal := .next (scrubBurst s ups)

/-- SCRUB_WRITEBACK. -/
def execScrubWriteback (ups : List Upset) (s : State) : Host.Outcome State Fault Refusal := .next (scrubWriteback s ups)

/-- IDCODE. -/
def execIdcode (s : State) : Host.Outcome State Fault Refusal := .next (tapSelect s 2)

/-- CLAMP. -/
def execClamp (s : State) : Host.Outcome State Fault Refusal := .next (tapSelect s 3)

/-- HIGHZ. -/
def execHighz (s : State) : Host.Outcome State Fault Refusal := .next (tapSelect s 4)

/-- BYPASS. -/
def execBypass (s : State) : Host.Outcome State Fault Refusal := .next (tapSelect s 0x1F)

/-- VENDOR_TEST. -/
def execVendorTest (code : BitVec 5) (s : State) : Host.Outcome State Fault Refusal := .next (vendorSelect s code)

end Sys2Proof.Machine
end

