-- ==== Sys2Proof/Machine/Roles.lean ====
section
/-! DEFINITION. PORTCTL (Table SUP-6): forced-display-on, the heartbeat, its fallback and the role swap (R142 to R163). -/

namespace Sys2Proof.Machine

open Sys2Proof

/-- The heartbeat key that is expected (R146). -/
def hbKey (s : State) : Nat := if s.roles.hbNext then 0xA5 else 0x5A

/-- A valid heartbeat (R146, R148, R150): the key alternates, the time restarts and the episode of a miss ends; during
the fallback the second within HB_PERIOD of the first ends it at each bank's next boundary. DEDUCED (log 36). -/
def heartbeat (s : State) : State :=
  let r := { s.roles with hbNext := !s.roles.hbNext, hbLast := some s.now, hbRef := s.now, hbMissed := false }
  if r.fallbk && !r.fbEnding then
    match r.fbBeat with
    | some t =>
      if s.now ≤ t + (pg s 0xEC02).toNat * msCycles then
        { s with roles := { r with fbBeat := none, fbEnding := true }
                 bankA := { s.bankA with fbWait := true }, bankB := { s.bankB with fbWait := true } }
      else { s with roles := { r with fbBeat := some s.now } }
    | none => { s with roles := { r with fbBeat := some s.now } }
  else { s with roles := r }

/-- A role swap is executed (R151, R155). -/
def swapRoles (s : State) : State :=
  setIrq { s with roles := { s.roles with ppri := !s.roles.ppri, swpnd := none, hbRef := s.now, hbNext := false
                                          hbMissed := false } } irqROLE

/-- R147: the heartbeat comes sooner than HB_EARLY after the last one. DEDUCED (log 36). -/
def hbEarly (s : State) : Bool :=
  match s.roles.hbLast with
  | some t => decide (s.now < t + (pg s 0xEC04).toNat * msCycles)
  | none => false

/-- R152: a swap request is refused: with SOLO, in BOOT and CORK-ENTRY, while a tag is being verified (R503: from its
fourth word to the result of Table SEC-3; that of a provisioning request, which is no authenticated command by R477, among
them), and while the same port's request is pending. DESIGN CHOICE (log 35). -/
def swapRefused (s : State) (p : Port) : Bool :=
  solo s || s.pw.mode == .boot || s.pw.mode == .corkEntry || s.auth.verify.isSome || s.roles.swpnd == some p

/-- The refusal that a PORTCTL write meets, in the order of R578 (R144, R145, R147, R152). DEDUCED (log 50). -/
def portctlError (s : State) (p : Port) (v : Word) : Option Byte :=
  let supw := bit v 7
  let key := fld v 8 8
  if supw && !isSup s p then some eOWNER
  else if supw && key != 0 && key != hbKey s then some eRANGE
  else if (supw && bit v 4 && !(s.pw.mode == .run && s.pw.trans == .idle)) || (supw && key != 0 && hbEarly s)
      || (bit v 2 && swapRefused s p) then some eSTATE
  else none

/-- A PORTCTL write but for the swap itself, and whether one swap is to be executed (R144 to R154, R162). `merged` says
that the request joins one of the same merge window (R153). -/
def portctlCore (s : State) (p : Port) (v : Word) (merged : Bool) : State × Bool :=
  match portctlError s p v with
  | some e => (refuse s p e 0x10, false)
  | none =>
    let s := if bit v 7 then { s with roles := { s.roles with fdon := bit v 4 } } else s
    let s := if bit v 7 && fld v 8 8 != 0 then heartbeat s else s
    if !bit v 2 then (s, false)
    else if merged || s.roles.swpnd == some p.other then ({ s with roles := { s.roles with swpnd := none } }, true)
    else if pgb s 0xEC00 1 then ({ s with roles := { s.roles with swpnd := some p } }, false)
    else (s, true)

/-- A PORTCTL write. -/
def portctlWrite (s : State) (p : Port) (v : Word) : State :=
  let r := portctlCore s p v false
  if r.2 then swapRoles r.1 else r.1

/-- PORTCTL as it reads; with SOLO Port P does not hold the Primary role (R143). DEDUCED (log 31). -/
def portctlRead (s : State) : Word :=
  wordOf (flag (s.roles.ppri && !solo s) 0 + flag (solo s) 1 + flag s.roles.swpnd.isSome 3 + flag s.roles.fdon 4
    + flag s.roles.fallbk 5 + flag s.roles.hbNext 6)

/-- SWAP_MERGE_WINDOW_END (R153, R159): the PORTCTL writes of both ports in one merge window, Port S first; their swap
requests execute one swap, after the other fields of both. DEDUCED (log 34). -/
def swapMerge (s : State) (vS vP : Word) : State :=
  let wants (s : State) (p : Port) (v : Word) (m : Bool) : Bool :=
    match reaches s p 8 v with
    | some w => (portctlCore s p w m).2
    | none => false
  let kS := wants s .portS vS false
  let s1 := answered s 8 vS (fun s => gate s .portS 8 vS (fun s w => (portctlCore s .portS w false).1))
  let kP := wants s1 .portP vP kS
  let s2 := gate s1 .portP 8 vP (fun s w => (portctlCore s .portP w kS).1)
  if kS || kP then swapRoles s2 else s2

/-- R154: 10 ms pass without the other port's consent. -/
def swapLapse (s : State) : State :=
  match s.roles.swpnd with
  | some p => recordInfo { s with roles := { s.roles with swpnd := none } } eSTATE (some p) 0x10
  | none => s

/-! ### Rows -/

/-- SWAP_REQUEST. -/
def execSwapRequest (p : Port) (v : Word) (s : State) : Host.Outcome State Fault Refusal :=
  .next (gate s p 8 v (fun s w => portctlWrite s p w))

/-- SWAP_MERGE_WINDOW_END. -/
def execSwapMergeWindowEnd (vS vP : Word) (s : State) : Host.Outcome State Fault Refusal := .next (swapMerge s vS vP)

/-- SWAP_CONSENT_LAPSE. -/
def execSwapConsentLapse (s : State) : Host.Outcome State Fault Refusal := .next (swapLapse s)

/-- HEARTBEAT. -/
def execHeartbeat (p : Port) (v : Word) (s : State) : Host.Outcome State Fault Refusal :=
  .next (gate s p 8 v (fun s w => portctlWrite s p w))

/-- FDON_WRITE. -/
def execFdonWrite (p : Port) (v : Word) (s : State) : Host.Outcome State Fault Refusal :=
  .next (gate s p 8 v (fun s w => portctlWrite s p w))

/-- R393: a flasher edge and what happens to the fallback in the same cycle are both made before the channels follow. -/
def flasherEdge (s : State) (edge : State → State) (fb : FallbackChange) : State :=
  match fb with
  | .none => if s.lamps.flRun then lampsSettle (edge s) else s
  | .miss => lampsSettle (if hbOverdue s then declareMiss (edge s) else edge s)
  | .boundary b => lampsSettle (frameBoundary (edge s) b)

/-- FLASHER_ON_PHASE (R383, R393). -/
def execFlasherOnPhase (fb : FallbackChange) (s : State) : Host.Outcome State Fault Refusal :=
  .next (flasherEdge s flasherOn fb)

/-- FLASHER_OFF_PHASE (R383, R384, R393). -/
def execFlasherOffPhase (low : Byte) (fb : FallbackChange) (s : State) : Host.Outcome State Fault Refusal :=
  .next (flasherEdge s (fun s => flasherOff s low) fb)

/-- HEARTBEAT_MISS (R148, R149, R163). -/
def execHeartbeatMiss (s : State) : Host.Outcome State Fault Refusal :=
  .next (if hbSupervised s ∧ hbOverdue s then declareMiss s else s)

end Sys2Proof.Machine
end

