-- ==== Sys2Proof/Machine/Trellis.lean ====
section
/-! DEFINITION. The Trellis key scanner: key slots, debounce, ghost corners, events, the FIFO, the log and the KCTL, KSTAT
and KEVT registers ("Trellis key scanner", R185 to R187). -/

namespace Sys2Proof.Machine

open Sys2Proof

/-! ### Keys and rectangles (R338, R347) -/

/-- Key number of key (l, r). -/
def keyNo (l r : Nat) : Nat := 8 * l + r

/-- A single key as a set. -/
def keyBit (n : Nat) : BitVec 128 := BitVec.ofNat 128 (2 ^ n)

/-- The returns of line l that a set of keys holds. -/
def keyRow (k : BitVec 128) (l : Nat) : Nat := k.toNat / 2 ^ (8 * l) % 256

/-- R347: some other line and return complete a rectangle of closed keys with (l, r). -/
def rectangle (k : BitVec 128) (l r : Nat) : Bool :=
  (List.range 16).any fun l' => l' != l && (keyRow k l').testBit r &&
    (List.range 8).any fun r' => r' != r && (keyRow k l).testBit r' && (keyRow k l').testBit r'

/-! ### Events (R349 to R351) -/

/-- KEVT.TYPE codes (Table REG-19). -/
abbrev tPRESS : Nat := 1
abbrev tRELEASE : Nat := 2
abbrev tHELD : Nat := 3
abbrev tAMBIGUOUS : Nat := 4
abbrev tMARKER : Nat := 5

/-- An event word (Table REG-19). -/
def keyEvent (ty l r : Nat) (scan : Word) : Word := wordOf (r + 8 * l + 256 * ty + 2048 * (scan.toNat % 32))

/-- TYPE of an event word. -/
def keyType (e : Word) : Nat := fld e 8 3

/-- Whether the FIFO holds an overflow marker. -/
def hasMarker (f : List Word) : Bool := f.any (fun e => keyType e == tMARKER)

/-- R351: the log entry of an event, queued for its L5 burst, with the sequence state of bank A at the event. DEDUCED (log
41). DESIGN CHOICE (log 41). -/
def keyLogEntry (s : State) (e : Word) : KeyLog :=
  { event := e, seq := s.keys.seqNext, scan := s.keys.scanCnt, sub := wordOf s.aon.sub
    secL := wordOf s.aon.sec.toNat, secH := wordOf (s.aon.sec.toNat / 0x10000), sta := s.bankA.drv.sta.code }

/-- LOG_EN as it is in force: its reset value during the boot scan (R352), and what it was where its write waits for the
next full scan (R359). -/
def logEnabled (s : State) : Bool := s.keys.logHold.getD (pgb s 0xCC00 2) || decide (0 < s.keys.boot)

/-- R349 to R351: an event is numbered, logged where LOG_EN is 1, and enters the FIFO; where the FIFO holds 15 events an overflow marker enters in its place, and while a marker is in the FIFO nothing
does. DEDUCED (log 41). -/
def keyPush (s : State) (e : Word) : State :=
  let k := s.keys
  let s := { s with keys := { k with seqNext := k.seqNext + 1
                                     logQ := if logEnabled s then k.logQ ++ [keyLogEntry s e] else k.logQ } }
  if hasMarker k.fifo then s
  else if k.fifo.length < 15 then setIrq { s with keys := { s.keys with fifo := k.fifo ++ [e] } } irqKEY
  else
    setIrq (setIrq { s with keys := { s.keys with
      fifo := k.fifo ++ [keyEvent tMARKER 0 0 k.scanCnt], ovfSeq := k.seqNext, ovf := true
      ovfCnt := sat1 k.ovfCnt } } irqKOVF) irqKEY

/-! ### A key slot (R341 to R348, R352) -/

/-- R345: one sample of a key: its count, and whether its debounced state changes. DEDUCED (log 41). -/
def debounce (closed sample : Bool) (count d : Nat) : Nat × Bool :=
  if sample = closed then (0, false) else if d ≤ count + 1 then (0, true) else (count + 1, false)

/-- The samples of line l are taken: the counts and the bitmap after every change of the key slot. -/
def sampleLine (k : Keys) (l : Nat) (ret : Byte) : Keys :=
  (List.range (k.cur.kins + 1)).foldl (fun k r =>
    let n := keyNo l r
    let q := debounce (k.kmap.getLsbD n) (ret.getLsbD r) (vget k.counts n) k.cur.deb
    { k with counts := vset k.counts n q.1, kmap := if q.2 then k.kmap ^^^ keyBit n else k.kmap }) k

/-- R347, R348: what the Trellis reports of key (l, r) after the key slot; `old` is the bitmap before it.
DEDUCED (log 41). -/
def reportKey (s : State) (old : BitVec 128) (l r : Nat) : State :=
  let k := s.keys
  let n := keyNo l r
  let was := old.getLsbD n
  let is' := k.kmap.getLsbD n
  let ghosted := !k.cur.diodes && rectangle k.kmap l r
  let put (s : State) (ty : Nat) : State := keyPush s (keyEvent ty l r k.scanCnt)
  if is' && !was then
    if ghosted then
      put { s with keys := { k with amap := k.amap ||| keyBit n, ghost := true, ghostCnt := sat1 k.ghostCnt } } tAMBIGUOUS
    else put s (if 0 < k.boot then tHELD else tPRESS)
  else if was && !is' then put { s with keys := { k with amap := k.amap &&& ~~~ keyBit n } } tRELEASE
  else if k.amap.getLsbD n && !ghosted then put { s with keys := { k with amap := k.amap &&& ~~~ keyBit n } } tPRESS
  else s

/-- The sample of a whole key slot, and its reports in the order of the returns. DEDUCED (log 41). -/
def scanLine (s : State) (ret : Byte) : State :=
  let l := s.keys.line
  let old := s.keys.kmap
  let s := { s with keys := sampleLine s.keys l ret }
  (List.range (s.keys.cur.kins + 1)).foldl (fun s r => reportKey s old l r) s

/-- CNTCLR of the keys page clears the counters (R356). -/
def countersZero (k : Keys) : Keys := { k with ovfCnt := 0, logWrap := 0, ghostCnt := 0, clr := false }

/-- Settings take effect: keys that leave the scanned set lose their KMAP and AMAP bits and counts (R354). -/
def takeSettings (k : Keys) (set : KeySet) : Keys :=
  let both := scannedKeys set &&& scannedKeys k.cur
  { k with cur := set, kmap := k.kmap &&& both, amap := k.amap &&& both
           counts := k.counts.mapIdx (fun i n => if both.getLsbD i then n else 0) }

/-- The boot scan ends with its third full scan: the settings written during it take effect, with a CNTCLR that waited, and
scanning goes on where EN is 1 (R352, R354). -/
def bootScanEnds (k : Keys) (set : KeySet) : Keys :=
  let k := takeSettings { k with run := k.en } set
  if k.clr then countersZero k else k

/-- R342, R352: the next line; the line LINES ends a full scan, and the third full scan the boot scan.
DEDUCED (log 26). -/
def scanStep (s : State) : State :=
  let k := s.keys
  if k.cur.lines ≤ k.line then
    let k' := { k with line := 0, scanCnt := k.scanCnt + 1, boot := k.boot - 1 }
    { s with keys := if k.boot = 1 then bootScanEnds k' (keySettings s) else k' }
  else { s with keys := { k with line := k.line + 1 } }

/-- What stands now, kept for R359. -/
def keysStand (s : State) : KeysWas :=
  let k := s.keys
  { set := keySettings s, en := k.en, run := k.run, due := k.due, line := k.line, counts := k.counts
    logEn := logEnabled s, ovfCnt := k.ovfCnt, logWrap := k.logWrap, ghostCnt := k.ghostCnt, cleared := false }

/-- A write of KCTL or of the keys page is captured: what stood before this CK_FRAME cycle is kept (R359). -/
def keepSettings (s : State) : State :=
  if s.keys.regAt = some s.now then s
  else { s with keys := { s.keys with regAt := some s.now, was := keysStand s } }

/-- Whether a Cellar address is a word of the keys page's settings (Table KEY-5). -/
def keysWord (a : Nat) : Bool := decide (0xCC00 ≤ a ∧ a ≤ 0xCC04)

/-- A keys-page word is captured (R359): it is remembered until it is stored. DEDUCED (log 20). -/
def keysCapture (s : State) (a : Nat) (v : Word) : State :=
  if keysWord a then
    let s := keepSettings s
    { s with keys := { s.keys with
        capt := s.keys.capt.filter (fun e => e.1 = s.now ∨ s.keys.scanAt = some e.1) ++ [(s.now, a, v)] } }
  else s

/-- What stood before this cycle, with a word that was captured before the cycle and is stored in it. -/
def wasWith (w : KeysWas) (a : Nat) (v : Word) : KeysWas :=
  match a with
  | 0xCC00 => { w with set := { w.set with klev := fld v 0 2 }, logEn := bit v 2 }
  | 0xCC02 => { w with set := { w.set with offper := v.toNat } }
  | _ => { w with set := { w.set with offlu := v.toNat } }

/-- CNTCLR clears the counters; during the boot scan it waits for its end (R352, R356). -/
def keyCountersClear (s : State) : State :=
  { s with keys := if 0 < s.keys.boot then { s.keys with clr := true } else countersZero s.keys }

/-- A keys-page word reaches the Cellar. Where it was captured in the CK_FRAME cycle in which the present full scan
began, its LOG_EN and its CNTCLR wait for the next one (R359); otherwise they take effect here (R356).
DEDUCED (log 20). -/
def keysStore (s : State) (a : Nat) (v stored : Word) : State :=
  let k := s.keys
  let mine := k.capt.contains (s.now, a, v)
  let late : Bool := match k.scanAt with | some c => k.capt.contains (c, a, v) | none => false
  let hold := logEnabled s
  let was := if k.regAt = some s.now ∧ !mine then wasWith k.was a v else k.was
  let from' := if late then k.scanAt.getD 0 else s.now
  let t := storeWord { s with keys := { k with capt := k.capt.erase (from', a, v), was := was } } a stored
  if a = 0xCC00 then
    if late ∧ k.boot = 0 then
      { t with keys := { t.keys with logHold := some hold, clr := t.keys.clr || bit v 3 } }
    else
      let t := { t with keys := { t.keys with logHold := none } }
      if bit v 3 then
        keyCountersClear { t with keys := { t.keys with was := { t.keys.was with cleared := t.keys.was.cleared || mine } } }
      else t
  else t

/-- R359: the first key slot of a full scan begins in the CK_FRAME cycle in which writes were captured: what they
changed at once is put back, and waits for the full scan after it. -/
def writesWait (s : State) : State :=
  let k := s.keys
  let w := k.was
  let back (n old : Nat) : Nat := if w.cleared then min 0xFFFF (n + old) else n
  { s with keys := { k with
      en := w.en, run := w.run, due := w.due, line := w.line, counts := w.counts
      enNext := if k.en = w.en then k.enNext else some k.en
      logHold := if logEnabled s = w.logEn then k.logHold else some w.logEn
      ovfCnt := back k.ovfCnt w.ovfCnt, logWrap := back k.logWrap w.logWrap, ghostCnt := back k.ghostCnt w.ghostCnt
      clr := k.clr || w.cleared } }

/-- A full scan is to start: what the writes of the cycle in which the one before it began had left waiting takes
effect (R359). -/
def waitsEnd (s : State) : State :=
  let k := s.keys
  let k := if k.clr then countersZero k else k
  let k := { k with en := k.enNext.getD k.en, enNext := none, logHold := none }
  { s with keys := if k.en then k else { k with run := false, due := false, counts := Vector.replicate 128 0 } }

/-- What the beginning of a key slot meets (R359): the first one of a full scan, outside the boot scan, ends the waits
of the full scan before it, and makes the writes of its own CK_FRAME cycle wait. -/
def slotMeets (s : State) : State :=
  let k := s.keys
  if k.boot = 0 ∧ k.regAt = some s.now ∧ k.was.line = 0 ∧ k.was.en then writesWait (waitsEnd s)
  else if k.boot = 0 ∧ k.line = 0 then waitsEnd s
  else s

/-- A full scan starts: the settings written since take effect (R185, R356), but those written in this CK_FRAME cycle
wait for the next full scan (R359). The boot scan keeps the reset settings (R352). A full scan whose first key slot is cut starts with the slot that
repeats its line, which takes the settings anew. DESIGN CHOICE (log 24). -/
def loadScan (s : State) : State :=
  let k := s.keys
  if k.line = 0 ∧ k.boot = 0 then
    let cur := if k.regAt = some s.now then k.was.set else keySettings s
    { s with keys := { takeSettings k cur with regAt := none, scanAt := some s.now } }
  else s

/-- The key part that the ledger books for this key slot (R247, R282, R339): in states 3 to 5 the end of the slot's
record, K cycles of which `cycles` were applied; in state 0 a record of its own. -/
def bookKey (s : State) (K cycles : Nat) : State :=
  let x := s.bankA
  let part (r : SlotRec) : SlotRec :=
    { r with cycles := r.cycles - K, keyLine := s.keys.line, keyLevel := keyLevel s, keyCycles := cycles }
  if driven x.drv then
    setLed s .bankA { x.led with
      recs := x.led.recs.mapIdx (fun i r => if i + 1 = x.led.recs.length then part r else r) }
  else
    setLed s .bankA { x.led with recs := x.led.recs ++ [part { blankRec s .bankA 0 with driven := false, cycles := 0 }] }

/-- Scanning has begun, and the common slot's key slot is done. DEDUCED (log 24). -/
def keySlotOver (s : State) : State := { s with keys := { s.keys with due := false } }

/-- Whether a key slot of the Trellis can begin: once in a common slot of bank A in states 3 to 5, and at any time in
state 0, while it scans (R247, R341). -/
def slotBegins (s : State) : Bool :=
  slotsRun s && scanning s.keys && ((driven s.bankA.drv && s.keys.due) || s.bankA.drv.sta == .off)

/-- The state in which a key slot runs once it has begun: its full scan's settings taken. -/
def slotBegun (s : State) : State :=
  let s := slotMeets s
  loadScan { s with keys := { s.keys with run := true } }

/-- A key slot that has begun, to its end with its sample, or cut after some cycles (R344), in which case the sample is
discarded and the same line comes next. In state 0 a pass begins at the end of every full scan (R283). -/
def keySlotRuns (s : State) (ret : Byte) (cut : Option Nat) : State :=
  let K := keyCycles s.keys.cur.kslot
  match cut with
  | some n => keySlotOver (bookKey s K (min n K))
  | none =>
    let t := scanLine (bookKey s K K) ret
    let last := decide (t.keys.cur.lines ≤ t.keys.line)
    keySlotOver (scanStep (if last && !driven t.bankA.drv then passBegins t .bankA false else t))

/-- KEY_SLOT: one key slot; where the waits that end with it (R359) stop the scan, none runs. DESIGN CHOICE (log 53).
DEDUCED (log 24). -/
def keySlotRun (s : State) (ret : Byte) (cut : Option Nat) : State :=
  if slotBegins (slotMeets s) then keySlotRuns (slotBegun s) ret cut
  else if slotBegins s then slotMeets s
  else s

/-- The oldest queued log entry is written as two whole ECC words (Table KEY-4). -/
def logServed (s : State) (e : KeyLog) (rest : List KeyLog) : State :=
  let i := e.seq.toNat % 1024
  let again := s.keys.logged.testBit i
  let v := e.event.toNat + 2 ^ 16 * e.seq.toNat + 2 ^ 32 * e.scan.toNat + 2 ^ 48 * (e.sub.toNat % 0x8000)
    + 2 ^ 64 * e.secL.toNat + 2 ^ 80 * e.secH.toNat + 2 ^ 96 * e.sta
  let s := { s with keys := { s.keys with logQ := rest, logged := s.keys.logged ||| 2 ^ i
                                          logWrap := if again then sat1 s.keys.logWrap else s.keys.logWrap } }
  storeEcc (grantLow s 5 1) (0x30000 + 16 * i) 2 v

/-- KEY_LOG_WRITE (R351): the oldest queued entry is written in one L5 burst, where the arbiter grants it (R224). -/
def keyLogWrites (s : State) : State :=
  match s.keys.logQ with
  | [] => s
  | e :: rest => if domains s then granted s (.low 5) (fun s => logServed s e rest) else s

/-! ### Registers -/

/-- KCTL's EN takes effect: clearing it discards the counts, setting it starts a new full scan at line 0, at the next
common slot where bank A is driven (R185, R353). DEDUCED (log 21). -/
def keysEnable (k : Keys) (en : Bool) : Keys :=
  let changed := decide (en ≠ k.en ∧ k.boot = 0)
  { k with en := en, enNext := none, line := if changed && en then 0 else k.line
           run := k.run && !changed, due := k.due && !changed
           counts := if changed then Vector.replicate 128 0 else k.counts }

/-- R185, R353: KCTL. During the boot scan a write waits for its end (R352), and one captured in the CK_FRAME cycle in
which the present full scan began waits for the next full scan (R359). DEDUCED (log 24). DEDUCED (log 21). -/
def kctlWrite (s : State) (p : Port) (v : Word) : State :=
  let deb := fld v 4 4
  if deb < 2 ∨ 8 < deb then refuse s p eRANGE 0x2A
  else
    let s := keepSettings s
    let k : Keys := { s.keys with reg := { s.keys.reg with
      diodes := bit v 1, kslot := fld v 2 2, deb := deb, lines := fld v 8 4, kins := fld v 12 3 } }
    if k.scanAt = some s.now ∧ k.boot = 0 ∧ k.en then
      { s with keys := { k with enNext := if bit v 0 then none else some false } }
    else { s with keys := keysEnable k (bit v 0) }

/-- KCTL reads as written (R185). DEDUCED (log 21). -/
def kctlRead (s : State) : Word :=
  let k := s.keys
  wordOf (flag (k.enNext.getD k.en) 0 + flag k.reg.diodes 1 + 4 * k.reg.kslot + 16 * k.reg.deb + 256 * k.reg.lines
    + 4096 * k.reg.kins)

/-- R186: KSTAT. ACTIVE reads 1 from the instant at which scanning begins (R185, R352), also while key slots are held
off by states 1, 2, 6 and 7 of bank A (Table KEY-3), of which the spec says only "1 while scanning".
DEDUCED (log 21). -/
def kstatRead (s : State) : Word :=
  let act := s.keys.run && slotsRun s
  wordOf (s.keys.fifo.length + flag s.keys.ovf 5 + flag s.keys.ghost 6 + flag act 7
    + flag (act && s.bankA.drv.sta == .off) 8)

/-- A CK_FRAME edge: where key slots run on state-0 timing and the Trellis is to scan, a key period begins (R185, R343,
R352). DEDUCED (log 21). -/
def scanEdge (s : State) : State :=
  if scanning s.keys ∧ slotsRun s ∧ s.bankA.drv.sta = .off then { s with keys := { s.keys with run := true } } else s

/-- KSTAT's W1C flags. -/
def kstatWrite (s : State) (v : Word) : State :=
  { s with keys := { s.keys with ovf := s.keys.ovf && !bit v 5, ghost := s.keys.ghost && !bit v 6 } }

/-- R187, R350: a read of KEVT takes the oldest event; the marker's removal latches SEQNEXT in OVFEND. -/
def kevtReadOp (s : State) : Word × State :=
  match s.keys.fifo with
  | [] => (0, s)
  | e :: rest =>
    (e, { s with keys := { s.keys with
            fifo := rest, ovfEnd := if keyType e = tMARKER then s.keys.seqNext else s.keys.ovfEnd } })

/-! ### The commands -/

/-- KCTL_WRITE (R185). -/
def execKctlWrite (p : Port) (v : Word) (s : State) : Host.Outcome State Fault Refusal :=
  .next (gate s p 0x15 v (fun s w => kctlWrite s p w))

/-- KEY_SLOT (R247, R341). -/
def execKeySlot (returns : Byte) (cut : Option Nat) (s : State) : Host.Outcome State Fault Refusal :=
  .next (keySlotRun s returns cut)

/-- KEVT_READ (R187). -/
def execKevtRead (p : Port) (s : State) : Host.Outcome State Fault Refusal := .next (readGate s p 0x17 kevtReadOp)

/-- KEY_LOG_WRITE (R351). -/
def execKeyLogWrite (s : State) : Host.Outcome State Fault Refusal := .next (keyLogWrites s)

end Sys2Proof.Machine
end

