-- ==== Sys2Proof/Machine/PageOps.lean ====
section
/-! DEFINITION. The Parameter cask as the window reaches it (R209 to R216): what a page word reads as, the checks a window
write meets at its capture, and what a stored page word sets off. -/

namespace Sys2Proof.Machine

open Sys2Proof

/-! ### RO fields, page by page -/

def lo16 (v : BitVec 32) : Word := v.truncate 16
def hi16 (v : BitVec 32) : Word := (v >>> 16).truncate 16

/-- Two bytes of two's complement codes. -/
def bytePair (lo hi : Int) : Word := wordOf ((lo % 256).toNat + 256 * (hi % 256).toNat)

/-- Table DRV-6. -/
def roDrive (s : State) (o : Nat) : Word :=
  let x := getBank s (Bank.ofBit (decide (0x40 ≤ o)))
  match o % 0x40 with
  | 0x10 => bytePair x.trim.now (trimEff x.trim)
  | 0x12 => wordOf x.drv.vlostCnt
  | 0x14 => wordOf x.drv.novlcdCnt
  | 0x16 => wordOf x.drv.fcnt
  | _ => 0

/-- Table BAL-5. -/
def roBalance (s : State) (o : Nat) : Word :=
  let l := (getBank s (Bank.ofBit (decide (0x20 ≤ o)))).led
  match o % 0x20 with
  | 0x06 => wordOf l.peak
  | 0x08 => wordOf l.peakAddr
  | 0x0A => wordOf l.invCnt
  | 0x0C => wordOf (l.settleLast % 16 + flag l.capped 4 + flag l.skipped 5)
  | 0x0E => wordOf l.capCnt
  | 0x10 => wordOf l.satCnt
  | 0x12 => wordOf l.rstCnt
  | 0x14 => wordOf l.passCnt
  | _ => 0

/-- The counters of a layer (Table LAY-4). -/
def roLayer (y : LayerSt) (k : Nat) : Word :=
  match k with
  | 0 => y.vint
  | 1 => wordOf y.lateCnt
  | 2 => wordOf y.superCnt
  | _ => wordOf y.coalCnt

/-- LIVESEL of a bank. -/
def liveSel (x : BankSt) : Word :=
  wordOf ((List.range 5).foldl (fun n l => n + flag (getLayer x l).live2 l) 0)

/-- The thread's RO words. -/
def roThread (t : Thread) (k : Nat) : Word :=
  match k with
  | 0x6 => t.pc.truncate 16
  | 0x8 => wordOf (t.pc.toNat / 0x10000)
  | 0xA => wordOf (t.stat + 4 * t.fcode + flag t.unk 5)
  | 0xC => wordOf (vget t.barK 0 + 256 * vget t.barK 1)
  | 0xE => wordOf (vget t.barK 2 + 256 * vget t.barK 3)
  | _ => 0

/-- Table LAY-4. -/
def roLayers (s : State) (o : Nat) : Word :=
  if o < 0x50 then
    roLayer (getLayer (getBank s (Bank.ofBit (decide (0x28 ≤ o)))) (o / 8 % 5)) (o % 8 / 2)
  else if o = 0x50 then liveSel s.bankA
  else if o = 0x52 then liveSel s.bankB
  else if 0x80 ≤ o ∧ o < 0xA0 then roThread (getBank s (Bank.ofBit (decide (0x90 ≤ o)))).thr (o % 0x10)
  else if 0xA0 ≤ o ∧ o < 0xC0 then
    (if o % 8 = 4 then wordOf (flag (vget s.disp.rlock ((o - 0xA0) / 8)) 0) else 0)
  else if 0x200 ≤ o then readWord s (0xC800 + o)
  else 0

/-- Table KEY-5. -/
def roKeys (s : State) (o : Nat) : Word :=
  let k := s.keys
  match o with
  | 0x06 => k.scanCnt
  | 0x08 => k.seqNext
  | 0x0A => k.ovfSeq
  | 0x0C => k.ovfEnd
  | 0x0E => wordOf k.ovfCnt
  | 0x10 => wordOf k.logWrap
  | 0x12 => wordOf k.ghostCnt
  | _ =>
    if 0x20 ≤ o ∧ o < 0x30 then (k.kmap >>> (8 * (o - 0x20))).truncate 16
    else if 0x30 ≤ o ∧ o < 0x40 then (k.amap >>> (8 * (o - 0x30))).truncate 16
    else 0

/-- Table LMP-7. -/
def roLamps (s : State) (o : Nat) : Word :=
  if o < 0x80 then
    let c := vget s.lamps.ch (o / 0x10)
    match o % 0x10 with
    | 0x8 => wordOf (256 * (c.derlvl % 4) + flag c.senseless 10)
    | 0xA => wordOf (c.rleft % 16)
    | 0xC => wordOf c.fltCnt
    | 0xE => c.iOn
    | _ => 0
  else if 0x100 ≤ o ∧ o < 0x120 then
    let c := vget s.lamps.cl ((o - 0x100) / 0x10)
    match o % 0x10 with
    | 0x6 => wordOfInt (roundOpen c.b mJ)
    | 0x8 => wordOf c.derCnt
    | 0xA => c.tCl
    | _ => 0
  else
    match o with
    | 0x144 => wordOf (flag s.lamps.flOut 0 + flag s.lamps.bout 1)
    | 0x160 => s.lamps.ttClaim.zeroExtend 16
    | 0x162 => s.lamps.ttMode
    | 0x164 => s.lamps.ttFb
    | _ => 0

/-- The raw words V_RAW_H, I_RAW and T_RAW that a port reads (R415). -/
def rawWords (s : State) (p : Port) : BitVec 32 × BitVec 32 × BitVec 32 :=
  match (getPort s p).rawSnap with
  | some r => r
  | none => (s.batA.rawV, s.batA.rawI, s.batA.rawT)

/-- FCC, SOH, R0_SCALE, ECYC and SNAPREP as they stand at an update (R445). -/
def socNow (e : Est) : Word × Word × Word × Word × Word :=
  (wordOf e.fcc, wordOf e.soh, wordOf e.r0s, wordOf e.ecyc, bsoc e)

/-- The words a port reads for them: its snapshot, or the present values with SNAPREP 0xFFFF before the first. -/
def socWords (s : State) (p : Port) : Word × Word × Word × Word × Word :=
  match (getPort s p).socSnap with
  | some r => r
  | none => (wordOf s.estA.fcc, wordOf s.estA.soh, wordOf s.estA.r0s, wordOf s.estA.ecyc, 0xFFFF)

/-- Tables BAT-5 and SOC-6. -/
def roBatA (s : State) (p : Port) (o : Nat) : Word :=
  let a := s.batA
  let e := s.estA
  let r := rawWords s p
  let q := socWords s p
  match o with
  | 0x16 => wordOf (flag a.htrigd 14)
  | 0x1A => wordOf a.hwp
  | 0x1C => a.hwrapCnt
  | 0x1E => wordOf a.hepoch
  | 0x20 => lo16 a.rawV
  | 0x22 => hi16 r.1
  | 0x24 => lo16 r.2.1
  | 0x26 => hi16 r.2.1
  | 0x28 => lo16 r.2.2
  | 0x2A => hi16 r.2.2
  | 0x2C => lo16 a.anchorTs
  | 0x2E => hi16 a.anchorTs
  | 0x30 => lo16 a.anchorSec
  | 0x32 => hi16 a.anchorSec
  | 0x34 => a.anchorSub
  | 0x36 => wordOf (2 * a.mstat + flag a.mbusy 4)
  | 0x38 => wordOf a.orCnt
  | 0x48 => intSocWord e
  | 0x4A => q.1
  | 0x4C => q.2.1
  | 0x4E => q.2.2.1
  | 0x50 => q.2.2.2.1
  | 0x52 => wordOf (min 0xFFFF e.restS)
  | 0x54 => wordOf (e.src + flag e.degr 3 + flag e.learned 4)
  | 0x56 => wordOf e.corrCnt
  | 0x5A => q.2.2.2.2
  | _ => 0

/-- Tables BAT-6 and SOC-7. -/
def roBatB (s : State) (o : Nat) : Word :=
  let b := s.batB
  let e := s.estB
  match o with
  | 0x04 => wordOf b.bvb
  | 0x06 => wordOf b.bvbMin
  | 0x0A => wordOf (2 * b.mstat + flag b.mbusy 4)
  | 0x0C => b.raw.zeroExtend 16
  | 0x2A => intSocWord e
  | 0x2C => fracWord e.v1 1
  | 0x2E => fracWord e.ib 10
  | 0x30 => wordOf b.crkCnt
  | 0x32 => wordOf b.crkMin
  | 0x34 => wordOf b.crkDur
  | 0x36 => wordOf e.src
  | _ => 0

/-- Table PAK-4. -/
def roPack (s : State) (o : Nat) : Word :=
  let k := s.pack
  match o with
  | 0x0A => lo16 k.pid
  | 0x0C => hi16 k.pid
  | 0x0E => wordOf (flag k.pidv 0 + flag k.line 1 + 4 * (k.candN % 8))
  | 0x10 => k.goodCnt
  | 0x12 => wordOf k.crcCnt
  | 0x14 => wordOf k.shortCnt
  | 0x16 => wordOf k.longCnt
  | 0x18 => wordOf k.syncCnt
  | 0x1A => wordOf k.badRun
  | 0x1C => wordOf k.remCnt
  | 0x1E => wordOf k.swapCnt
  | _ =>
    if 0x40 ≤ o ∧ o < 0x60 then wordOfBytes (vget k.payload (o - 0x40)) (vget k.payload (o - 0x3F))
    else 0

/-- The claim field of the security page (R481). -/
def claimCode : Option Port → Nat
  | none => 0
  | some .portP => 1
  | some .portS => 2

/-- Table SEC-6. -/
def roSecurity (s : State) (o : Nat) : Word :=
  let a := s.auth
  match o with
  | 0x00 => s.nv.uid.truncate 16
  | 0x02 => (s.nv.uid >>> 16).truncate 16
  | 0x04 => (s.nv.uid >>> 32).truncate 16
  | 0x06 => (s.nv.uid >>> 48).truncate 16
  | 0x08 => lo16 (scnt s.nv)
  | 0x0A => hi16 (scnt s.nv)
  | 0x0C => lo16 s.nv.acc
  | 0x0E => hi16 s.nv.acc
  | 0x10 => slotId s.nv.kApp
  | 0x12 => slotId s.nv.kSup
  | 0x14 => wordOf (a.badRun % 16 + 16 * (a.lockLvl % 8) + 256 * claimCode a.claim + flag a.cfgLock 10 + flag a.dbgBs 11
      + flag a.dbgTest 12 + flag (worn s.nv) 13 + flag (slotFailed s.nv.kApp) 14 + flag (slotFailed s.nv.kSup) 15)
  | 0x16 => wordOf (lockRem s)
  | 0x18 => wordOf a.tagFail
  | 0x1A => wordOf a.cntFail
  | 0x1C => a.lastCmd
  | _ => 0

/-- Table CEL-7. -/
def roArb (s : State) (o : Nat) : Word :=
  let a := s.arb
  match o with
  | 0x06 => wordOf a.ceCnt
  | 0x08 => wordOf a.ueCnt
  | 0x0A => a.lastCe.truncate 16
  | 0x0C => wordOf (a.lastCe.toNat / 0x10000 + flag a.cev 15)
  | 0x0E => wordOf a.passCnt
  | 0x10 => wordOf a.wbDrop
  | 0x12 => a.lastUe.truncate 16
  | 0x14 => wordOf (a.lastUe.toNat / 0x10000 + flag a.uev 15)
  | _ => 0

/-- Tables SUP-7 and DIA-3. -/
def roDiag (s : State) (o : Nat) : Word :=
  if o < 0x20 then
    match o with
    | 0x10 => wordOf (flag s.disp.twarnF 0 + flag s.bak.bkv 1)
    | 0x14 => lo16 s.bak.sec
    | 0x16 => hi16 s.bak.sec
    | _ => 0
  else if o < 0x40 then
    let c := (getBank s (Bank.ofBit (decide (0x30 ≤ o)))).crack
    match o % 0x10 with
    | 0x0 => wordOf c.loopR
    | 0x2 => wordOf c.trendR
    | 0x4 => wordOf c.base
    | 0xA => wordOf c.leakNa
    | 0xC => wordOf c.evt
    | _ => 0
  else 0

/-- The device-written bits of a page word, as a port reads them. -/
def pageRo (s : State) (p : Port) (a : Nat) : Word :=
  let o := a % 0x400
  match a / 0x400 with
  | 0x30 => if o < 0x80 then roDrive s o else 0
  | 0x31 => if o < 0x40 then roBalance s o else 0
  | 0x32 => roLayers s o
  | 0x33 => roKeys s o
  | 0x34 => roLamps s o
  | 0x35 => roBatA s p o
  | 0x36 => roBatB s o
  | 0x37 => roPack s o
  | 0x38 => roSecurity s o
  | 0x3A => roArb s o
  | 0x3B => roDiag s o
  | _ => 0

/-- R213, R214: a page word as a window read returns it. DEDUCED (log 20). -/
def pageRead (s : State) (p : Port) (a : Nat) : Word :=
  (pg s a &&& wordOf (pageWord a).stored) ||| pageRo s p a

/-- The address of V_RAW_L, whose read takes the snapshot of R415. -/
abbrev aVRAW : Nat := 0xD420
/-- The address of INTSOC, whose read takes the snapshot of R445. -/
abbrev aINTSOC : Nat := 0xD448

/-- R415: the snapshot of the raw codes for the reading port. DEDUCED (log 20). -/
def takeRaw (s : State) (p : Port) : State :=
  setPort s p { getPort s p with rawSnap := some (s.batA.rawV, s.batA.rawI, s.batA.rawT) }

/-- R445: the snapshot of the estimator fields for the reading port. DEDUCED (log 20). -/
def takeSoc (s : State) (p : Port) : State :=
  setPort s p { getPort s p with socSnap := some (socNow s.estA) }

/-- One word that a window load reads, and what the read leaves (R211, R214, R219 to R221, R415, R445).
DEDUCED (log 20). -/
def winRead (s : State) (p : Port) (a : Nat) : Word × State :=
  if noSram a then (0, s)
  else if isPage a then
    (pageRead s p a, if a = aVRAW then takeRaw s p else if a = aINTSOC then takeSoc s p else s)
  else (readWord s a, eccRead s (eccWord a))

/-! ### The checks of a window write at its capture (R110, R578) -/

/-- lo ≤ n ≤ hi. -/
def within (lo hi n : Nat) : Bool := decide (lo ≤ n) && decide (n ≤ hi)

/-- lo ≤ v ≤ hi as a two's complement word. -/
def withinInt (lo hi : Int) (v : Word) : Bool := decide (lo ≤ v.toInt) && decide (v.toInt ≤ hi)

/-- R268. -/
def okDrive (o : Nat) (v : Word) : Bool :=
  match o % 0x40 with
  | 0x00 => within 32 256 v.toNat
  | 0x02 => within 2 8 (fld v 0 4) && within 1 10 (fld v 4 4)
  | 0x04 => within 1 255 (fld v 0 8) && within 24 96 (fld v 8 8)
  | 0x06 => within 1 100 (fld v 0 8) && within 1 8 (fld v 8 4)
  | _ => true

/-- R297. -/
def okBalance (o : Nat) (v : Word) : Bool :=
  match o % 0x20 with
  | 0x00 => within 1 8 (fld v 0 4)
  | 0x02 => within 1 60 v.toNat
  | _ => true

/-- R330. -/
def okLayers (s : State) (o : Nat) (v : Word) : Bool :=
  if 0x60 ≤ o ∧ o < 0x78 then
    match (o - 0x60) % 6 with
    | 0 => within 100 2000 v.toNat && decide ((pg s (0xC800 + o + 4)).toNat < v.toNat)
    | 2 => within 1 99 v.toNat
    | _ => decide (v.toNat < (pg s (0xC800 + o - 4)).toNat)
  else if o = 0x82 ∨ o = 0x92 then fld v 0 3 == 0
  else if 0xA0 ≤ o ∧ o < 0xC0 then
    match o % 8 with
    | 0 => decide (fld v 0 4 ≤ fld v 4 4)
    | 2 => decide (fld v 0 7 ≤ fld v 8 7)
    | _ => true
  else true

/-- R356. -/
def okKeys (o : Nat) (v : Word) : Bool :=
  match o with
  | 0x00 => fld v 0 2 != 3
  | 0x02 => within 16 4095 v.toNat
  | 0x04 => within 1 60 v.toNat
  | _ => true

/-- Table LMP-8. -/
def okLamps (o : Nat) (v : Word) : Bool :=
  if o < 0x80 then
    match o % 0x10 with
    | 0x0 => within 4 32 (fld v 0 6) && within 5 100 (fld v 8 7)
    | 0x2 => within 80 150 (fld v 0 8)
    | 0x4 => within 100 20000 v.toNat
    | 0x6 => within 1 100 (fld v 0 7) && within 5 200 (fld v 8 8)
    | 0x8 => within 0 150 (fld v 0 8)
    | _ => true
  else if o < 0x100 then true
  else if o < 0x120 then
    match o % 0x10 with
    | 0x0 => within 100 4000 v.toNat
    | 0x2 => within 10 2000 v.toNat
    | 0x4 => within 80 140 (fld v 0 8)
    | _ => true
  else
    match o with
    | 0x140 => within 300 2000 v.toNat
    | 0x142 => within 20 80 (fld v 0 8)
    | 0x150 => within 2 50 (fld v 0 8) && within 2 50 (fld v 8 8)
    | 0x152 => within 5 200 v.toNat
    | 0x154 => within 1 16 (fld v 4 5)
    | _ => true

/-- R414, R444, channel A. -/
def okBatA (o : Nat) (v : Word) : Bool :=
  match o with
  | 0x00 => within 256 65535 v.toNat
  | 0x02 => within 100 50000 v.toNat
  | 0x04 | 0x08 => within 0x7333 0x8CCD v.toNat
  | 0x06 => withinInt (-10000) 10000 v
  | 0x0A => withinInt (-5000) 5000 v
  | 0x0C => within 100 10000 v.toNat
  | 0x0E => within 2000 6000 v.toNat
  | 0x10 => withinInt (-500) 500 v
  | 0x12 => within 4 40000 v.toNat
  | 0x14 => within 5 2000 v.toNat
  | 0x18 => within 0 32767 v.toNat
  | 0x40 => within 60 7200 v.toNat
  | 0x42 => within 900 1000 v.toNat
  | 0x44 => within 0 10000 v.toNat
  | _ => true

/-- R414, R444, channel B. -/
def okBatB (o : Nat) (v : Word) : Bool :=
  match o with
  | 0x00 => within 0x7333 0x8CCD v.toNat
  | 0x02 => withinInt (-500) 500 v
  | 0x20 => within 5 2000 v.toNat
  | 0x22 => within 10 2000 v.toNat
  | 0x24 => within 20 800 v.toNat
  | 0x26 => within 2 200 v.toNat
  | 0x28 => within 10 1000 v.toNat
  | _ => true

/-- R470. -/
def okPack (s : State) (o : Nat) (v : Word) : Bool :=
  match o with
  | 0x00 => within 8 32 (fld v 0 6) && decide (pgf s 0xDC02 0 5 + pgf s 0xDC02 8 6 ≤ fld v 0 6)
  | 0x02 => within 0 28 (fld v 0 5) && within 4 32 (fld v 8 6) && decide (fld v 0 5 + fld v 8 6 ≤ pgf s 0xDC00 0 6)
  | 0x04 => within 1 4 (fld v 0 3) && within 1 7 (fld v 4 3) && decide (fld v 0 3 ≤ fld v 4 3)
  | 0x06 => within 10 1000 v.toNat
  | 0x08 => within 10 1000 v.toNat
  | _ => true

/-- R50, R84, R524. -/
def okPower (o : Nat) (v : Word) : Bool :=
  match o with
  | 0x02 => within 10 500 v.toNat
  | 0x08 => within 1 100 v.toNat
  | 0x0A => within 1 500 v.toNat
  | _ => true

/-- R228: the five shares that two words of the arbitration page hold. -/
def sharesOk (w0 w2 : Word) : Bool :=
  let l := [fld w0 0 4, fld w0 4 4, fld w0 8 4, fld w0 12 4, fld w2 0 4]
  l.all (fun n => decide (0 < n)) && decide (l.sum ≤ 25)

/-- R228, R231: the shares are judged against the words in force, not against one that waits in a buffer.
DESIGN CHOICE (log 20). -/
def okArb (s : State) (o : Nat) (v : Word) : Bool :=
  match o with
  | 0x00 => sharesOk v (pg s 0xE802)
  | 0x02 => sharesOk (pg s 0xE800) v
  | 0x04 => within 1 1024 v.toNat
  | _ => true

/-- R158, R523. -/
def okDiag (s : State) (o : Nat) (v : Word) : Bool :=
  if o < 0x20 then
    match o with
    | 0x02 => within 10 1000 v.toNat && ((pg s 0xEC04) == 0 || decide ((pg s 0xEC04).toNat < v.toNat))
    | 0x04 => v == 0 || decide (v.toNat < (pg s 0xEC02).toNat)
    | 0x08 => withinInt (-255) 255 v
    | 0x0C => within 60 140 v.toNat
    | 0x0E => within 80 150 v.toNat
    | 0x12 => within 1 50 v.toNat
    | _ => true
  else if o < 0x40 then
    match o % 0x10 with
    | 0x6 => v == 0 || within 50 500 v.toNat
    | 0x8 => within 10 100 (fld v 8 8) && !(bit v 0 && pg s (0xEC00 + o - 2) == 0)
    | _ => true
  else true

/-- Whether every field of a page word is within its range. -/
def pageInRange (s : State) (a : Nat) (v : Word) : Bool :=
  let o := a % 0x400
  match a / 0x400 with
  | 0x30 => if o < 0x80 then okDrive o v else true
  | 0x31 => if o < 0x40 then okBalance o v else true
  | 0x32 => okLayers s o v
  | 0x33 => okKeys o v
  | 0x34 => okLamps o v
  | 0x35 => okBatA o v
  | 0x36 => okBatB o v
  | 0x37 => okPack s o v
  | 0x39 => okPower o v
  | 0x3A => okArb s o v
  | 0x3B => okDiag s o v
  | _ => true

/-- Whether an address lies in a Decanter (R305): buffer 0 of a layer. -/
def isDecanter (a : Nat) : Bool := decide (a < 0x2000 ∧ a % 0x1000 < 0xF00 ∧ a % 0x1000 % 0x300 < 0x100)

/-- Whether Tables CEL-1 and CEL-2 give an address a host write (R210, R215). DEDUCED (log 20). -/
def hostWrites (a : Nat) : Bool :=
  isDecanter a || (isPage a && !(decide (0xE000 ≤ a ∧ a < 0xE400)))
    || decide (0x10000 ≤ a ∧ a < 0x30000) || decide (0x34000 ≤ a ∧ a < 0x35000) || decide (0x40000 ≤ a ∧ a < 0x80000)

/-- OWNER (R26, R157, R385): the Tell-tale Decanters, the port fields of the diagnostics page and the block of a claimed
lamp belong to the Supervisor. The reserved word 0x0_EC06 among those fields is not counted as one of them.
DESIGN CHOICE (log 20). -/
def winOwner (s : State) (p : Port) (a : Nat) : Bool :=
  !isSup s p &&
    ((isDecanter a && decide (0xC00 ≤ a % 0x1000)) || a == 0xEC00 || a == 0xEC02 || a == 0xEC04
      || (decide (0xD000 ≤ a ∧ a < 0xD080) && s.lamps.ttClaim.getLsbD ((a - 0xD000) / 0x10)))

/-- R8, R213: the write would change an LW field, or put a non-zero value into a reserved bit. -/
def lwChange (s : State) (a : Nat) (v : Word) : Bool :=
  let w := pageWord a
  let now := pg s a &&& wordOf w.stored
  (v &&& wordOf w.lw) != (now &&& wordOf w.lw) || (v &&& wordOf w.rsv) != 0

/-- LOCKED (R8, R323). -/
def winLocked (s : State) (a : Nat) (v : Word) : Bool :=
  decanterLocked s a || (isPage a && lwLocked s && lwChange s a v)

/-- STATE (R212, R296, R412). -/
def winState (s : State) (a : Nat) (v : Word) : Bool :=
  (decide (0x34000 ≤ a ∧ a < 0x35000) && authState s == 2)
    || (a == 0xC404 && bit v 0 && s.bankA.drv.sta != .off) || (a == 0xC424 && bit v 0 && s.bankB.drv.sta != .off)
    || (a == 0xD436 && bit v 0 && modelBusy s .chA) || (a == 0xD80A && bit v 0 && modelBusy s .chB)

/-- The refusal that a window write meets at its capture, in the order of R578. DEDUCED (log 48). DEDUCED (log 50). -/
def winError (s : State) (p : Port) (a : Nat) (v : Word) : Option Byte :=
  if s.pw.mode = .corkEntry then some eSTATE
  else if winOwner s p a then some eOWNER
  else if winLocked s a v then some eLOCKED
  else if !hostWrites a || (isPage a && !pageInRange s a v) then some eRANGE
  else if winState s a v then some eSTATE
  else none

/-! ### What a stored page word sets off (R214) -/

/-- R296, R303: LCLR acts, behind a running pass. -/
def ledgerClear (s : State) (b : Bank) : State :=
  if (getBank s b).led.passes.isEmpty then clearWords s b else setLed s b { (getBank s b).led with clr := true }

/-- R335, R580: EN written. Of several writes between two boundaries the last stands alone. DESIGN CHOICE (log 40). -/
def threadEn (s : State) (b : Bank) (v : Word) : State :=
  let t := (getBank s b).thr
  setThr s b { t with startReq := bit v 0, stopReq := !bit v 0 }

/-- R323, R324: a write of a region descriptor. -/
def regionWritten (s : State) (r o : Nat) (v : Word) : State :=
  if h : r < 4 then
    (if o = 0 ∨ o = 2 ∨ (o = 4 ∧ bit v 1) then lockRegion s ⟨r, h⟩ else s)
  else s

/-- R404. -/
def bvbMinClear (s : State) : State := { s with batB := { s.batB with bvbMin := 0xFFFF } }

/-- The action of a page word's write beyond the stored bits. -/
def pageAction (s : State) (a : Nat) (v : Word) : State :=
  match a with
  | 0xC404 => if bit v 0 then ledgerClear s .bankA else s
  | 0xC424 => if bit v 0 then ledgerClear s .bankB else s
  | 0xC880 => threadEn s .bankA v
  | 0xC890 => threadEn s .bankB v
  | 0xD416 => if bit v 15 then harvestRestart s else s
  | 0xD436 => if bit v 0 then modelLoads s .chA else s
  | 0xD808 => if bit v 0 then bvbMinClear s else s
  | 0xD80A => if bit v 0 then modelLoads s .chB else s
  | 0xDC20 => if bit v 0 then packCountersClear s else s
  | 0xE802 => if bit v 5 then eccCountersClear s else s
  | 0xEC02 => { s with roles := { s.roles with hbRef := s.now, hbMissed := false } }
  | 0xEC10 => if bit v 0 then { s with disp := { s.disp with twarnF := false } } else s
  | _ => if 0xC8A0 ≤ a ∧ a < 0xC8C0 then regionWritten s ((a - 0xC8A0) / 8) (a % 8) v else s

/-- A window write reaches the Cellar (R115, R214, R221): the word is stored, a page word only in the bits it holds, and
the unit that watches the address learns of it. CNTCLR of the arbitration page acts first: what the same write counts is
counted after the clear (R237). A word that is read-only throughout is not accessed, so no ECC word is read or written for
it (R221). DEDUCED (log 20). DESIGN CHOICE (log 20). -/
def winStore (s : State) (a : Nat) (v : Word) : State :=
  if isPage a then
    let w := pageWord a
    if w.stored = 0 ∧ w.ro = 0xFFFF then s
    else if a = 0xE802 then storeWord (pageAction s a v) a (v &&& wordOf w.stored)
    else if keysWord a then keysStore s a v (v &&& wordOf w.stored)
    else pageAction (storeWord s a (v &&& wordOf w.stored)) a v
  else mailboxTouched (modelTouched (storeWord (modelHeld s a) a v) a) a

/-! ### Rows that read a snapshot word

Each takes the snapshot and answers the word; the window address stands, no prefetch load is issued, and PFV and a Gen3 page
stay as they are. DESIGN CHOICE (log 20). -/

/-- RAW_SNAPSHOT_READ (R415): a window read of V_RAW_L, without a prefetch load. DESIGN CHOICE (log 20). -/
def execRawSnapshotRead (p : Port) (s : State) : Host.Outcome State Fault Refusal :=
  .next (readGate s p 0x0B (fun s => winRead s p aVRAW))

/-- SOC_SNAPSHOT_READ (R445): a window read of INTSOC, without a prefetch load. DESIGN CHOICE (log 20). -/
def execSocSnapshotRead (p : Port) (s : State) : Host.Outcome State Fault Refusal :=
  .next (readGate s p 0x0B (fun s => winRead s p aINTSOC))

end Sys2Proof.Machine
end

