-- ==== Sys2Proof/Machine/Window.lean ====
section
/-! DEFINITION. The window, the prefetch, the write buffer and WAIT# (R108 to R131), the register map (R164 to R206) and
the Port S frames (R132 to R141). -/

namespace Sys2Proof.Machine

open Sys2Proof

/-! ### The window address and the prefetch -/

/-- R121, R122: page loading is in force, on Port P in Gen3 with PAGE and AINC set. -/
def pageMode (s : State) (p : Port) : Bool :=
  p == .portP && s.pw.gen == .gen3 && s.portP.page && s.portP.ainc

/-- R109: the window address after a WDATA access. -/
def advanced (x : PortSt) : CAddr := if x.ainc then x.waddr + 2 else x.waddr

/-- R111: a load of the word or page at the present window address is issued behind the buffered writes. -/
def issueLoad (s : State) (p : Port) : State :=
  let x := getPort s p
  setPort s p { x with pre := [], follow := none, fresh := true
                       load := some { addr := x.waddr, behind := x.buf.length, page := pageMode s p, follow := false } }

/-- R109, R111: a WDATA write has been posted, refused or dropped: the address advances and a load is issued. -/
def afterWrite (s : State) (p : Port) : State :=
  issueLoad (setPort s p { getPort s p with waddr := advanced (getPort s p) }) p

/-- The address of the 8-byte block after the one that holds a. -/
def nextBlock (a : CAddr) : CAddr := BitVec.ofNat 20 ((a.toNat / 8 + 1) * 8)

/-- A WDATA read that finds its word valid (R109, R111, R121). -/
def serveRead (s : State) (p : Port) (w : Word) (rest : List Word) : Word × State :=
  let x := getPort s p
  let y := { x with waddr := advanced x }
  if pageMode s p then
    let y := if x.fresh then
        { y with fresh := false
                 load := some { addr := nextBlock x.waddr, behind := x.buf.length, page := true, follow := true } }
      else y
    match rest, y.follow with
    | [], some q => (w, setPort s p { y with pre := q, follow := none, fresh := true })
    | _, _ => (w, setPort s p { y with pre := rest })
  else (w, issueLoad (setPort s p y) p)

/-- R114, R120: a WDATA read whose word is not valid is refused. -/
def refuseRead (s : State) (p : Port) : Word × State := (0, refuse s p eSTATE 0x16)

/-- R119: whether WAIT# can hold an access of the port. -/
def waits (s : State) (p : Port) : Bool := p == .portP && s.pw.gen == .gen3

/-- A WDATA read: its data, `none` while WAIT# holds it, and the state it leaves. DEDUCED (log 37). -/
def wdataReadOp (s : State) (p : Port) : Option Word × State :=
  match (getPort s p).pre with
  | w :: rest => let r := serveRead s p w rest; (some r.1, r.2)
  | [] =>
    if waits s p then (none, setPort s p { getPort s p with held := .read })
    else let r := refuseRead s p; (some r.1, r.2)

/-! ### The write buffer -/

/-- R117: a write that finds the buffer full is dropped. -/
def dropWrite (s : State) (p : Port) (off : Nat) : State :=
  let x := getPort s p
  let s := setPort s p { x with wdrop := true, dropCnt := min 63 (x.dropCnt + 1) }
  if x.wdrop then s else recordInfo s eWDROP (some p) off

/-- An entry joins the buffer. -/
def pushEntry (s : State) (p : Port) (e : BufEntry) : State :=
  setPort s p { getPort s p with buf := (getPort s p).buf ++ [e] }

/-- What a write that needs an entry finds: a place, WAIT#, or a full buffer. -/
inductive Room where
  | free | hold | full
  deriving DecidableEq, Repr

def roomFor (s : State) (p : Port) : Room :=
  if (getPort s p).buf.length < 32 then .free else if waits s p then .hold else .full

/-- R110, R115, R117, R118: a window write at its capture. -/
def wdataWriteOp (s : State) (p : Port) (v : Word) : State :=
  let x := getPort s p
  match winError s p x.waddr.toNat v with
  | some e => afterWrite (refuseCell s p e x.waddr.toNat) p
  | none =>
    match roomFor s p with
    | .free => afterWrite (pushEntry (keysCapture s x.waddr.toNat v) p (.wdata x.waddr v)) p
    | .hold => setPort s p { x with held := .wdata v }
    | .full => afterWrite (dropWrite s p 0x16) p

/-- R122: a DCOMMIT, ATAG, WADDR or WCTL write invalidates the page and issues its load. DEDUCED (log 37). -/
def pageLost (s : State) (p : Port) : State := if pageMode s p then issueLoad s p else s

/-- R180, R100: a DCOMMIT at its capture. -/
def dcommitWrite (s : State) (p : Port) (v : Word) : State :=
  match commitRefusal s p v with
  | some e => pageLost (refuse s p e 0x20) p
  | none =>
    match roomFor s p with
    | .free => pageLost (pushEntry s p (.dcommit v)) p
    | .hold => setPort s p { getPort s p with held := .dcommit v }
    | .full => pageLost (dropWrite s p 0x20) p

/-- R197, R481: an ATAG word at its capture. DEDUCED (log 37). -/
def atagWrite (s : State) (p : Port) (v : Word) : State :=
  match authPortError s p with
  | some e => pageLost (refuse s p e 0x4A) p
  | none =>
    match roomFor s p with
    | .free => pageLost (pushEntry (authClaim s p) p (.atag v)) p
    | .hold => setPort s p { getPort s p with held := .atag v }
    | .full => pageLost (dropWrite s p 0x50) p

/-- R108: WADDR_L or WADDR_H. -/
def waddrWriteOp (s : State) (p : Port) (high : Bool) (v : Word) : State :=
  let x := getPort s p
  let a := if high then (v.truncate 4 : BitVec 4) ++ (x.waddr.truncate 16 : BitVec 16)
    else (x.waddr.extractLsb' 16 4) ++ (v &&& 0xFFFE)
  issueLoad (setPort s p { x with waddr := a }) p

/-- R125, R122, R127: WCTL. -/
def wctlWriteOp (s : State) (p : Port) (v : Word) : State :=
  let was := pageMode s p
  let x := getPort s p
  let s := setPort s p { x with ainc := bit v 0, page := bit v 1
                                wdrop := x.wdrop && !bit v 3, dropCnt := if bit v 3 then 0 else x.dropCnt }
  if was || pageMode s p then issueLoad s p else s

/-- WCTL as it reads (Table BUS-12). -/
def wctlRead (x : PortSt) : Word :=
  wordOf (flag x.ainc 0 + flag x.page 1 + flag (!x.pre.isEmpty) 2 + flag x.wdrop 3 + 16 * x.buf.length
    + 1024 * x.dropCnt)

/-! ### What the buffer and the prefetch do on their own -/

/-- A window write of a row that names its page word, once it has passed its checks, takes a place in the buffer.
DEDUCED (log 20). -/
def pagePost (s : State) (p : Port) (a : CAddr) (v : Word) : State :=
  match roomFor s p with
  | .free => pushEntry (keysCapture s a.toNat v) p (.wdata a v)
  | .hold => setPort s p { getPort s p with held := .page a v }
  | .full => dropWrite s p 0x16

/-- The access that WAIT# held is performed again once its condition may have ended (R118, R119). DEDUCED (log 37). -/
def resumeHeld (s : State) : State :=
  let h := s.portP.held
  let s' := { s with portP := { s.portP with held := .none } }
  match h with
  | .none => s
  | .read =>
    match wdataReadOp s' .portP with
    | (some w, t) => readDone t .portP 0x0B w
    | (none, t) => t
  | .wdata v => wdataWriteOp s' .portP v
  | .page a v =>
    match winError s' .portP a.toNat v with
    | some e => refuseCell s' .portP e a.toNat
    | none => pagePost s' .portP a v
  | .dcommit v => dcommitWrite s' .portP v
  | .atag v => atagWrite s' .portP v

/-- An entry leaves the buffer: what is left, and a load that waited behind it is one nearer.
DESIGN CHOICE (log 38). -/
def popEntry (s : State) (p : Port) (rest : List BufEntry) : State :=
  let x := getPort s p
  setPort s p { x with buf := rest, load := x.load.map (fun l => { l with behind := l.behind - 1 }) }

/-- The window write at the front reaches the Cellar, granted at L1 (R115, R126, R221). -/
def entryServed (s : State) (p : Port) (ups : List Upset) : State :=
  match (getPort s p).buf with
  | .wdata a v :: rest => winStore (grantL1 (upsets (popEntry s p rest) ups) p) a.toNat v
  | _ => s

/-- BUFFER_ENTRY_LEAVE: a window write leaves where the arbiter grants it (R224, R225). DESIGN CHOICE (log 38). -/
def entryLeaves (s : State) (p : Port) (ups : List Upset) : State :=
  match (getPort s p).buf with
  | .wdata _ _ :: _ =>
    if domains s then granted s (.window p) (fun s => resumeHeld (entryServed s p ups)) else s
  | _ => s

/-- The DCOMMIT at the front takes effect (R100, R310). -/
def commitServed (s : State) (p : Port) : State :=
  match (getPort s p).buf with
  | .dcommit v :: rest => commitEffect (popEntry s p rest) v
  | _ => s

/-- The DCOMMIT at the front of a port's buffer, where the clocks run. -/
def frontCommit (s : State) (p : Port) : Option Word :=
  match (getPort s p).buf with
  | .dcommit v :: _ => if domains s then some v else none
  | _ => none

/-- The entry at the front frees its place; its effect is still to come. -/
def frontFreed (s : State) (p : Port) : State := resumeHeld (popEntry s p (getPort s p).buf.tail)

/-- COMMIT_EFFECT. DESIGN CHOICE (log 38). -/
def commitLeaves (s : State) (p : Port) : State :=
  match (getPort s p).buf with
  | .dcommit _ :: _ => if domains s then resumeHeld (commitServed s p) else s
  | _ => s

/-- The tag word at the front takes effect (R100, R482). -/
def tagServed (s : State) (p : Port) (ups : List Upset) : State :=
  match (getPort s p).buf with
  | .atag v :: rest => tagWord (upsets (popEntry s p rest) ups) p v
  | _ => s

/-- TAG_WORD_EFFECT: a word that begins a message has the Mailbox read, where the arbiter grants its bursts at L3 (R13,
R224). DESIGN CHOICE (log 38). DESIGN CHOICE (log 49). -/
def tagLeaves (s : State) (p : Port) (ups : List Upset) : State :=
  let act (s : State) : State := resumeHeld (tagServed s p ups)
  match (getPort s p).buf with
  | .atag _ :: _ => if !domains s then s else if messageReq s p then granted s (.low 3) act else act s
  | _ => s

/-- The words a load reads: n words from a. -/
def loadWords (s : State) (p : Port) (a : Nat) : Nat → List Word × State
  | 0 => ([], s)
  | n + 1 =>
    let r := winRead s p a
    let q := loadWords r.2 p (a + 2) n
    (r.1 :: q.1, q.2)

/-- The words of a page of the Cellar, which is one ECC word: one read of it, one check (R121, R219). -/
def loadPage (s : State) (p : Port) (a n : Nat) : List Word × State :=
  if isPage a || noSram a then loadWords s p a n
  else ((List.range n).map (fun k => readWord s (a + 2 * k)), eccRead s (eccWord a))

/-- A load that waits behind no entry completes, granted at L1 (R111, R112, R121). -/
def loadServed (s : State) (p : Port) (l : Load) (ups : List Upset) : State :=
  let s := grantL1 (upsets s ups) p
  let a := l.addr.toNat
  let r := if l.page then loadPage s p a ((8 - a % 8) / 2) else loadWords s p a 1
  let x := getPort r.2 p
  let y := { x with load := none }
  setPort r.2 p (if l.follow ∧ !x.pre.isEmpty then { y with follow := some r.1 } else { y with pre := r.1, fresh := true })

/-- PREFETCH_LOAD_DONE: a load completes where the arbiter grants it, and a read that waits for it is served. Of the
loads of both ports Port S's goes first (R28, R130). DESIGN CHOICE (log 38). -/
def loadDone (s : State) (p : Port) (ups : List Upset) : State :=
  match (getPort s p).load with
  | none => s
  | some l =>
    if l.behind = 0 ∧ domains s then granted s (.window p) (fun s => resumeHeld (loadServed s p l ups)) else s

/-- A port's L1 request is served: the window write at the front of its buffer, else its load (R111, R115).
DESIGN CHOICE (log 49). -/
def windowServed (s : State) (p : Port) : State :=
  match (getPort s p).buf, (getPort s p).load with
  | .wdata _ _ :: _, _ => resumeHeld (entryServed s p [])
  | _, some l => resumeHeld (loadServed s p l [])
  | _, none => s

/-- The last burst of work of many bursts is granted: the work ends. DESIGN CHOICE (log 49). -/
def workEnds (s : State) : LongWork → State
  | .pass b => passEnds s b
  | .validation c => validated s c
  | .update => updateA s []

/-- A burst of the work of many bursts at a level: one ahead of the last, or the last, with which the work ends.
DESIGN CHOICE (log 49). -/
def longServed (s : State) (lvl : Nat) : State :=
  match longWork s lvl with
  | some w => if longReq s lvl then grantAhead s lvl else workEnds s w
  | none => s

/-- The burst of a level from 2 to 6 that goes next is served: at L3 the wipe of the Mailbox, then Port S's message ahead of
Port P's; at L4 a Harvest record; at L5 a Key-log entry, then bank A's thread ahead of bank B's; at L6 a write-back ahead of
the scrub; else, at L2 and L4, one of work of many bursts. DESIGN CHOICE (log 49). -/
def lowServed (s : State) (lvl : Nat) : State :=
  match lvl, s.batA.hQ, s.keys.logQ with
  | 3, _, _ =>
    if s.auth.wipe then wipeMailbox s
    else
      let p := if messageReq s .portS then Port.portS else .portP
      resumeHeld (tagServed s p [])
  | 4, r :: rest, _ => recordWritten s r rest
  | 5, _, e :: rest => logServed s e rest
  | 5, _, [] =>
    let b := if threadReq s .bankA then Bank.bankA else .bankB
    animInstr s b (animOp s b)
  | 6, _, _ => if s.arb.wbQ.isEmpty then scrubEight s [] else writebackServed s []
  | l, _, _ => longServed s l

/-- Everything that the arbiter grants before a request is served (R140, R224, R229); `n` bounds the grants.
DESIGN CHOICE (log 49). DEDUCED (log 58). -/
def servedFirst (own : Grant) : Nat → State → State
  | 0, s => s
  | n + 1, s =>
    match arbNow s own with
    | some (.window p) => if own = .window p then s else servedFirst own n (windowServed s p)
    | some (.low l) => if own = .low l then s else servedFirst own n (lowServed s l)
    | _ => s

/-- The state in which a request is granted after everything that goes before it. DESIGN CHOICE (log 49).
DEDUCED (log 58). -/
def arbWaits (s : State) (own : Grant) : State := servedFirst own 32 s

/-- R140: before a Port S frame is captured the entry of the frame before has left the buffer and its load is
complete, after all that the arbiter grants before them: a frame lasts longer (R229). `n` bounds the entries.
DEDUCED (log 58). -/
def portSReady : Nat → State → State
  | 0, s => s
  | n + 1, s =>
    match s.portS.buf with
    | .wdata _ _ :: _ => portSReady n (entryServed (arbWaits s (.window .portS)) .portS [])
    | .dcommit _ :: _ => portSReady n (commitServed s .portS)
    | .atag _ :: _ =>
      portSReady n (tagServed (if messageReq s .portS then arbWaits s (.low 3) else s) .portS [])
    | [] =>
      match s.portS.load with
      | some l => portSReady n (loadServed (arbWaits s (.window .portS)) .portS l [])
      | none => s

/-- The state in which a port's access is captured: on Port S as R140 has it. DEDUCED (log 58). -/
def captured (s : State) (p : Port) : State := if p = .portS ∧ active s then portSReady 34 s else s

/-- WAIT_TIMEOUT (R120): 250 ns have passed; the read is refused. -/
def waitTimeout (s : State) : State :=
  if s.portP.held = .read then
    let r := refuseRead { s with portP := { s.portP with held := .none } } .portP
    readDone r.2 .portP 0x0B r.1
  else s

/-! ### Rows that write one page field

Each is a window write to the field's word in which every other field keeps its value; the window's address stands. -/

/-- A page write of `set` over the present word of address a by a port: it is checked at its capture; behind an empty
buffer, and where the arbiter grants it, it reaches the Cellar at once, and otherwise it waits in the buffer behind
what was posted before it (R115, R412). The boot face discards it (R71). DEDUCED (log 20). It issues no prefetch load, and PFV
and a Gen3 page stay valid (R111, R122). DESIGN CHOICE (log 20). -/
def pageRow (s : State) (p : Port) (a : Nat) (set : Word → Word) : State :=
  if !portLive s p then s
  else if s.pw.face = .bootFace then bootFace s p 0x0B 0
  else
    let s := captured (gen1Ale s p (hiAddr 0x0B)) p
    let v := set (pg s a &&& wordOf (pageWord a).stored)
    match winError s p a v with
    | some e => refuseCell s p e a
    | none =>
      match (getPort s p).buf, arbServe s (.window p) with
      | [], some t => winStore (grantL1 (keysCapture t a v) p) a v
      | _, _ => pagePost s p (BitVec.ofNat 20 a) v

/-! ### The register map (Table REG-1) -/

/-- R48, R205: CLKSTAT's W1C bits. -/
def clkstatWrite (s : State) (v : Word) : State :=
  { s with clk := { s.clk with rootLoss := s.clk.rootLoss && !bit v 4, unlock := s.clk.unlock && !bit v 5
                               timeSub := s.clk.timeSub && !bit v 6 } }

/-- CLKSTAT as it reads (Table CLK-4). -/
def clkstatRead (s : State) : Word :=
  let c := s.clk
  wordOf (flag c.src 0 + flag c.rootOk 1 + flag c.pllLock 2 + flag c.hold 3 + flag c.rootLoss 4 + flag c.unlock 5
    + flag c.timeSub 6 + flag c.fsUsed 7 + 256 * (c.starts % 16))

/-- ERRSTAT as it reads (Table REG-7). -/
def errstatRead (s : State) : Word :=
  let e := s.err
  wordOf (e.code.toNat + 256 * e.ahi.toNat + flag e.cell 12 + 8192 * e.src.toNat + flag e.ovr 15)

/-- R175. -/
def errstatWrite (s : State) (v : Word) : State := if bit v 15 then clearErr s else s

/-- R174. -/
def irqenWrite (s : State) (p : Port) (v : Word) : State := setPort s p { getPort s p with irqEn := v }

/-- A register's own rule for a write, by its byte offset; a read-only register takes no write (R6). -/
def regWriteBody (p : Port) (off : Nat) (s : State) (v : Word) : State :=
  match off with
  | 0x04 => sysstatWrite s v
  | 0x06 => sysctlWrite s p v
  | 0x08 => clearIrq s v
  | 0x0A => irqenWrite s p v
  | 0x0C => errstatWrite s v
  | 0x10 => portctlWrite s p v
  | 0x12 => waddrWriteOp s p false v
  | 0x14 => waddrWriteOp s p true v
  | 0x16 => wdataWriteOp (captured s p) p v
  | 0x18 => wctlWriteOp s p v
  | 0x1A => dctlWrite s p v
  | 0x1C => dpwrWrite s p v
  | 0x20 => dcommitWrite (captured s p) p v
  | 0x22 => dlayerWrite s p v
  | 0x24 => dblinkWrite s v
  | 0x26 => dvlcdWrite s v
  | 0x28 => dcrackWrite s p v
  | 0x2A => kctlWrite s p v
  | 0x2C => kstatWrite s v
  | 0x30 => lctlWrite s p v
  | 0x34 => lselWrite s p v
  | 0x36 => lparamWrite s p v
  | 0x38 => lfaultWrite s v []
  | 0x3A => bctlWrite s p v
  | 0x3C => bstatWrite s v
  | 0x48 => bpackWrite s v
  | 0x4A => acmdWrite s p v
  | 0x4C => acntWrite s p false v
  | 0x4E => acntWrite s p true v
  | 0x50 => atagWrite (captured s p) p v
  | 0x52 => astatWrite s v
  | 0x54 => rtcLWrite s p v
  | 0x56 => rtcHWrite s p v
  | 0x5A => rtcAlmWrite s v
  | 0x5C => wakectlWrite s v
  | 0x5E => wakestatWrite s v
  | 0x60 => clkstatWrite s v
  | 0x62 => arbstatWrite s p v
  | 0x66 => { s with scratch := v }
  | _ => s

/-- A register write of a port at a word address. -/
def regWrite (s : State) (p : Port) (a : Fin 64) (v : Word) : State := gate s p a v (regWriteBody p (offOf a))

/-- A register's value as a port reads it, for a read without a side effect. -/
def regValue (s : State) (p : Port) (off : Nat) : Word :=
  match off with
  | 0x00 => 0x4096
  | 0x02 => 0x00B0
  | 0x04 => sysstat s
  | 0x06 => sysctlRead s
  | 0x08 => s.irqStat
  | 0x0A => (getPort s p).irqEn
  | 0x0C => errstatRead s
  | 0x0E => s.err.info
  | 0x10 => portctlRead s
  | 0x12 => (getPort s p).waddr.truncate 16
  | 0x14 => ((getPort s p).waddr.extractLsb' 16 4).zeroExtend 16
  | 0x16 => (getPort s p).pre.headD 0
  | 0x18 => wctlRead (getPort s p)
  | 0x1A => dctlRead s
  | 0x1C => dpwrRead s
  | 0x1E => dstatRead s
  | 0x22 => dlayerRead s
  | 0x24 => s.disp.dblink
  | 0x26 => dvlcdRead s
  | 0x28 => dcrackRead s
  | 0x2A => kctlRead s
  | 0x2C => kstatRead s
  | 0x30 => lctlRead s
  | 0x32 => lstatRead s
  | 0x34 => lselRead s
  | 0x36 => lparamRead s
  | 0x38 => lfaultRead s
  | 0x3A => bctlRead s
  | 0x3C => bstatRead s
  | 0x3E => bsoc s.estA
  | 0x40 => bsoc s.estB
  | 0x42 => s.batA.bva
  | 0x44 => s.batA.bia
  | 0x46 => s.batA.bta
  | 0x48 => bpackRead s
  | 0x4A => s.auth.acmd
  | 0x4C => s.auth.acntL
  | 0x4E => s.auth.acntH
  | 0x52 => astatRead s
  | 0x56 => rtcHRead s p
  | 0x58 => rtcSubRead s p
  | 0x5A => rtcAlmRead s
  | 0x5C => s.aon.wakectl
  | 0x5E => wakestatRead s
  | 0x60 => clkstatRead s
  | 0x62 => arbstatRead s
  | 0x64 => s.disp.temp
  | 0x66 => s.scratch
  | _ => 0

/-- R166: a register read; only KEVT and RTC_L have a side effect beside WDATA. -/
def regReadBody (p : Port) (off : Nat) (s : State) : Word × State :=
  match off with
  | 0x2E => kevtReadOp s
  | 0x54 => rtcLReadOp s p
  | _ => (regValue s p off, s)

/-- A register read of a port at a word address; a WDATA read may be held by WAIT#. -/
def regRead (s : State) (p : Port) (a : Fin 64) : State :=
  if portLive s p && s.pw.face != .bootFace && offOf a == 0x16 then
    match wdataReadOp (captured s p) p with
    | (some w, t) => readDone t p a w
    | (none, t) => t
  else readGate s p a (regReadBody p (offOf a))

/-! ### Gen1 bytes (R101 to R107) -/

/-- R104, R107: a low-byte write is held in the write latch; the boot face counts the strobe. -/
def gen1LowWrite (s : State) (a : Fin 64) (b : Byte) : State :=
  if portLive s .portP ∧ s.pw.gen = .gen1 then
    { s with portP := { s.portP with g1wr := some (a, b)
                                     disc := if s.pw.face = .bootFace then s.portP.disc + 1 else s.portP.disc } }
  else s

/-- R103: what a Gen1 read of a register's high byte returns; the boot face has no latch of its own values (R69).
DEDUCED (log 56). -/
def gen1HighByte (s : State) (a : Fin 64) : Byte :=
  let live : Byte :=
    if s.pw.face = .bootFace then hiByte (bootRead s a) else hiByte (regReadBody .portP (offOf a) s).1
  match s.portP.g1rd with
  | some (a', hi) => if a' = a then hi else live
  | none => live

/-- The register a latched byte address selects: AD7 to AD1 below 0x80 (R101). -/
def gen1Reg (ad : Byte) : Fin 64 := ⟨ad.toNat / 2 % 64, Nat.mod_lt _ (by decide)⟩

/-- Byte addresses 0x80 to 0xFF select no register (R101). -/
def gen1None (ad : Byte) : Bool := decide (0x80 ≤ ad.toNat)

/-- A strobe of a Gen1 access (R101): AD0 to AD7 are latched at an ALE falling edge that comes before it, whatever
CS#; the strobe acts on the latched address only while CS# is low. DEDUCED (log 56). -/
def gen1Strobe (s : State) (ale : Option Byte) (csLow : Bool) (act : State → Byte → State) : State :=
  if portLive s .portP ∧ s.pw.gen = .gen1 then
    let s := { s with portP := { s.portP with ale := ale.getD s.portP.ale } }
    if csLow then act s s.portP.ale else s
  else s

/-- R101 to R103: RD# at the latched byte address. -/
def gen1Read (s : State) (ad : Byte) : State :=
  if gen1None ad then { s with portP := { s.portP with rdata := 0 } }
  else if bit (ad.zeroExtend 16) 0 then
    { s with portP := { s.portP with rdata := (gen1HighByte s (gen1Reg ad)).zeroExtend 16 } }
  else regRead s .portP (gen1Reg ad)

/-- R101, R104, R105: WR# at the latched byte address. Outside the registers a byte is discarded; the boot face counts
it (R107). -/
def gen1Write (s : State) (ad : Byte) (b : Byte) : State :=
  if gen1None ad then
    (if s.pw.face = .bootFace then { s with portP := { s.portP with disc := s.portP.disc + 1 } } else s)
  else if bit (ad.zeroExtend 16) 0 then regWrite s .portP (gen1Reg ad) (wordOfBytes 0 b)
  else gen1LowWrite s (gen1Reg ad) b

/-! ### A register write and what falls together with it (R28, R85, R98, R131, R159, R208, R275) -/

/-- The entry at the front of a port's buffer leaves, whichever it is (R131). DESIGN CHOICE (log 38). -/
def frontLeaves (s : State) (p : Port) (ups : List Upset) : State :=
  match (getPort s p).buf with
  | .wdata _ _ :: _ => entryLeaves s p ups
  | .dcommit _ :: _ => commitLeaves s p
  | .atag _ :: _ => tagLeaves s p ups
  | [] => s

/-- A Port S access of the window, DCOMMIT or ATAG finds what its port posted before it done (R140), ahead of its own
checks. DEDUCED (log 58). -/
def frameCaptured (s : State) (a : Fin 64) : State :=
  if portLive s .portS ∧ (offOf a = 0x16 ∨ offOf a = 0x20 ∨ offOf a = 0x50) then captured s .portS else s

/-- A register write by a Port S frame, with the response that the next frame carries (R137, R138).
DEDUCED (log 37). -/
def frameWrite (s : State) (a : Fin 64) (v : Word) : State :=
  answered (frameCaptured s a) a v (fun s => regWrite s .portS a v)

/-- The DPWR writes of both ports in one cycle, each as far as it reaches the register (R275). -/
def dpwrPair (s : State) (vS vP : Word) : State :=
  match reaches s .portS 0x0E vS, reaches s .portP 0x0E vP with
  | some wS, some wP => dpwrBoth (gen1Empty s .portP 0x0E) wS wP
  | _, _ => regWrite (frameWrite s 0x0E vS) .portP 0x0E vP

/-- Writes of both ports captured in one CK_BUS cycle: Port S's takes effect first (R159), and two SYSCTL, PORTCTL or
DPWR writes as R85, R153 and R275 have it. -/
def writePair (s : State) (aS : Fin 64) (vS : Word) (aP : Fin 64) (vP : Word) : State :=
  if aS = 3 ∧ aP = 3 then modeMerge s vS vP
  else if aS = 8 ∧ aP = 8 then swapMerge s vS vP
  else if aS = 0x0E ∧ aP = 0x0E then dpwrPair s vS vP
  else regWrite (frameWrite s aS vS) .portP aP vP

/-- A register write in the cycle of frame boundaries of some banks, as far as it reaches the register (R208).
DEDUCED (log 60). -/
def writeWait (s : State) (p : Port) (bs : List Bank) (a : Fin 64) (v : Word) : State × List (Fin 64 × Word) :=
  match reaches s p a v with
  | some w =>
    if offOf a < 0x68 then besideWait (gen1Empty s p a) p bs a w (regWriteBody p (offOf a) · w) else (regWrite s p a v, [])
  | none => (regWrite s p a v, [])

/-- The same of Port S, with the response that the next frame carries (R137, R138). DEDUCED (log 60).
DEDUCED (log 37). -/
def frameWait (s : State) (bs : List Bank) (a : Fin 64) (v : Word) : State × List (Fin 64 × Word) :=
  (answered (frameCaptured s a) a v (fun s => (writeWait s .portS bs a v).1), (writeWait (frameCaptured s a) .portS bs a v).2)

/-- A write has begun a power-down that clears the DPWR bits: the RUN-to-STANDBY transition or a software reset (R56, R66).
DEDUCED (log 60). -/
def quiets (s t : State) : Bool :=
  (t.pw.trans == .toStandby && s.pw.trans != .toStandby) || t.pw.rst != s.pw.rst

/-- Writes of both ports in the cycle of frame boundaries: two DPWR, SYSCTL or PORTCTL writes as R275, R85 and R153 have
it. A power-down that Port P's write begins clears the DPWR change that Port S's write has made before it, also where that
waits (R56, R159). DEDUCED (log 60). -/
def pairWait (s : State) (bs : List Bank) (aS : Fin 64) (vS : Word) (aP : Fin 64) (vP : Word) :
    State × List (Fin 64 × Word) :=
  match reaches s .portS 0x0E vS, reaches s .portP 0x0E vP, decide (aS = 0x0E ∧ aP = 0x0E) with
  | some wS, some wP, true => dpwrBothWait (gen1Empty s .portP 0x0E) bs wS wP
  | _, _, _ =>
    if (aS = 3 ∧ aP = 3) ∨ (aS = 8 ∧ aP = 8) then (writePair s aS vS aP vP, [])
    else
      let rS := frameWait s bs aS vS
      let rP := writeWait rS.1 .portP bs aP vP
      let kept := if quiets rS.1 rP.1 then rS.2.filter (fun w => decide (offOf w.1 ≠ 0x1C)) else rS.2
      (rP.1, kept ++ rP.2)

/-- The writes of Port S and of Port P in one cycle, either of which may be missing. -/
def bothWrite (s : State) (S P : Option (Fin 64 × Word)) : State :=
  match S, P with
  | none, none => s
  | some x, none => frameWrite s x.1 x.2
  | none, some y => regWrite s .portP y.1 y.2
  | some x, some y => writePair s x.1 x.2 y.1 y.2

/-- The same in the cycle of frame boundaries of some banks. -/
def bothWait (s : State) (bs : List Bank) (S P : Option (Fin 64 × Word)) : State × List (Fin 64 × Word) :=
  match S, P with
  | none, none => (s, [])
  | some x, none => frameWait s bs x.1 x.2
  | none, some y => writeWait s .portP bs y.1 y.2
  | some x, some y => pairWait s bs x.1 x.2 y.1 y.2

/-- R205: a write that only clears W1C fields of a register that both ports share. What sets one of them in the same cycle
acts after it. A clear of LFAULT, which frees channels, stands in the order of R159; no write sets an FLT. -/
def clearsFields (s : State) (p : Port) (x : Fin 64 × Word) : Bool :=
  match reaches s p x.1 x.2 with
  | none => false
  | some w =>
    match offOf x.1 with
    | 0x04 | 0x08 | 0x0C | 0x2C | 0x3C | 0x48 | 0x52 | 0x60 => true
    | 0x22 => decide (fld w 0 3 ≤ 4)
    | _ => false

/-- R204: what the device does of itself beside the ports' writes; a record that it makes comes after theirs. -/
def deviceLast (s : State) (act rest : State → State) : State :=
  let t := act { s with err := ErrRec.none }
  let u := rest { t with err := s.err }
  if t.err.code = 0 then u else { u with err := { t.err with ovr := t.err.ovr || decide (u.err.code ≠ 0) } }

/-- A register write of a port with all that falls together with it. An access with OE# low beside WE#, in Gen1 RD# beside
WR#, is ignored (R98), and the Gen1 byte address that such an access would latch at ALE with it. DESIGN CHOICE (log 56).
The writes that clear W1C fields come first (R204, R205); an entry that leaves the port's buffer then frees its place (R131)
before the other writes, and the boundaries' own work follows (R208); the effect of a leaving DCOMMIT comes after them
(R311, R331). DESIGN CHOICE (log 53). -/
def writesBeside (s : State) (p : Port) (a : Fin 64) (v : Word) (w : Beside) : State :=
  let S := if p = .portS then some (a, v) else w.other
  let P := if w.oeLow then none else if p = .portP then some (a, v) else w.other
  let cS := S.filter (clearsFields s .portS)
  let cP := P.filter (clearsFields s .portP)
  let rS := if cS.isSome then none else S
  let rP := if cP.isSome then none else P
  let es := w.boundaries.filter (edgeHappens s)
  let after : Option Word := if es.isEmpty ∨ w.leaves.isNone then none else frontCommit s p
  let leave (s : State) : State :=
    match w.leaves with
    | some ups => if after.isSome then frontFreed s p else frontLeaves s p ups
    | none => s
  deviceLast (bothWrite s cS cP) leave fun s =>
    if es.isEmpty then bothWrite s rS rP
    else
      let r := bothWait s (es.map edgeBank) rS rP
      let t := besideBoundary r.1 es r.2
      match after with
      | some v => commitEffect t v
      | none => t

/-- REGISTER_WRITE: a write with nothing beside it is the register's own rule, and one of Port S then leaves the response
of its frames as it was. DEDUCED (log 37). DESIGN CHOICE (log 53). -/
def writeBeside (s : State) (p : Port) (a : Fin 64) (v : Word) (w : Beside) : State :=
  if w = .alone then regWrite s p a v else writesBeside s p a v w

/-! ### Port S frames (R132 to R141, R579) -/

/-- One step of the CRC-8 of R136 over a bit. -/
def crc8Bit (c : BitVec 8) (b : Bool) : BitVec 8 :=
  let x := c.msb != b
  if x then (c <<< 1) ^^^ 0x1D else c <<< 1

/-- The CRC-8 of R136 over bits, the most significant first. -/
def crc8 (l : List Bool) : BitVec 8 := l.foldl crc8Bit 0xFF

/-- The number whose bits a list holds, the most significant first. -/
def bitsNat (l : List Bool) : Nat := l.foldl (fun n b => 2 * n + (if b then 1 else 0)) 0

/-- The n low bits of a number, the most significant first. -/
def natBits (n v : Nat) : List Bool := (List.range n).map (fun i => v.testBit (n - 1 - i))

/-- A received bit by its number in the frame, 31 first; a bit never received reads 0 (R579). -/
def rxBit (l : List Bool) (i : Nat) : Bool := l.getD (31 - i) false

/-- Received bits hi..hi − n + 1 as a number. -/
def rxField (l : List Bool) (hi n : Nat) : Nat := bitsNat ((List.range n).map (fun k => rxBit l (hi - k)))

/-- R133, R136: the frame has 32 bits and its CRC matches. -/
def frameGood (l : List Bool) : Bool :=
  decide (l.length = 32) && crc8 (l.take 24) == BitVec.ofNat 8 (bitsNat (l.drop 24))

/-- The response to a Port S read: the value read, or after the boot face a status frame (R137). -/
def readAnswer (boot : Bool) (s : State) (a : Fin 64) : State :=
  { s with spi := if boot then .status else answerOf (BitVec.ofNat 6 a.val) s.portS.rdata none }

/-- PORT_S_FRAME (R133, R135 to R139, R579): a frame ends with the bits that rising SCK edges sampled. A WDATA read is
always served (R140). -/
def portSFrame (s : State) (l : List Bool) : State :=
  if !portLive s .portS then s
  else
    let a : Fin 64 := ⟨rxField l 30 6 % 64, Nat.mod_lt _ (by decide)⟩
    let v := wordOf (rxField l 23 16)
    let boot := s.pw.face == .bootFace
    if !frameGood l then { s with spi := if boot then .status else .answer 1 (BitVec.ofNat 6 (rxField l 30 6)) 0 }
    else if rxBit l 31 then frameWrite s a v
    else readAnswer boot (regRead s .portS a) a

/-- R137: the 32 bits that the next frame carries on SDO, as it begins now. -/
def spiOut (s : State) : Nat :=
  let body (stat addr data : Nat) : Nat :=
    let n := stat * 2 ^ 22 + addr * 2 ^ 16 + data
    n * 256 + (crc8 (natBits 24 n)).toNat
  if s.pw.face = .bootFace then body 3 2 (sysstat s).toNat
  else
    match s.spi with
    | .status => body 3 2 (sysstat s).toNat
    | .answer st ad d => body st.toNat ad.toNat d.toNat

/-! ### Rows -/

/-- REGISTER_WRITE. -/
def execRegisterWrite (p : Port) (a : Fin 64) (v : Word) (w : Beside) (s : State) : Host.Outcome State Fault Refusal :=
  .next (writeBeside s p a v w)

/-- ERRSTAT_CLEAR. -/
def execErrstatClear (p : Port) (v : Word) (s : State) : Host.Outcome State Fault Refusal :=
  .next (gate s p 0x06 v errstatWrite)

/-- GEN1_LOW_BYTE_WRITE (R101, R104): the latched AD0 gives the lane. -/
def execGen1LowByteWrite (ale : Option Byte) (cs : Bool) (b : Byte) (s : State) : Host.Outcome State Fault Refusal :=
  .next (gen1Strobe s ale cs (fun s ad => gen1Write s ad b))

/-- GEN1_LOW_BYTE_READ (R101 to R103): the latched AD0 gives the lane. -/
def execGen1LowByteRead (ale : Option Byte) (cs : Bool) (s : State) : Host.Outcome State Fault Refusal :=
  .next (gen1Strobe s ale cs gen1Read)

/-- PORT_S_FRAME. -/
def execPortSFrame (bits : List Bool) (s : State) : Host.Outcome State Fault Refusal := .next (portSFrame s bits)

/-- WADDR_WRITE. -/
def execWaddrWrite (p : Port) (high : Bool) (v : Word) (s : State) : Host.Outcome State Fault Refusal :=
  .next (gate s p (if high then 0x0A else 0x09) v (fun s w => waddrWriteOp s p high w))

/-- WDATA_READ. -/
def execWdataRead (p : Port) (s : State) : Host.Outcome State Fault Refusal := .next (regRead s p 0x0B)

/-- WDATA_WRITE. -/
def execWdataWrite (p : Port) (v : Word) (s : State) : Host.Outcome State Fault Refusal :=
  .next (gate s p 0x0B v (fun s w => wdataWriteOp (captured s p) p w))

/-- WCTL_WRITE. -/
def execWctlWrite (p : Port) (v : Word) (s : State) : Host.Outcome State Fault Refusal :=
  .next (gate s p 0x0C v (fun s w => wctlWriteOp s p w))

/-- PREFETCH_LOAD_DONE. -/
def execPrefetchLoadDone (p : Port) (ups : List Upset) (s : State) : Host.Outcome State Fault Refusal :=
  .next (loadDone s p ups)

/-- BUFFER_ENTRY_LEAVE. -/
def execBufferEntryLeave (p : Port) (ups : List Upset) (s : State) : Host.Outcome State Fault Refusal :=
  .next (entryLeaves s p ups)

/-- WAIT_TIMEOUT. -/
def execWaitTimeout (s : State) : Host.Outcome State Fault Refusal := .next (waitTimeout s)

/-- DCOMMIT. -/
def execDcommit (p : Port) (v : Word) (s : State) : Host.Outcome State Fault Refusal :=
  .next (gate s p 0x10 v (fun s w => dcommitWrite (captured s p) p w))

/-- COMMIT_EFFECT. -/
def execCommitEffect (p : Port) (s : State) : Host.Outcome State Fault Refusal := .next (commitLeaves s p)

/-- ATAG_WRITE. -/
def execAtagWrite (p : Port) (v : Word) (s : State) : Host.Outcome State Fault Refusal :=
  .next (gate s p 0x28 v (fun s w => atagWrite (captured s p) p w))

/-- TAG_WORD_EFFECT. -/
def execTagWordEffect (p : Port) (ups : List Upset) (s : State) : Host.Outcome State Fault Refusal :=
  .next (tagLeaves s p ups)

/-- THREAD_START (R580). -/
def execThreadStart (p : Port) (b : Bank) (s : State) : Host.Outcome State Fault Refusal :=
  .next (pageRow s p (0xC880 + 0x10 * b.num) (fun w => w ||| 1))

/-- THREAD_STOP (R335). -/
def execThreadStop (p : Port) (b : Bank) (s : State) : Host.Outcome State Fault Refusal :=
  .next (pageRow s p (0xC880 + 0x10 * b.num) (fun w => w &&& 0xFFFE))

/-- REGION_DEFINE (R323): a definition word of region r, at +0 or, with `second`, at +2. -/
def execRegionDefine (p : Port) (r : Fin 4) (second : Bool) (v : Word) (s : State) : Host.Outcome State Fault Refusal :=
  .next (pageRow s p (0xC8A0 + 8 * r.val + (if second then 2 else 0)) (fun _ => v))

/-- REGION_RELOCK (R324). -/
def execRegionRelock (p : Port) (r : Fin 4) (s : State) : Host.Outcome State Fault Refusal :=
  .next (pageRow s p (0xC8A0 + 8 * r.val + 4) (fun w => w ||| 2))

/-- KEY_COUNTER_CLEAR (R356). -/
def execKeyCounterClear (p : Port) (s : State) : Host.Outcome State Fault Refusal :=
  .next (pageRow s p 0xCC00 (fun w => w ||| 8))

/-- HARVEST_CLEAR (R408). -/
def execHarvestClear (p : Port) (s : State) : Host.Outcome State Fault Refusal :=
  .next (pageRow s p 0xD416 (fun w => w ||| 0x8000))

/-- BVB_MIN_CLEAR (R404). -/
def execBvbMinClear (p : Port) (s : State) : Host.Outcome State Fault Refusal :=
  .next (pageRow s p 0xD808 (fun w => w ||| 1))

/-- MODEL_LOAD (R412). -/
def execModelLoad (p : Port) (c : BatCh) (s : State) : Host.Outcome State Fault Refusal :=
  .next (pageRow s p (match c with | .chA => 0xD436 | .chB => 0xD80A) (fun w => w ||| 1))

/-- PACK_COUNTER_CLEAR (R470). -/
def execPackCounterClear (p : Port) (s : State) : Host.Outcome State Fault Refusal :=
  .next (pageRow s p 0xDC20 (fun w => w ||| 1))

/-- LEDGER_CLEAR (R296). -/
def execLedgerClear (p : Port) (b : Bank) (s : State) : Host.Outcome State Fault Refusal :=
  .next (pageRow s p (0xC404 + 0x20 * b.num) (fun w => w ||| 1))

/-- ECC_COUNTER_CLEAR (R232). -/
def execEccCounterClear (p : Port) (s : State) : Host.Outcome State Fault Refusal :=
  .next (pageRow s p 0xE802 (fun w => w ||| 0x20))

end Sys2Proof.Machine
end

