-- ==== Sys2Proof/Machine/Pins.lean ====
section
/-! DEFINITION. What the balls of the SX-4096 carry, as functions of the state and of the inputs that gate an output: the
host ports and interrupts (R14, R70, R91, R92, R98, R119, R132, R535), the glass outputs (R240, R244, R247, R258,
R261), the glass power balls (R249, R253), TDO (R498, R566), and the boundary register with the ball map (R559, R566,
R568). Only the boundary register's capture (Machine/Tap.lean) reads them. -/

namespace Sys2Proof.Machine

open Sys2Proof

/-! ### The ball map (R558, R559) -/

/-- A supply or ground name (Table PKG-5); PGNDk serves thermal cluster k. -/
inductive Supply where
  | vsup | vio | vcore | vbkup
  | vlcd (b : Bank)
  | vlamp | vss | agnd
  | pgnd (k : Fin 2)
  deriving DecidableEq, Repr

/-- A ball by its signal; `none` is no ball of the package. -/
inductive Ball where
  | com (b : Bank) (n : Nat)
  | seg (b : Bank) (n : Nat)
  | kin (n : Nat)
  | hd (n : Nat)
  | haddr (n : Nat)
  | cs | oe | we | waitN | irq | sirq | scs | sck | sdi | sdo
  | ign | chgDet | kwake | shipG | pil
  | busgen1 | busgen0 | clksrc | role | resetN | test
  | lamp (n : Nat)
  | vlen (b : Bank)
  | vadj (b : Bank)
  | crk (b : Bank) (second : Bool)
  | xin | xout | bav | baiP | baiN | batNtc | bbv
  | tck | tms | tdi | tdo
  | supply (x : Supply)
  | none
  deriving DecidableEq, Repr

/-- Column 19, rows E to V (Table PKG-3). -/
def eastInner : List Ball :=
  [.kin 4, .kin 5, .kin 6, .kin 7, .ign, .chgDet, .kwake, .shipG, .supply .vsup, .supply .vsup, .supply .vss, .supply .vss,
   .supply .vss]

/-- Columns 20 and 21, rows E to V (Table PKG-3). -/
def eastOuter : List Ball :=
  [.supply .vlamp, .lamp 0, .lamp 1, .supply (.pgnd 0), .lamp 2, .lamp 3, .supply .vlamp, .lamp 4, .lamp 5,
   .supply (.pgnd 1), .lamp 6, .lamp 7, .supply .vlamp]

/-- Columns 1 and 2, rows E to V (Table PKG-3), left to right and top to bottom. -/
def westEdge : List Ball :=
  (List.range 16).map .hd ++ (List.range 6).map (fun i => .haddr (i + 1)) ++ [.cs, .oe, .we, .waitN]

/-- Columns 3 to 18 of rows J to N, left to right (Table PKG-4). -/
def centreRow : Nat → List Ball
  | 8 => [.irq, .sirq, .supply .vio, .supply (.vlcd .bankA), .supply (.vlcd .bankA), .vlen .bankA, .vadj .bankA,
          .crk .bankA false, .crk .bankA true, .supply .vss, .supply .vss, .xin, .xout, .supply .agnd, .bav, .supply .agnd]
  | 9 => [.scs, .sck, .supply .vio, .busgen1, .busgen0, .clksrc, .role, .resetN, .test, .supply .vss, .supply .vss,
          .supply .vss, .supply .vss, .supply .agnd, .baiP, .baiN]
  | 10 => [.sdi, .sdo, .supply .vss, .supply .vcore, .supply .vcore] ++ List.replicate 8 (.supply .vss)
          ++ [.supply .agnd, .batNtc, .supply .agnd]
  | 11 => [.tck, .tms, .supply .vio, .supply .vsup, .supply .vsup] ++ List.replicate 8 (.supply .vss)
          ++ [.supply .agnd, .bbv, .pil]
  | 12 => [.tdi, .tdo, .supply .vss, .supply (.vlcd .bankB), .supply (.vlcd .bankB), .vlen .bankB, .vadj .bankB,
          .crk .bankB false, .crk .bankB true, .supply .vss, .supply .vss, .supply .vbkup, .supply .vss, .supply .agnd,
          .supply .agnd, .supply .vss]
  | _ => []

/-- Tables PKG-2 to PKG-4: the ball of row r (0 is A, 20 is AB) and column c (1 to 21). -/
def ballAt (r c : Nat) : Ball :=
  let corner (b : Bank) (i : Nat) : Ball :=
    if c ≤ 2 then .com b (2 * i + c - 1) else if c ≤ 20 then .com b (8 + 2 * i + c - 19) else .supply .vss
  let edge : Ball :=
    if c ≤ 2 then westEdge.getD (2 * (r - 4) + c - 1) .none
    else if c = 19 then eastInner.getD (r - 4) .none else eastOuter.getD (r - 4) .none
  if c = 0 ∨ 21 < c ∨ 20 < r then .none
  else if r ≤ 7 ∧ 3 ≤ c ∧ c ≤ 18 then .seg .bankA (16 * r + c - 3)
  else if 13 ≤ r ∧ 3 ≤ c ∧ c ≤ 18 then .seg .bankB (16 * (20 - r) + c - 3)
  else if r ≤ 3 then (if c = 21 then .kin r else corner .bankA r)
  else if 17 ≤ r then corner .bankB (20 - r)
  else if 3 ≤ c ∧ c ≤ 18 then (centreRow r).getD (c - 3) .none
  else edge

/-! ### The boundary register (R568) -/

/-- A boundary cell: an output-enable control of HD0 to HD15, of WAIT# or of SDO, or a ball's observe or output cell. -/
inductive BCell where
  | hdOe | waitOe | sdoOe
  | observe (x : Ball)
  | output (x : Ball)
  deriving DecidableEq, Repr

/-- The cells that a ball contributes (R568): none of a supply, a ground, an analogue ball, TEST or a JTAG ball. -/
def cellsOf (x : Ball) : List BCell :=
  match x with
  | .none => []
  | .supply _ => []
  | .vadj _ => []
  | .crk _ _ => []
  | .xin => []
  | .xout => []
  | .bav => []
  | .baiP => []
  | .baiN => []
  | .batNtc => []
  | .bbv => []
  | .test => []
  | .tck => []
  | .tms => []
  | .tdi => []
  | .tdo => []
  | .hd _ => [.observe x, .output x]
  | .waitN => [.observe x, .output x]
  | .sdo => [.observe x, .output x]
  | .irq => [.observe x, .output x]
  | .sirq => [.observe x, .output x]
  | .vlen _ => [.observe x, .output x]
  | _ => [.observe x]

/-- The cells of one row, from column 1 on; a lamp's column-21 ball has none. -/
def rowCells (r : Nat) : List BCell :=
  (List.range 21).flatMap fun i =>
    match ballAt r (i + 1), i with
    | .lamp _, 20 => []
    | x, _ => cellsOf x

/-- The boundary register from the TDO end: bit i of the model's register is cell i. DESIGN CHOICE (log 62). -/
def boundaryCells : List BCell := [.hdOe, .waitOe, .sdoOe] ++ (List.range 21).flatMap rowCells

/-- What the output latch of a cell holds. -/
def latchOf (s : State) (x : BCell) : Bool := s.tap.latch.getLsbD (boundaryCells.idxOf x)

/-- The output cells drive the balls: EXTEST or CLAMP is selected (Table PKG-8). -/
def cellsDrive (s : State) : Bool := s.tap.ir == 0 || s.tap.ir == 3

/-- HIGHZ is selected (Table PKG-8). -/
def tapHighz (s : State) : Bool := s.tap.ir == 4

/-! ### Host ports and interrupts -/

/-- What an output ball does: drive low, drive high (or, open-drain, leave the ball to its pull-up), or float. -/
inductive Pin where
  | low | high | hiZ
  deriving DecidableEq, Repr

/-- A driven level. -/
def Pin.ofBool (v : Bool) : Pin := if v then .high else .low

/-- An output of the VIO domain: floating with VIO lost (R535) or under HIGHZ, its latch and enable under EXTEST and
CLAMP, and otherwise its function. An enable cell that holds 1 enables. DEDUCED (log 62). -/
def vioPin (s : State) (enable value : Bool) (own : Pin) : Pin :=
  if !s.pw.vio || tapHighz s then .hiZ
  else if cellsDrive s then (if enable then .ofBool value else .hiZ)
  else own

/-- The levels of a host's strobes: which of CS#, OE# (RD# in Gen1) and WE# (WR# in Gen1) are low. -/
structure Strobes where
  cs : Bool
  oe : Bool
  we : Bool
  deriving DecidableEq, Repr

/-- The parallel port answers its strobes: a face is live (R70) and the port is not strapped off (R91). -/
def parallelOn (s : State) : Bool := !(s.pw.face == .dead) && !(s.pw.gen == .portOff)

/-- R92, R98: when HD is driven. -/
def hdDriven (s : State) (x : Strobes) (n : Nat) : Bool :=
  parallelOn s && x.cs && x.oe && !x.we && (decide (n < 8) || s.pw.gen != .gen1)

/-- Registers whose read has a side effect, made at the capture of the read strobe (R96): WDATA, KEVT and RTC_L. -/
def readActs (a : Fin 64) : Bool := offOf a == 0x16 || offOf a == 0x2E || offOf a == 0x54

/-- The word that HD carries in a read of the register that HADDR1 to HADDR6 select (R95, R96): its value, or the boot
face's answer (R69). Where the read has a side effect, and in Gen1, whose strobes are rows of their own (R101), it is what
that row has read. -/
def hdWord (s : State) (a : Fin 64) : Word :=
  if s.pw.gen == .gen1 then s.portP.rdata
  else if s.pw.face == .bootFace then bootRead s a
  else if readActs a then s.portP.rdata
  else regValue s .portP (offOf a)

/-- HDn in an access of the register a, while R92 drives it. -/
def hdPin (s : State) (x : Strobes) (a : Fin 64) (n : Nat) : Pin :=
  vioPin s (latchOf s .hdOe) (latchOf s (.output (.hd n)))
    (if hdDriven s x n then .ofBool ((hdWord s a).getLsbD n) else .hiZ)

/-- R92, R119: WAIT#, which only Gen3 drives. Before a face is live it floats. DESIGN CHOICE (log 62). -/
def waitPin (s : State) (cs : Bool) : Pin :=
  vioPin s (latchOf s .waitOe) (latchOf s (.output .waitN))
    (if parallelOn s && s.pw.gen == .gen3 && cs then .ofBool (s.portP.held == .none) else .hiZ)

/-- R132: the SPI mode of a frame, 0 or 3, from the level of SCK at SCS# falling. -/
def spiMode (sck : Bool) : Nat := if sck then 3 else 0

/-- The bit of the response that SDO carries after n falling SCK edges of a frame (R132): bit 31 from SCS# falling on,
and in mode 3, whose first edge falls, until the second one. DEDUCED (log 62). In a frame of more edges bit 0 stands after
the last bit. DESIGN CHOICE (log 62). -/
def sdoBit (sck : Bool) (n : Nat) : Nat := 31 - (if spiMode sck = 3 then n - 1 else n)

/-- R132: SDO after n falling SCK edges, with SCS# low or high. Before a face is live it floats. DESIGN CHOICE (log
62). DESIGN CHOICE (log 62). -/
def sdoPin (s : State) (scs sck : Bool) (n : Nat) : Pin :=
  vioPin s (latchOf s .sdoOe) (latchOf s (.output .sdo))
    (if scs && !(s.pw.face == .dead) then .ofBool ((spiOut s).testBit (sdoBit sck n)) else .hiZ)

/-- R14, R91, R535: IRQ# of Port P and SIRQ# of Port S. -/
def irqPin (s : State) (p : Port) : Pin :=
  vioPin s true (latchOf s (.output (match p with | .portP => .irq | .portS => .sirq)))
    (if !islandOn s then .hiZ
     else if p == .portP && s.pw.gen == .portOff then .high
     else .ofBool (!irqLow s (getPort s p)))

/-! ### The TAP -/

/-- TDO (R498, R535, R566, Table PKG-5) while a scan shifts, at its bit n, or outside one: high-impedance until
DEBUG_UNLOCK has opened the TAP, with VIO lost, and outside a scan; it has no cell, so it keeps its function under every
instruction (R568). PRESUMED (log 62). -/
def tdoPin (s : State) (scan : Option (TapScan × List Bool × Nat)) : Pin :=
  match scan with
  | some (x, tdi, n) => if tapOpen s || tapTest s then .ofBool (tapScanOut s x tdi n) else .hiZ
  | none => .hiZ

/-! ### Glass power -/

/-- VLENx (R249), or its output cell. -/
def vlenPin (s : State) (b : Bank) : Pin :=
  .ofBool (if cellsDrive s then latchOf s (.output (.vlen b)) else vlen (getBank s b).drv)

/-- R253: the current that VADJx sources, in units of 10 pA (0.78125 µA is 78125 of them), negative where it sinks; none
while the ball floats. -/
def vadjCurrent (s : State) (b : Bank) : Option Int :=
  let x := getBank s b
  if vlen x.drv then some (x.trim.now * 78125) else none

/-! ### Glass outputs -/

/-- What a COM or SEG output does: VSS through its ground switch (R262), a level in units of VLCD/60 (of OFFLU's
supply in state 0), or VSS through the weak scan pull-down (R340). -/
inductive GlassOut where
  | ground
  | level (u : Int)
  | weak
  deriving DecidableEq, Repr

/-- The record of the slot that a bank is driving. -/
def slotNow (s : State) (b : Bank) : Option SlotRec := (getBank s b).led.recs.getLast?

/-- Bias level L_k of a bias 1/a in units of VLCD/60. -/
def biasLevel (a k : Int) : Int := k * (60 / a)

/-- The bias levels of a slot in positive polarity, and in negative polarity their mirror (Table DRV-2). -/
def mirrored (neg : Bool) (u : Int) : Int := if neg then 60 - u else u

/-- Table DRV-2: COMn in a slot; the lines beyond the duty are at VSS through their ground switches (R240). -/
def comLevel (r : SlotRec) (n : Nat) : GlassOut :=
  if r.lines ≤ n then .ground
  else .level (mirrored r.neg (if n = r.line then 60 else biasLevel (biasA r.bias) 1))

/-- Table DRV-2: SEGx in a slot. At static bias a segment that is off is at the COM's level. -/
def segLevel (r : SlotRec) (x : Nat) : GlassOut :=
  .level (mirrored r.neg
    (if r.pix.getLsbD x then 0 else if r.bias = 0 then 60 else biasLevel (biasA r.bias) 2))

/-- R340: SEGAl while the Trellis has it, with the settings that the key slot in progress takes (R185, R356): the key level
on the active line, the weak pull-down on the other used lines, and L_0 beyond them. -/
def scanOut (s : State) (l : Nat) : GlassOut :=
  let t := slotBegun s
  if l = t.keys.line then .level (keyLevel t) else if l ≤ t.keys.cur.lines then .weak else .level 0

/-- R240, R244, R247, R258, R261: COMn of a bank. `key` says that a key slot of bank A is in progress. Between a frame
boundary and its first slot boundary, one instant in two rows, no slot is driven. DESIGN CHOICE (log 62). -/
def comOut (s : State) (b : Bank) (key : Bool) (n : Nat) : GlassOut :=
  if !driven (getBank s b).drv then .ground
  else if key && b == .bankA then .level 0
  else match slotNow s b with
    | some r => comLevel r n
    | none => .ground

/-- R244, R247, R258, R261: SEGx of a bank. DESIGN CHOICE (log 62). -/
def segOut (s : State) (b : Bank) (key : Bool) (x : Nat) : GlassOut :=
  let k := key && b == .bankA
  if !driven (getBank s b).drv then
    (if k && (getBank s b).drv.sta == .off && decide (x < 16) then scanOut s x else .ground)
  else if k then (if x < 16 then scanOut s x else .level 0)
  else match slotNow s b with
    | some r => segLevel r x
    | none => .ground

/-! ### Other outputs -/

/-- SHIP_G (R68). -/
def shipPin (s : State) : Pin := .ofBool s.pw.shipG

/-- LAMPn: whether its high-side switch conducts (R362). -/
def lampOut (s : State) (n : Fin 8) : Bool := (vget s.lamps.ch n.val).conducting

end Sys2Proof.Machine
end

