-- ==== Sys2Proof/Machine/Tap.lean ====
section
/-! DEFINITION. The boundary register's capture and the instructions that scan it (R566, R568, Table PKG-8): an observe cell
takes the level of its ball, which the block fixes where it drives the ball and the board elsewhere. -/

namespace Sys2Proof.Machine

open Sys2Proof

/-! ### The levels that the block fixes -/

/-- The level of a push-pull output; `none` where it floats. -/
def Pin.level : Pin → Option Bool
  | .low => some false
  | .high => some true
  | .hiZ => none

/-- The level of an open-drain output (Table PKG-5): what it pulls low is low, the rest is the board's. -/
def Pin.drainLevel : Pin → Option Bool
  | .low => some false
  | .high => none
  | .hiZ => none

/-- The comparison of a COM or SEG ball with 1.0 V (R568), where the range of VLCD, 2.5 V to 10.0 V while it is good (Table
ELE-2, R252), decides it: VSS and a level below 1.0 V at 10.0 V read 0, a level above it at 2.5 V reads 1.
DESIGN CHOICE (log 62). -/
def glassBall (d : Drive) : GlassOut → Option Bool
  | .ground => some false
  | .weak => none
  | .level u => if u < 6 then some false else if driven d && d.vgood && decide (24 < u) then some true else none

/-- A level that holds whether or not a key slot is in progress, while the Trellis scans. DESIGN CHOICE (log 62). -/
def keyOrNot (s : State) (f : Bool → Option Bool) : Option Bool :=
  if scanning s.keys && slotsRun s && f true != f false then none else f false

/-- The level of a ball as the board sets it: its observe cell in `board`. -/
def boardLevel (board : BitVec 373) (x : Ball) : Bool := board.getLsbD (boundaryCells.idxOf (.observe x))

/-- The strobes of the parallel port, low where active. -/
def boardStrobes (board : BitVec 373) : Strobes :=
  { cs := !boardLevel board .cs, oe := !boardLevel board .oe, we := !boardLevel board .we }

/-- The register that HADDR1 to HADDR6 select. -/
def boardAddress (board : BitVec 373) : Fin 64 :=
  ⟨((List.range 6).foldl (fun n i => n + flag (boardLevel board (.haddr (i + 1))) i) 0) % 64, Nat.mod_lt _ (by decide)⟩

/-- SDO: the frame's edges are not the capture's to know, so in a frame its level is the board's operand, but where the output
cells drive it. DESIGN CHOICE (log 62). -/
def sdoBall (s : State) (board : BitVec 373) : Option Bool :=
  if cellsDrive s then (sdoPin s (!boardLevel board .scs) (boardLevel board .sck) 0).level else none

/-- The level that the block gives a ball, `none` where the board sets it. A closed lamp switch carries VLAMP to its ball
(R362); an open one leaves the ball to the load. DESIGN CHOICE (log 62). -/
def ballLevel (s : State) (board : BitVec 373) : Ball → Option Bool
  | .com b n => keyOrNot s (fun k => glassBall (getBank s b).drv (comOut s b k n))
  | .seg b n => keyOrNot s (fun k => glassBall (getBank s b).drv (segOut s b k n))
  | .lamp n => if (vget s.lamps.ch n).conducting then some true else none
  | .shipG => (shipPin s).level
  | .vlen b => (vlenPin s b).level
  | .hd n => (hdPin s (boardStrobes board) (boardAddress board) n).level
  | .waitN => (waitPin s (!boardLevel board .cs)).level
  | .sdo => sdoBall s board
  | .irq => (irqPin s .portP).drainLevel
  | .sirq => (irqPin s .portS).drainLevel
  | _ => none

/-- What cell i captures; of a control or an output cell R568 does not say what, so it is the operand's bit.
DESIGN CHOICE (log 62). -/
def cellCapture (s : State) (board : BitVec 373) (i : Nat) : Bool :=
  match boundaryCells[i]? with
  | some (.observe x) => (ballLevel s board x).getD (board.getLsbD i)
  | _ => board.getLsbD i

/-- R568: the boundary register after a capture; `board` is what the board sets the balls to. -/
def boundaryCapture (s : State) (board : BitVec 373) : BitVec 373 :=
  BitVec.ofNat 373 ((List.range 373).foldl (fun n i => n + flag (cellCapture s board i) i) 0)

/-! ### Rows -/

/-- R566, R568: EXTEST drives the output cells from the latches; a scan of its boundary register captures the balls and
updates the latches. -/
def tapExtest (s : State) (scan : Option (BitVec 373 × BitVec 373)) : State :=
  let s := tapSelect s 0
  match scan with
  | some (board, update) =>
    if tapOpen s then { s with tap := { s.tap with boundary := boundaryCapture s board, latch := update } } else s
  | none => s

/-- R568: SAMPLE/PRELOAD captures the balls into the boundary register and preloads the output latches. -/
def tapSample (s : State) (board preload : BitVec 373) : State :=
  let s := tapSelect s 1
  if tapOpen s then { s with tap := { s.tap with boundary := boundaryCapture s board, latch := preload } } else s

/-- EXTEST. -/
def execExtest (scan : Option (BitVec 373 × BitVec 373)) (s : State) : Host.Outcome State Fault Refusal :=
  .next (tapExtest s scan)

/-- SAMPLE/PRELOAD. -/
def execSamplePreload (captured preload : BitVec 373) (s : State) : Host.Outcome State Fault Refusal :=
  .next (tapSample s captured preload)

end Sys2Proof.Machine
end

