-- ==== Sys2Proof/Machine/Dispatch.lean ====
section
/-! DEFINITION. The dispatch of a command to its meaning, one arm per row of the table. -/

namespace Sys2Proof.Machine

open Sys2Proof

/-- The effect of a command on everything but the queue. -/
def exec (i : Instr) (s : State) : Host.Outcome State Fault Refusal :=
  match i with
  | .powerOnReset straps => Sys2Proof.Machine.execPowerOnReset straps s
  | .powerOnResetAssertion => Sys2Proof.Machine.execPowerOnResetAssertion s
  | .strapPullupRelease => Sys2Proof.Machine.execStrapPullupRelease s
  | .rootConfirmed restarted => Sys2Proof.Machine.execRootConfirmed restarted s
  | .rootAttemptTimeout => Sys2Proof.Machine.execRootAttemptTimeout s
  | .crystalRestEnd => Sys2Proof.Machine.execCrystalRestEnd s
  | .dividerRelease => Sys2Proof.Machine.execDividerRelease s
  | .zeroFillDone => Sys2Proof.Machine.execZeroFillDone s
  | .ready => Sys2Proof.Machine.execReady s
  | .bootFaceWrite p a v => Sys2Proof.Machine.execBootFaceWrite p a v s
  | .hostWake p v => Sys2Proof.Machine.execHostWake p v s
  | .mreqStandby p expert => Sys2Proof.Machine.execMreqStandby p expert s
  | .mreqRun p expert => Sys2Proof.Machine.execMreqRun p expert s
  | .mreqSleep p expert => Sys2Proof.Machine.execMreqSleep p expert s
  | .modeMergeWindowEnd vS vP => Sys2Proof.Machine.execModeMergeWindowEnd vS vP s
  | .softwareReset p expert => Sys2Proof.Machine.execSoftwareReset p expert s
  | .resetPin => Sys2Proof.Machine.execResetPin s
  | .warmBootStart => Sys2Proof.Machine.execWarmBootStart s
  | .standbyReached => Sys2Proof.Machine.execStandbyReached s
  | .sleepEntered => Sys2Proof.Machine.execSleepEntered s
  | .wakeComplete => Sys2Proof.Machine.execWakeComplete s
  | .reducedFunctionEntry => Sys2Proof.Machine.execReducedFunctionEntry s
  | .reducedFunctionExit => Sys2Proof.Machine.execReducedFunctionExit s
  | .collapse => Sys2Proof.Machine.execCollapse s
  | .corkShipStep => Sys2Proof.Machine.execCorkShipStep s
  | .corkExit straps => Sys2Proof.Machine.execCorkExit straps s
  | .rootLoss pllToo => Sys2Proof.Machine.execRootLoss pllToo s
  | .pllUnlock => Sys2Proof.Machine.execPllUnlock s
  | .holdoverEnd restarted => Sys2Proof.Machine.execHoldoverEnd restarted s
  | .holdoverExpiry => Sys2Proof.Machine.execHoldoverExpiry s
  | .registerWrite p a v w => Sys2Proof.Machine.execRegisterWrite p a v w s
  | .errstatClear p v => Sys2Proof.Machine.execErrstatClear p v s
  | .gen1LowByteWrite ale cs b => Sys2Proof.Machine.execGen1LowByteWrite ale cs b s
  | .portSFrame bits => Sys2Proof.Machine.execPortSFrame bits s
  | .waddrWrite p high v => Sys2Proof.Machine.execWaddrWrite p high v s
  | .wdataRead p => Sys2Proof.Machine.execWdataRead p s
  | .wdataWrite p v => Sys2Proof.Machine.execWdataWrite p v s
  | .wctlWrite p v => Sys2Proof.Machine.execWctlWrite p v s
  | .prefetchLoadDone p ups => Sys2Proof.Machine.execPrefetchLoadDone p ups s
  | .bufferEntryLeave p ups => Sys2Proof.Machine.execBufferEntryLeave p ups s
  | .waitTimeout => Sys2Proof.Machine.execWaitTimeout s
  | .swapRequest p v => Sys2Proof.Machine.execSwapRequest p v s
  | .swapMergeWindowEnd vS vP => Sys2Proof.Machine.execSwapMergeWindowEnd vS vP s
  | .swapConsentLapse => Sys2Proof.Machine.execSwapConsentLapse s
  | .heartbeat p v => Sys2Proof.Machine.execHeartbeat p v s
  | .fdonWrite p v => Sys2Proof.Machine.execFdonWrite p v s
  | .heartbeatMiss => Sys2Proof.Machine.execHeartbeatMiss s
  | .dctlWrite p v => Sys2Proof.Machine.execDctlWrite p v s
  | .dctlView p b => Sys2Proof.Machine.execDctlView p b s
  | .dutyFlushEnd b => Sys2Proof.Machine.execDutyFlushEnd b s
  | .dpwrSet p v => Sys2Proof.Machine.execDpwrSet p v s
  | .dpwrClear p v => Sys2Proof.Machine.execDpwrClear p v s
  | .vlcdGoodRise b => Sys2Proof.Machine.execVlcdGoodRise b s
  | .novlcdTimeout b => Sys2Proof.Machine.execNovlcdTimeout b s
  | .biasSettleEnd b => Sys2Proof.Machine.execBiasSettleEnd b s
  | .vlcdGoodFall b => Sys2Proof.Machine.execVlcdGoodFall b s
  | .vlcdLossTimeout b => Sys2Proof.Machine.execVlcdLossTimeout b s
  | .groundingEnd b => Sys2Proof.Machine.execGroundingEnd b s
  | .releaseEnd b => Sys2Proof.Machine.execReleaseEnd b s
  | .frameBoundary b => Sys2Proof.Machine.execFrameBoundary b s
  | .slotBoundary b ups => Sys2Proof.Machine.execSlotBoundary b ups s
  | .bookingPassEnd b ups => Sys2Proof.Machine.execBookingPassEnd b ups s
  | .trimWrite p v => Sys2Proof.Machine.execTrimWrite p v s
  | .dvlcdView p b => Sys2Proof.Machine.execDvlcdView p b s
  | .trimStep b => Sys2Proof.Machine.execTrimStep b s
  | .tcUpdate => Sys2Proof.Machine.execTcUpdate s
  | .tempUpdate t => Sys2Proof.Machine.execTempUpdate t s
  | .crackMeasurement b m => Sys2Proof.Machine.execCrackMeasurement b m s
  | .dcommit p v => Sys2Proof.Machine.execDcommit p v s
  | .commitEffect p => Sys2Proof.Machine.execCommitEffect p s
  | .dlayerWrite p v => Sys2Proof.Machine.execDlayerWrite p v s
  | .dblinkWrite p v => Sys2Proof.Machine.execDblinkWrite p v s
  | .threadStart p b => Sys2Proof.Machine.execThreadStart p b s
  | .threadStop p b => Sys2Proof.Machine.execThreadStop p b s
  | .animEnd b ups => Sys2Proof.Machine.execAnimEnd b ups s
  | .animCopy b ups => Sys2Proof.Machine.execAnimCopy b ups s
  | .animFill b ups => Sys2Proof.Machine.execAnimFill b ups s
  | .animWait b ups => Sys2Proof.Machine.execAnimWait b ups s
  | .animLoop b ups => Sys2Proof.Machine.execAnimLoop b ups s
  | .animSync b ups => Sys2Proof.Machine.execAnimSync b ups s
  | .animBar b ups => Sys2Proof.Machine.execAnimBar b ups s
  | .animJump b ups => Sys2Proof.Machine.execAnimJump b ups s
  | .instructionLimit b => Sys2Proof.Machine.execInstructionLimit b s
  | .regionDefine p r second v => Sys2Proof.Machine.execRegionDefine p r second v s
  | .regionRelock p r => Sys2Proof.Machine.execRegionRelock p r s
  | .kctlWrite p v => Sys2Proof.Machine.execKctlWrite p v s
  | .keySlot returns cut => Sys2Proof.Machine.execKeySlot returns cut s
  | .kevtRead p => Sys2Proof.Machine.execKevtRead p s
  | .keyLogWrite => Sys2Proof.Machine.execKeyLogWrite s
  | .keyCounterClear p => Sys2Proof.Machine.execKeyCounterClear p s
  | .lctlWrite p v => Sys2Proof.Machine.execLctlWrite p v s
  | .lparamWrite p v => Sys2Proof.Machine.execLparamWrite p v s
  | .lfaultClear p v new => Sys2Proof.Machine.execLfaultClear p v new s
  | .inrushEnd n => Sys2Proof.Machine.execInrushEnd n s
  | .lampAbsoluteShort n e => Sys2Proof.Machine.execLampAbsoluteShort n e s
  | .lampDesaturation n e => Sys2Proof.Machine.execLampDesaturation n e s
  | .lampOverload n e => Sys2Proof.Machine.execLampOverload n e s
  | .lampOvertemp n => Sys2Proof.Machine.execLampOvertemp n s
  | .retryDue n => Sys2Proof.Machine.execRetryDue n s
  | .retryReload n => Sys2Proof.Machine.execRetryReload n s
  | .budgetTick e t0 t1 ion => Sys2Proof.Machine.execBudgetTick e t0 t1 ion s
  | .pwmPeriodStart n => Sys2Proof.Machine.execPwmPeriodStart n s
  | .pwmOnTimeEnd n ion => Sys2Proof.Machine.execPwmOnTimeEnd n ion s
  | .openLoadOn n => Sys2Proof.Machine.execOpenLoadOn n s
  | .openLoadOff n => Sys2Proof.Machine.execOpenLoadOff n s
  | .shortToBattery n => Sys2Proof.Machine.execShortToBattery n s
  | .senseImplausible n => Sys2Proof.Machine.execSenseImplausible n s
  | .gangDerate pair oddConducts onCurrent => Sys2Proof.Machine.execGangDerate pair oddConducts onCurrent s
  | .flasherOnPhase fb => Sys2Proof.Machine.execFlasherOnPhase fb s
  | .flasherOffPhase low fb => Sys2Proof.Machine.execFlasherOffPhase low fb s
  | .bctlWrite p v => Sys2Proof.Machine.execBctlWrite p v s
  | .idmChange p idm => Sys2Proof.Machine.execIdmChange p idm s
  | .conversion m => Sys2Proof.Machine.execConversion m s
  | .harvestRecordWrite => Sys2Proof.Machine.execHarvestRecordWrite s
  | .harvestClear p => Sys2Proof.Machine.execHarvestClear p s
  | .rawSnapshotRead p => Sys2Proof.Machine.execRawSnapshotRead p s
  | .channelBSample raw => Sys2Proof.Machine.execChannelBSample raw s
  | .bvbMinClear p => Sys2Proof.Machine.execBvbMinClear p s
  | .modelLoad p c => Sys2Proof.Machine.execModelLoad p c s
  | .modelValidationDone c ups => Sys2Proof.Machine.execModelValidationDone c ups s
  | .estimatorUpdate c ups => Sys2Proof.Machine.execEstimatorUpdate c ups s
  | .socSnapshotRead p => Sys2Proof.Machine.execSocSnapshotRead p s
  | .crankDip => Sys2Proof.Machine.execCrankDip s
  | .crankEnd => Sys2Proof.Machine.execCrankEnd s
  | .packAbsence x => Sys2Proof.Machine.execPackAbsence x s
  | .packPresent x => Sys2Proof.Machine.execPackPresent x s
  | .pilFrame wave => Sys2Proof.Machine.execPilFrame wave s
  | .identityTimeout => Sys2Proof.Machine.execIdentityTimeout s
  | .packCounterClear p => Sys2Proof.Machine.execPackCounterClear p s
  | .acmdWrite p v => Sys2Proof.Machine.execAcmdWrite p v s
  | .acntWrite p high v => Sys2Proof.Machine.execAcntWrite p high v s
  | .atagWrite p v => Sys2Proof.Machine.execAtagWrite p v s
  | .tagWordEffect p ups => Sys2Proof.Machine.execTagWordEffect p ups s
  | .lockoutEnd => Sys2Proof.Machine.execLockoutEnd s
  | .claimTimeout => Sys2Proof.Machine.execClaimTimeout s
  | .counterWriteDone => Sys2Proof.Machine.execCounterWriteDone s
  | .cork => Sys2Proof.Machine.execCork s
  | .restoreA => Sys2Proof.Machine.execRestoreA s
  | .restoreB => Sys2Proof.Machine.execRestoreB s
  | .ttPolicy => Sys2Proof.Machine.execTtPolicy s
  | .regionUnlock => Sys2Proof.Machine.execRegionUnlock s
  | .cfgLock => Sys2Proof.Machine.execCfgLock s
  | .lampPolicy => Sys2Proof.Machine.execLampPolicy s
  | .debugUnlock => Sys2Proof.Machine.execDebugUnlock s
  | .provisioningRequest readBackOk => Sys2Proof.Machine.execProvisioningRequest readBackOk s
  | .extest scan => Sys2Proof.Machine.execExtest scan s
  | .samplePreload captured preload => Sys2Proof.Machine.execSamplePreload captured preload s
  | .idcode => Sys2Proof.Machine.execIdcode s
  | .clamp => Sys2Proof.Machine.execClamp s
  | .highz => Sys2Proof.Machine.execHighz s
  | .bypass => Sys2Proof.Machine.execBypass s
  | .vendorTest code => Sys2Proof.Machine.execVendorTest code s
  | .ledgerClear p b => Sys2Proof.Machine.execLedgerClear p b s
  | .eccCounterClear p => Sys2Proof.Machine.execEccCounterClear p s
  | .arbstatWrite p v => Sys2Proof.Machine.execArbstatWrite p v s
  | .arbWindowStart waits => Sys2Proof.Machine.execArbWindowStart waits s
  | .scrubBurst ups => Sys2Proof.Machine.execScrubBurst ups s
  | .scrubWriteback ups => Sys2Proof.Machine.execScrubWriteback ups s
  | .rtcLRead p => Sys2Proof.Machine.execRtcLRead p s
  | .rtcLWrite p v => Sys2Proof.Machine.execRtcLWrite p v s
  | .rtcHWrite p v => Sys2Proof.Machine.execRtcHWrite p v s
  | .rtcAlmWrite p v => Sys2Proof.Machine.execRtcAlmWrite p v s
  | .wakestatClear p v => Sys2Proof.Machine.execWakestatClear p v s
  | .aonWriteArrival => Sys2Proof.Machine.execAonWriteArrival s
  | .rtcSecond => Sys2Proof.Machine.execRtcSecond s
  | .alarm => Sys2Proof.Machine.execAlarm s
  | .backupSecond => Sys2Proof.Machine.execBackupSecond s
  | .wakeInputChange w level => Sys2Proof.Machine.execWakeInputChange w level s
  | .vsupLow => Sys2Proof.Machine.execVsupLow s
  | .vioLoss => Sys2Proof.Machine.execVioLoss s
  | .vioReturn => Sys2Proof.Machine.execVioReturn s
  | .bootFaceLive => Sys2Proof.Machine.execBootFaceLive s
  | .strapPullupConnect => Sys2Proof.Machine.execStrapPullupConnect s
  | .gen1LowByteRead ale cs => Sys2Proof.Machine.execGen1LowByteRead ale cs s
  | .lampOvertempRelease n => Sys2Proof.Machine.execLampOvertempRelease n s
  | .vsupLowTrip => Sys2Proof.Machine.execVsupLowTrip s
  | .vsupLowRelease => Sys2Proof.Machine.execVsupLowRelease s
  | .wakeEdgeUnfiltered w => Sys2Proof.Machine.execWakeEdgeUnfiltered w s
  | .vbkupLoss => Sys2Proof.Machine.execVbkupLoss s
  | .vbkupReturn => Sys2Proof.Machine.execVbkupReturn s

end Sys2Proof.Machine
end

