-- ==== Sys2Proof/Machine/Edge.lean ====
section
/-! DEFINITION. What passes with one CK_FRAME cycle while no command waits. -/

namespace Sys2Proof.Machine

open Sys2Proof

/-- The always-on island's part of a CK_FRAME cycle: 8/375 of a CK_AON cycle, where CK_AON runs (Table CLK-2). -/
def aonTick (s : State) : State :=
  if ckAon s then
    let ph := s.aon.phase + 8
    if 375 ≤ ph then aonEdge { s with aon := { s.aon with phase := ph - 375 } }
    else { s with aon := { s.aon with phase := ph } }
  else s

/-- A CK_FRAME edge of the fast domains: power-downs that wait in state 3 act (R269), a waiting L0 burst or a flush
burst runs (R226, R316), commits that waited for a slot are placed (R311), and a key period begins (R185, R343). -/
def frameEdge (s : State) : State :=
  scanEdge (flushEdge (burstEdge (heldPlaced (heldPlaced (downEdge (downEdge s .bankA) .bankB) .bankA) .bankB)))

/-- One CK_FRAME cycle passes; a verification that runs is at its result (R488), and a wipe of the Mailbox that
is owed is made (R500). DESIGN CHOICE (log 1). -/
def tick (s : State) : State :=
  let s := lockoutTick (aonTick { s with now := s.now + 1 })
  if domains s then frameEdge (mailboxWiped (authVerdict s)) else s

end Sys2Proof.Machine
end

