-- ==== Sys2Proof/Safety.lean ====
section
/-! DEFINITION. The terms claims are stated in: when a register row reaches its register's own rule, and the forms of the
state that every command keeps. -/

namespace Sys2Proof.Machine

open Sys2Proof

/-- A write of the word v to the register at word address a reaches that register's own rule, as the word w: the port
is live, the full register file answers, a Gen1 low byte is held for the offset (R104, R105), and CORK-ENTRY does not
refuse it (R577, R212). `gen1Empty s p a` is then the state the rule starts from. -/
def reachesRule (s : State) (p : Port) (a : Fin 64) (v w : Word) : Prop :=
  portLive s p = true ∧ s.pw.face = .full ∧ offOf a < 0x68 ∧ gen1Word s p a v = some w ∧
    (s.pw.mode = .corkEntry → offOf a = 0x16)

/-- A step does not stop. -/
def stepsOn (s : State) : Prop := ∃ t, step s = .next t

/-- A read of a register reaches the register file. -/
def readable (s : State) (p : Port) : Prop := portLive s p = true ∧ s.pw.face = .full

/-- The bounds of the queues that the spec gives a depth: 32 entries of a port's write buffer (R115), four queued
write-backs (R219), and 15 events with one overflow marker in the key FIFO (R350). -/
def queueBounds (s : State) : Prop :=
  s.portP.buf.length ≤ 32 ∧ s.portS.buf.length ≤ 32 ∧ s.arb.wbQ.length ≤ 4 ∧
    (s.keys.fifo.length ≤ 15 ∨ (s.keys.fifo.length = 16 ∧ hasMarker s.keys.fifo = true))

/-- IRQSTAT.KEY stands while the key FIFO holds an event (R173); no event stands in it in BOOT. -/
def keyFlag (s : State) : Prop :=
  (s.keys.fifo ≠ [] → bit s.irqStat 4 = true) ∧ (s.pw.mode = .boot → s.keys.fifo = [])

/-- The state in which a row that writes one page field is captured: in Gen1 with its strobe's address latched (R101). -/
def pageCaptured (s : State) (p : Port) : State := captured (gen1Ale s p (hiAddr 0x0B)) p

/-- A row that writes one page field, with `set` over the field's present word, is accepted and reaches the Cellar at
once, in the state u: the port reads and writes the full register file, nothing is posted before it, the write meets
no refusal at its capture (R110, R578), and the arbiter grants it (R224). -/
def pageAccepted (s u : State) (p : Port) (a : Nat) (set : Word → Word) : Prop :=
  readable s p ∧ (getPort (pageCaptured s p) p).buf = [] ∧ arbServe (pageCaptured s p) (.window p) = some u ∧
    winError (pageCaptured s p) p a (set (pg (pageCaptured s p) a &&& wordOf (pageWord a).stored)) = none

/-- A key slot that begins with the Trellis at k leaves key n in the scanned set: with the boot scan's last slot the
settings written during it take effect (R352, R354). -/
def keyStays (s : State) (k : Keys) (n : Nat) : Bool :=
  decide (k.boot ≠ 1 ∨ k.line < k.cur.lines) || (scannedKeys (keySettings s) &&& scannedKeys k.cur).getLsbD n

/-- What a port returns of a word read: in Gen1 on Port P its low byte, with bits 15:8 zero (R102). -/
def onPortBus (s : State) (p : Port) (w : Word) : Word :=
  if p = .portP ∧ s.pw.gen = .gen1 then (loByte w).zeroExtend 16 else w

/-- No byte changes but the n from address a on. -/
def onlyBytes (s t : State) (a n : Nat) : Prop := ∀ x, x < a ∨ a + n ≤ x → Cellar.get t.mem x = Cellar.get s.mem x

/-- The animation thread of a bank is to run the instruction at its PC, and the arbiter grants its L5 burst, in the state
u (R224, R327; how the arbiter serves a row is the model's choice, log entry 49); with the upsets `ups` the instruction
has the opcode `op`, zeros in the `n` reserved bits from `lo` on, and no uncorrectable error (R326, R328, Table CEL-3). -/
def animReady (s u : State) (ups : List Upset) (b : Bank) (op lo n : Nat) : Prop :=
  threadReq s b = true ∧ arbServe s (.low 5) = some u ∧
    eccBad (upsets u ups) (animAddr (getBank u b).thr.pc.toNat) = false ∧ ifld (animFetch (upsets u ups) b) 61 3 = op ∧
    ifld (animFetch (upsets u ups) b) lo n = 0

/-- The state in which an animation instruction acts: the fetch has read its ECC word and had its L5 burst. -/
def animRead1 (s : State) (b : Bank) : State := grantLow (eccRead s (animAddr (getBank s b).thr.pc.toNat)) 5 1

/-- Pixels of a line after a write of the pixels of m from v, but for locked ones (R325). -/
def mixLine (old v m locked : BitVec 128) : BitVec 128 := (old &&& ~~~ (m &&& ~~~ locked)) ||| (v &&& (m &&& ~~~ locked))

end Sys2Proof.Machine
end

