-- ==== Sys2Proof/Certificates/Slice0/Obligations.lean ====
section
/-! DEFINITION. The statements for the provers, each a `Prop` under its own name; the comment of each says which rule of
the spec it formalises, or which log entry it rests on. -/

open Sys2Proof Sys2Proof.Machine


/-! ### The step, reset and the queue -/

/-- The block's step takes the command at the front of the queue and runs it with the rest (the queue is the model's
own form of the command interface, log entry 1). -/
def Obligations.StepRunsFrontCommand : Prop :=
  ∀ (c : Instr) (rest : List Instr) (s : State),
    step { s with pending := c :: rest } = exec c { s with pending := rest }

/-- With no command waiting one CK_FRAME cycle passes (the idle tick is the model's choice, log entry 1). Without a
CK_AON (Table CLK-2) the always-on island and the lockout stand still; 8/375 of a CK_AON cycle passes with it (R508),
and R492: the lockout's rest counts down with it alone. Where the fast domains do not run, nothing else changes; where
they do, a power-down pending in state 3 grounds its bank (R269); the result of a verification that runs, and a wipe
of the Mailbox that is owed, have their own statement. Every command leaves the queue alone: it acts on everything but
the waiting commands (the model's form, log entry 1). -/
def Obligations.IdleStepTicksAndCommandsKeepTheQueue : Prop :=
  (∀ s : State, s.pending = [] →
      (ckAon s = false → domains s = false → step s = .next { s with now := s.now + 1 }) ∧
      (ckAon s = true → domains s = false → s.aon.phase < 367 → s.auth.lockOn = false →
        step s = .next { s with now := s.now + 1, aon := { s.aon with phase := s.aon.phase + 8 } }) ∧
      (s.auth.verify = none → s.auth.wipe = false → ∃ t, step s = .next t ∧ t.now = s.now + 1 ∧ t.pending = [] ∧
        (domains s = true → ∀ b, (getBank s b).drv.sta = .allOff → (getBank s b).drv.pend ≠ .none →
          (getBank t b).drv.sta = .grounding) ∧
        (ckAon s = false → t.aon = s.aon ∧ t.auth = s.auth) ∧
        (ckAon s = true → s.auth.lockOn = true → 1 < s.auth.lockLeft →
          t.auth = { s.auth with lockLeft := s.auth.lockLeft - 1 }) ∧
        (ckAon s = true → 367 ≤ s.aon.phase → t.aon.phase = s.aon.phase - 367))) ∧
  (∀ (c : Instr) (s t : State), exec c s = .next t → t.pending = s.pending)

/-- Table REG-1: the registers at READY of a cold boot, on either port, apart from those whose READY value depends on
the straps, the pack or the wake inputs. Where the supplies and those inputs decide, the levels are those of
State.reset (log entry 2): VSUP full at 0x04, no wake event at 0x08, no VLCD good at 0x1E. Reset has the canonical
memory and the queue bounds. -/
def Obligations.ResetReadsTableREG1 : Prop :=
  ((∀ p : Port, ∀ x ∈ ([(0x00, 0x4096), (0x02, 0x00B0), (0x04, 0x0001), (0x06, 0), (0x08, 1), (0x0A, 1), (0x0C, 0),
        (0x0E, 0), (0x12, 0), (0x14, 0), (0x18, 5), (0x1A, 0x00A7), (0x1C, 0), (0x1E, 0), (0x20, 0), (0x22, 0), (0x24, 0),
        (0x26, 0x0100), (0x28, 3), (0x2A, 0x7F34), (0x2C, 0), (0x30, 0), (0x32, 0), (0x34, 0), (0x36, 0x03E8), (0x38, 0),
        (0x3A, 0x0027), (0x3C, 0), (0x3E, 0xFFFF), (0x40, 0xFFFF), (0x42, 0), (0x44, 0x8000), (0x46, 0x8000), (0x4A, 0),
        (0x4C, 0), (0x4E, 0), (0x50, 0), (0x56, 0), (0x5A, 0), (0x5C, 0x0103), (0x62, 0), (0x66, 0)] : List (Nat × Word)),
      regValue State.reset p x.1 = x.2) ∧
    State.reset.pending = [] ∧ (∀ a, Cellar.get State.reset.mem a = Cellar.blank a)) ∧
  (Cellar.wf State.reset.mem = true ∧ queueBounds State.reset)

/-- Every command answers a next state, and so does every step: no command of the table stops the block. -/
def Obligations.EveryStepGoesOn : Prop :=
  (∀ (c : Instr) (s : State), ∃ t, exec c s = .next t) ∧ ∀ s : State, stepsOn s

/-- The Cellar's list keeps its canonical form (addresses strictly rising, no entry equal to the blank byte; the
model's own form, log entry 1) in every step. -/
def Obligations.CellarStaysCanonical : Prop :=
  ∀ s t : State, Cellar.wf s.mem = true → step s = .next t → Cellar.wf t.mem = true

/-- R115, R350, R219: the write buffers, the key FIFO with its one marker, and the write-back queue keep their depths
in every step. -/
def Obligations.QueuesKeepTheirDepth : Prop :=
  ∀ s t : State, queueBounds s → step s = .next t → queueBounds t

/-- R499, R500: no command but the provisioning request changes an OTP key slot, and none changes the UID; R490: the
cells of the replay counter change only at a counter write, or at a loss of supply, a reset or the entry to or exit
from Cork mode, which can cut one. -/
def Obligations.OtpAndCounterAreWrittenOnlyByTheirRules : Prop :=
  ∀ (c : Instr) (s t : State), exec c s = .next t →
    t.nv.uid = s.nv.uid ∧
    ((∀ ok, c ≠ .provisioningRequest ok) → t.nv.kApp = s.nv.kApp ∧ t.nv.kSup = s.nv.kSup) ∧
    (c ≠ .counterWriteDone → (∀ x, c ≠ .powerOnReset x) → c ≠ .powerOnResetAssertion → (∀ x, c ≠ .corkExit x) →
      c ≠ .corkShipStep → c ≠ .warmBootStart → c ≠ .holdoverExpiry → t.nv.cells = s.nv.cells ∧ t.nv.acc = s.nv.acc)

/-! ### Supply, straps, boot, modes, resets, holdover -/

/-- R65, R60, R67, R33, R34: power-on reset, its assertion and the exit of Cork mode. From OFF, VSUP through 5.0 V
starts a cold boot with RCAUSE 0, the generation and the clock source of the sampled straps, a dead face and, with
CLKSRC low, a root attempt; 10 ms of CHG_DET start one from Cork mode with RCAUSE 4; both in reduced function (log
entry 33); VSUP below 3.6 V is OFF from every mode. The Cellar is zero-filled, and the OTP slots and the UID outlive
each of them. -/
def Obligations.PowerOnPowerLossAndCorkExit : Prop :=
  (∀ (x : Straps) (s : State), s.pw.mode = .off → ∃ t, exec (.powerOnReset x) s = .next t ∧
    t.pw.mode = .boot ∧ t.pw.rcause = 0 ∧ t.pw.bstep = 1 ∧ t.pw.face = .dead ∧ t.pw.reduced = true ∧
    t.pw.gen = genOf (Samples.level x.busgen1) (Samples.level x.busgen0) ∧ t.clk.src = Samples.level x.clksrc ∧
    t.pw.roleStrap = Samples.level x.role ∧ t.clk.rootOk = false ∧ t.clk.attempting = (!Samples.level x.clksrc) ∧
      t.mem = [] ∧
    t.irqStat = 0 ∧ t.nv.kApp = s.nv.kApp ∧ t.nv.kSup = s.nv.kSup ∧ t.nv.uid = s.nv.uid) ∧
  (∀ (x : Straps) (s : State), s.pw.mode = .cork → ∃ t, exec (.corkExit x) s = .next t ∧
    t.pw.mode = .boot ∧ t.pw.rcause = 4 ∧ t.pw.bstep = 1 ∧ t.pw.face = .dead ∧ t.pw.reduced = true ∧
    t.pw.gen = genOf (Samples.level x.busgen1) (Samples.level x.busgen0) ∧
      t.clk.attempting = (!Samples.level x.clksrc) ∧ t.mem = [] ∧
    t.bak.bkv = false ∧ t.nv.kApp = s.nv.kApp ∧ t.nv.kSup = s.nv.kSup ∧ t.nv.uid = s.nv.uid) ∧
  (∀ s : State, s.pw.mode ≠ .off → ∃ t, exec .powerOnResetAssertion s = .next t ∧
    t.pw.mode = .off ∧ t.pw.face = .dead ∧ t.pw.shipG = false ∧ t.clk.rootOk = false ∧ t.mem = [] ∧
    t.lamps = Lamps.ready ∧ t.nv.kApp = s.nv.kApp ∧ t.nv.kSup = s.nv.kSup ∧ t.nv.uid = s.nv.uid ∧
      t.bak.sec = s.bak.sec)

/-- R562: VSUP through 3.0 V in OFF connects the strap pull-ups and their input buffers, and 100 µs after release both
are off; neither changes anything else. In Cork mode neither acts, and in OFF the release does not. R69, R31, R34,
R36, R216: the boot face goes live and BSTEP moves on to the root; the root is confirmed and the PLL starts, with
FSUSED 1 where a stopped crystal was restarted (R33); an unconfirmed attempt ends after 60 ms, with the crystal at
rest, and a new one begins after the rest; the dividers are released, which is the PWM epoch (R376); the zero-fill
ends, with every word of the Cellar at its fill, but that it leaves the ledger of the Balance cask where that outlives
a warm boot, which is free (log entry 33). Each changes what is named here and nothing else. R75, R73, R77: READY sets
STANDBY, brings the full register file, sets IRQSTAT.READY, and IRQSTAT.WAKE where a wake event is latched; the
discarded writes of the boot face are reported once, with code BOOTWR. -/
def Obligations.StrapAndBootStepsAdvance : Prop :=
  ((∀ s : State, s.pw.mode = .off →
      exec .strapPullupConnect s = .next { s with pw := { s.pw with strapPull := true, strapBuf := true } }) ∧
    (∀ s : State, s.pw.mode ≠ .off → exec .strapPullupConnect s = .next s) ∧
    (∀ s : State, s.pw.mode ≠ .off → s.pw.mode ≠ .cork →
      exec .strapPullupRelease s = .next { s with pw := { s.pw with strapPull := false, strapBuf := false } }) ∧
    (∀ s : State, s.pw.mode = .off ∨ s.pw.mode = .cork → exec .strapPullupRelease s = .next s)) ∧
  ((∀ s : State, s.pw.mode = .boot → s.pw.face = .dead → exec .bootFaceLive s = .next { s with
      pw := { s.pw with face := .bootFace, bstep := if s.pw.bstep = 1 then 2 else s.pw.bstep } }) ∧
    (∀ s : State, s.pw.mode = .boot → s.clk.rootOk = false → ∀ r : Bool, exec (.rootConfirmed r) s = .next { s with
      pw := { s.pw with bstep := 3 }
      clk := { s.clk with rootOk := true, attempting := false, sleepLost := false, xtalRuns := !s.clk.src
                          fsUsed := s.clk.fsUsed || (r && !s.clk.src) } }) ∧
    (∀ s : State, s.pw.mode = .boot → s.clk.src = false → s.clk.rootOk = false → s.clk.attempting = true →
      exec .rootAttemptTimeout s = .next { s with clk := { s.clk with attempting := false, xtalRuns := false } }) ∧
    (∀ s : State, s.pw.mode = .boot → s.clk.src = false → s.clk.rootOk = false → s.clk.attempting = false →
      exec .crystalRestEnd s = .next { s with
        clk := { s.clk with attempting := true, fsUsed := true
                            starts := if warmRunning s then s.clk.starts else min 15 (s.clk.starts + 1) } }) ∧
    (∀ s : State, s.pw.mode = .boot → s.clk.rootOk = true → s.clk.released = false →
      exec .dividerRelease s = .next { s with
        clk := { s.clk with pllLock := true, released := true }, pw := { s.pw with bstep := 4 }
        lamps := { s.lamps with epoch := 2 * s.now } }) ∧
    (∀ s : State, s.pw.mode = .boot → s.clk.released = true → s.pw.bstep = 4 →
      ∃ t, exec .zeroFillDone s = .next t ∧
        t = { s with mem := t.mem, arb := { s.arb with ecc := s.arb.ecc.filter (fun e => fillKeeps s e.1) }
                     pw := { s.pw with bstep := 5 } } ∧
        (warmRunning s = false → t.mem = [] ∧ t.arb.ecc = []) ∧
        ∀ x, Cellar.get t.mem x = if fillKeeps s x then Cellar.get s.mem x else Cellar.get [] x)) ∧
  (∀ s : State, s.pw.mode = .boot → s.clk.released = true → s.pw.bstep = 5 → s.pw.rst = .noReset →
      ∃ t, exec .ready s = .next t ∧ t.pw.mode = .standby ∧ t.pw.face = .full ∧ t.pw.bstep = 0 ∧
        bit t.irqStat 0 = true ∧ bit t.irqStat 11 = decide (s.aon.latch &&& 7 ≠ 0) ∧
        t.portP.disc = 0 ∧ t.portS.disc = 0 ∧
        (s.portP.disc + s.portS.disc ≠ 0 → t.err.code = eBOOTWR ∧
          t.err.info = wordOf (flag (decide (0 < s.portS.disc)) 15 + flag (decide (0 < s.portP.disc)) 14
            + min 0x3FFF (s.portP.disc + s.portS.disc))))

/-- R69, R71: the boot face discards a write and counts it, and changes nothing else but that in Gen1 its strobe's
address is latched (R101) and a pair which it completes empties the write latch; in SLEEP with HOSTWAKE 1 a SYSCTL
write with MREQ 1 and RSTKEY 0, whatever its other bits, is a host wake instead: it is not counted and changes no
register field but the transition that SYSSTAT shows (in Gen1 it takes MREQ from the write latch (R105, R107), which
it empties). That a discarded pair, and the strobe of a host wake, empty the write latch is the model's reading (log
entry 56, DEDUCED). -/
def Obligations.BootFaceDiscardsOrWakes : Prop :=
  (∀ (p : Port) (a : Fin 64) (v : Word) (s : State), portLive s p = true → s.pw.face = .bootFace →
    isHostWake s p a v = false → exec (.bootFaceWrite p a v) s =
      .next (setPort (gen1Spent s p a) p
        { getPort (gen1Spent s p a) p with disc := (getPort s p).disc + 1 })) ∧
  (∀ (p : Port) (v : Word) (s : State), portLive s p = true → s.pw.face = .bootFace → s.pw.mode = .sleep →
    s.pw.trans = .idle → pgb s 0xE406 1 = true → (p = .portP → s.pw.gen ≠ .gen1) → fld v 0 3 = 1 → fld v 8 8 = 0 →
    exec (.hostWake p v) s = .next { s with pw := { s.pw with trans := .wake } }) ∧
  (∀ (lo : Byte) (v : Word) (s : State), portLive s .portP = true → s.pw.face = .bootFace → s.pw.mode = .sleep →
    s.pw.trans = .idle → pgb s 0xE406 1 = true → s.pw.gen = .gen1 → s.portP.g1wr = some (3, lo) → lo.toNat % 8 = 1 →
    fld v 8 8 = 0 → exec (.hostWake .portP v) s = .next { s with
      pw := { s.pw with trans := .wake }, portP := { s.portP with g1wr := none, ale := 7 } })

/-- R23, R24, R57, R59: an allowed mode request that reaches SYSCTL. RUN from STANDBY is reached at once and powers no
glass; STANDBY from RUN begins the power-down, with every lamp off and the DPWR and LCTL.ON requests cleared; SLEEP
from STANDBY begins its entry, unless a command is being verified or executed. EXPERT takes the value written. -/
def Obligations.AllowedModeRequestsAreExecuted : Prop :=
  (∀ (p : Port) (e : Bool) (w : Word) (s : State), reachesRule s p 3 (sysctlWord 2 0 e) w → fld w 0 3 = 2 →
    fld w 8 8 = 0 → s.pw.mode = .standby → s.pw.trans = .idle → s.clk.expiring = false → tapHoldsRun s = false →
    ∃ t, exec (.mreqRun p e) s = .next t ∧ t.pw = { s.pw with mode := .run, expert := bit w 3 } ∧
      t.bankA = s.bankA ∧ t.bankB = s.bankB ∧ t.mem = s.mem ∧ t.irqStat = s.irqStat ∧ t.err = s.err) ∧
  (∀ (p : Port) (e : Bool) (w : Word) (s : State), reachesRule s p 3 (sysctlWord 1 0 e) w → fld w 0 3 = 1 →
    fld w 8 8 = 0 → s.pw.mode = .run → s.pw.trans = .idle → s.clk.expiring = false → s.roles.fdon = false →
    ∃ t, exec (.mreqStandby p e) s = .next t ∧ t.pw = { s.pw with trans := .toStandby, expert := bit w 3 } ∧
      t.lamps.lctl = s.lamps.lctl &&& 0xFF00 ∧ (∀ n, powered (getLamp t n) = false) ∧
      t.bankA.drv.req = false ∧ t.bankA.drv.reqNext = none ∧ t.bankB.drv.req = false ∧ t.bankB.drv.reqNext = none ∧
      t.err = s.err) ∧
  (∀ (p : Port) (e : Bool) (w : Word) (s : State), reachesRule s p 3 (sysctlWord 3 0 e) w → fld w 0 3 = 3 →
    fld w 8 8 = 0 → s.pw.mode = .standby → s.pw.trans = .idle → s.clk.expiring = false → wakeEnabled s = true →
    wakeActive s = false → authBusy s = false →
    exec (.mreqSleep p e) s = .next { gen1Empty s p 3 with pw := { s.pw with trans := .toSleep, expert := bit w 3 } })

/-- R57, R58, R66, R83, in the order of R578: a SYSCTL write that may not have its effect is refused whole, with
ERRINFO 0x06 and nothing else changed: a software reset that the role may not ask for with OWNER, an undefined or a
double request with RANGE, a request out of its mode or during a transition with STATE, and so a software reset during
a transition or with the forced display on in RUN. R85: in one merge window two RUN requests are one, different
requests leave Port P refused where Port S is accepted, and Port P judged alone where Port S is refused, an identical
request too, whose record stands with OVR set (R204; log entry 34, DEDUCED; Port P in Gen2 or Gen3, whose write
carries the whole word); R137: the next frame of Port S answers its write of that window. -/
def Obligations.SysctlRefusalsAndMergedModeRequests : Prop :=
  (∀ (p : Port) (v w : Word) (s : State), reachesRule s p 3 v w →
      (fld w 8 8 = 0xC3 → mayReset s p = false →
        exec (.registerWrite p 3 v .alone) s = .next (refuse (gen1Empty s p 3) p eOWNER 0x06)) ∧
      ((fld w 8 8 ≠ 0xC3 ∨ mayReset s p = true) →
        (3 < fld w 0 3 ∨ (fld w 8 8 ≠ 0 ∧ fld w 8 8 ≠ 0xC3) ∨ (fld w 0 3 ≠ 0 ∧ fld w 8 8 ≠ 0)) →
        exec (.registerWrite p 3 v .alone) s = .next (refuse (gen1Empty s p 3) p eRANGE 0x06)) ∧
      (fld w 0 3 ≠ 0 → fld w 0 3 ≤ 3 → fld w 8 8 = 0 → (s.pw.trans ≠ .idle ∨ modeAllowed s (fld w 0 3) = false) →
        exec (.registerWrite p 3 v .alone) s = .next (refuse (gen1Empty s p 3) p eSTATE 0x06)) ∧
      (fld w 0 3 = 0 → fld w 8 8 = 0xC3 → mayReset s p = true →
        (s.pw.trans ≠ .idle ∨ (s.roles.fdon = true ∧ s.pw.mode = .run)) →
        exec (.registerWrite p 3 v .alone) s = .next (refuse (gen1Empty s p 3) p eSTATE 0x06) ∧
        ∀ e : Bool, v = sysctlWord 0 0xC3 e →
          exec (.softwareReset p e) s = .next (refuse (gen1Empty s p 3) p eSTATE 0x06))) ∧
  (∀ s : State, reachesRule s .portS 3 2 2 → reachesRule s .portP 3 2 2 → s.pw.gen ≠ .gen1 → s.pw.mode = .standby →
      s.pw.trans = .idle → s.clk.expiring = false → tapHoldsRun s = false →
      (∃ t, exec (.modeMergeWindowEnd 2 2) s = .next t ∧ t.pw.mode = .run ∧ t.err = s.err ∧ t.spi = .answer 0 3 2) ∧
      (∃ t, exec (.modeMergeWindowEnd 2 3) s = .next t ∧ t.pw.mode = .run ∧ t.err.code = eSTATE ∧ t.err.src = 1 ∧
        t.spi = .answer 0 3 2) ∧
      (∃ t, exec (.modeMergeWindowEnd 1 2) s = .next t ∧ t.pw.mode = .run ∧ t.err.code = eSTATE ∧ t.err.src = 2 ∧
        t.spi = .answer 2 3 0x0001) ∧
      (∃ t, exec (.modeMergeWindowEnd 1 1) s = .next t ∧ t.pw = s.pw ∧ t.err.code = eSTATE ∧ t.err.src = 1 ∧
        t.err.ovr = true ∧ t.spi = .answer 2 3 0x0001))

/-- R65, R66, R69, R76, R89: a permitted software reset and RESET# switch every lamp off and clear the power-on
requests (at the recognition of RESET# by log entry 33); RESET# grounds a driven bank at once, and an accepted CORK
that waits under it is discarded. When the glass is down the warm boot begins, with RCAUSE 1 for RESET# and 2 for a
software reset, on the boot face; the Cellar is zeroed, but that whether the ledger of the Balance cask outlives it is
free (R294, log entry 33); channel B's minimum and latest sample stay in the island (R404, log entry 28); the keys and
the UID, the counter's cells but for a write that is cut (R490), the backup domain, the always-on registers and FSUSED
(R168) and the lockout, counting on (R493), stay. That the writes on their way to the always-on registers stay too is
the model's choice (log entry 28, DEDUCED): R168 names register values only. -/
def Obligations.ResetsLeadToAWarmBoot : Prop :=
  (∀ (p : Port) (e : Bool) (w : Word) (s : State), reachesRule s p 3 (sysctlWord 0 0xC3 e) w → fld w 0 3 = 0 →
    fld w 8 8 = 0xC3 → mayReset s p = true → s.pw.trans = .idle → (s.roles.fdon = true → s.pw.mode ≠ .run) →
    ∃ t, exec (.softwareReset p e) s = .next t ∧ t.pw = { s.pw with rst := .soft, expert := bit w 3 } ∧
      (∀ n, powered (getLamp t n) = false) ∧ t.bankA.drv.req = false ∧ t.bankB.drv.req = false) ∧
  (∀ s : State, s.pw.mode ≠ .off → s.pw.mode ≠ .cork →
    ∃ t, exec .resetPin s = .next t ∧ t.pw = { s.pw with rst := .pin, trans := .idle, face := .bootFace } ∧
      (∀ n, powered (getLamp t n) = false) ∧ t.bankA.drv.req = false ∧ t.bankB.drv.req = false ∧
      (driven s.bankA.drv = true → t.bankA.drv.sta = .grounding) ∧
      (driven s.bankB.drv = true → t.bankB.drv.sta = .grounding)) ∧
  (∀ (a : Accepted) (s : State), s.auth.accepted = some a → s.auth.verify = none → s.pw.rst = .pin →
    exec .cork s = .next s) ∧
  (∀ s : State, banksQuiet s = true → (s.pw.rst = .pin ∨ (s.pw.rst = .soft ∧ s.clk.expiring = false)) →
    ∃ t, exec .warmBootStart s = .next t ∧ t.pw.mode = .boot ∧ t.pw.face = .bootFace ∧
      t.pw.rcause = (if s.pw.rst = .pin then 1 else 2) ∧ t.pw.bstep = (if s.clk.rootOk then 3 else 2) ∧
      (∀ x, Cellar.get t.mem x = if Config.ledgerOutlives && inBalance x
        then Cellar.get (ledgerBooked (ledgerBooked s .bankA) .bankB).mem x else Cellar.get [] x) ∧
      (∀ b, (getBank t b).led.skipped = (Config.ledgerOutlives && (getBank s b).led.skipped)) ∧
      t.batB = { BatB.ready with raw := s.batB.raw, bvbMin := s.batB.bvbMin } ∧
      t.irqStat = 0 ∧ t.pw.gen = s.pw.gen ∧ t.bak = s.bak ∧
      t.clk.attempting = (!s.clk.rootOk && !s.clk.src) ∧ t.nv.kApp = s.nv.kApp ∧ t.nv.kSup = s.nv.kSup ∧
      t.nv.uid = s.nv.uid ∧ (s.auth.accepted = none → t.nv = s.nv) ∧ t.aon.sec = s.aon.sec ∧
        t.aon.latch = s.aon.latch ∧ t.aon.wakectl = s.aon.wakectl ∧ t.aon.q = s.aon.q ∧
      t.clk.fsUsed = s.clk.fsUsed ∧
      t.auth.lockOn = s.auth.lockOn ∧ t.auth.lockLeft = s.auth.lockLeft ∧ t.auth.lockLvl = s.auth.lockLvl)

/-- R23, R78, R79, R355: the ends of the transitions. STANDBY is reached when both banks are down; SLEEP is entered
with empty buffers, on the boot face, keeping the key bitmap and discarding the debounce counts, and where the root is
lost then the RTC stops with TIMESUB set (R47, R48; that the holdover ends there, with HOLD 0, is the model's choice,
log entry 30, DEDUCED); the wake completes in STANDBY with IRQSTAT.WAKE and the heartbeat time restarted. R81, Table
PWR-6: at the SHIP_G step a charger turns the sequence back to STANDBY with a STATE record whose ERRINFO is 0x4A;
without one SHIP_G goes low and the machine is in Cork mode, its memory lost; its keys stay, and its counter with its
cells and its number of accepted commands where no counter write is cut (R490). -/
def Obligations.TransitionsReachTheirMode : Prop :=
  ((∀ s : State, s.pw.trans = .toStandby → s.pw.mode = .run → banksQuiet s = true →
      ∃ t, exec .standbyReached s = .next t ∧ t.pw = { s.pw with mode := .standby, trans := .idle } ∧
        t.bankA = s.bankA ∧ t.bankB = s.bankB ∧ t.mem = s.mem ∧ t.irqStat = s.irqStat) ∧
    (∀ s : State, s.pw.trans = .toSleep → s.pw.mode = .standby → s.pw.rst = .noReset → s.portP.buf = [] →
      s.portS.buf = [] → s.auth.verify = none → s.auth.wipe = false → ∃ t, exec .sleepEntered s = .next t ∧
        (s.clk.hold = true → s.clk.rootOk = false → t.clk.timeSub = true ∧ t.clk.hold = false) ∧
        t.pw = { s.pw with mode := .sleep, trans := .idle, face := .bootFace } ∧ t.keys.kmap = s.keys.kmap ∧
        t.keys.amap = s.keys.amap ∧ t.keys.fifo = s.keys.fifo ∧ t.keys.counts = Vector.replicate 128 0 ∧
        t.mem = s.mem ∧ t.bankA.drv.sta = s.bankA.drv.sta ∧ t.bankA.led = s.bankA.led ∧
        (s.batA.ending = false → t.irqStat = s.irqStat) ∧ t.portP.held = .none) ∧
    (∀ s : State, s.pw.trans = .wake → s.pw.mode = .sleep → s.clk.rootOk = true → s.pw.rst = .noReset →
      ∃ t, exec .wakeComplete s = .next t ∧ t.pw.mode = .standby ∧ t.pw.trans = .idle ∧ t.pw.face = .full ∧
        bit t.irqStat 11 = true ∧ t.roles.hbRef = s.now ∧ t.portP.disc = 0 ∧ t.portS.disc = 0)) ∧
  (∀ s : State, s.pw.mode = .corkEntry → s.pw.trans = .corkSeq → banksQuiet s = true → s.clk.expiring = false →
      s.pw.rst = .noReset → s.portP.buf = [] → s.portS.buf = [] →
      (s.aon.chg = false → ∃ t, exec .corkShipStep s = .next t ∧ t.pw.mode = .cork ∧ t.pw.shipG = false ∧
        t.pw.face = .dead ∧ t.mem = [] ∧ t.nv.kApp = s.nv.kApp ∧ t.nv.kSup = s.nv.kSup ∧ t.nv.uid = s.nv.uid ∧
        (s.auth.accepted = none → t.nv = s.nv)) ∧
      (s.aon.chg = true → s.arb.ecc = [] → ∃ t, exec .corkShipStep s = .next t ∧ t.pw.mode = .standby ∧
        t.pw.trans = .idle ∧
        t.err.code = eSTATE ∧ t.err.info = 0x4A ∧ t.pw.shipG = s.pw.shipG))

/-- R41, R42, R44, R46, R47, Table CLK-5: with HOLD_EN a root loss or a loss of lock in STANDBY, RUN or CORK-ENTRY
enters holdover and sets its flags (a root loss takes the lock with it and counts the crystal as stopped, log entry
30); in SLEEP a root loss is only recorded, and UNLOCK is set where the PLL, restarted at the exit, loses its lock
(R79, R48); holdover ends with the root confirmed and the PLL locked. Each of these changes the clock block alone (in
SLEEP also the note that a second was sub-standard). With HOLD_EN 0 the expiry reaction of R45 starts at once. In BOOT
neither loss causes a holdover: the boot goes back to the root, or to the PLL's start, and a loss of lock in a warm
boot sets UNLOCK (R48). R45, R47, R88: when the holdover limit runs out, the lamps go off and the banks power down;
where they are down and no counter write is in progress the clock-failure reset follows at once, a cold boot with
RCAUSE 3, but where a recognised RESET# has a warm boot take its place (log entry 61); in SLEEP it follows from the
expiry itself. -/
def Obligations.RootLossHoldoverAndExpiry : Prop :=
  ((∀ (u : Bool) (s : State), active s = true → s.clk.rootOk = true → pgb s 0xE400 0 = true →
      exec (.rootLoss u) s = .next { s with clk := { s.clk with
        rootOk := false, rootLoss := true, unlock := s.clk.unlock || (u && s.clk.pllLock), pllLock := false
        xtalRuns := false, hold := true, timeSub := true
        holdLimit := if s.clk.hold then s.clk.holdLimit else (pg s 0xE402).toNat } }) ∧
    (∀ (u : Bool) (s : State), s.pw.mode = .sleep → s.clk.rootOk = true →
      exec (.rootLoss u) s = .next { s with
        clk := { s.clk with rootOk := false, rootLoss := true, timeSub := true, sleepLost := true, xtalRuns := false
                            unlock := s.clk.unlock || (u && decide (s.pw.trans = .wake)) }
        aon := { s.aon with sleepSub := true } } ∧
      exec .pllUnlock s = .next (if s.pw.trans = .wake then { s with clk := { s.clk with unlock := true, pllLock := false } }
        else s)) ∧
    (∀ s : State, active s = true → s.clk.rootOk = true → s.clk.pllLock = true → pgb s 0xE400 0 = true →
      exec .pllUnlock s = .next { s with clk := { s.clk with
        unlock := true, pllLock := false, hold := true, timeSub := true
        holdLimit := if s.clk.hold then s.clk.holdLimit else (pg s 0xE402).toNat } }) ∧
    (∀ (u : Bool) (s : State), active s = true → s.clk.rootOk = true → s.clk.hold = false → pgb s 0xE400 0 = false →
      (banksQuiet s = true → s.auth.accepted = none → s.pw.rst ≠ .pin → ∃ t, exec (.rootLoss u) s = .next t ∧
        t.pw.mode = .boot ∧
        t.pw.rcause = 3 ∧ t.mem = []) ∧
      (s.bankA.drv.sta = .content → ∃ t, exec (.rootLoss u) s = .next t ∧ t.clk.expiring = true ∧
        t.clk.rootLoss = true ∧
        t.clk.timeSub = true ∧ t.pw.mode = s.pw.mode ∧ t.bankA.drv.pend = .other ∧ t.bankA.drv.req = false ∧
        ∀ n, powered (getLamp t n) = false) ∧
      (s.clk.pllLock = true → s.bankA.drv.sta = .content → ∃ t, exec .pllUnlock s = .next t ∧ t.clk.expiring = true ∧
        t.clk.unlock = true ∧ t.clk.rootOk = true ∧ t.bankA.drv.pend = .other ∧ ∀ n, powered (getLamp t n) = false)) ∧
    (∀ (u : Bool) (s : State), s.pw.mode = .boot → s.clk.rootOk = true →
      (∃ t, exec (.rootLoss u) s = .next t ∧ t.pw = { s.pw with bstep := 2 } ∧ t.clk.rootOk = false ∧
        t.clk.pllLock = false ∧ t.clk.released = false ∧ t.clk.hold = s.clk.hold ∧ t.clk.expiring = s.clk.expiring ∧
        t.clk.attempting = (!s.clk.src) ∧ t.clk.unlock = (s.clk.unlock || (u && warmRunning s)) ∧ t.mem = s.mem ∧
        t.lamps = s.lamps) ∧
      (∃ t, exec .pllUnlock s = .next t ∧ t.pw = { s.pw with bstep := 3 } ∧
        t.clk.rootOk = true ∧ t.clk.pllLock = false ∧ t.clk.released = false ∧ t.clk.hold = s.clk.hold ∧
        t.clk.unlock = (s.clk.unlock || warmRunning s) ∧ t.mem = s.mem ∧ t.lamps = s.lamps)) ∧
    (∀ (r : Bool) (s : State), active s = true → s.clk.hold = true → s.clk.expiring = false →
      exec (.holdoverEnd r) s = .next { s with clk := { s.clk with
        hold := false, rootOk := true, pllLock := true, xtalRuns := !s.clk.src
        fsUsed := if r then !s.clk.src else s.clk.fsUsed } })) ∧
  ((∀ s : State, active s = true → s.clk.hold = true → s.clk.expiring = false →
      (banksQuiet s = true → s.auth.accepted = none → s.pw.rst ≠ .pin → ∃ t, exec .holdoverExpiry s = .next t ∧
        t.pw.mode = .boot ∧
        t.pw.rcause = 3 ∧ t.clk.hold = false ∧ t.mem = [] ∧ t.nv.kApp = s.nv.kApp) ∧
      (s.bankA.drv.sta = .content → ∃ t, exec .holdoverExpiry s = .next t ∧ t.clk.expiring = true ∧
        t.pw.mode = s.pw.mode ∧ t.bankA.drv.pend = .other ∧ t.bankA.drv.req = false ∧
        ∀ n, powered (getLamp t n) = false)) ∧
    (∀ s : State, s.pw.mode = .sleep → s.clk.sleepLost = true → s.clk.rootOk = false →
      ∃ t, exec .holdoverExpiry s = .next t ∧ t.pw.mode = .boot ∧ t.pw.rcause = 3 ∧ t.mem = []))

/-- R60 to R63: reduced function switches every lamp off and leaves the glass as it is; its exit powers up a bank in
state 0 that holds a request (but not while the expiry reaction of R45 brings the banks down); a collapse is recorded,
latches WAKESTAT.COL, and in RUN or CORK-ENTRY grounds every driven bank. R535: without VIO the ports take no access,
and with it they do again. R555: a Gen3 access that WAIT# holds is discarded at the loss of VIO (log entry 37). -/
def Obligations.SuppliesComeAndGo : Prop :=
  ((∀ s : State, islandOn s = true → s.pw.reduced = false → ∃ t, exec .reducedFunctionEntry s = .next t ∧
      t.pw = { s.pw with reduced := true } ∧ (∀ n, powered (getLamp t n) = false) ∧ t.bankA = s.bankA ∧
      t.bankB = s.bankB ∧ t.aon.latch.getLsbD wkRED = true ∧ t.mem = s.mem) ∧
    (∀ s : State, islandOn s = true → s.pw.reduced = true → s.clk.expiring = false →
      ∃ t, exec .reducedFunctionExit s = .next t ∧
      t.pw = { s.pw with reduced := false } ∧ ∀ b : Bank,
        ((getBank s b).drv.sta = .off → (getBank s b).drv.req = true ∨ (getBank s b).drv.latch = true →
          (getBank t b).drv.sta = if (getBank s b).drv.vgood then .biasSettle else .waitVlcd) ∧
        ((getBank s b).drv.sta ≠ .off → getBank t b = getBank s b)) ∧
    (∀ s : State, (s.pw.mode = .run ∨ s.pw.mode = .corkEntry) → ∃ t, exec .collapse s = .next t ∧
      t.pw.collapse = true ∧ t.pw.mode = s.pw.mode ∧ t.aon.latch.getLsbD wkCOL = true ∧ ∀ b : Bank,
        driven (getBank s b).drv = true → (getBank t b).drv.sta = .grounding) ∧
    (∀ s : State, s.pw.mode = .sleep → ∃ t, exec .collapse s = .next t ∧ t.pw.colSleep = true ∧
      t.pw.collapse = s.pw.collapse ∧ t.aon.latch.getLsbD wkCOL = true ∧ t.bankA = s.bankA)) ∧
  ((∀ s : State, exec .vioLoss s =
      .next { s with pw := { s.pw with vio := false }, portP := { s.portP with held := .none } }) ∧
    (∀ s : State, exec .vioReturn s = .next { s with pw := { s.pw with vio := true } }) ∧
    (∀ (p : Port) (a : Fin 64) (v : Word) (s : State), s.pw.vio = false →
      exec (.registerWrite p a v .alone) s = .next s ∧ exec (.wdataRead p) s = .next s))

/-! ### Register accesses, the window and the buffer -/

/-- R91, R101, R105, R165, R535, R577, R71: what becomes of a register write before its register's own rule. A
reserved offset takes nothing (in Gen1 the address of the strobe is latched, and a pair that it completes empties the
write latch: the latter is the model's choice, log entry 56, DEDUCED); a Gen1 high byte without its low byte, and any
register but WDATA in CORK-ENTRY, are refused with STATE; a port that is not live changes nothing; the boot face
discards. R170, R169, R176: a refusal leaves everything but the error record and IRQSTAT.ERR: the code, the source,
AHI and CELL 0, ERRINFO the offset, and OVR set where a record stood already. R98, R131, R137, R159, R204, R205, R208,
R334: what falls together with a register write. One of Port P with OE# low beside WE# has no effect (that in Gen1 its
ALE then latches no address either is the model's choice, log entry 56: R98 and R101 do not say; the order in which
one row takes the events of a cycle is log entry 53); an entry that leaves the buffer in that cycle does so first, so
that a write which found it full is posted; of two ports' writes Port S's takes effect first, but a clear of the error
record or of IRQSTAT comes before a refusal of the same cycle, whose record stands with OVR 0 and whose flag stays
set; in the cycle of its bank's frame boundary a DCTL write is registered and its DUTY waits for the boundary after
it, as the bank's bit of a DPWR write does (log entry 60; Port P's RUN-to-STANDBY request clears what Port S's DPWR
write asks for, R56), a DBLINK write comes after the own work of the boundaries of both banks (R334), and a DCOMMIT
that leaves waits for the slot that begins (R311, R331); the next frame of Port S answers its write. -/
def Obligations.RegisterWriteGateAndRefusals : Prop :=
  (∀ (p : Port) (a : Fin 64) (v : Word) (s : State),
      (portLive s p = false → exec (.registerWrite p a v .alone) s = .next s) ∧
      (portLive s p = true → s.pw.face = .bootFace →
        exec (.registerWrite p a v .alone) s = .next (bootFace s p a v)) ∧
      (portLive s p = true → s.pw.face = .full →
        (0x68 ≤ offOf a → exec (.registerWrite p a v .alone) s = .next (gen1Spent s p a)) ∧
        (offOf a < 0x68 → gen1Word s p a v = none →
          exec (.registerWrite p a v .alone) s = .next (refuse (gen1Ale s p (hiAddr a)) p eSTATE (offOf a))) ∧
        (offOf a < 0x68 → gen1Word s p a v ≠ none → s.pw.mode = .corkEntry → offOf a ≠ 0x16 →
          exec (.registerWrite p a v .alone) s = .next (refuse (gen1Empty s p a) p eSTATE (offOf a))))) ∧
  (∀ (p : Port) (code : Byte) (off : Nat) (s : State), refuse s p code off = { s with
      err := { code := code, ahi := 0, cell := false, src := if p = .portP then 1 else 2
               ovr := s.err.ovr || decide (s.err.code ≠ 0), info := BitVec.ofNat 16 off }
      irqStat := s.irqStat ||| 2 }) ∧
  ((∀ (a : Fin 64) (v : Word) (s : State),
      exec (.registerWrite .portP a v { Beside.alone with oeLow := true }) s = .next s) ∧
    (∀ (ups : List Upset) (v : Word) (a : CAddr) (x : Word) (rest : List BufEntry) (s u : State),
      s.portP.buf = .wdata a x :: rest → s.err = ErrRec.none → exec (.bufferEntryLeave .portP ups) s = .next u →
      u.err = ErrRec.none → exec (.registerWrite .portP 0x0B v { Beside.alone with leaves := some ups }) s =
        exec (.registerWrite .portP 0x0B v .alone) u) ∧
    (∀ (vS vP wP : Word) (s : State), reachesRule s .portS 0x33 vS vS → reachesRule s .portP 0x33 vP wP →
      ∃ t, exec (.registerWrite .portS 0x33 vS { Beside.alone with other := some (0x33, vP) }) s = .next t ∧
        exec (.registerWrite .portP 0x33 vP { Beside.alone with other := some (0x33, vS) }) s = .next t ∧
        t.scratch = wP ∧ t.spi = .answer 0 0x33 vS ∧ t.mem = s.mem ∧ t.irqStat = s.irqStat) ∧
    (∀ (vS vP wP : Word) (s : State), reachesRule s .portS 0x15 vS vS → fld vS 4 4 < 2 →
      (reachesRule s .portP 0x06 vP wP → bit wP 15 = true →
        ∃ t, exec (.registerWrite .portP 0x06 vP { Beside.alone with other := some (0x15, vS) }) s = .next t ∧
          t.err = { code := eRANGE, ahi := 0, cell := false, src := 2, ovr := false, info := 0x2A }) ∧
      (reachesRule s .portP 0x04 vP wP →
        ∃ t, exec (.registerWrite .portP 0x04 vP { Beside.alone with other := some (0x15, vS) }) s = .next t ∧
          bit t.irqStat 1 = true)) ∧
    (∀ (v w : Word) (b : Bank) (s u : State), reachesRule s .portP 0x0D v w → bit w 14 = false →
      Bank.ofBit (bit w 15) = b → dctlError (gen1Empty s .portP 0x0D) w = none → slotsRun s = true →
      exec (.frameBoundary b) (dctlShow (gen1Empty s .portP 0x0D) w) = .next u → (getBank u b).drv.dutyWait = false →
      exec (.registerWrite .portP 0x0D v { Beside.alone with boundaries := [.frame b] }) s =
        .next (setDrv u b { (getBank u b).drv with
          duty := fld w 0 3, bias := fld w 3 3, frate := fld w 6 3, wave := fld w 9 2
          dutyWait := decide (fld w 0 3 ≠ (getBank u b).drv.dutyNow) && decide (fld w 0 3 ≠ (getBank u b).drv.duty) })) ∧
    (∀ (v w : Word) (b : Bank) (s u : State), reachesRule s .portP 0x12 v w →
      exec (.frameBoundary b) (gen1Empty s .portP 0x12) = .next u →
      exec (.registerWrite .portP 0x12 v { Beside.alone with boundaries := [.frame b] }) s =
        .next { u with disp := { u.disp with dblink := w &&& 0x777F } }) ∧
    (∀ (v : Word) (b : Bank) (s : State), reachesRule s .portS 0x12 v v →
      ∃ t, exec (.registerWrite .portS 0x12 v { Beside.alone with boundaries := [.frame b] }) s = .next t ∧
        t.spi = .answer 0 0x12 v ∧ t.disp.dblink = v &&& 0x777F) ∧
    (∀ (v w : Word) (s u x : State), reachesRule s .portP 0x12 v w →
      exec (.frameBoundary .bankA) (gen1Empty s .portP 0x12) = .next u → exec (.frameBoundary .bankB) u = .next x →
      slotsRun s = true →
      exec (.registerWrite .portP 0x12 v { Beside.alone with boundaries := [.frame .bankA, .frame .bankB] }) s =
        .next { x with disp := { x.disp with dblink := w &&& 0x777F } }) ∧
    (∀ (v w : Word) (b : Bank) (s u : State), reachesRule s .portP 0x0E v w →
      dpwrError s (reqShown s.bankA.drv) (reqShown s.bankB.drv) w = none →
      exec (.frameBoundary b) (gen1Empty s .portP 0x0E) = .next u → slotsRun s = true →
      (b = .bankA ∨ bit w 0 = reqShown s.bankA.drv) → (b = .bankB ∨ bit w 1 = reqShown s.bankB.drv) →
      exec (.registerWrite .portP 0x0E v { Beside.alone with boundaries := [.frame b] }) s =
        .next (setDrv u b { (getBank u b).drv with
          reqNext := if bit w b.num = (getBank u b).drv.req then none else some (bit w b.num) })) ∧
    (∀ (vS vP wS wP : Word) (b : Bank) (s : State), reachesRule s .portS 0x0E vS wS →
      reachesRule s .portP 0x03 vP wP →
      fld wP 0 3 = 1 → fld wP 8 8 = 0 → modeAllowed s 1 = true →
      ∃ t, exec (.registerWrite .portS 0x0E vS { Beside.alone with other := some (0x03, vP), boundaries := [.frame b] }) s =
          .next t ∧ t.pw.trans = .toStandby ∧ reqShown t.bankA.drv = false ∧ reqShown t.bankB.drv = false) ∧
    (∀ (c v w : Word) (ups : List Upset) (rest : List BufEntry) (b : Bank) (s u : State),
      reachesRule s .portP 0x33 c w → s.portP.buf = .dcommit v :: rest → s.err = ErrRec.none → slotsRun s = true →
      s.pw.gen ≠ .gen1 → s.portP.held = .none → s.portP.load = none →
      exec (.frameBoundary b) { s with portP := { s.portP with buf := rest } } = .next u →
      bit v (5 + b.num) = true →
      ∃ t, exec (.registerWrite .portP 0x33 c { Beside.alone with leaves := some ups, boundaries := [.frame b] }) s = .next t ∧
        getBank t b = { getBank u b with held := (getBank u b).held ++ [v] } ∧ t.scratch = w ∧ t.portP.buf = rest))

/-- R6, R167, R178, R184, R186, R190, R194, R196, R198, R201, R205, Table REG-1: a write that reaches SCRATCH sets it,
one that reaches IRQEN sets the writing port's bank alone, one to a read-only register is discarded; SYSSTAT, KSTAT,
BSTAT, BPACK, ASTAT and CLKSTAT lose the W1C flags written as 1; LSEL and DCRACK take their fields (the measurements
of a driven bank begin with its next frame, log entry 15), or refuse a value outside them with RANGE; WAKECTL keeps
bits 5:0 and 9:8 and sends them to the island, behind the writes on their way. Nothing else changes. -/
def Obligations.PlainRegisterWrites : Prop :=
  (∀ (p : Port) (v w : Word) (s : State), reachesRule s p 0x33 v w →
    exec (.registerWrite p 0x33 v .alone) s = .next { gen1Empty s p 0x33 with scratch := w }) ∧
  (∀ (p : Port) (v w : Word) (s : State), reachesRule s p 0x05 v w →
    ∃ t, exec (.registerWrite p 0x05 v .alone) s = .next t ∧ (getPort t p).irqEn = w ∧
      getPort t p.other = getPort (gen1Empty s p 0x05) p.other ∧
      setPort t p { getPort t p with irqEn := (getPort s p).irqEn } = gen1Empty s p 0x05) ∧
  (∀ (p : Port) (a : Fin 64) (v w : Word) (s : State), reachesRule s p a v w →
    offOf a ∈ [0x00, 0x02, 0x0E, 0x1E, 0x2E, 0x32, 0x3E, 0x40, 0x42, 0x44, 0x46, 0x58, 0x64] →
    exec (.registerWrite p a v .alone) s = .next (gen1Empty s p a)) ∧
  (∀ (p : Port) (v w : Word) (s : State), reachesRule s p 0x02 v w → exec (.registerWrite p 0x02 v .alone) s =
    .next { gen1Empty s p 0x02 with pw := { s.pw with collapse := s.pw.collapse && !bit w 4 } }) ∧
  (∀ (p : Port) (v w : Word) (s : State), reachesRule s p 0x16 v w → exec (.registerWrite p 0x16 v .alone) s =
    .next { gen1Empty s p 0x16 with keys := { s.keys with ovf := s.keys.ovf && !bit w 5
                                                          ghost := s.keys.ghost && !bit w 6 } }) ∧
  (∀ (p : Port) (v w : Word) (s : State), reachesRule s p 0x1E v w → exec (.registerWrite p 0x1E v .alone) s =
    .next { gen1Empty s p 0x1E with
      batA := { s.batA with hwrap := s.batA.hwrap && !bit w 7, ora := s.batA.ora && !bit w 8 }
      batB := { s.batB with crank := s.batB.crank && !bit w 6 } }) ∧
  (∀ (p : Port) (v w : Word) (s : State), reachesRule s p 0x24 v w → exec (.registerWrite p 0x24 v .alone) s =
    .next { gen1Empty s p 0x24 with pack := { s.pack with swap := s.pack.swap && !bit w 3
                                                          rem := s.pack.rem && !bit w 4 } }) ∧
  (∀ (p : Port) (v w : Word) (s : State), reachesRule s p 0x29 v w → exec (.registerWrite p 0x29 v .alone) s =
    .next { gen1Empty s p 0x29 with auth := { s.auth with done := s.auth.done && !bit w 5 } }) ∧
  (∀ (p : Port) (v w : Word) (s : State), reachesRule s p 0x30 v w → exec (.registerWrite p 0x30 v .alone) s =
    .next { gen1Empty s p 0x30 with clk := { s.clk with rootLoss := s.clk.rootLoss && !bit w 4
                                                        unlock := s.clk.unlock && !bit w 5
                                                        timeSub := s.clk.timeSub && !bit w 6 } }) ∧
  (∀ (p : Port) (v w : Word) (s : State), reachesRule s p 0x1A v w →
    (fld w 4 3 < 6 → ∃ t, exec (.registerWrite p 0x1A v .alone) s = .next t ∧
      t = { gen1Empty s p 0x1A with lamps := { s.lamps with selCh := t.lamps.selCh, selParam := fld w 4 3 } } ∧
      t.lamps.selCh.val = fld w 0 3) ∧
    (6 ≤ fld w 4 3 → exec (.registerWrite p 0x1A v .alone) s = .next (refuse (gen1Empty s p 0x1A) p eRANGE 0x34))) ∧
  (∀ (p : Port) (v w : Word) (s : State), reachesRule s p 0x14 v w →
    (fld w 2 2 < 2 → ∃ t, exec (.registerWrite p 0x14 v .alone) s = .next t ∧
      t.disp = { s.disp with crackPol := fld w 2 2 } ∧
      t = { gen1Empty s p 0x14 with bankA := t.bankA, bankB := t.bankB, disp := t.disp } ∧
      ∀ b : Bank, (bit w b.num = (getBank s b).crack.en → getBank t b = getBank s b) ∧
        (bit w b.num = true → (getBank s b).crack.en = false → getBank t b = { getBank s b with
          crack := { (getBank s b).crack with en := true, startNext := driven (getBank s b).drv } }) ∧
        (bit w b.num = false → (getBank s b).crack.en = true → getBank t b = { getBank s b with
          crack := { (getBank s b).crack with en := false, sta := 0, startNext := false } })) ∧
    (2 ≤ fld w 2 2 → exec (.registerWrite p 0x14 v .alone) s = .next (refuse (gen1Empty s p 0x14) p eRANGE 0x28))) ∧
  (∀ (p : Port) (v w : Word) (s : State), reachesRule s p 0x2E v w →
    exec (.registerWrite p 0x2E v .alone) s = .next { gen1Empty s p 0x2E with aon := { s.aon with
      wakectl := w &&& 0x033F, q := s.aon.q ++ [.wakectl (w &&& 0x033F)] } })

/-- R173, R205: IRQSTAT.KEY stands while the key FIFO holds an event, in every step; a write to IRQSTAT clears the
bits written, but KEY only while the FIFO is empty. -/
def Obligations.KeyInterruptFollowsTheFifo : Prop :=
  (∀ s t : State, keyFlag s → step s = .next t → keyFlag t) ∧
  (∀ (p : Port) (v w : Word) (s : State), reachesRule s p 0x04 v w →
    ∃ t, exec (.registerWrite p 0x04 v .alone) s = .next t ∧ t = { gen1Empty s p 0x04 with irqStat := t.irqStat } ∧
      (∀ i, i < 16 → i ≠ 4 → bit t.irqStat i = (bit s.irqStat i && !bit w i)) ∧
      bit t.irqStat 4 = (bit s.irqStat 4 && (!bit w 4 || !s.keys.fifo.isEmpty)))

/-- R175, Table REG-7: ERRSTAT reads its fields at their places, and ERRINFO its word; a write of 1 to OVR clears the
whole error record and nothing else, a write of 0 to OVR changes nothing. -/
def Obligations.ErrorRecordReadsAndClears : Prop :=
  (∀ (p : Port) (s : State), fld (regValue s p 0x0C) 0 8 = s.err.code.toNat ∧
    fld (regValue s p 0x0C) 8 4 = s.err.ahi.toNat ∧ bit (regValue s p 0x0C) 12 = s.err.cell ∧
    fld (regValue s p 0x0C) 13 2 = s.err.src.toNat ∧ bit (regValue s p 0x0C) 15 = s.err.ovr ∧
    regValue s p 0x0E = s.err.info) ∧
  (∀ (p : Port) (v w : Word) (s : State), reachesRule s p 0x06 v w → bit w 15 = true →
    exec (.errstatClear p v) s = .next { gen1Empty s p 0x06 with err := ErrRec.none }) ∧
  (∀ (p : Port) (v w : Word) (s : State), reachesRule s p 0x06 v w → bit w 15 = false →
    exec (.errstatClear p v) s = .next (gen1Empty s p 0x06))

/-- R104: in Gen1 a write of a register's low byte, at an even address below 0x80 that ALE latched, is held in the
write latch with its offset, in place of whatever the latch held, and changes no register; the boot face also counts
it (R107). -/
def Obligations.Gen1LowByteWritesAreHeld : Prop :=
  ∀ (ale : Option Byte) (ad b : Byte) (s : State), portLive s .portP = true → s.pw.gen = .gen1 →
    ale.getD s.portP.ale = ad → ad.toNat < 0x80 → ad.toNat % 2 = 0 →
    exec (.gen1LowByteWrite ale true b) s = .next { s with portP := { s.portP with
      ale := ad, g1wr := some (gen1Reg ad, b)
      disc := if s.pw.face = .bootFace then s.portP.disc + 1 else s.portP.disc } }

/-- R102, R103, R105: in Gen1 the high-byte write that follows a held low byte at its offset writes the word of both
bytes and empties the latch, with the address of its strobe latched (R101); a low-byte read answers the register's low
byte alone and latches its high byte, which a high-byte read at that offset then answers with no further side effect.
R101: AD0 to AD7 are latched at an ALE falling edge whatever CS#, RD# and WR# act only while CS# is low, AD0 selects
the lane, and the addresses 0x80 to 0xFF select no register: a read there returns 0x00, a write is discarded (and
counted by the boot face, R71). R133, R136, R138, R139: a Port S frame whose length or CRC is wrong changes nothing
but the next response, which says FRAME; a good write frame to SCRATCH writes it and is answered DONE with the data
written, and a good read frame of any register but WDATA, KEVT and RTC_L, whose reads have effects of their own
(R166), is answered with the register's value. -/
def Obligations.Gen1WordsAndPortSFrames : Prop :=
  ((∀ (b : Byte) (v : Word) (s : State), portLive s .portP = true → s.pw.gen = .gen1 → s.pw.face = .full →
      s.pw.mode ≠ .corkEntry → s.portP.g1wr = some (0x33, b) →
      exec (.registerWrite .portP 0x33 v .alone) s =
        .next { s with portP := { s.portP with g1wr := none, ale := 0x67 }, scratch := wordOfBytes b (hiByte v) }) ∧
    (∀ (a : Fin 64) (ad : Byte) (s : State), readable s .portP → s.pw.gen = .gen1 → ad.toNat = 2 * a.val →
      offOf a ≠ 0x16 → offOf a ≠ 0x2E → offOf a ≠ 0x54 →
      exec (.gen1LowByteRead (some ad) true) s = .next { s with portP := { s.portP with
        ale := ad, rdata := (loByte (regValue s .portP (offOf a))).zeroExtend 16
        g1rd := some (a, hiByte (regValue s .portP (offOf a))) } }) ∧
    (∀ (a : Fin 64) (ad hi : Byte) (s : State), portLive s .portP = true → s.pw.gen = .gen1 →
      ad.toNat = 2 * a.val + 1 →
      s.portP.g1rd = some (a, hi) → exec (.gen1LowByteRead (some ad) true) s =
        .next { s with portP := { s.portP with ale := ad, rdata := hi.zeroExtend 16 } })) ∧
  ((∀ (ale : Option Byte) (b : Byte) (s : State), portLive s .portP = true → s.pw.gen = .gen1 →
      exec (.gen1LowByteWrite ale false b) s = .next { s with portP := { s.portP with ale := ale.getD s.portP.ale } } ∧
      exec (.gen1LowByteRead ale false) s = .next { s with portP := { s.portP with ale := ale.getD s.portP.ale } }) ∧
    (∀ (ad b : Byte) (s : State), portLive s .portP = true → s.pw.gen = .gen1 → 0x80 ≤ ad.toNat →
      exec (.gen1LowByteWrite (some ad) true b) s = .next { s with portP := { s.portP with
        ale := ad, disc := if s.pw.face = .bootFace then s.portP.disc + 1 else s.portP.disc } } ∧
      exec (.gen1LowByteRead (some ad) true) s = .next { s with portP := { s.portP with ale := ad, rdata := 0 } }) ∧
    (∀ (ad b : Byte) (s : State), portLive s .portP = true → s.pw.gen = .gen1 → ad.toNat < 0x80 → ad.toNat % 2 = 1 →
      exec (.gen1LowByteWrite (some ad) true b) s =
        exec (.registerWrite .portP (gen1Reg ad) (wordOfBytes 0 b) .alone) { s with portP := { s.portP with ale := ad } })) ∧
  ((∀ (l : List Bool) (s : State), readable s .portS → frameGood l = false →
      exec (.portSFrame l) s = .next { s with spi := .answer 1 (BitVec.ofNat 6 (rxField l 30 6)) 0 }) ∧
    (∀ (l : List Bool) (s : State), readable s .portS → s.pw.mode ≠ .corkEntry → frameGood l = true →
      rxBit l 31 = true → rxField l 30 6 = 0x33 →
      exec (.portSFrame l) s = .next { s with
        scratch := wordOf (rxField l 23 16), spi := .answer 0 0x33 (wordOf (rxField l 23 16)) }) ∧
    (∀ (l : List Bool) (n : Fin 64) (s : State), readable s .portS → frameGood l = true → rxBit l 31 = false →
      rxField l 30 6 = n.val → offOf n ≠ 0x16 → offOf n ≠ 0x2E → offOf n ≠ 0x54 →
      exec (.portSFrame l) s = .next { s with
        portS := { s.portS with rdata := regValue s .portS (offOf n) }
        spi := .answer 0 (BitVec.ofNat 6 n.val) (regValue s .portS (offOf n)) }))

/-- R108, R111, R125, R127: WADDR takes bits 15:1 or 19:16 of the window address, whose bit 0 stays 0, leaves the
other bits, and issues a load behind the buffered writes; its two registers read the current address; WCTL takes AINC
and PAGE, and WDROP written as 1 clears WDROP and DROPCNT; where page loading was or becomes in force its write
discards what is loaded and loads the page, or the word, at the window address anew (R122). Neither changes anything
outside the port. R109, R111, R114, R119, R120: a WDATA read outside page mode answers the prefetched word (in Gen1
its low byte, R102), advances the window by 2 with AINC and issues the next load; without a valid word it is refused
with STATE and 0x0000, in Gen3 only after WAIT# has held it for 250 ns. R121: in page mode the words of the page
follow one another without a load, its first read issues the load of the following page, which takes its place behind
the last one; a page ends with its 8-byte block (R122: a write of the window address or of WCTL loads the page anew).
R140: by the time a Port S frame is captured, the entries and the load before it are done, so that the buffer and the
load are empty. -/
def Obligations.WindowControlWritesAndReads : Prop :=
  ((∀ (p : Port) (s : State), regValue s p 0x12 = wordOf (getPort s p).waddr.toNat ∧
      regValue s p 0x14 = wordOf ((getPort s p).waddr.toNat / 0x10000)) ∧
    (∀ (p : Port) (high : Bool) (v w : Word) (s : State), reachesRule s p (if high then 0x0A else 0x09) v w →
      ∃ t, exec (.waddrWrite p high v) s = .next t ∧
        t = setPort (gen1Empty s p (if high then 0x0A else 0x09)) p (getPort t p) ∧
        (getPort t p).waddr = (if high then BitVec.ofNat 20 (w.toNat % 16 * 0x10000 + (getPort s p).waddr.toNat % 0x10000)
          else BitVec.ofNat 20 ((getPort s p).waddr.toNat / 0x10000 * 0x10000 + w.toNat / 2 * 2)) ∧
        (getPort t p).pre = [] ∧ (getPort t p).buf = (getPort s p).buf ∧
        (getPort t p).load = some { addr := (getPort t p).waddr, behind := (getPort s p).buf.length
                                    page := pageMode s p, follow := false }) ∧
    (∀ (p : Port) (v w : Word) (s : State), reachesRule s p 0x0C v w →
      ∃ t, exec (.wctlWrite p v) s = .next t ∧ t = setPort (gen1Empty s p 0x0C) p (getPort t p) ∧
        (getPort t p).ainc = bit w 0 ∧ (getPort t p).page = bit w 1 ∧
        (getPort t p).wdrop = ((getPort s p).wdrop && !bit w 3) ∧
        (getPort t p).dropCnt = (if bit w 3 then 0 else (getPort s p).dropCnt) ∧
        (getPort t p).waddr = (getPort s p).waddr ∧ (getPort t p).buf = (getPort s p).buf ∧
        ((pageMode s p = true ∨ pageMode t p = true) → (getPort t p).pre = [] ∧ (getPort t p).load = some {
          addr := (getPort s p).waddr, behind := (getPort s p).buf.length, page := pageMode t p, follow := false }) ∧
        (pageMode s p = false → pageMode t p = false → (getPort t p).pre = (getPort s p).pre ∧
          (getPort t p).load = (getPort s p).load))) ∧
  ((∀ (p : Port) (w : Word) (rest : List Word) (s c : State), readable s p → captured s p = c →
      (getPort c p).pre = w :: rest →
      pageMode s p = false → ∃ t, exec (.wdataRead p) s = .next t ∧ t = setPort c p (getPort t p) ∧
        (getPort t p).rdata = onPortBus s p w ∧
        (getPort t p).waddr = (if (getPort s p).ainc then (getPort s p).waddr + 2 else (getPort s p).waddr) ∧
        (getPort t p).pre = [] ∧ (getPort t p).load = some { addr := (getPort t p).waddr
                                                             behind := (getPort c p).buf.length
                                                             page := false, follow := false }) ∧
    (∀ (w : Word) (rest : List Word) (s : State), readable s .portP → pageMode s .portP = true →
      s.portP.pre = w :: rest → ∃ t, exec (.wdataRead .portP) s = .next t ∧ t = { s with portP := t.portP } ∧
        t.portP.rdata = w ∧ t.portP.waddr = s.portP.waddr + 2 ∧ t.portP.buf = s.portP.buf ∧
        (s.portP.fresh = true → t.portP.load = some { addr := nextBlock s.portP.waddr, behind := s.portP.buf.length
                                                      page := true, follow := true }) ∧
        (s.portP.fresh = false → t.portP.load = s.portP.load) ∧
        (rest ≠ [] → t.portP.pre = rest ∧ t.portP.follow = s.portP.follow ∧ t.portP.fresh = false) ∧
        (rest = [] → ∀ q, s.portP.follow = some q → t.portP.pre = q ∧ t.portP.follow = none ∧ t.portP.fresh = true)) ∧
    (∀ (v w : Word) (s : State), reachesRule s .portP 0x09 v w → pageMode s .portP = true →
      ∃ t, exec (.waddrWrite .portP false v) s = .next t ∧ t.portP.pre = [] ∧ t.portP.follow = none ∧
        t.portP.load = some { addr := t.portP.waddr, behind := s.portP.buf.length, page := true, follow := false }) ∧
    (∀ (l : Load) (s u : State), s.portP.load = some l → l.behind = 0 → l.page = true → l.follow = false →
      domains s = true → arbServe s (.window .portP) = some u → s.portP.held = .none → isPage l.addr.toNat = false →
      noSram l.addr.toNat = false →
      ∃ t, exec (.prefetchLoadDone .portP []) s = .next t ∧ t.portP.load = none ∧ t.mem = s.mem ∧
        t.portP.fresh = true ∧
        t.portP.pre = (List.range ((8 - l.addr.toNat % 8) / 2)).map fun k => Cellar.getWord s.mem (l.addr.toNat + 2 * k)) ∧
    (∀ (p : Port) (s c : State), readable s p → captured s p = c → (getPort c p).pre = [] →
      (p = .portP → s.pw.gen ≠ .gen3) →
      ∃ t, exec (.wdataRead p) s = .next t ∧ (getPort t p).rdata = 0 ∧ (getPort t p).waddr = (getPort s p).waddr ∧
        t.err = (refuse c p eSTATE 0x16).err ∧ t.irqStat = c.irqStat ||| 2 ∧ t.mem = c.mem) ∧
    (∀ s : State, readable s .portP → s.portP.pre = [] → s.pw.gen = .gen3 →
      exec (.wdataRead .portP) s = .next { s with portP := { s.portP with held := .read } }) ∧
    (∀ s : State, s.portP.held = .read → ∃ t, exec .waitTimeout s = .next t ∧ t.portP.held = .none ∧
      t.portP.rdata = 0 ∧ t.portP.waddr = s.portP.waddr ∧ t.err = (refuse s .portP eSTATE 0x16).err ∧ t.mem = s.mem) ∧
    (∀ s : State, captured s .portP = s ∧ (active s = true → queueBounds s →
      (captured s .portS).portS.buf = [] ∧ (captured s .portS).portS.load = none)))

/-- R109, R110, R115, R117, R118: a WDATA write that passes its checks takes a buffer entry with the window address,
one that fails them is refused with the Cellar address, and one that finds the buffer full is dropped and counted (in
Gen3 WAIT# holds it); outside Gen3's hold the window advances each time. No byte of the Cellar changes at the capture
(c is the state of it: on Port S the entries of earlier frames have left, R140); of a word of the keys page the
capture is kept until it is stored, with its cycle and what stood before that cycle, and nothing else of the Trellis
changes (R359; how it waits is log entry 20). R115, R126, R221: the window write at the front of a buffer reaches the
Cellar once the arbiter grants it (R224; u is the state in which it does): outside the Parameter cask its two bytes
stand at its address, low byte first, and every other byte is as the upsets that stand at the read left it. R111: a
load outside page mode, once granted, brings the word at its address into the prefetch. -/
def Obligations.WindowWritesReachTheCellar : Prop :=
  (∀ (p : Port) (v w : Word) (s c : State), reachesRule s p 0x0B v w → captured (gen1Empty s p 0x0B) p = c →
      (winError c p (getPort s p).waddr.toNat w = none → (getPort c p).buf.length < 32 →
        ∃ t, exec (.wdataWrite p v) s = .next t ∧ t = { setPort c p (getPort t p) with keys := t.keys } ∧
          (keysWord (getPort s p).waddr.toNat = false → t.keys = c.keys) ∧
          (keysWord (getPort s p).waddr.toNat = true → t.keys = { c.keys with
            regAt := some c.now, was := if c.keys.regAt = some c.now then c.keys.was else keysStand c
            capt := c.keys.capt.filter (fun e => e.1 = c.now ∨ c.keys.scanAt = some e.1)
              ++ [(c.now, (getPort s p).waddr.toNat, w)] }) ∧
          (getPort t p).buf = (getPort c p).buf ++ [.wdata (getPort s p).waddr w] ∧
          (getPort t p).waddr = advanced (getPort s p)) ∧
      (∀ e, winError c p (getPort s p).waddr.toNat w = some e →
        ∃ t, exec (.wdataWrite p v) s = .next t ∧ (getPort t p).buf = (getPort c p).buf ∧
          (getPort t p).waddr = advanced (getPort s p) ∧ t.mem = c.mem ∧ t.err.code = e ∧ t.err.cell = true ∧
          t.err.info = (getPort s p).waddr.truncate 16 ∧ t.err.ahi = (getPort s p).waddr.extractLsb' 16 4) ∧
      (winError c p (getPort s p).waddr.toNat w = none → 32 ≤ (getPort c p).buf.length →
        (p = .portP → s.pw.gen ≠ .gen3) →
        ∃ t, exec (.wdataWrite p v) s = .next t ∧ (getPort t p).buf = (getPort c p).buf ∧ (getPort t p).wdrop = true ∧
          (getPort t p).dropCnt = min 63 ((getPort c p).dropCnt + 1) ∧ (getPort t p).waddr = advanced (getPort s p) ∧
          t.mem = c.mem ∧ ((getPort c p).wdrop = true → t.err = c.err) ∧
          ((getPort c p).wdrop = false → t.err.code = eWDROP ∧ t.err.info = 0x16)) ∧
      (winError c p (getPort s p).waddr.toNat w = none → 32 ≤ (getPort c p).buf.length → p = .portP →
        s.pw.gen = .gen3 →
        exec (.wdataWrite p v) s = .next { s with portP := { s.portP with held := .wdata w } })) ∧
  ((∀ (p : Port) (ups : List Upset) (a : CAddr) (v : Word) (rest : List BufEntry) (s u : State),
      (getPort s p).buf = .wdata a v :: rest → domains s = true → arbServe s (.window p) = some u →
        s.portP.held = .none → isPage a.toNat = false →
      Cellar.wf s.mem = true →
      ∃ t, exec (.bufferEntryLeave p ups) s = .next t ∧ (getPort t p).buf = rest ∧
        ∀ x : Nat, Cellar.get t.mem x =
          if x = a.toNat + 1 then hiByte v else if x = a.toNat then loByte v else Cellar.get (upsets u ups).mem x) ∧
    (∀ (p : Port) (ups : List Upset) (l : Load) (s u : State), (getPort s p).load = some l → l.behind = 0 →
      l.page = false → l.follow = false → domains s = true → arbServe s (.window p) = some u → s.portP.held = .none →
      isPage l.addr.toNat = false → noSram l.addr.toNat = false →
      ∃ t, exec (.prefetchLoadDone p ups) s = .next t ∧ (getPort t p).load = none ∧
        (getPort t p).buf = (getPort s p).buf ∧
        (getPort t p).pre = [Cellar.getWord (upsets u ups).mem l.addr.toNat] ∧ t.mem = (upsets u ups).mem))

/-! ### Roles, display drive and ledger -/

/-- R151, R153, R154, R155: an accepted swap request exchanges the roles, sets IRQSTAT.ROLE and restarts the
heartbeat, at once where one request is enough or the other port's is pending; with SWAPCONS and nothing pending it
waits; requests of both ports in one merge window make one swap; a request whose 10 ms lapse is discarded with a STATE
record that names its port. R162: a write that is a heartbeat too carries FDON and beats first, and the swap then
restarts the heartbeat's time and its key. Nothing else changes, but that R137 answers Port S's frame in the next one. -/
def Obligations.RoleSwapsTakePlaceOnceOrLapse : Prop :=
  (∀ (p : Port) (v w : Word) (s : State), reachesRule s p 8 v w → bit w 2 = true → bit w 7 = false →
    swapRefused s p = false →
    ((s.roles.swpnd = some p.other ∨ pgb s 0xEC00 1 = false) →
      exec (.swapRequest p v) s = .next { gen1Empty s p 8 with
        roles := { s.roles with ppri := !s.roles.ppri, swpnd := none, hbRef := s.now, hbNext := false, hbMissed := false }
        irqStat := s.irqStat ||| 0x4000 }) ∧
    (s.roles.swpnd = none → pgb s 0xEC00 1 = true →
      exec (.swapRequest p v) s = .next { gen1Empty s p 8 with roles := { s.roles with swpnd := some p } })) ∧
  (∀ (vS vP wS wP : Word) (s : State), reachesRule s .portS 8 vS wS → reachesRule s .portP 8 vP wP →
    bit wS 2 = true → bit wP 2 = true → bit wS 7 = false → bit wP 7 = false →
    swapRefused s .portS = false → swapRefused s .portP = false →
    exec (.swapMergeWindowEnd vS vP) s = .next { gen1Empty s .portP 8 with
      spi := .answer 0 8 vS
      roles := { s.roles with ppri := !s.roles.ppri, swpnd := none, hbRef := s.now, hbNext := false, hbMissed := false }
      irqStat := s.irqStat ||| 0x4000 }) ∧
  (∀ (p : Port) (s : State), s.roles.swpnd = some p →
    exec .swapConsentLapse s =
      .next (refuse { s with roles := { s.roles with swpnd := none } } p eSTATE 0x10)) ∧
  (∀ (p : Port) (v w : Word) (s : State), reachesRule s p 8 v w → bit w 2 = true → bit w 7 = false →
    swapRefused s p = true → exec (.swapRequest p v) s = .next (refuse (gen1Empty s p 8) p eSTATE 0x10)) ∧
  (∀ (p : Port) (v w : Word) (s : State), reachesRule s p 8 v w → bit w 2 = true → bit w 7 = true → isSup s p = true →
    fld w 8 8 = hbKey s → hbEarly s = false → s.roles.fallbk = false → swapRefused s p = false →
    (bit w 4 = true → s.pw.mode = .run ∧ s.pw.trans = .idle) →
    exec (.heartbeat p v) s = exec (.swapRequest p v) s ∧
    ((s.roles.swpnd = some p.other ∨ pgb s 0xEC00 1 = false) →
      exec (.swapRequest p v) s = .next { gen1Empty s p 8 with
        roles := { s.roles with fdon := bit w 4, ppri := !s.roles.ppri, swpnd := none, hbNext := false
                                hbLast := some s.now, hbRef := s.now, hbMissed := false }
        irqStat := s.irqStat ||| 0x4000 }) ∧
    (s.roles.swpnd = none → pgb s 0xEC00 1 = true →
      exec (.swapRequest p v) s = .next { gen1Empty s p 8 with
        roles := { s.roles with fdon := bit w 4, swpnd := some p, hbNext := !s.roles.hbNext
                                hbLast := some s.now, hbRef := s.now, hbMissed := false } }))

/-- R144 to R147: a PORTCTL write with SUPW from the Supervisor's port carries FDON, and with the expected key it is a
heartbeat, after which the other key is expected; from the other port it is refused with OWNER, with a wrong key with
RANGE, too early with STATE, each time with nothing else changed. R148 to R150, R160, R163: once HB_PERIOD has passed
since the last restart, a supervised miss sets IRQSTAT.HB and FALLBK, once for an episode, and before that there is
none; the second of two heartbeats within HB_PERIOD begins the end of the fallback at both banks. -/
def Obligations.HeartbeatsForcedDisplayAndFallback : Prop :=
  (∀ (p : Port) (v w : Word) (s : State), reachesRule s p 8 v w → bit w 7 = true →
      (isSup s p = true → bit w 2 = false → (bit w 4 = true → s.pw.mode = .run ∧ s.pw.trans = .idle) →
        (fld w 8 8 = 0 →
          exec (.fdonWrite p v) s = .next { gen1Empty s p 8 with roles := { s.roles with fdon := bit w 4 } }) ∧
        (fld w 8 8 = hbKey s → hbEarly s = false → s.roles.fallbk = false →
          exec (.heartbeat p v) s = .next { gen1Empty s p 8 with
            roles := { s.roles with fdon := bit w 4, hbNext := !s.roles.hbNext, hbLast := some s.now, hbRef := s.now
                                    hbMissed := false } }) ∧
        (fld w 8 8 = hbKey s → hbEarly s = true →
          exec (.heartbeat p v) s = .next (refuse (gen1Empty s p 8) p eSTATE 0x10))) ∧
      (isSup s p = true → bit w 4 = true → (s.pw.mode ≠ .run ∨ s.pw.trans ≠ .idle) → (fld w 8 8 = 0 ∨
        fld w 8 8 = hbKey s) →
        exec (.fdonWrite p v) s = .next (refuse (gen1Empty s p 8) p eSTATE 0x10) ∧
        exec (.heartbeat p v) s = .next (refuse (gen1Empty s p 8) p eSTATE 0x10)) ∧
      (isSup s p = true → fld w 8 8 ≠ 0 → fld w 8 8 ≠ hbKey s →
        exec (.heartbeat p v) s = .next (refuse (gen1Empty s p 8) p eRANGE 0x10)) ∧
      (isSup s p = false → exec (.heartbeat p v) s = .next (refuse (gen1Empty s p 8) p eOWNER 0x10) ∧
        exec (.fdonWrite p v) s = .next (refuse (gen1Empty s p 8) p eOWNER 0x10))) ∧
  ((∀ s : State, s.now ≤ s.roles.hbRef + (pg s 0xEC02).toNat * msCycles → exec .heartbeatMiss s = .next s) ∧
    (∀ s : State, hbSupervised s = true → s.roles.hbRef + (pg s 0xEC02).toNat * msCycles < s.now →
      ∃ t, exec .heartbeatMiss s = .next t ∧
      t = { s with roles := t.roles, irqStat := s.irqStat ||| 0x8000, lamps := t.lamps } ∧
      t.roles = { s.roles with fallbk := true, hbMissed := true, fbEnding := false, fbBeat := none } ∧
      exec .heartbeatMiss t = .next t) ∧
    (∀ (p : Port) (v w : Word) (b : Nat) (s : State), reachesRule s p 8 v w → bit w 7 = true → isSup s p = true →
      bit w 2 = false → bit w 4 = false → fld w 8 8 = hbKey s → hbEarly s = false → s.roles.fallbk = true →
      s.roles.fbEnding = false → s.roles.fbBeat = some b →
      ∃ t, exec (.heartbeat p v) s = .next t ∧ t.roles.fallbk = true ∧
        (s.now ≤ b + (pg s 0xEC02).toNat * msCycles → t.roles.fbEnding = true ∧ t.bankA.fbWait = true ∧
          t.bankB.fbWait = true) ∧
        (b + (pg s 0xEC02).toNat * msCycles < s.now → t.roles.fbEnding = false ∧ t.roles.fbBeat = some s.now)))

/-- R177: a DCTL write with VIEW sets the view only; one without takes every field of the bank it names, and a changed
duty starts the flush, but for a change back that ends the wait of one made beside a frame boundary (R208); a reserved
code or a static field beside a multiplexed one is refused with RANGE, and a duty or bias change of a bank that is not
in state 0 with STATE, nothing else changed. R316, R337, R315, R311: where line slots run and no catch-up record is
left, the end of a duty flush puts the duty written into force and begins a frame. The held commits wait for its first
slot, which counts as begun, and take effect behind it: the lines that one names, as far as the duty uses them, become
the batch of a layer without one, none of them racked. Where no line slot runs, or a record is left, nothing happens. -/
def Obligations.DisplayControlAndDutyFlush : Prop :=
  ((∀ (p : Port) (b : Bank) (w : Word) (s : State), reachesRule s p 0x0D (wordOf (0x4000 + 0x8000 * b.num)) w →
      exec (.dctlView p b) s = .next { gen1Empty s p 0x0D with disp := { s.disp with dctlView := b } }) ∧
    (∀ (p : Port) (b : Bank) (v w : Word) (s : State), reachesRule s p 0x0D v w → bit w 14 = false →
      b = Bank.ofBit (bit w 15) →
      (fld w 3 3 ≤ 4 → fld w 6 3 ≤ 4 → (fld w 0 3 = 0 ↔ fld w 3 3 = 0) →
        ((fld w 0 3 = (getBank s b).drv.duty ∧ fld w 3 3 = (getBank s b).drv.bias) ∨ (getBank s b).drv.sta = .off) →
        exec (.dctlWrite p v) s = .next { setDrv (gen1Empty s p 0x0D) b { (getBank s b).drv with
            duty := fld w 0 3, bias := fld w 3 3, frate := fld w 6 3, wave := fld w 9 2
            flushing := (getBank s b).drv.flushing || decide (fld w 0 3 ≠ (getBank s b).drv.duty ∧
              ¬((getBank s b).drv.dutyWait = true ∧ fld w 0 3 = (getBank s b).drv.dutyNow))
            dutyWait := (getBank s b).drv.dutyWait && decide (fld w 0 3 = (getBank s b).drv.duty) } with
          disp := { s.disp with dctlView := b } }) ∧
      ((4 < fld w 3 3 ∨ 4 < fld w 6 3 ∨ (fld w 0 3 = 0 ∧ fld w 3 3 ≠ 0) ∨ (fld w 0 3 ≠ 0 ∧ fld w 3 3 = 0)) →
        exec (.dctlWrite p v) s = .next (refuse (gen1Empty s p 0x0D) p eRANGE 0x1A)) ∧
      (fld w 3 3 ≤ 4 → fld w 6 3 ≤ 4 → (fld w 0 3 = 0 ↔ fld w 3 3 = 0) →
        (fld w 0 3 ≠ (getBank s b).drv.duty ∨ fld w 3 3 ≠ (getBank s b).drv.bias) →
        (getBank s b).drv.sta ≠ .off →
          exec (.dctlWrite p v) s = .next (refuse (gen1Empty s p 0x0D) p eSTATE 0x1A)))) ∧
  ((∀ (b : Bank) (s : State), (getBank s b).drv.flushing = true → slotsRun s = true → catchUps (getBank s b) = [] →
      ∃ t, exec (.dutyFlushEnd b) s = .next t ∧ (getBank t b).drv.flushing = false ∧
        (getBank t b).drv.dutyNow = (getBank s b).drv.duty ∧ (getBank t b).drv.slot = 0 ∧
        (getBank t b).held = (getBank s b).held ∧ ∀ b', b' ≠ b → getBank t b' = getBank s b') ∧
    (∀ (b : Bank) (ups : List Upset) (v : Word) (s : State), slotsRun s = true → (getBank s b).drv.flushing = false →
      ((getBank s b).drv.sta = .off ∨ ((getBank s b).drv.sta = .content ∧ (getBank s b).drv.pend = .none)) →
      (getBank s b).drv.slot < frameSlots (getBank s b).drv → (getBank s b).drv.burst = none →
      0 < slotLen (frameLen (getBank s b).drv) (frameSlots (getBank s b).drv) (getBank s b).drv.slot →
      (getBank s b).held = [v] →
      ∃ t, exec (.slotBoundary b ups) s = .next t ∧ (getBank t b).held = [] ∧
        ∀ l, l < 5 → bit v l = true → (getLayer (getBank s b) l).cur = none → (getLayer (getBank s b) l).next = none →
          lineSet (fld v 8 4) (fld v 12 4) &&& linesBelow (frameLines (getBank s b).drv) ≠ 0 →
          (getLayer (getBank t b) l).cur = some
            { named := lineSet (fld v 8 4) (fld v 12 4) &&& linesBelow (frameLines (getBank s b).drv), racked := 0
              host := lineSet (fld v 8 4) (fld v 12 4) &&& linesBelow (frameLines (getBank s b).drv) }) ∧
    (∀ (b : Bank) (s : State), (slotsRun s = false ∨ (getBank s b).drv.flushing = false ∨
      catchUps (getBank s b) ≠ []) →
      exec (.dutyFlushEnd b) s = .next s))

/-- R178, R269, R275, Table DRV-5: a DPWR bit set in RUN powers the bank up from state 0, latches in states 6 and 7; a
bit cleared lets a bank of states 1 and 2 go, in state 3 waits for the next CK_FRAME edge and in state 4 for the next
common-slot boundary; a bank that goes from state 1 or 2 skips settling from its start (Table DRV-11; SKIPPED is log
entry 59). A set takes back a clear that is still pending in state 3 or 4, and no other power-down; made in state 5 it
stands, and the next common-slot boundary shows content again with the frame count unbroken (R300). The other bank
does not change. While the expiry reaction of R45 runs no bank powers up (log entry 30). A set in STANDBY or reduced
function, and a clear that FDON forbids, are refused with STATE, for either bank. A bit written back to the value in
force ends the wait of a change made beside a frame boundary (R208, log entry 60). -/
def Obligations.DisplayPowerRequests : Prop :=
  (∀ (p : Port) (b : Bank) (v w : Word) (s : State), reachesRule s p 0x0E v w → bit w b.num = true →
    (getBank s b).drv.req = false → (getBank s b).drv.reqNext = none →
    (∀ b', b' ≠ b → bit w b'.num = reqShown (getBank s b').drv) → s.pw.trans = .idle →
    s.pw.mode ≠ .standby → s.pw.reduced = false →
    ∃ t, exec (.dpwrSet p v) s = .next t ∧ (∀ b', b' ≠ b → getBank t b' = getBank s b') ∧
      (getBank t b).drv.req = true ∧ t.err = s.err ∧ t.mem = s.mem ∧
      ((getBank s b).drv.sta = .off → s.clk.expiring = false → (getBank t b).drv.latch = false ∧
        (getBank t b).drv.sta = if (getBank s b).drv.vgood then .biasSettle else .waitVlcd) ∧
      ((getBank s b).drv.sta = .off → s.clk.expiring = true → (getBank t b).drv.sta = .off) ∧
      (((getBank s b).drv.sta = .grounding ∨ (getBank s b).drv.sta = .release) →
        (getBank t b).drv = { (getBank s b).drv with req := true, latch := true }) ∧
      (((getBank s b).drv.sta = .allOff ∨ (getBank s b).drv.sta = .content) →
        (getBank t b).drv = { (getBank s b).drv with
          req := true, pend := if (getBank s b).drv.pend = .byClear then .none else (getBank s b).drv.pend }) ∧
      ((getBank s b).drv.sta = .settling → (getBank s b).drv.pend = .none →
        (getBank t b).drv = { (getBank s b).drv with req := true })) ∧
  (∀ (b : Bank) (ups : List Upset) (s : State), (getBank s b).drv.sta = .settling → (getBank s b).drv.req = true →
    s.clk.expiring = false → (getBank s b).drv.slot < frameSlots (getBank s b).drv → (getBank s b).drv.burst = none →
    ∃ t r, exec (.slotBoundary b ups) s = .next t ∧ (getBank t b).led.recs = (getBank s b).led.recs ++ [r] ∧
      (getBank t b).drv.sta = .content ∧ (getBank t b).drv.fcnt = (getBank s b).drv.fcnt ∧
      r.driven = true ∧ r.pix = composedLine (upsets s ups) b r.line) ∧
  (∀ (p : Port) (b : Bank) (v w : Word) (s : State), reachesRule s p 0x0E v w → bit w b.num = false →
    (getBank s b).drv.req = true → (getBank s b).drv.reqNext = none →
    (∀ b', b' ≠ b → bit w b'.num = reqShown (getBank s b').drv) → s.pw.trans = .idle →
    (s.roles.fdon = true → s.pw.mode ≠ .run) →
    ∃ t, exec (.dpwrClear p v) s = .next t ∧ (∀ b', b' ≠ b → getBank t b' = getBank s b') ∧
      (getBank t b).drv.req = false ∧ (getBank t b).drv.latch = false ∧ t.err = s.err ∧ t.mem = s.mem ∧
      (((getBank s b).drv.sta = .waitVlcd ∨ (getBank s b).drv.sta = .biasSettle) →
        (getBank t b).drv.sta = (if (getBank s b).drv.vgood then .release else .off) ∧
        (getBank t b).led.skipped = true ∧ (getBank t b).led.settleLast = 0) ∧
      ((getBank s b).drv.sta = .allOff → (getBank s b).drv.pend = .none →
        (getBank t b).drv.sta = .allOff ∧ (getBank t b).drv.pend = .byClear) ∧
      ((getBank s b).drv.sta = .content → (getBank s b).drv.pend = .none → (getBank t b).drv.sta = .content ∧
        (getBank t b).drv.pend = .byClear ∧ (getBank t b).drv.setReqAt = s.now)) ∧
  (∀ (p : Port) (b : Bank) (v w : Word) (s : State), reachesRule s p 0x0E v w → s.pw.trans = .idle →
    (bit w b.num = true → s.pw.mode ≠ .standby ∧ s.pw.reduced = false) →
    (bit w b.num = false → s.roles.fdon = true → s.pw.mode ≠ .run) →
    (getBank s b).drv.reqNext = some (!bit w b.num) → (getBank s b).drv.req = bit w b.num →
    (∀ b', b' ≠ b → bit w b'.num = reqShown (getBank s b').drv) →
    exec (.dpwrSet p v) s = .next (setDrv (gen1Empty s p 0x0E) b { (getBank s b).drv with reqNext := none }) ∧
      exec (.dpwrClear p v) s = .next (setDrv (gen1Empty s p 0x0E) b { (getBank s b).drv with reqNext := none })) ∧
  (∀ (p : Port) (b : Bank) (v w : Word) (s : State), reachesRule s p 0x0E v w →
    (((bit w b.num = true ∧ reqShown (getBank s b).drv = false) ∧ (s.pw.mode = .standby ∨ s.pw.reduced = true)) ∨
      ((bit w b.num = false ∧ reqShown (getBank s b).drv = true) ∧ s.roles.fdon = true ∧ s.pw.mode = .run) ∨
      s.pw.trans ≠ .idle) →
    exec (.dpwrSet p v) s = .next (refuse (gen1Empty s p 0x0E) p eSTATE 0x1C) ∧
      exec (.dpwrClear p v) s = .next (refuse (gen1Empty s p 0x0E) p eSTATE 0x1C))

/-- Table DRV-5, R250, R264, R265: VLCD-good rising takes state 1 to state 2; falling, it takes state 2 back, starts
the loss time of a driven bank with IRQSTAT.VLCD, and ends state 7; without it for 20 ms state 1 ends with a NOVLCD
record that names the bank; without it for VLOSS_T a driven bank counts, and with VLOSS_POL grounds and loses its
request, one that waits for a frame boundary with it (R582, R208). Table DRV-5, R243, R261, R269: bias settling ends
in state 3, whose frames count from 0; grounding ends in state 7, or in state 0 where the glass supply is down
already; release ends in state 0, from which a latched or kept request powers the bank up again, but not while the
expiry reaction of R45 runs (log entry 30). The other bank does not change. -/
def Obligations.GlassSupplyAndBankSequence : Prop :=
  (∀ (b : Bank) (s : State),
      ((getBank s b).drv.vgood = false → exec (.vlcdGoodRise b) s = .next (setDrv s b { (getBank s b).drv with
        vgood := true, vlossRun := false
        sta := if (getBank s b).drv.sta = .waitVlcd then .biasSettle else (getBank s b).drv.sta })) ∧
      ((getBank s b).drv.vgood = true → driven (getBank s b).drv = true →
        exec (.vlcdGoodFall b) s = .next { setDrv s b { (getBank s b).drv with vgood := false, vlossRun := true } with
          irqStat := s.irqStat ||| 0x2000 }) ∧
      ((getBank s b).drv.vgood = true → (getBank s b).drv.sta = .biasSettle → (getBank s b).drv.t20Out = false →
        exec (.vlcdGoodFall b) s = .next (setDrv s b { (getBank s b).drv with vgood := false, sta := .waitVlcd })) ∧
      ((getBank s b).drv.vgood = true → (getBank s b).drv.sta = .release → (getBank s b).drv.req = false →
        (getBank s b).drv.latch = false →
        exec (.vlcdGoodFall b) s = .next (setDrv s b { (getBank s b).drv with vgood := false, sta := .off })) ∧
      ((getBank s b).drv.sta = .waitVlcd → ∃ t, exec (.novlcdTimeout b) s = .next t ∧
        t = { setBank s b (getBank t b) with err := t.err, irqStat := s.irqStat ||| 0x2002 } ∧
        (getBank t b).drv = { (getBank s b).drv with
          sta := .off, req := false, latch := false, reqNext := none, novlcdCnt := sat1 (getBank s b).drv.novlcdCnt } ∧
        t.err.code = eNOVLCD ∧ t.err.info = wordOf b.num ∧ t.err.src = 0) ∧
      (driven (getBank s b).drv = true → (getBank s b).drv.vlossRun = true →
        (pgb s (drivePage b + 2) 8 = false → exec (.vlcdLossTimeout b) s = .next (setDrv s b { (getBank s b).drv with
          vlossRun := false, vlostCnt := sat1 (getBank s b).drv.vlostCnt })) ∧
        (pgb s (drivePage b + 2) 8 = true → ∃ t, exec (.vlcdLossTimeout b) s = .next t ∧
          (getBank t b).drv.sta = .grounding ∧ (getBank t b).drv.req = false ∧ (getBank t b).drv.latch = false ∧
          (getBank t b).drv.reqNext = none ∧ (getBank t b).led.skipped = true ∧
          (getBank t b).drv.vlostCnt = sat1 (getBank s b).drv.vlostCnt ∧
          t.mem = s.mem ∧
          ∀ b', b' ≠ b → getBank t b' = getBank s b'))) ∧
  (∀ (b : Bank) (s : State),
      ((getBank s b).drv.sta = .biasSettle → ∃ t, exec (.biasSettleEnd b) s = .next t ∧
        (getBank t b).drv.sta = .allOff ∧ (getBank t b).drv.fcnt = 0 ∧ (getBank t b).drv.slot = 0 ∧
        (getBank t b).drv.offLeft = 2 ∧ ∀ b', b' ≠ b → getBank t b' = getBank s b') ∧
      ((getBank s b).drv.sta = .grounding → s.clk.expiring = false → (getBank s b).drv.vgood = true →
        exec (.groundingEnd b) s = .next (setBank s b { getBank s b with
          drv := { (getBank s b).drv with sta := .release, pend := .none }
          trim := { (getBank s b).trim with armed := false, waitArm := false } })) ∧
      ((getBank s b).drv.sta = .grounding → s.clk.expiring = false → (getBank s b).drv.vgood = false →
        (getBank s b).drv.req = false → (getBank s b).drv.latch = false →
        exec (.groundingEnd b) s = .next (setBank s b { getBank s b with
          drv := { (getBank s b).drv with sta := .off, pend := .none }
          trim := { (getBank s b).trim with armed := false, waitArm := false } })) ∧
      ((getBank s b).drv.sta = .release →
        ((((getBank s b).drv.req = false ∧ (getBank s b).drv.latch = false) ∨ s.pw.reduced = true ∨
            s.clk.expiring = true) →
          exec (.releaseEnd b) s = .next (setDrv s b { (getBank s b).drv with sta := .off })) ∧
        (((getBank s b).drv.req = true ∨ (getBank s b).drv.latch = true) → s.pw.reduced = false →
          s.clk.expiring = false →
          ∃ t, exec (.releaseEnd b) s = .next t ∧ (getBank t b).drv.req = true ∧ (getBank t b).drv.latch = false ∧
            (getBank t b).trim.now = trimEff (getBank s b).trim ∧ (∀ b', b' ≠ b → getBank t b' = getBank s b') ∧
            (getBank t b).drv.sta = if (getBank s b).drv.vgood then .biasSettle else .waitVlcd)))

/-- R242, R243, R283, R208: a frame boundary of a driven bank starts the next frame, with the waveform and rate in
force from it, makes the frame's slots a booking pass, and after two all-off frames goes on to content. What was
written beside the boundary before it takes effect: the DPWR bit, a changed DUTY, whose flush begins, and the DVLCD
fields, which arm no trim interrupt where the write was made with VLEN low or a fall of VLEN has disarmed it (R257;
how such a write waits is log entry 60). R226: no second burst runs in a CK_FRAME cycle: one that still waits as
another has taken the edge is dropped, and the line that it was to rack goes back to the batch (log entry 54). R241,
R244, R245: a slot boundary of a bank in state 4 with no power-down due begins the next slot: its record names the
line, the polarity and the cycles of that slot, and the common-slot time is noted. R306, R226: it shows the composed
line from the boundary on, whenever the slot's burst runs: in this CK_FRAME cycle, but where another burst has run in
it the burst waits for the next one (that bank B's also waits for bank A's is log entry 49). -/
def Obligations.FrameAndSlotBoundaries : Prop :=
  ((∀ (b : Bank) (s : State), driven (getBank s b).drv = true →
      ((getBank s b).drv.sta = .allOff → (getBank s b).drv.pend = .none) → (getBank s b).drv.burst = none →
      ∃ t, exec (.frameBoundary b) s = .next t ∧ (getBank t b).drv.slot = 0 ∧
        (getBank t b).drv.fcnt = (getBank s b).drv.fcnt + 1 ∧ (getBank t b).drv.waveNow = (getBank s b).drv.wave ∧
        (getBank t b).drv.rateNow = rateOf s b ∧ (getBank t b).led.recs = [] ∧
        (∃ q, (getBank t b).led.passes = (getBank s b).led.passes ++ [q] ∧ q.recs = (getBank s b).led.recs ∧
          q.boundary = true) ∧
        ((getBank s b).drv.sta = .allOff → (getBank s b).drv.offLeft = 1 → (getBank t b).drv.sta = .content) ∧
        ((getBank s b).drv.sta ≠ .allOff → (getBank t b).drv.sta = (getBank s b).drv.sta) ∧
        ∀ b', b' ≠ b → (getBank t b').drv = (getBank s b').drv) ∧
    (∀ (b : Bank) (s : State), (driven (getBank s b).drv = true ∨ slotsRun s = true) →
      ((getBank s b).drv.sta = .allOff → (getBank s b).drv.pend = .none) →
      ∃ t, exec (.frameBoundary b) s = .next t ∧ (getBank t b).drv.reqNext = none ∧
        (getBank t b).drv.dutyWait = false ∧
        (getBank t b).trim.wait = none ∧ (∀ v, (getBank s b).drv.reqNext = some v → (getBank t b).drv.req = v) ∧
        ((getBank s b).drv.dutyWait = true → (getBank s b).drv.duty ≠ (getBank s b).drv.dutyNow →
          (getBank t b).drv.flushing = true) ∧
        (∀ c n k, (getBank s b).trim.wait = some (c, n, k) → (getBank t b).trim.target = c ∧
          (getBank t b).trim.slew = n ∧
          (getBank t b).trim.tcomp = k ∧ ((getBank s b).trim.waitArm = false → (getBank t b).trim.armed = false ∧
            bit t.irqStat 13 = bit s.irqStat 13))) ∧
    (∀ (b : Bank) (q : Burst) (c : Batch) (l : Nat) (s : State), slotsRun s = true →
      (getBank s b).drv.burst = some q →
      s.arb.l0At = some s.now → ((getBank s b).drv.sta = .allOff → (getBank s b).drv.pend = .none) → l < 5 →
      q.rack.getLsbD l = true → (getLayer (getBank s b) l).cur = some c → c.named &&& lineBit q.line ≠ 0 →
      ∃ t, exec (.frameBoundary b) s = .next t ∧ (getBank t b).drv.burst = none ∧ t.arb.l0At = s.arb.l0At ∧
        (l ≠ 2 → (getLayer (getBank t b) l).cur = some { c with racked := c.racked &&& ~~~ lineBit q.line })) ∧
    (∀ (b : Bank) (s : State), driven (getBank s b).drv = false → slotsRun s = false →
      exec (.frameBoundary b) s = .next s)) ∧
  (∀ (b : Bank) (ups : List Upset) (s : State), (getBank s b).drv.sta = .content → (getBank s b).drv.pend = .none →
      (getBank s b).drv.slot < frameSlots (getBank s b).drv → (getBank s b).drv.burst = none →
      ∃ t r, exec (.slotBoundary b ups) s = .next t ∧ (getBank t b).led.recs = (getBank s b).led.recs ++ [r] ∧
        r.line = slotLine (getBank s b).drv (getBank s b).drv.slot ∧
          r.neg = slotNeg (getBank s b) (getBank s b).drv.slot ∧
        r.driven = true ∧ r.bias = (getBank s b).drv.bias ∧
        r.cycles = slotLen (frameLen (getBank s b).drv) (frameSlots (getBank s b).drv) (getBank s b).drv.slot ∧
        r.pix = composedLine (upsets s ups) b r.line ∧
        (s.arb.l0At ≠ some s.now → b = .bankA → (getBank t b).drv.burst = none ∧ t.arb.l0At = some s.now) ∧
        (s.arb.l0At = some s.now → ∃ q, (getBank t b).drv.burst = some q ∧ q.line = r.line ∧ q.shown = true ∧
          t.arb.l0At = s.arb.l0At) ∧
        (getBank t b).drv.slot = (getBank s b).drv.slot + 1 ∧ (getBank t b).drv.slotAt = s.now ∧
        (getBank t b).drv.sta = .content)

/-- R277, R283, R285, R286: the end of a booking pass takes the pass out, counts it, and leaves each used accumulator
as its records book it; no byte outside the bank's accumulators changes. The arbiter grants its bursts first, in the
state u (R224; how it serves a row is the model's choice, log entry 49), and where it grants another request nothing
happens. -/
def Obligations.BookingPassesBookEveryUsedPixel : Prop :=
  (∀ (b : Bank) (ups : List Upset) (s : State), arbServe s (.low 2) = none →
    exec (.bookingPassEnd b ups) s = .next s) ∧
  ∀ (b : Bank) (q : Pass) (rest : List Pass) (s u : State), domains s = true → (getBank s b).led.passes = q :: rest →
    arbServe s (.low 2) = some u → (getBank s b).led.clr = false → s.arb.ecc = [] → Cellar.wf s.mem = true →
    ∃ t, exec (.bookingPassEnd b []) s = .next t ∧ (getBank t b).led.passes = rest ∧
      (getBank t b).led.passCnt = ((getBank s b).led.passCnt + 1) % 0x10000 ∧ (getBank t b).led.units = q.units ∧
      (∀ c x, c < frameLines (getBank s b).drv → x < 128 → readAcc t b c x =
        passWord b (getBank s b).drv (getBank s b).led q (getBank t b).led.passCnt c x (decide (x < q.keyCols))
          (readAcc s b c x)) ∧
      (∀ a, a < accAddr b 0 0 ∨ accAddr b 0 0 + 0x2000 ≤ a → Cellar.get t.mem a = Cellar.get s.mem a) ∧
      (getBank t b).drv = (getBank s b).drv ∧ t.irqStat = s.irqStat ∧ t.err = s.err

/-- R183, R253, R254, R256, R257: DVLCD takes target, slew and TCOMP, and arms the interrupt where VLEN is high, which
fires at once where the present code is at the effective target already; with VLEN low the present code follows at
once. A trim step moves one code towards the effective target, and the armed interrupt fires at it. A write with VIEW
sets the view only. R202, R255, R521: the temperature update takes the sensor's value, and the flag TWARN_F above
TWARN; the trim update of every 10 ms takes each bank's compensation from its table at the temperature in force. -/
def Obligations.ContrastTrimAndTemperature : Prop :=
  ((∀ (p : Port) (b : Bank) (w : Word) (s : State), reachesRule s p 0x13 (wordOf (0x4000 + 0x8000 * b.num)) w →
      exec (.dvlcdView p b) s = .next { gen1Empty s p 0x13 with disp := { s.disp with dvlcdView := b } }) ∧
    (∀ (p : Port) (v w : Word) (s : State) (b : Bank), reachesRule s p 0x13 v w → bit w 14 = false →
      b = Bank.ofBit (bit w 15) →
      ∃ t, exec (.trimWrite p v) s = .next t ∧ (getBank t b).trim.target = (loByte w).toInt ∧
        (getBank t b).trim.slew = fld w 8 2 ∧ (getBank t b).trim.tcomp = bit w 10 ∧
        (getBank t b).trim.wait = none ∧
        t = { setBank (gen1Empty s p 0x13) b (getBank t b) with disp := t.disp, irqStat := t.irqStat } ∧
        getBank t b = { getBank s b with trim := (getBank t b).trim } ∧
        (vlen (getBank s b).drv = false → (getBank t b).trim.now = trimEff (getBank t b).trim ∧
          t.irqStat = s.irqStat) ∧
        (vlen (getBank s b).drv = true → (getBank t b).trim.now = (getBank s b).trim.now ∧
          ((getBank s b).trim.now ≠ trimEff (getBank t b).trim → (getBank t b).trim.armed = true ∧
            t.irqStat = s.irqStat) ∧
          ((getBank s b).trim.now = trimEff (getBank t b).trim → (getBank t b).trim.armed = false ∧
            t.irqStat = s.irqStat ||| 0x2000))) ∧
    (∀ (b : Bank) (s : State), vlen (getBank s b).drv = true → (getBank s b).trim.now ≠ trimEff (getBank s b).trim →
      ∃ t, exec (.trimStep b) s = .next t ∧
        (getBank t b).trim.now = (if (getBank s b).trim.now < trimEff (getBank s b).trim then (getBank s b).trim.now + 1
          else (getBank s b).trim.now - 1) ∧
        t.irqStat = (if (getBank s b).trim.armed = true ∧ (getBank t b).trim.now = trimEff (getBank s b).trim
          then s.irqStat ||| 0x2000 else s.irqStat) ∧
        getBank t b = { getBank s b with trim := (getBank t b).trim } ∧
        t = { setBank s b (getBank t b) with irqStat := t.irqStat })) ∧
  ((∀ (x : Word) (s : State), active s = true → exec (.tempUpdate x) s = .next { s with
      disp := { s.disp with temp := x
                            twarnF := s.disp.twarnF || decide ((pg s 0xEC0E).toNat * 10 < x.toInt) } }) ∧
    (∀ s : State, domains s = true → ∃ t, exec .tcUpdate s = .next t ∧
      t = { s with bankA := t.bankA, bankB := t.bankB, irqStat := t.irqStat } ∧
      ∀ b : Bank, (getBank t b).trim.tc = tcValue (tcEntry s b) (tcTemp s b) ∧
        (getBank t b).trim.tcompNow = (getBank s b).trim.tcomp ∧ (getBank t b).drv = (getBank s b).drv ∧
        (vlen (getBank s b).drv = false → (getBank t b).trim.now = trimEff (getBank t b).trim)))

/-- R184, R517 to R519, R528, R582: a crack measurement of a frame that is no leakage frame is kept as the loop's
resistance, and two open ones in a row make status 4; with the policy to ground, that also powers the bank down (in
state 3 from the next CK_FRAME edge, in state 4 from the next common-slot boundary, with the settle cap of the frame
in force, R260, R269) and clears its DPWR bit, so that a settle goes on and no DPWR set made before ends it (log entry
15). Two leakage measurements in a row above LEAK_I make status 5, which acts as status 4 does. Outside driven frames
with the loop enabled a measurement changes nothing. -/
def Obligations.CrackMeasurementsAreJudged : Prop :=
  (∀ (b : Bank) (m : Nat) (s : State), (driven (getBank s b).drv = false ∨ (getBank s b).crack.en = false) →
    exec (.crackMeasurement b m) s = .next s) ∧
  (∀ (b : Bank) (m : Nat) (s : State), driven (getBank s b).drv = true → (getBank s b).crack.en = true →
    (getBank s b).crack.startNext = false → (getBank s b).drv.fcnt % 16 ≠ 0 →
    ∃ t, exec (.crackMeasurement b m) s = .next t ∧ (getBank t b).crack.loopR = min 6000 m ∧ t.mem = s.mem ∧
      (∀ b', b' ≠ b → getBank t b' = getBank s b') ∧
      (5000 < m → (getBank s b).crack.openRun = 1 → (getBank s b).crack.sta ≠ 4 →
        (getBank t b).crack.sta = 4 ∧ t.irqStat = s.irqStat ||| 0x1000 ∧
        (getBank t b).crack.evt = sat1 (getBank s b).crack.evt ∧
        (s.disp.crackPol = 1 → (getBank t b).drv = match (getBank s b).drv.sta with
          | .allOff => { (getBank s b).drv with req := false, latch := false, reqNext := none, pend := .other }
          | .content => if (getBank s b).drv.pend = .none
              then { (getBank s b).drv with
                req := false, latch := false, reqNext := none, pend := .other, setReqAt := s.now
                setFrame := frameLen (getBank s b).drv
                setCap := pgf s (drivePage b + 6) 8 4 * frameLen (getBank s b).drv }
              else { (getBank s b).drv with req := false, latch := false, reqNext := none, pend := .other }
          | _ => { (getBank s b).drv with req := false, latch := false, reqNext := none }) ∧
        (s.disp.crackPol ≠ 1 → (getBank t b).drv = (getBank s b).drv)) ∧
      (m ≤ 5000 → (getBank t b).crack.openRun = 0)) ∧
  (∀ (b : Bank) (m : Nat) (s : State), driven (getBank s b).drv = true → (getBank s b).crack.en = true →
    (getBank s b).crack.startNext = false → (getBank s b).drv.fcnt % 16 = 0 →
    ∃ t, exec (.crackMeasurement b m) s = .next t ∧ (getBank t b).crack.leakNa = min 0xFFFF m ∧
      (getBank t b).crack.loopR = (getBank s b).crack.loopR ∧ t.mem = s.mem ∧
      (∀ b', b' ≠ b → getBank t b' = getBank s b') ∧
      (m ≤ (pg s 0xEC12).toNat * 100 → (getBank t b).crack.leakRun = 0) ∧
      ((pg s 0xEC12).toNat * 100 < m → (getBank s b).crack.leakRun = 1 → (getBank s b).crack.openRun < 2 →
        (getBank s b).crack.sta ≠ 4 → (getBank s b).crack.sta ≠ 5 →
        (getBank t b).crack.sta = 5 ∧ t.irqStat = s.irqStat ||| 0x1000 ∧
        (getBank t b).crack.evt = sat1 (getBank s b).crack.evt ∧
        (s.disp.crackPol = 1 → (getBank t b).drv = match (getBank s b).drv.sta with
          | .allOff => { (getBank s b).drv with req := false, latch := false, reqNext := none, pend := .other }
          | .content => if (getBank s b).drv.pend = .none
              then { (getBank s b).drv with
                req := false, latch := false, reqNext := none, pend := .other, setReqAt := s.now
                setFrame := frameLen (getBank s b).drv
                setCap := pgf s (drivePage b + 6) 8 4 * frameLen (getBank s b).drv }
              else { (getBank s b).drv with req := false, latch := false, reqNext := none, pend := .other }
          | _ => { (getBank s b).drv with req := false, latch := false, reqNext := none }) ∧
        (s.disp.crackPol ≠ 1 → (getBank t b).drv = (getBank s b).drv)))

/-! ### Layers, animation and keys -/

/-- R180, R100, R310: a DCOMMIT that its checks let pass waits in the port's buffer and changes nothing else (c is the
state of its capture: on Port S the entries of earlier frames have left, R140); at the front it takes effect on each
bank it names, whose layers take its lines, but waits there during a duty flush and, where line slots run, in the
CK_FRAME cycle in which one begins, and behind commits that wait already (R337, R311, log entry 54); while none runs,
its lines are placed for the frame with which they resume (R315, log entry 54). A Tell-tale commit from the port
without the Supervisor role is refused with OWNER. R181, R182: DLAYER selects a layer and clears the flags written 1
in it, a layer number above 4 is refused; DBLINK keeps its bits. Nothing else changes. -/
def Obligations.CommitsLayersAndBlink : Prop :=
  ((∀ (p : Port) (v w : Word) (s c : State), reachesRule s p 0x10 v w → captured (gen1Empty s p 0x10) p = c →
      commitRefusal c p w = none → (getPort c p).buf.length < 32 → pageMode c p = false →
      exec (.dcommit p v) s = .next (pushEntry c p (.dcommit w))) ∧
    (∀ (p : Port) (v w : Word) (s c : State), reachesRule s p 0x10 v w → captured (gen1Empty s p 0x10) p = c →
      bit w 4 = true → isSup s p = false →
      pageMode c p = false → exec (.dcommit p v) s = .next (refuse c p eOWNER 0x20)) ∧
    (∀ (p : Port) (v : Word) (rest : List BufEntry) (s : State), (getPort s p).buf = .dcommit v :: rest →
      domains s = true → s.portP.held = .none →
      ∃ t, exec (.commitEffect p) s = .next t ∧ (getPort t p).buf = rest ∧ t.mem = s.mem ∧ t.irqStat = s.irqStat ∧
        t.err = s.err ∧ ∀ b : Bank,
          (bit v (5 + b.num) = false → getBank t b = getBank s b) ∧
          (bit v (5 + b.num) = true →
            (commitsWait s b = true ∨ (getBank s b).held ≠ []) →
            getBank t b = { getBank s b with held := (getBank s b).held ++ [v] }) ∧
          (commitsWait s b = true ↔ (getBank s b).drv.flushing = true ∨ (slotsRun s = true ∧ slotDueNow s b = true)) ∧
          (bit v (5 + b.num) = true → commitsWait s b = false → (getBank s b).held = [] → ∀ l, l < 5 →
            getLayer (getBank t b) l = if bit v l then
              placeCommit { (getBank s b).drv with slot := if slotsRun s then (getBank s b).drv.slot else 0 } (getLayer (getBank s b) l)
              (lineSet (fld v 8 4) (fld v 12 4) &&& linesBelow (frameLines (getBank s b).drv)) else
              getLayer (getBank s b) l))) ∧
  ((∀ (p : Port) (v w : Word) (s : State), reachesRule s p 0x11 v w → fld w 0 3 ≤ 4 →
      ∃ t b, exec (.dlayerWrite p v) s = .next t ∧ b = Bank.ofBit (bit w 3) ∧
        t = { setBank (gen1Empty s p 0x11) b (getBank t b) with
          disp := { s.disp with viewLayer := fld w 0 3, viewBank := b } } ∧
        getBank t b = { getBank s b with layers := (getBank t b).layers } ∧
        (∀ l, l < 5 → l ≠ fld w 0 3 → getLayer (getBank t b) l = getLayer (getBank s b) l) ∧
        getLayer (getBank t b) (fld w 0 3) = { getLayer (getBank s b) (fld w 0 3) with
          late := (getLayer (getBank s b) (fld w 0 3)).late && !bit w 5
          super := (getLayer (getBank s b) (fld w 0 3)).super && !bit w 6
          coal := (getLayer (getBank s b) (fld w 0 3)).coal && !bit w 7 }) ∧
    (∀ (p : Port) (v w : Word) (s : State), reachesRule s p 0x11 v w → 4 < fld w 0 3 →
      exec (.dlayerWrite p v) s = .next (refuse (gen1Empty s p 0x11) p eRANGE 0x22)) ∧
    (∀ (p : Port) (v w : Word) (s : State), reachesRule s p 0x12 v w →
      exec (.dblinkWrite p v) s = .next { gen1Empty s p 0x12 with disp := { s.disp with dblink := w &&& 0x777F } }))

/-- R323, R324, R335, R580, R214: EN written to a thread's page word asks for its start or stop at the next boundary;
a descriptor word, or the lock bit, locks its region; the word itself is stored and no other byte changes (u is the
state of the grant). A write that fails its checks is refused with the Cellar address, and one that finds earlier
writes in the port's buffer waits behind them (R115); beside these it speaks of an empty buffer and a granted write.
That such a row leaves the port's window address, prefetch and PFV as they were is the model's choice (log entry 20):
the spec's rules of the advance and of the loads speak of accesses of WDATA. -/
def Obligations.ThreadAndRegionPageRows : Prop :=
  (∀ (p : Port) (b : Bank) (s u : State), pageAccepted s u p (0xC880 + 0x10 * b.num) (fun w => w ||| 1) →
    Cellar.wf u.mem = true →
    ∃ t, exec (.threadStart p b) s = .next t ∧ onlyBytes u t (0xC880 + 0x10 * b.num) 2 ∧
      pgb t (0xC880 + 0x10 * b.num) 0 = true ∧
      getBank t b = { getBank u b with thr := { (getBank u b).thr with startReq := true, stopReq := false } } ∧
      t = { setBank u b (getBank t b) with mem := t.mem, arb := t.arb, err := t.err, irqStat := t.irqStat }) ∧
  (∀ (p : Port) (b : Bank) (s u : State), pageAccepted s u p (0xC880 + 0x10 * b.num) (fun w => w &&& 0xFFFE) →
    Cellar.wf u.mem = true →
    ∃ t, exec (.threadStop p b) s = .next t ∧ onlyBytes u t (0xC880 + 0x10 * b.num) 2 ∧
      pgb t (0xC880 + 0x10 * b.num) 0 = false ∧
      getBank t b = { getBank u b with thr := { (getBank u b).thr with startReq := false, stopReq := true } } ∧
      t = { setBank u b (getBank t b) with mem := t.mem, arb := t.arb, err := t.err, irqStat := t.irqStat }) ∧
  (∀ (p : Port) (r : Fin 4) (second : Bool) (v : Word) (s u : State),
    pageAccepted s u p (0xC8A0 + 8 * r.val + (if second then 2 else 0)) (fun _ => v) → Cellar.wf u.mem = true →
    ∃ t, exec (.regionDefine p r second v) s = .next t ∧
      onlyBytes u t (0xC8A0 + 8 * r.val + (if second then 2 else 0)) 2 ∧ t.disp.rlock[r] = true ∧
      pg t (0xC8A0 + 8 * r.val + (if second then 2 else 0)) =
        v &&& wordOf (pageWord (0xC8A0 + 8 * r.val + (if second then 2 else 0))).stored ∧
      (∀ r', r' ≠ r → t.disp.rlock[r'] = u.disp.rlock[r']) ∧ t.bankA = u.bankA ∧ t.bankB = u.bankB) ∧
  (∀ (p : Port) (r : Fin 4) (s u : State), pageAccepted s u p (0xC8A0 + 8 * r.val + 4) (fun w => w ||| 2) →
    ∃ t, exec (.regionRelock p r) s = .next t ∧ t.disp.rlock[r] = true ∧
      (∀ r', r' ≠ r → t.disp.rlock[r'] = u.disp.rlock[r']) ∧ t.bankA = u.bankA ∧ t.bankB = u.bankB) ∧
  (∀ (p : Port) (b : Bank) (e : Byte) (s c : State), readable s p → pageCaptured s p = c →
    winError c p (0xC880 + 0x10 * b.num) ((pg c (0xC880 + 0x10 * b.num) &&&
      wordOf (pageWord (0xC880 + 0x10 * b.num)).stored) ||| 1) = some e →
    exec (.threadStart p b) s = .next (refuseCell c p e (0xC880 + 0x10 * b.num))) ∧
  (∀ (b : Bank) (x : BufEntry) (rest : List BufEntry) (s c : State), readable s .portP → pageCaptured s .portP = c →
    c.portP.buf = x :: rest → c.portP.buf.length < 32 → winError c .portP (0xC880 + 0x10 * b.num)
      ((pg c (0xC880 + 0x10 * b.num) &&& wordOf (pageWord (0xC880 + 0x10 * b.num)).stored) ||| 1) = none →
    exec (.threadStart .portP b) s = .next (pushEntry c .portP (.wdata (BitVec.ofNat 20 (0xC880 + 0x10 * b.num))
      ((pg c (0xC880 + 0x10 * b.num) &&& wordOf (pageWord (0xC880 + 0x10 * b.num)).stored) ||| 1))))

/-- Table LAY-2, R327, R328: what END, WAIT, SYNC and JUMP do to their thread, and what the 64th instruction does: the
PC goes on by 8 or to TARGET, one more instruction has run, and nothing changes beside the thread and the fetch's own
bookkeeping (u is the state in which the arbiter grants its burst, r that with the upsets). Table LAY-2: LOOP counts
its counter down from N and goes to TARGET while it is not 0, for ever with N 0; BAR with STOP ends its slot, and
without STOP begins a bar in it with its source, mode, count and list (R329), nothing rendered yet; an odd list faults
with FCODE 3, LO not below HI with FCODE 2, an uncorrectable LO or HI with FCODE 4 (R328), which stops the thread and
ends its bars. That the PC then stays at the BAR, and that LOOP with N 0 leaves its counter untouched, is the model's
choice (log entry 40, DEDUCED): R328 and Table LAY-2 are silent on both. -/
def Obligations.ThreadControlLoopAndBar : Prop :=
  (∀ (b : Bank) (ups : List Upset) (s u r : State), upsets u ups = r →
      (animReady s u ups b 0 0 61 → exec (.animEnd b ups) s = .next
        (setThr (animRead1 r b) b { (getBank r b).thr with
          execd := (getBank s b).thr.execd + 1, pc := (getBank s b).thr.pc + 8, stat := 0
          bars := Vector.replicate 4 none })) ∧
      (animReady s u ups b 3 12 49 → ifld (animFetch r b) 0 12 ≠ 0 → exec (.animWait b ups) s = .next
        (setThr (animRead1 r b) b { (getBank r b).thr with
          execd := (getBank s b).thr.execd + 1, pc := (getBank s b).thr.pc + 8, stat := 2
          waitN := ifld (animFetch r b) 0 12, sync := none })) ∧
      (animReady s u ups b 5 0 58 → exec (.animSync b ups) s = .next
        (setThr (animRead1 r b) b { (getBank r b).thr with
          execd := (getBank s b).thr.execd + 1, pc := (getBank s b).thr.pc + 8, stat := 2, waitN := 0
          sync := some (ifld (animFetch r b) 59 2,
            decide (ifld (animFetch r b) 58 1 = 1)) })) ∧
      (animReady s u ups b 7 17 44 → ifld (animFetch r b) 0 17 % 8 = 0 →
        exec (.animJump b ups) s = .next (setThr (animRead1 r b) b { (getBank r b).thr with
          execd := (getBank s b).thr.execd + 1
          pc := BitVec.ofNat 17 (ifld (animFetch r b) 0 17) })) ∧
      ((getBank s b).thr.stat = 1 → 64 ≤ (getBank s b).thr.execd → exec (.instructionLimit b) s = .next
        (setThr s b { (getBank s b).thr with stat := 2, waitN := 1, sync := none }))) ∧
  (∀ (b : Bank) (ups : List Upset) (s u r : State) (w : BitVec 64), upsets u ups = r → w = animFetch r b →
      (animReady s u ups b 4 44 15 → ifld w 17 15 = 0 → ifld w 0 17 % 8 = 0 →
        ∃ t, exec (.animLoop b ups) s = .next t ∧ t = setThr (animRead1 r b) b (getBank t b).thr ∧
          (getBank t b).thr.stat = 1 ∧ (getBank t b).thr.execd = (getBank s b).thr.execd + 1 ∧
          (ifld w 32 12 = 0 → (getBank t b).thr.loops = (getBank s b).thr.loops ∧
            (getBank t b).thr.pc = BitVec.ofNat 17 (ifld w 0 17)) ∧
          (ifld w 32 12 ≠ 0 → vget (getBank t b).thr.loops (ifld w 59 2) =
              (if vget (getBank s b).thr.loops (ifld w 59 2) = 0 then ifld w 32 12
                else vget (getBank s b).thr.loops (ifld w 59 2)) - 1 ∧
            (getBank t b).thr.pc = if vget (getBank t b).thr.loops (ifld w 59 2) = 0
              then (getBank s b).thr.pc + 8 else BitVec.ofNat 17 (ifld w 0 17))) ∧
      (animReady s u ups b 6 17 30 → ifld w 53 1 = 1 → ifld w 0 17 % 2 = 0 →
        exec (.animBar b ups) s = .next (setThr (animRead1 r b) b { (getBank r b).thr with
          execd := (getBank s b).thr.execd + 1, pc := (getBank s b).thr.pc + 8
          bars := vset (getBank s b).thr.bars (ifld w 59 2) none })) ∧
      (animReady s u ups b 6 17 30 → ifld w 53 1 = 0 → ifld w 0 17 % 2 = 0 →
        (animRead (animRead1 r b) (ifld w 0 17) 2).1 = false →
        ∃ t, exec (.animBar b ups) s = .next t ∧
          (barNum (ifld w 56 3) (animWord r (ifld w 0 17)) < barNum (ifld w 56 3) (animWord r (ifld w 0 17 + 2)) →
            t = setThr (animRead (animRead1 r b) (ifld w 0 17) 2).2 b { (getBank r b).thr with
              execd := (getBank s b).thr.execd + 1, pc := (getBank s b).thr.pc + 8
              bars := vset (getBank s b).thr.bars (ifld w 59 2) (some
                { src := ifld w 56 3, mode := ifld w 54 2, count := ifld w 47 6 + 1, list := ifld w 0 17, shown := [] }) }) ∧
          (barNum (ifld w 56 3) (animWord r (ifld w 0 17 + 2)) ≤ barNum (ifld w 56 3) (animWord r (ifld w 0 17)) →
            t = setThr (animRead (animRead1 r b) (ifld w 0 17) 2).2 b { (getBank r b).thr with
              execd := (getBank s b).thr.execd + 1, stat := 3, fcode := 2, bars := Vector.replicate 4 none })) ∧
      (animReady s u ups b 6 17 30 → ifld w 53 1 = 0 → ifld w 0 17 % 2 = 0 →
        (animRead (animRead1 r b) (ifld w 0 17) 2).1 = true →
        exec (.animBar b ups) s = .next (setThr (animRead (animRead1 r b) (ifld w 0 17) 2).2 b { (getBank r b).thr with
          execd := (getBank s b).thr.execd + 1, stat := 3, fcode := 4, bars := Vector.replicate 4 none })) ∧
      (animReady s u ups b 6 17 30 → ifld w 0 17 % 2 = 1 →
        exec (.animBar b ups) s = .next (setThr (animRead1 r b) b { (getBank r b).thr with
          execd := (getBank s b).thr.execd + 1, stat := 3, fcode := 3, bars := Vector.replicate 4 none })))

/-- Table LAY-2, R325, R328: FILL and COPY change the named pixels of the Animation Decanter of their bank, except
locked ones, and no other byte of the Cellar; a FILL whose line range is upside down faults with FCODE 2; that its PC
then stays is the model's choice (log entry 40, DEDUCED). It speaks of an SRAM without ECC errors, and not of the
fault codes of a COPY. -/
def Obligations.DrawingInstructionsWriteTheAnimationDecanter : Prop :=
  ∀ (b : Bank) (s u : State) (w : BitVec 64), w = animFetch s b → s.arb.ecc = [] →
    Cellar.wf s.mem = true →
    (animReady s u [] b 2 0 38 → ifld w 57 4 ≤ ifld w 53 4 → ifld w 46 7 ≤ ifld w 39 7 →
      ∃ t, exec (.animFill b []) s = .next t ∧ (getBank t b).thr.pc = (getBank s b).thr.pc + 8 ∧
        (getBank t b).thr.stat = 1 ∧ onlyBytes s t (bufAddr b 2 0) 0x100 ∧
        ∀ c, c < 16 → readLine t (decLine b 2 c) =
          if ifld w 57 4 ≤ c ∧ c ≤ ifld w 53 4 then
            mixLine (readLine s (decLine b 2 c)) (if ifld w 38 1 = 1 then segRange (ifld w 46 7) (ifld w 39 7) else 0)
              (segRange (ifld w 46 7) (ifld w 39 7)) (lockedPixels s b 2 c)
          else readLine s (decLine b 2 c)) ∧
    (animReady s u [] b 1 17 30 → ifld w 57 4 ≤ ifld w 53 4 → ifld w 50 3 ≤ ifld w 47 3 → ifld w 0 17 % 2 = 0 →
      ∃ t, exec (.animCopy b []) s = .next t ∧ (getBank t b).thr.pc = (getBank s b).thr.pc + 8 ∧
        (getBank t b).thr.stat = 1 ∧ onlyBytes s t (bufAddr b 2 0) 0x100 ∧
        ∀ c, c < 16 → readLine t (decLine b 2 c) =
          if ifld w 57 4 ≤ c ∧ c ≤ ifld w 53 4 then
            mixLine (readLine s (decLine b 2 c))
              (copyLine s (ifld w 0 17) (ifld w 50 3) (ifld w 47 3 + 1 - ifld w 50 3) (c - ifld w 57 4))
              (segRange (16 * ifld w 50 3) (16 * ifld w 47 3 + 15)) (lockedPixels s b 2 c)
          else readLine s (decLine b 2 c)) ∧
    (animReady s u [] b 2 0 38 → ifld w 53 4 < ifld w 57 4 → ∃ t, exec (.animFill b []) s = .next t ∧
      (getBank t b).thr.stat = 3 ∧ (getBank t b).thr.fcode = 2 ∧ (getBank t b).thr.pc = (getBank s b).thr.pc ∧
      t.mem = s.mem)

/-- R185, R353, R356, R359: KCTL takes its fields for the next scan, and a change of EN clears the counts, keeping the
bitmap and the FIFO, but in the CK_FRAME cycle in which a full scan began EN waits for the next full scan (how it
waits is log entry 21); a debounce below 2 or above 8 is refused. The counter clear of the keys page clears its three
counters, during the boot scan when it ends (R352), and captured in the cycle in which a full scan began at the next
one. KCTL fields written in the cycle in which a full scan then begins are not in force in that scan, and EN 0 does
not stop it. R187, R350, R351: a read of KEVT answers (in Gen1 with its low byte, R102) and removes the oldest event,
0x0000 where none stands; a log entry, once granted, reaches its place in the Key log, and no other byte changes. -/
def Obligations.KeyScanControlAndKeyEventsLeave : Prop :=
  ((∀ (p : Port) (v w : Word) (s : State), reachesRule s p 0x15 v w → 2 ≤ fld w 4 4 → fld w 4 4 ≤ 8 →
      ∃ t, exec (.kctlWrite p v) s = .next t ∧ t = { gen1Empty s p 0x15 with keys := t.keys } ∧
        t.keys.reg.diodes = bit w 1 ∧ t.keys.reg.kslot = fld w 2 2 ∧ t.keys.reg.deb = fld w 4 4 ∧
        t.keys.reg.lines = fld w 8 4 ∧ t.keys.reg.kins = fld w 12 3 ∧ t.keys.cur = s.keys.cur ∧
        t.keys.kmap = s.keys.kmap ∧ t.keys.fifo = s.keys.fifo ∧ t.keys.regAt = some s.now ∧
        (¬(s.keys.scanAt = some s.now ∧ s.keys.boot = 0 ∧ s.keys.en = true) → t.keys.en = bit w 0 ∧
          (bit w 0 ≠ s.keys.en → s.keys.boot = 0 → t.keys.counts = Vector.replicate 128 0)) ∧
        (s.keys.scanAt = some s.now → s.keys.boot = 0 → s.keys.en = true → t.keys.en = true ∧
          t.keys.counts = s.keys.counts ∧ t.keys.enNext = (if bit w 0 then none else some false))) ∧
    (∀ (p : Port) (v w : Word) (s : State), reachesRule s p 0x15 v w → (fld w 4 4 < 2 ∨ 8 < fld w 4 4) →
      exec (.kctlWrite p v) s = .next (refuse (gen1Empty s p 0x15) p eRANGE 0x2A)) ∧
    (∀ (p : Port) (s u : State), pageAccepted s u p 0xCC00 (fun w => w ||| 8) → Cellar.wf u.mem = true →
      u.keys.capt = [] →
      ∃ t, exec (.keyCounterClear p) s = .next t ∧ onlyBytes u t 0xCC00 2 ∧
        (u.keys.boot = 0 → u.keys.scanAt ≠ some u.now → t.keys = { u.keys with
          ovfCnt := 0, logWrap := 0, ghostCnt := 0, clr := false, logHold := none
          regAt := t.keys.regAt, was := t.keys.was }) ∧
        (u.keys.boot = 0 → u.keys.scanAt = some u.now → t.keys = { u.keys with
          clr := true, logHold := t.keys.logHold, regAt := t.keys.regAt, was := t.keys.was }) ∧
        (0 < u.keys.boot → t.keys = { u.keys with
          clr := true, logHold := none, regAt := t.keys.regAt, was := t.keys.was })) ∧
    (∀ (p : Port) (v w : Word) (ret : Byte) (s : State), reachesRule s p 0x15 v w → 2 ≤ fld w 4 4 → fld w 4 4 ≤ 8 →
      s.keys.boot = 0 → s.keys.line = 0 → s.keys.en = true → s.keys.scanAt ≠ some s.now → s.keys.regAt ≠ some s.now →
      s.keys.enNext = none → s.keys.logHold = none → slotBegins s = true →
      ∃ t r, exec (.kctlWrite p v) s = .next t ∧ exec (.keySlot ret none) t = .next r ∧ r.keys.cur = keySettings s ∧
        r.keys.en = true ∧ r.keys.enNext = (if bit w 0 then none else some false) ∧
        r.keys.scanAt = some s.now)) ∧
  ((∀ (p : Port) (e : Word) (rest : List Word) (s : State), readable s p → s.keys.fifo = e :: rest →
      ∃ t, exec (.kevtRead p) s = .next t ∧ t = { setPort s p (getPort t p) with keys := t.keys } ∧
        (getPort t p).rdata = onPortBus s p e ∧
        t.keys.fifo = rest ∧
        t.keys.ovfEnd = if keyType e = tMARKER then s.keys.seqNext else s.keys.ovfEnd) ∧
    (∀ (p : Port) (s : State), readable s p → s.keys.fifo = [] →
      ∃ t, exec (.kevtRead p) s = .next t ∧ t = setPort s p (getPort t p) ∧ (getPort t p).rdata = 0) ∧
    (∀ (e : KeyLog) (rest : List KeyLog) (s u : State), s.keys.logQ = e :: rest → domains s = true →
      arbServe s (.low 5) = some u →
      Cellar.wf s.mem = true →
      ∃ t a, exec .keyLogWrite s = .next t ∧ a = 0x30000 + 16 * (e.seq.toNat % 1024) ∧ t.keys.logQ = rest ∧
        onlyBytes s t a 16 ∧ Cellar.getWord t.mem a = e.event ∧ Cellar.getWord t.mem (a + 2) = e.seq ∧
        Cellar.getWord t.mem (a + 4) = e.scan ∧ Cellar.getWord t.mem (a + 6) = wordOf (e.sub.toNat % 0x8000) ∧
        Cellar.getWord t.mem (a + 8) = e.secL ∧ Cellar.getWord t.mem (a + 12) = wordOf e.sta ∧
        Cellar.getWord t.mem (a + 10) = e.secH))

/-- R341, R342, R345: a whole key slot moves the scan to the next line and debounces the keys of its line alone: a key
whose sample has differed for DEB slots changes, every other key keeps its state; a slot that is cut leaves line and
bitmap as they were. The settings are those in force when the slot begins; with the boot scan's last slot the ones
written during it take effect, and the keys that they leave out are open (R352, R354). The keys of the line are
reported in the order of the returns: R345, R347, R348: a key that closes gives PRESS, in the boot scan HELD AT BOOT,
and AMBIGUOUS with its AMAP bit, GHOST and the count where it completes a rectangle with DIODES 0; one that opens
gives RELEASE and loses its AMAP bit; a closed key in AMAP of which no rectangle is left loses the bit with a PRESS;
any other key reports nothing. -/
def Obligations.KeySlotsDebounceTheirLine : Prop :=
  (∀ (old : BitVec 128) (l r n ty : Nat) (gh : Bool) (s : State), n = keyNo l r →
    gh = (!s.keys.cur.diodes && rectangle s.keys.kmap l r) →
    (s.keys.kmap.getLsbD n = true → old.getLsbD n = false → gh = false →
      ty = (if 0 < s.keys.boot then tHELD else tPRESS) →
      reportKey s old l r = keyPush s (keyEvent ty l r s.keys.scanCnt)) ∧
    (s.keys.kmap.getLsbD n = true → old.getLsbD n = false → gh = true →
      reportKey s old l r = keyPush { s with keys := { s.keys with
        amap := s.keys.amap ||| keyBit n, ghost := true, ghostCnt := sat1 s.keys.ghostCnt } }
          (keyEvent tAMBIGUOUS l r s.keys.scanCnt)) ∧
    (s.keys.kmap.getLsbD n = false → old.getLsbD n = true →
      reportKey s old l r = keyPush { s with keys := { s.keys with amap := s.keys.amap &&& ~~~ keyBit n } }
        (keyEvent tRELEASE l r s.keys.scanCnt)) ∧
    (s.keys.kmap.getLsbD n = old.getLsbD n → s.keys.amap.getLsbD n = true → gh = false →
      reportKey s old l r = keyPush { s with keys := { s.keys with amap := s.keys.amap &&& ~~~ keyBit n } }
        (keyEvent tPRESS l r s.keys.scanCnt)) ∧
    (s.keys.kmap.getLsbD n = old.getLsbD n → (s.keys.amap.getLsbD n = false ∨ gh = true) → reportKey s old l r = s)) ∧
  ∀ (ret : Byte) (s : State) (k : Keys), slotBegins (slotMeets s) = true → k = (slotBegun s).keys → k.line < 16 →
    (∃ t, exec (.keySlot ret none) s = .next t ∧ t.mem = s.mem ∧
      t.keys.line = (if k.cur.lines ≤ k.line then 0 else k.line + 1) ∧
      t.keys.scanCnt = (if k.cur.lines ≤ k.line then k.scanCnt + 1 else k.scanCnt) ∧
      (∀ r, r ≤ k.cur.kins → r < 8 → t.keys.kmap.getLsbD (keyNo k.line r) = (keyStays s k (keyNo k.line r) &&
        ((debounce (k.kmap.getLsbD (keyNo k.line r)) (ret.getLsbD r) (vget k.counts (keyNo k.line r)) k.cur.deb).2 !=
          k.kmap.getLsbD (keyNo k.line r)))) ∧
      (∀ n, n < 128 → n / 8 ≠ k.line → t.keys.kmap.getLsbD n = (keyStays s k n && k.kmap.getLsbD n)) ∧
      t.keys.cur = (if k.boot = 1 ∧ k.cur.lines ≤ k.line then keySettings s else k.cur) ∧
      ∃ x, (List.range (k.cur.kins + 1)).foldl (fun x r => reportKey x k.kmap k.line r)
          { slotBegun s with keys := sampleLine k k.line ret } = x ∧
        t.keys.fifo = x.keys.fifo ∧ t.keys.seqNext = x.keys.seqNext ∧ t.keys.logQ = x.keys.logQ ∧
        t.keys.ovf = x.keys.ovf ∧ t.keys.ghost = x.keys.ghost ∧ t.irqStat = x.irqStat ∧
        ((k.boot ≠ 1 ∨ k.line < k.cur.lines) → t.keys.amap = x.keys.amap)) ∧
    (∀ n, ∃ t, exec (.keySlot ret (some n)) s = .next t ∧ t.keys.line = k.line ∧ t.keys.kmap = k.kmap ∧
      t.keys.fifo = k.fifo ∧ t.keys.due = false ∧ t.mem = s.mem)

/-- R350, R349: an event takes the next sequence number and, where fewer than 15 stand in the FIFO and no marker, its
place there, with IRQSTAT.KEY; the sixteenth is lost, a marker enters, and KOVF, the count and OVFSEQ say so; behind a
marker nothing enters. A KEVT read of the marker removes it and latches SEQNEXT in OVFEND, and events enter again. -/
def Obligations.KeyEventsEnterTheFifo : Prop :=
  (∀ (e : Word) (s : State), ∃ t, keyPush s e = t ∧ t = { s with keys := t.keys, irqStat := t.irqStat } ∧
    t.keys.seqNext = s.keys.seqNext + 1 ∧
    (hasMarker s.keys.fifo = false → s.keys.fifo.length < 15 →
      t.keys.fifo = s.keys.fifo ++ [e] ∧ t.irqStat = s.irqStat ||| 0x10 ∧ t.keys.ovf = s.keys.ovf) ∧
    (hasMarker s.keys.fifo = false → 15 ≤ s.keys.fifo.length →
      (∃ m, t.keys.fifo = s.keys.fifo ++ [m] ∧ keyType m = tMARKER) ∧ t.irqStat = s.irqStat ||| 0x30 ∧
      t.keys.ovf = true ∧ t.keys.ovfSeq = s.keys.seqNext ∧ t.keys.ovfCnt = sat1 s.keys.ovfCnt) ∧
    (hasMarker s.keys.fifo = true → t.keys.fifo = s.keys.fifo ∧ t.irqStat = s.irqStat)) ∧
  (∀ (p : Port) (e : Word) (rest : List Word) (s : State), readable s p → s.keys.fifo = e :: rest →
    keyType e = tMARKER → hasMarker rest = false → rest.length < 15 →
    ∃ t, exec (.kevtRead p) s = .next t ∧ t.keys.fifo = rest ∧ t.keys.ovfEnd = s.keys.seqNext ∧
      ∀ x : Word, (keyPush t x).keys.fifo = rest ++ [x])

/-! ### Lamps -/

/-- R188: an LCTL write that the port may make is kept, the bits of ganged odd channels excepted, and every channel
follows its request: an OFF one that is asked for goes to INRUSH, one in INRUSH, ON or WAIT that is not goes to OFF
with its switch open, any other keeps its state; a change of a claimed channel's bits by the port without the
Supervisor role is refused with OWNER, and any other write with a new ON bit in STANDBY with STATE, from either port.
That OWNER is judged by the stored bits, those of a claimed odd half of a gang among them, is the model's choice (log
entry 43). R190, R191: LPARAM writes the parameter that LSEL names in the channel it names: the duty, PWM frequency,
inrush and retry settings change that field alone; a value beyond its range, and GANG on an odd channel, are refused
with RANGE, and GANG or FLASH of a pair of which a channel is not OFF with STATE; a write for a claimed channel by the
port without the Supervisor role is refused with OWNER, before either (R578). R192, R365, R366: a 1 written to a
channel's FLT clears it with its causes and reloads its retries, and the channel, if it is LATCHED, is free again; one
whose FLT is written 0 keeps FLT, causes and retries, and stays LATCHED while its FLT stands, in a gang too; a half
that its partner's fault has latched, with no FLT of its own, is freed with the partner (log entry 23), and the
retries are reloaded with the RETRY setting in force (log entry 14). R391, R205: a channel for which a cause latches
in the same cycle keeps its FLT with that cause; that its older causes and its retries stay with it, and LATCHED, in a
gang with a LATCHED partner whose FLT is written 0, is the model's choice (log entry 43). -/
def Obligations.LampRegistersAndFaultClears : Prop :=
  (∀ (p : Port) (v w new : Word) (s : State), reachesRule s p 0x18 v w →
      new = (w &&& ~~~ wordOf (gangOdd s)) ||| (s.lamps.lctl &&& wordOf (gangOdd s)) →
      ((isSup s p = true ∨ (new ^^^ s.lamps.lctl) &&& wordOf (s.lamps.ttClaim.toNat * 0x101) = 0) →
        (s.pw.mode = .standby → new &&& ~~~ s.lamps.lctl &&& 0xFF = 0) →
        ∃ t, exec (.lctlWrite p v) s = .next t ∧ t = { gen1Empty s p 0x18 with lamps := t.lamps } ∧
          t.lamps.lctl = new ∧
          ∀ n, ((getLamp s n).mode = .off → effReq { s with lamps := t.lamps } n = true →
              (getLamp t n).mode = .inrush ∧ (getLamp t n).conducting = true) ∧
            (effReq { s with lamps := t.lamps } n = false → (getLamp s n).mode ≠ .latched →
              (getLamp t n).mode = .off ∧ ((getLamp s n).mode ≠ .off → (getLamp t n).conducting = false)) ∧
            (effReq { s with lamps := t.lamps } n = true → (getLamp s n).mode ≠ .off →
              (getLamp t n).mode = (getLamp s n).mode) ∧
            ((getLamp s n).mode = .latched → (getLamp t n).mode = .latched)) ∧
      (isSup s p = false → (new ^^^ s.lamps.lctl) &&& wordOf (s.lamps.ttClaim.toNat * 0x101) ≠ 0 →
        exec (.lctlWrite p v) s = .next (refuse (gen1Empty s p 0x18) p eOWNER 0x30)) ∧
      ((isSup s p = true ∨ (new ^^^ s.lamps.lctl) &&& wordOf (s.lamps.ttClaim.toNat * 0x101) = 0) →
        s.pw.mode = .standby → new &&& ~~~ s.lamps.lctl &&& 0xFF ≠ 0 →
        exec (.lctlWrite p v) s = .next (refuse (gen1Empty s p 0x18) p eSTATE 0x30))) ∧
  ((∀ (p : Port) (v w : Word) (s : State), reachesRule s p 0x1B v w →
      s.lamps.ttClaim.getLsbD s.lamps.selCh.val = true → isSup s p = false →
      exec (.lparamWrite p v) s = .next (refuse (gen1Empty s p 0x1B) p eOWNER 0x36)) ∧
    ∀ (p : Port) (v w : Word) (s : State), reachesRule s p 0x1B v w →
      (s.lamps.ttClaim.getLsbD s.lamps.selCh.val = false ∨ isSup s p = true) →
      (s.lamps.selParam < 4 → w.toNat ≤ lparamMax s.lamps.selParam →
        exec (.lparamWrite p v) s = .next (setLamp (gen1Empty s p 0x1B) s.lamps.selCh
          (match s.lamps.selParam with
            | 0 => { getLamp s s.lamps.selCh with duty := w.toNat }
            | 1 => { getLamp s s.lamps.selCh with pwmf := w.toNat }
            | 2 => { getLamp s s.lamps.selCh with inrush := w.toNat }
            | _ => { getLamp s s.lamps.selCh with retry := w.toNat }))) ∧
      (s.lamps.selParam = 5 → w.toNat ≤ 1 → (getLamp s s.lamps.selCh).mode = .off →
        (getLamp s (pairOf s.lamps.selCh)).mode = .off →
        ∃ t, exec (.lparamWrite p v) s = .next t ∧ t = { gen1Empty s p 0x1B with lamps := t.lamps } ∧
          (getLamp t s.lamps.selCh).flash = decide (w.toNat = 1) ∧
          ∀ n, n ≠ s.lamps.selCh → (getLamp t n).flash = (getLamp s n).flash) ∧
      (s.lamps.selParam = 4 → s.lamps.selCh.val % 2 = 0 → w.toNat ≤ 1 → (getLamp s s.lamps.selCh).mode = .off →
        (getLamp s (pairOf s.lamps.selCh)).mode = .off →
        ∃ t, exec (.lparamWrite p v) s = .next t ∧ t = { gen1Empty s p 0x1B with lamps := t.lamps } ∧
          (getLamp t s.lamps.selCh).gang = decide (w.toNat = 1) ∧
          ∀ n, n ≠ s.lamps.selCh → (getLamp t n).gang = (getLamp s n).gang) ∧
      ((lparamMax s.lamps.selParam < w.toNat ∨ (s.lamps.selParam = 4 ∧ s.lamps.selCh.val % 2 = 1)) →
        exec (.lparamWrite p v) s = .next (refuse (gen1Empty s p 0x1B) p eRANGE 0x36)) ∧
      ((s.lamps.selParam = 5 ∨ (s.lamps.selParam = 4 ∧ s.lamps.selCh.val % 2 = 0)) → w.toNat ≤ 1 →
        ((getLamp s s.lamps.selCh).mode ≠ .off ∨ (getLamp s (pairOf s.lamps.selCh)).mode ≠ .off) →
        exec (.lparamWrite p v) s = .next (refuse (gen1Empty s p 0x1B) p eSTATE 0x36))) ∧
  ((∀ (p : Port) (v w : Word) (s : State), reachesRule s p 0x1C v w →
      ∃ t, exec (.lfaultClear p v []) s = .next t ∧ t = { gen1Empty s p 0x1C with lamps := t.lamps } ∧
        ∀ n, (bit w n.val = true → (getLamp t n).flt = false ∧
            ((getLamp s n).flt = true → (getLamp t n).causes = 0 ∧ (getLamp t n).senseless = false ∧
              (getLamp t n).rleft = reloadValue s n ∧ (getLamp t n).mode ≠ .latched ∧
              ((getLamp s n).mode = .latched → effReq t n = false → (getLamp t n).mode = .off) ∧
              (ganged s n = true → (getLamp s (pairOf n)).flt = false → (getLamp t (pairOf n)).mode ≠ .latched))) ∧
          (bit w n.val = false → (getLamp t n).flt = (getLamp s n).flt ∧ (getLamp t n).causes = (getLamp s n).causes ∧
            ((getLamp s n).mode = .latched → (getLamp s n).flt = true → (getLamp t n).mode = .latched)) ∧
          ((bit w n.val = false ∨ (getLamp s n).flt = false) → (getLamp t n).rleft = (getLamp s n).rleft)) ∧
    (∀ (p : Port) (v w : Word) (x : LampCause) (s : State), reachesRule s p 0x1C v w →
      (getLamp (causeArises s x) x.n).flt = true →
      ∃ t, exec (.lfaultClear p v [x]) s = .next t ∧ (getLamp t x.n).flt = true ∧
        (getLamp t x.n).causes = (getLamp (causeArises s x) x.n).causes ∧
        (getLamp t x.n).rleft = (getLamp (causeArises s x) x.n).rleft ∧
        ((getLamp (causeArises s x) x.n).mode = .latched → (getLamp t x.n).mode = .latched) ∧
        (ganged s x.n = true → bit w (pairOf x.n).val = false →
          (getLamp (causeArises s x) (pairOf x.n)).mode = .latched → (getLamp t (pairOf x.n)).mode = .latched)))

/-- R368, R369, Table LMP-3: a short, an overload or an overtemperature of a conducting channel opens its switch, and
that of the other half of a gang; the cause latches with FLT and IRQSTAT.LAMP in the channel that met it, which counts
it; the switched halves are in WAIT or, with no retry left, in LATCHED. The other channels do not change. The energy
of a short waits for its cluster's next tick (R371, R388). R556: with a short and an overtemperature in one cycle, in
either order, both causes latch, the energy is charged and the retry waits for the sensor. R388: shorts of both halves
of a gang in one cycle both latch and both are charged, and each half's own retries say whether it waits. That both
halves of a gang switch off together, with the cause in one, is log entry 23. -/
def Obligations.LampTripsOpenTheSwitch : Prop :=
  (∀ (n : Fin 8) (c : Instr) (e bitNo : Nat) (s : State), (getLamp s n).conducting = true →
    powered (getLamp s n) = true →
    ((c = .lampAbsoluteShort n e ∧ bitNo = cSHORT) ∨
      (c = .lampDesaturation n e ∧ bitNo = cSHORT ∧ (getLamp s n).senseless = false) ∨
      (c = .lampOverload n e ∧ bitNo = cSHORT ∧ (getLamp s n).mode = .on ∧ (getLamp s n).senseless = false) ∨
      (c = .lampOvertemp n ∧ bitNo = cOT ∧ e = 0)) →
    ∃ t, exec c s = .next t ∧ t = { s with lamps := t.lamps, irqStat := t.irqStat } ∧
      (∀ m, m ∈ mates s n → powered (getLamp s m) = true → (getLamp t m).conducting = false ∧
        (getLamp t m).mode = if (getLamp s n).rleft = 0 then .latched else .wait) ∧
      (getLamp t n).causes = (getLamp s n).causes ||| BitVec.ofNat 8 (2 ^ bitNo) ∧ (getLamp t n).flt = true ∧
      (getLamp t n).fltCnt = sat1 (getLamp s n).fltCnt ∧
      (getCluster t (clusterOf n)).shortE = (getCluster s (clusterOf n)).shortE + e ∧
      t.irqStat = (if (getLamp s n).flt then s.irqStat else s.irqStat ||| 0x40) ∧
      (∀ m, m ≠ n → (getLamp t m).causes = (getLamp s m).causes ∧ (getLamp t m).flt = (getLamp s m).flt) ∧
      ∀ m, m ∉ mates s n → getLamp t m = getLamp s m) ∧
  (∀ (n : Fin 8) (e : Nat) (s : State), (getLamp s n).conducting = true → powered (getLamp s n) = true →
    ∃ t, exec (.lampAbsoluteShort n e) s = .next t ∧ ∃ u, exec (.lampOvertemp n) t = .next u ∧
      (getLamp u n).causes = (getLamp s n).causes ||| 0x11 ∧ (getLamp u n).otWait = true ∧
      (getLamp u n).mode = (getLamp t n).mode) ∧
  (∀ (n : Fin 8) (e : Nat) (s : State), (getLamp s n).conducting = true → powered (getLamp s n) = true →
    ∃ t, exec (.lampOvertemp n) s = .next t ∧ ∃ u, exec (.lampAbsoluteShort n e) t = .next u ∧
      (getLamp u n).causes = (getLamp s n).causes ||| 0x11 ∧ (getLamp u n).otWait = true ∧
      (getLamp u n).mode = (getLamp t n).mode ∧
      (getCluster u (clusterOf n)).shortE = (getCluster s (clusterOf n)).shortE + e) ∧
  (∀ (n : Fin 8) (e e' : Nat) (s : State), ganged s n = true → (getLamp s n).conducting = true →
    powered (getLamp s n) = true → (getLamp s (pairOf n)).conducting = true → powered (getLamp s (pairOf n)) = true →
    ∃ t, exec (.lampAbsoluteShort n e) s = .next t ∧ ∃ u, exec (.lampAbsoluteShort (pairOf n) e') t = .next u ∧
      getLamp u n = getLamp t n ∧ (getLamp u (pairOf n)).causes = (getLamp s (pairOf n)).causes ||| 1 ∧
      (getLamp u (pairOf n)).flt = true ∧ (getLamp u (pairOf n)).fltCnt = sat1 (getLamp s (pairOf n)).fltCnt ∧
      (getLamp u (pairOf n)).mode = (if (getLamp s (pairOf n)).rleft = 0 then .latched else .wait) ∧
      (getCluster u (clusterOf n)).shortE = (getCluster s (clusterOf n)).shortE + e + e')

/-- R366, R369, R370: the end of the retry time that the switch-on loaded, or of an overtemperature that held the
retry back, starts the channel again, with the other half of its gang where that half waits too and its own retry time
has run, with one retry less, where its request, its sensor and its cluster's budget, which holds back no channel that
the tell-tale policy claims (R374, R385), permit it, and before that time no retry is made; 1 s of a channel in ON
reloads its own retries. The joint retry of a gang is log entry 23. R365, R376, R377, R378: the inrush window's end
takes a channel, with the other half of its gang unless that half's own window ends later (R367), to ON, fully
conducting; in ON with PWM a period starts at a boundary of the channel's grid and nowhere else, with the duty in
force (in a derated half capped by its measured on-current, R381, so that its mean never exceeds 0.75 A; how its
on-time is rounded is log entry 43), and the on-time ends it; a new grid starts with the switch open. What the halves
of a gang do together is log entry 23. -/
def Obligations.LampRetriesWindowsAndPwm : Prop :=
  ((∀ (n : Fin 8) (s : State), retryTimeOver s (getLamp s n) = false → exec (.retryDue n) s = .next s) ∧
    (∀ (n : Fin 8) (s : State), (getLamp s n).mode = .wait → retryTimeOver s (getLamp s n) = true →
      effReq s n = true →
      (∀ m, m ∈ mates s n → (getLamp s m).otWait = false ∨ (getLamp s m).hot = false) →
      budgetHolds s n = false →
      ∃ t, exec (.retryDue n) s = .next t ∧ t = { s with lamps := t.lamps } ∧
        (∀ m, m ∈ mates s n → (getLamp s m).mode = .wait →
          (m = n ∨ ((getLamp s m).retryRdy = true ∨ retryTimeOver s (getLamp s m) = true) ∧ budgetHolds s m = false) →
          (getLamp t m).mode = .inrush ∧
          (getLamp t m).conducting = true ∧ (getLamp t m).rleft = (getLamp s m).rleft - 1) ∧
        ∀ m, (m ∉ mates s n ∨ (getLamp s m).mode ≠ .wait ∨
          (m ≠ n ∧ ((getLamp s m).retryRdy = false ∧ retryTimeOver s (getLamp s m) = false ∨
            budgetHolds s m = true))) →
          getLamp t m = getLamp s m) ∧
    (∀ (n : Fin 8) (s : State), (getLamp s n).mode = .wait → (getLamp s n).retryRdy = true → effReq s n = true →
      (∀ m, m ∈ mates s n → m ≠ n → (getLamp s m).otWait = false ∨ (getLamp s m).hot = false) →
      budgetHolds s n = false →
      ∃ t, exec (.lampOvertempRelease n) s = .next t ∧ t = { s with lamps := t.lamps } ∧ (getLamp t n).hot = false ∧
        (getLamp t n).mode = .inrush ∧ (getLamp t n).rleft = (getLamp s n).rleft - 1) ∧
    (∀ (n : Fin 8) (s : State), ∃ t, exec (.retryReload n) s = .next t ∧ t = { s with lamps := t.lamps } ∧
      ∀ m, getLamp t m = if m = n ∧ (getLamp s m).mode = .on then
        { getLamp s m with rleft := (getLamp s m).retryN } else getLamp s m)) ∧
  ((∀ (n : Fin 8) (s : State), ∃ t, exec (.inrushEnd n) s = .next t ∧ t = { s with lamps := t.lamps } ∧
      ∀ m, getLamp t m = if (getLamp s n).mode = .inrush ∧ m ∈ mates s n ∧ (getLamp s m).mode = .inrush ∧
          windowOver (getLamp s m) ≤ windowOver (getLamp s n) then
        { getLamp s m with mode := .on, derlvl := 0, conducting := true, pwmRun := false } else getLamp s m) ∧
    (∀ (n : Fin 8) (s : State), gridEdge s n = false → exec (.pwmPeriodStart n) s = .next s) ∧
    (∀ (n : Fin 8) (P : Nat) (s u : State), gridEdge s n = true → (getLamp s n).mode = .on →
      bit s.lamps.lctl ((leader s n).val + 8) = true →
      P = pwmPeriod (getLamp s (leader s n)).pwmf (pgf s (lampPage (leader s n) + 4) 0 16) →
      u = setLamp s n { getLamp s n with
        dutyNow := (getLamp s (leader s n)).duty
        gangCap := if (getLamp s n).gangDer then gangCapOf (getLamp s n).iOn.toNat else (getLamp s n).gangCap } →
      ((P = 0 ∨ P = (getLamp s n).pwmP) → exec (.pwmPeriodStart n) s = .next (setLamp u n { getLamp u n with
        pwmRun := true, conducting := decide (0 < onTime u n) })) ∧
      (P ≠ 0 → P ≠ (getLamp s n).pwmP → exec (.pwmPeriodStart n) s = .next (setLamp s n { getLamp s n with
        pwmP := P, pwmHz := pgf s (lampPage (leader s n) + 4) 0 16, dutyNow := (getLamp s (leader s n)).duty
        conducting := false, pwmRun := true }))) ∧
    (∀ (n : Fin 8) (i : Word) (s : State), (getLamp s n).mode = .on → (getLamp s n).pwmRun = true →
      (getLamp s n).conducting = true →
      exec (.pwmOnTimeEnd n i) s = .next (setLamp s n { getLamp s n with
        conducting := decide (1000 ≤ pwmDuty s n), iOn := i })) ∧
    (∀ (n : Fin 8) (i : Nat) (s : State), (getLamp s n).gangDer = true → (getLamp s n).gangCap = gangCapOf i →
      onTime s n * i ≤ 750 * periodInForce s n))

/-- R379, R380, R382, Table LMP-6: the diagnostic events latch their cause with FLT, in the states in which each is
made (a short to the battery with the switch off whatever OFFDIAG holds, which is the model's choice, log entry 43),
and raise IRQSTAT.LAMP with the first; an implausible sense makes the channel sense-less, and a sense-less one detects
no open load. The switch and the other channels do not change. R381: a gang whose sensed halves share no current is
derated onto the half that conducts: GANGDR latches in both, and that half's duty is capped for a mean of 0.75 A (that
the cap is rounded down to 0.1 % is the model's choice, log entry 43); in INRUSH as in ON it takes both halves' limits
added together (in INRUSH by the model's reading, log entry 23, DEDUCED), until the even channel's FLT is cleared. -/
def Obligations.LampDiagnosticsAndGangs : Prop :=
  (∀ (n : Fin 8) (c : Instr) (k : Nat) (s : State),
      (((c = .openLoadOn n ∧ k = cOPENON ∧ (getLamp s n).mode = .on ∧ (getLamp s n).senseless = false) ∨
        (c = .openLoadOff n ∧ k = cOPENOFF ∧ (getLamp s n).mode = .off ∧ (getLamp s n).offDiag = true ∧
          slotsRun s = true) ∨
        (c = .shortToBattery n ∧ k = cSTB ∧ active s = true ∧ powered (getLamp s n) = false) ∨
        (c = .senseImplausible n ∧ k = cSENSE ∧ powered (getLamp s n) = true ∧ (getLamp s n).conducting = true)) →
        ∃ t, exec c s = .next t ∧ t = { s with lamps := t.lamps, irqStat := t.irqStat } ∧
          (getLamp t n).causes = (getLamp s n).causes ||| BitVec.ofNat 8 (2 ^ k) ∧ (getLamp t n).flt = true ∧
          (getLamp t n).mode = (getLamp s n).mode ∧ (getLamp t n).conducting = (getLamp s n).conducting ∧
          (c = .senseImplausible n → (getLamp t n).senseless = true) ∧
          t.irqStat = (if (getLamp s n).flt then s.irqStat else s.irqStat ||| 0x40) ∧
          ∀ m, m ≠ n → getLamp t m = getLamp s m) ∧
      ((getLamp s n).senseless = true → exec (.openLoadOn n) s = .next s)) ∧
  ((∀ (k : Fin 4) (odd : Bool) (ma : Nat) (e o : Fin 8) (s : State), e.val = 2 * k.val → o.val = 2 * k.val + 1 →
      (getLamp s e).gang = true → (getLamp s e).mode = .on → (getLamp s o).mode = .on →
        (getLamp s e).senseless = false →
      (getLamp s o).senseless = false →
      ∃ t, exec (.gangDerate k odd ma) s = .next t ∧ t = { s with lamps := t.lamps, irqStat := t.irqStat } ∧
        (getLamp t e).causes = (getLamp s e).causes ||| 0x40 ∧ (getLamp t o).causes = (getLamp s o).causes ||| 0x40 ∧
        (getLamp t (if odd then o else e)).gangDer = true ∧
        (getLamp t (if odd then o else e)).gangCap = (if ma ≤ 750 then 1000 else 750000 / ma) ∧
        (∀ m, m ≠ e → m ≠ o → getLamp t m = getLamp s m) ∧
        currentLimit t (if odd then o else e) = (ownLimit (getLamp t (if odd then o else e)) t.now).add
          (ownLimit (getLamp t (if odd then e else o)) t.now)) ∧
    (∀ (n : Fin 8) (s : State), (getLamp s n).gangDer = true → (getLamp s n).mode = .inrush →
      (getLamp s (pairOf n)).mode = .inrush →
      currentLimit s n = (ownLimit (getLamp s n) s.now).add (ownLimit (getLamp s (pairOf n)) s.now)) ∧
    (∀ (p : Port) (v w : Word) (n : Fin 8) (s : State), reachesRule s p 0x1C v w →
      ∃ t, exec (.lfaultClear p v []) s = .next t ∧ (getLamp t n).gangDer =
        ((getLamp s n).gangDer && !(bit w (evenOf n).val && (getLamp s (evenOf n)).flt))))

/-- R371, R388: a millisecond of the clusters' budgets: each is charged with the energy of its channels that were in
INRUSH in it and of its shorts, the refill is added, and the budget stays between 0 and E_MAX; no register outside the
lamp block changes but IRQSTAT. R383, R384: after an accepted LCTL write in RUN the flasher runs where a channel asks
for it, and a flashing channel whose LCTL.ON bit is 1 does, whatever its source. While the flasher runs, an on phase
turns its output on and takes the period, the shorter one after a bulb outage; the off phase turns it off and notes
whether an outage was met. R393: a miss that begins the fallback in the cycle of a flasher edge is made with it before
the channels follow, so that a channel which both leave with its request stays on. -/
def Obligations.ClusterBudgetsAndFlasher : Prop :=
  (∀ (e : Vector Nat 8) (t0 t1 : Word) (ion : Vector Word 8) (s : State), active s = true →
      ∃ t, exec (.budgetTick e t0 t1 ion) s = .next t ∧ t = { s with lamps := t.lamps, irqStat := t.irqStat } ∧
        (getCluster t 0).b = (clampInt 0 ((pg s 0xD100).toNat * mJ)
          (((getCluster s 0).b : Int) - tickCharge s 0 e + refillOf s 0 t0)).toNat ∧
        (getCluster t 1).b = (clampInt 0 ((pg s 0xD110).toNat * mJ)
          (((getCluster s 1).b : Int) - tickCharge s 1 e + refillOf s 1 t1)).toNat ∧
        (getCluster t 0).shortE = 0 ∧ (getCluster t 1).shortE = 0 ∧
        (getCluster t 0).tCl = t0 ∧ (getCluster t 1).tCl = t1 ∧ t.lamps.lctl = s.lamps.lctl) ∧
  ((∀ (p : Port) (v w : Word) (s : State), reachesRule s p 0x18 v w → isSup s p = true → s.pw.mode = .run →
      lampsHeld s = false → ∃ t, exec (.lctlWrite p v) s = .next t ∧
        (t.lamps.flRun = true ↔ ∃ n, wantsFlasher t n = true) ∧
        ∀ n, leader s n = n → (getLamp s n).flash = true → bit t.lamps.lctl n.val = true → t.lamps.flRun = true) ∧
    (∀ s : State, s.lamps.flRun = true → s.lamps.flOut = false → s.pw.mode = .run → lampsHeld s = false →
      (∃ n, wantsFlasher s n = true) → ∃ t, exec (.flasherOnPhase .none) s = .next t ∧
        t = { s with lamps := t.lamps } ∧
        t.lamps.flOut = true ∧ t.lamps.flRun = true ∧
        t.lamps.flPeriod = (if s.lamps.bout then (pg s 0xD140).toNat else 2 * (pg s 0xD140).toNat) ∧
        t.lamps.lctl = s.lamps.lctl) ∧
    (∀ (low : Byte) (s : State), s.lamps.flRun = true → s.lamps.flOut = true →
      ∃ t, exec (.flasherOffPhase low .none) s = .next t ∧ t = { s with lamps := t.lamps } ∧ t.lamps.flOut = false ∧
        t.lamps.bout = (List.finRange 8).any (fun n => onFlasher s n && ((getLamp s n).openNow
          || (low.getLsbD n.val && !(getLamp s n).senseless && decide ((getLamp s n).boutI ≠ 0)))) ∧
        ∀ n, (reqSrc s (leader s n) = .flasher ∨ reqSrc s (leader s n) = .lctlFlasher) →
          powered (getLamp t n) = false) ∧
    (∀ (low : Byte) (s : State), hbOverdue s = true →
      ∃ t, exec (.flasherOffPhase low .miss) s = .next t ∧ ∃ u, exec (.flasherOnPhase .miss) s = .next u ∧
      t.roles.fallbk = true ∧ bit t.irqStat 15 = true ∧ t.mem = s.mem ∧ u.roles.fallbk = true ∧
        bit u.irqStat 15 = true ∧
      ∀ n, (getLamp s n).mode = .on → (effReq t n = true → (getLamp t n).mode = .on) ∧
        (effReq u n = true → (getLamp u n).mode = .on)) ∧
    (∀ (low : Byte) (s : State), s.lamps.flRun = false → exec (.flasherOnPhase .none) s = .next s ∧
      exec (.flasherOffPhase low .none) s = .next s))

/-! ### Battery channels, estimators, pack -/

/-- R193: BCTL takes its fields; IDM 3 is refused with RANGE. A write that keeps IDM leaves the pack's state alone;
one that changes it ends the session (R456). R397, R398, R402, R415: a conversion of a channel A that runs, within
range, counts the time stamp, keeps the raw codes (24-bit ones, sign-extended) and enters the estimator interval; the
one in progress when ENA was cleared is the channel's last, with which the whole estimator state goes, the flow state
and the rest timer too, but for FCC, R0_SCALE and ECYC (R443; that it is IRQSTAT.BAT's event where a flow stood is log
entry 45); after it the channel starts anew where ENA has been set again (log entry 44). Without a running channel
nothing changes. -/
def Obligations.BatteryControlAndConversions : Prop :=
  ((∀ (p : Port) (v w : Word) (s : State), reachesRule s p 0x1D v w → fld w 5 2 ≠ 3 →
      ∃ t, exec (.bctlWrite p v) s = .next t ∧ t.batA.ena = bit w 0 ∧ t.batA.harv = bit w 2 ∧
        t.batA.hdec = fld w 3 2 ∧ t.batA.iq = fld w 7 2 ∧ t.pack.idm = fld w 5 2 ∧ t.mem = s.mem ∧ t.err = s.err ∧
        (fld w 5 2 = s.pack.idm → t.pack = s.pack ∧ t.irqStat = s.irqStat)) ∧
    (∀ (p : Port) (v w : Word) (s : State), reachesRule s p 0x1D v w → fld w 5 2 = 3 →
      exec (.bctlWrite p v) s = .next (refuse (gen1Empty s p 0x1D) p eRANGE 0x3A)) ∧
    (∀ (p : Port) (d : BitVec 2) (s : State), readable s p → s.pw.mode ≠ .corkEntry → (p = .portP →
      s.pw.gen ≠ .gen1) →
      d.toNat ≠ 3 → d.toNat ≠ s.pack.idm →
      ∃ t, exec (.idmChange p d) s = .next t ∧ t.pack.idm = d.toNat ∧ t.pack.verif = false ∧ t.pack.frozen = false ∧
        t.pack.candN = 0 ∧ t.pack.pres = (if d = 0 then 1 else 2) ∧ t.estA.valid = false ∧ t.estA.fcc = 0 ∧
        t.estA.restore = none ∧ t.pack.remCnt = sat1 s.pack.remCnt ∧
        t.pack.rem = (decide (d ≠ 0) && (s.pack.rem || decide (s.pack.pres = 1))))) ∧
  ((∀ (m : Sample) (s : State), s.batA.started = true → slotsRun s = true → s.batA.ending = false → overV m = false →
      overI m = false → s.batA.acc.n < 39 → s.batA.harv = false →
      exec (.conversion m) s = .next { s with
        batA := { s.batA with
          ts := s.batA.ts + 1, valid := true, rawV := m.rawV.signExtend 32, rawI := m.rawI.signExtend 32
          rawT := m.rawT.signExtend 32
          anchorTs := if s.batA.valid then s.batA.anchorTs else s.batA.ts
          anchorSec := if s.batA.valid then s.batA.anchorSec else s.aon.sec
          anchorSub := if s.batA.valid then s.batA.anchorSub else wordOf s.aon.sub
          orCnt := min 0xFFFF s.batA.orCnt
          acc := s.batA.acc.add (scaleV s m) (scaleI s m) (scaleT s m) false false (countedI s (scaleI s m)) }
        estA := { s.estA with initLeft := s.estA.initLeft - 1 } }) ∧
    (∀ (m : Sample) (s : State), s.batA.started = true → slotsRun s = true → s.batA.ending = false →
      ∃ t, exec (.conversion m) s = .next t ∧ t.batA.ts = s.batA.ts + 1 ∧ t.batA.rawV = m.rawV.signExtend 32 ∧
        t.mem = s.mem ∧
        ((overV m = true ∨ overI m = true) → t.batA.ora = true) ∧
        (39 ≤ s.batA.acc.n → t.batA.acc = Acc.zero ∧ t.batA.due ≠ none)) ∧
    (∀ (m : Sample) (s : State), s.batA.started = true → slotsRun s = true → s.batA.ending = true →
      ∃ t, exec (.conversion m) s = .next t ∧ t.batA.started = s.batA.ena ∧ t.batA.valid = false ∧
        t.batA.ending = false ∧ t.batA.ts = s.batA.ts + 1 ∧ t.batA.acc = Acc.zero ∧ t.batA.due = none ∧
        t.estA.valid = false ∧ t.estA.fcc = s.estA.fcc ∧ t.estA.r0s = s.estA.r0s ∧ t.estA.ecyc = s.estA.ecyc ∧
        t.estA.flow = 0 ∧ t.estA.restS = 0 ∧ (s.estA.flow ≠ 0 → bit t.irqStat 7 = true) ∧
        t.estA.pendCount = 0 ∧ t.estA.pendOr = false ∧ t.estA.corrCnt = 0 ∧ t.estA.lrn = [] ∧
        (s.batA.ena = true → t.estA.initLeft = 400 ∧ t.estA.f = Frac.zero)) ∧
    (∀ (m : Sample) (s : State), (s.batA.started = false ∨ slotsRun s = false) → exec (.conversion m) s = .next s))

/-- R406 to R408, R417: where the arbiter grants L4 (u is the state of the grant; that a row which it does not grant
changes nothing is the model's choice, log entry 49), the oldest waiting record reaches its place in the ring, low
word first, and no other byte changes; the pointer goes on and wraps at 32768 records, and every record that
overwrites an older one sets HWRAP. HCLR empties the ring in a new epoch. R415, R445, R102: a read of V_RAW_L answers
the low raw word (in Gen1 on Port P its low byte, the high one is latched) and takes the reading port's snapshot of
the raw codes; a read of INTSOC answers the internal value and takes the snapshot of the estimator's fields. Nothing
outside the port changes. -/
def Obligations.HarvestRecordsAndSnapshots : Prop :=
  ((∀ (r : HRec) (rest : List HRec) (s u : State), s.batA.hQ = r :: rest → domains s = true → s.batA.hwp < 32768 →
      arbServe s (.low 4) = some u → s.batA.trig = none → Cellar.wf s.mem = true →
      ∃ t a, exec .harvestRecordWrite s = .next t ∧ a = 0x80000 + 16 * s.batA.hwp ∧ onlyBytes s t a 16 ∧
        Cellar.getNat t.mem a 4 = r.w0.toNat ∧ Cellar.getNat t.mem (a + 4) 4 = r.w1.toNat ∧
        Cellar.getNat t.mem (a + 8) 4 = r.w2.toNat ∧ Cellar.getNat t.mem (a + 12) 4 = r.w3.toNat ∧ t.batA.hQ = rest ∧
        t.batA.hwp = (if s.batA.hwp = 32767 then 0 else s.batA.hwp + 1) ∧
        t.batA.hwrapCnt = (if s.batA.hwp = 32767 then s.batA.hwrapCnt + 1 else s.batA.hwrapCnt) ∧
        t.batA.hwrap = (s.batA.hwrap || s.batA.hfull) ∧
          t.batA.hfull = (s.batA.hfull || decide (s.batA.hwp = 32767))) ∧
    (∀ s : State, s.batA.hQ ≠ [] → arbServe s (.low 4) = none → exec .harvestRecordWrite s = .next s) ∧
    (∀ (p : Port) (s u : State), pageAccepted s u p 0xD416 (fun w => w ||| 0x8000) → Cellar.wf u.mem = true →
      ∃ t, exec (.harvestClear p) s = .next t ∧ onlyBytes u t 0xD416 2 ∧ t.batA = { u.batA with
        hQ := [], hwp := 0, hwrapCnt := 0, hfull := false, hepoch := (u.batA.hepoch + 1) % 4, hacc := Acc.zero
        hStart := true })) ∧
  (∀ (p : Port) (s : State), readable s p →
      (∃ t, exec (.rawSnapshotRead p) s = .next t ∧ t = setPort s p (getPort t p) ∧
        (getPort t p).rawSnap = some (s.batA.rawV, s.batA.rawI, s.batA.rawT) ∧
        (getPort t p).rdata = onPortBus s p (s.batA.rawV.truncate 16) ∧
          rawWords t p = (s.batA.rawV, s.batA.rawI, s.batA.rawT)) ∧
      (∃ t, exec (.socSnapshotRead p) s = .next t ∧ t = setPort s p (getPort t p) ∧
        (getPort t p).socSnap = some (socNow s.estA) ∧ (getPort t p).rdata = onPortBus s p (intSocWord s.estA) ∧
        socWords t p = socNow s.estA))

/-- R403, R404, R435: a channel B sample takes the raw code and lowers BVB_MIN, and in SLEEP stands as BVB at once;
the clear of BVB_MIN sets it to 0xFFFF; a dip whose samples stayed low long enough is declared with its flag, its
count and IRQSTAT.BAT, and its end leaves its minimum. -/
def Obligations.ChannelBSamplesAndDips : Prop :=
  (∀ (r : BitVec 12) (s : State), slotsRun s = true → ckAon s = true →
    ∃ t, exec (.channelBSample r) s = .next t ∧ t = { s with batB := t.batB } ∧ t.batB.raw = r ∧
      t.batB.bvbMin = min s.batB.bvbMin (scaleB s r) ∧ t.batB.sumN = s.batB.sumN + 1 ∧
      t.batB.sumV = s.batB.sumV + scaleB s r ∧ t.batB.bvb = s.batB.bvb) ∧
  (∀ (r : BitVec 12) (s : State), s.pw.mode = .sleep → ckAon s = true →
    exec (.channelBSample r) s = .next { s with batB := { s.batB with
      raw := r, bvbMin := min s.batB.bvbMin (scaleB s r), bvb := scaleB s r, sumN := 1, sumV := scaleB s r } }) ∧
  (∀ (p : Port) (s u : State), pageAccepted s u p 0xD808 (fun w => w ||| 1) → Cellar.wf u.mem = true →
    ∃ t, exec (.bvbMinClear p) s = .next t ∧ t.batB = { u.batB with bvbMin := 0xFFFF } ∧ onlyBytes u t 0xD808 2) ∧
  (∀ s : State, slotsRun s = true → s.batB.dipU ≠ none → s.batB.inCrank = false →
    sampleSpan s.batB.dipLen s.batB.crkT = true →
    ∃ t, exec .crankDip s = .next t ∧ t.batB = { s.batB with
        inCrank := true, crank := true, aboveRun := 0, crkCnt := sat1 s.batB.crkCnt } ∧
      t.irqStat = (if s.batB.crank then s.irqStat else s.irqStat ||| 0x80) ∧ t.estA = s.estA ∧ t.mem = s.mem) ∧
  (∀ s : State, slotsRun s = true → s.batB.inCrank = true → sampleSpan s.batB.aboveRun 50 = true →
    ∃ t, exec .crankEnd s = .next t ∧ t = { s with batB := t.batB } ∧ t.batB.inCrank = false ∧ t.batB.dipU = none ∧
      t.batB.crkMin = s.batB.dipMin ∧ t.batB.crank = s.batB.crank)

/-- R411, R412, Table BAT-4: a write of MLOAD starts the validation; its end sets MSTAT to the verdict, or to 0 where
the block was written meanwhile, and only then is the block free again. The arbiter grants its reads first, in the
state u (R224; how it serves a row is log entry 49). R195, R402, R424, R436, R404, R444: an update of channel A at the
end of an interval takes BVA, BIA and BTA from it and counts it once; the estimate stays valid, and with no event
declared the reported value follows Table SOC-2. An accepted restore that waits makes it valid with SRC 3, with the
state of charge, the capacity or both that it carries (R441). An update of channel B takes BVB from the samples since
the last. Each takes the settings that R444 lets it take; neither writes the Cellar. An update that reads a model
block waits for its grant at L4, in the state u (R224; that a row which is not granted changes nothing is log entry
49). -/
def Obligations.ModelsAndEstimatorUpdates : Prop :=
  ((∀ (p : Port) (s u : State), pageAccepted s u p 0xD436 (fun w => w ||| 1) → Cellar.wf u.mem = true →
      ∃ t, exec (.modelLoad p .chA) s = .next t ∧ t.batA = { u.batA with mbusy := true, minval := false } ∧
        t.batB = u.batB ∧ onlyBytes u t 0xD436 2) ∧
    (∀ (p : Port) (s u : State), pageAccepted s u p 0xD80A (fun w => w ||| 1) → Cellar.wf u.mem = true →
      ∃ t, exec (.modelLoad p .chB) s = .next t ∧ t.batB = { u.batB with mbusy := true, minval := false } ∧
        t.batA = u.batA ∧ onlyBytes u t 0xD80A 2) ∧
    (∀ (ups : List Upset) (s u : State), s.batA.mbusy = true → active s = true → arbServe s (.low 4) = some u →
      ∃ t, exec (.modelValidationDone .chA ups) s = .next t ∧ t.batA = { s.batA with
          mbusy := false, minval := false
          mstat := if s.batA.minval then 0 else (validate (upsets u ups) .chA).1 } ∧ t.batB = s.batB ∧
        t.estA = s.estA ∧ t.mem = (upsets u ups).mem) ∧
    (∀ (ups : List Upset) (s u : State), s.batB.mbusy = true → active s = true → arbServe s (.low 4) = some u →
      ∃ t, exec (.modelValidationDone .chB ups) s = .next t ∧ t.batB = { s.batB with
          mbusy := false, minval := false
          mstat := if s.batB.minval then 0 else (validate (upsets u ups) .chB).1 } ∧ t.batA = s.batA ∧
        t.estB = s.estB ∧ t.mem = (upsets u ups).mem)) ∧
  ((∀ (k : Acc) (ups : List Upset) (s u : State), s.batA.due = some k → slotsRun s = true →
      (if s.batA.mstat = 1 then arbServe s (.low 4) = some u else u = s) →
      ∃ t, exec (.estimatorUpdate .chA ups) s = .next t ∧ t.mem = (upsets u ups).mem ∧ t.batB = s.batB ∧
        t.batA = { measured s.batA k with
          mstat := t.batA.mstat, chgEff := (pg (upsets u ups) 0xD442).toNat, slpI := (pg (upsets u ups) 0xD444).toNat } ∧ (s.batA.mstat ≠ 1 → t.batA.mstat = s.batA.mstat) ∧
        t.estA.pendCount = 0 ∧ t.estA.pendDis = 0 ∧
        (s.estA.valid = true → s.estA.restore = none → t.estA.valid = true ∧
          t.estA.rep = report t.estA.flow s.estA.rep s.estA.int t.estA.int)) ∧
    (∀ (r : Restore) (k : Acc) (ups : List Upset) (s u : State), s.batA.due = some k → slotsRun s = true →
      (if s.batA.mstat = 1 then arbServe s (.low 4) = some u else u = s) →
      s.estA.restore = some r → bit (rArg r 1) 0 = true →
      ∃ t, exec (.estimatorUpdate .chA ups) s = .next t ∧ t.estA.valid = true ∧ t.estA.rst = true ∧
        t.estA.restore = none ∧ t.estA.rep = (rArg r 6).toNat * 100 ∧ t.estA.int = (rArg r 5).toNat * 100 ∧
        t.estA.src = 3) ∧
    (∀ (r : Restore) (k : Acc) (ups : List Upset) (s u : State), s.batA.due = some k → slotsRun s = true →
      (if s.batA.mstat = 1 then arbServe s (.low 4) = some u else u = s) →
      s.estA.restore = some r → bit (rArg r 1) 0 = false → bit (rArg r 1) 1 = true →
      ∃ t, exec (.estimatorUpdate .chA ups) s = .next t ∧ t.estA.valid = true ∧ t.estA.rst = true ∧ t.estA.src = 3 ∧
        t.estA.restore = none ∧ t.estA.fcc = (rArg r 7).toNat) ∧
    (∀ (ups : List Upset) (s u : State), s.batB.sumN ≠ 0 → slotsRun s = true → ckAon s = true →
      (if s.batB.mstat = 1 then arbServe s (.low 4) = some u else u = s) →
      ∃ t, exec (.estimatorUpdate .chB ups) s = .next t ∧ t.mem = (upsets u ups).mem ∧ t.batA = s.batA ∧
        t.estA = s.estA ∧ t.batB = { s.batB with
          sumN := 0, sumV := 0, bvb := (roundOpen s.batB.sumV s.batB.sumN).toNat, mstat := t.batB.mstat
          crkDv := (pg (upsets u ups) 0xD824).toNat, crkT := (pg (upsets u ups) 0xD826).toNat } ∧
        (s.batB.mstat ≠ 1 → t.batB.mstat = s.batB.mstat)) ∧
    (∀ s : State, s.batA.due = none → exec (.estimatorUpdate .chA []) s = .next s) ∧
    (∀ (c : BatCh) (ups : List Upset) (s : State), getMstat s c = 1 → domains s = true → arbServe s (.low 4) = none →
      exec (.estimatorUpdate c ups) s = .next s))

/-- R436: the reported value never rises in discharge, never falls in charge and stands still at rest, apart from the
0 at an internal value of 0, and never leaves 0 to 100 %. R437: where no case of Table SOC-2 applies it does not
change: in discharge from an internal value of 0 below it, in charge from a full one above it (log entry 45). -/
def Obligations.ReportMovesOnlyWithItsFlow : Prop :=
  ∀ flow r i i' : Nat, r ≤ socFull → i ≤ socFull → i' ≤ socFull →
    report flow r i i' ≤ socFull ∧ (flow = 1 → report flow r i i' ≤ r) ∧ (flow = 2 → r ≤ report flow r i i') ∧
    (flow = 0 → i' ≠ 0 → report flow r i i' = r) ∧ (flow ≠ 2 → i' = 0 → report flow r i i' = 0) ∧
    (flow = 1 → i = 0 → 0 < r → 0 < i' → report flow r i i' = r) ∧ (flow = 2 → i = socFull → r < i →
      report flow r i i' = r)

/-- R453, R455, R457, Table PAK-1: the presence events. In thermistor mode a filter time with the ratio x above 0.98
or below 0.02 is absence, from 0.03 to 0.97 presence, any other x no event; in identity mode the level decides;
without detection neither happens. Absence ends the session with REM and its count, and clears channel A's estimate,
and in identity mode the decoder is outside a frame after the filter time of absence whatever PRES reads (that clause
is the model's choice, log entry 46, DEDUCED); presence sets PRES, and in thermistor mode begins a session. The
counter clear of the pack page clears its counters but GOODCNT. R460 to R462, Table PAK-2: in a frame a low pulse of 3
to 8 cycles whose falling edge comes in its window is a 0, one of 10 to 16 cycles a 1, and nothing else changes; the
window is 3 to 39 cycles after the break for the first bit and 16 to 23 cycles after the last falling edge for the
others. A pulse under 3 cycles is ignored. A break of at least 70 cycles that ends before absence (R459: 5.0 ms, 960
of the decoder's CK_SCAN cycles) begins a frame, whose length is PIL_LEN as it stands, unless the last frame's end
bars it, and ends a frame in progress; a longer low is no break, and a frame in progress is discarded uncounted
(R463), which bars the next as the end of a frame does (log entry 46). Outside a frame a pulse is ignored. Of a low
pulse of 9 cycles, or of 17 to 69, in a frame it does not speak. R460 to R467, Table PAK-2: how PIL's levels make a
frame, and how its end judges it. A frame that is in progress ends where PIL stays high for 24 cycles more; if it is
discarded it counts under its cause with a record, and the third in a row freezes the identity; a good one takes the
payload and resets the run. The identity timeout withdraws the verification. Outside identity mode only LINE follows
PIL. -/
def Obligations.PackPresenceAndIdentity : Prop :=
  ((∀ (x : Nat) (s : State), ckAon s = true → (s.pack.idm = 2 ∨ s.pack.idm = 1 ∧
        (98 * 2 ^ 24 < 100 * x ∨ 100 * x < 2 * 2 ^ 24)) → s.pack.pres ≠ 0 →
      ∃ t, exec (.packAbsence x) s = .next t ∧ t.pack.pres = 0 ∧ t.pack.rem = true ∧ t.pack.verif = false ∧
        t.pack.open_ = false ∧ t.pack.remCnt = sat1 s.pack.remCnt ∧ t.estA.valid = false ∧ t.estA.fcc = 0 ∧
        t.pack.swap = s.pack.swap ∧ bit t.irqStat 8 = true ∧ t.mem = s.mem ∧ t.pack.pil = s.pack.pil.outside) ∧
    (∀ (x : Nat) (s : State), ckAon s = true → s.pack.idm = 2 → s.pack.pres = 0 →
      exec (.packAbsence x) s = .next { s with pack := { s.pack with line := false, pil := s.pack.pil.outside } }) ∧
    (∀ (x : Nat) (s : State), ckAon s = true → (s.pack.idm = 2 ∨ s.pack.idm = 1 ∧
        (3 * 2 ^ 24 ≤ 100 * x ∧ 100 * x ≤ 97 * 2 ^ 24)) → s.pack.pres ≠ 1 →
      ∃ t, exec (.packPresent x) s = .next t ∧ t.pack.pres = 1 ∧ bit t.irqStat 8 = true ∧
        t.pack.idseq = (if s.pack.idm = 1 then s.pack.idseq + 1 else s.pack.idseq) ∧
        (s.pack.idm = 1 → t.pack.open_ = true) ∧ (s.pack.pres = 0 → t.aon.latch.getLsbD wkPACK = true)) ∧
    (∀ (x : Nat) (s : State), s.pack.idm = 0 → exec (.packAbsence x) s = .next s ∧
      exec (.packPresent x) s = .next s) ∧
    (∀ (x : Nat) (s : State), s.pack.idm = 1 →
      (2 * 2 ^ 24 ≤ 100 * x → 100 * x ≤ 98 * 2 ^ 24 → exec (.packAbsence x) s = .next s) ∧
      ((100 * x < 3 * 2 ^ 24 ∨ 97 * 2 ^ 24 < 100 * x) → exec (.packPresent x) s = .next s)) ∧
    (∀ (p : Port) (s u : State), pageAccepted s u p 0xDC20 (fun w => w ||| 1) → Cellar.wf u.mem = true →
      ∃ t, exec (.packCounterClear p) s = .next t ∧ onlyBytes u t 0xDC20 2 ∧ t.pack = { u.pack with
        crcCnt := 0, shortCnt := 0, longCnt := 0, syncCnt := 0, badRun := 0, remCnt := 0, swapCnt := 0 })) ∧
  (∀ (n : Nat) (s : State), s.pack.idm = 2 → slotsRun s = true → s.pack.pil.low = none → s.pack.pil.seen = true →
      (s.pack.pil.inFrame = true → (3 ≤ n ∧ n ≤ 8 ∨ 10 ≤ n ∧ n ≤ 16) →
        ((s.pack.pil.bits = [] ∧ 3 ≤ s.pack.pil.since ∧ s.pack.pil.since ≤ 39) ∨
          (s.pack.pil.bits ≠ [] ∧ 16 ≤ s.pack.pil.since ∧ s.pack.pil.since ≤ 23)) →
        exec (.pilFrame [(false, n), (true, 1)]) s = .next { s with pack := { s.pack with
          line := true
          pil := { s.pack.pil with bits := s.pack.pil.bits ++ [decide (10 ≤ n)], since := n + 1, high := 1
                                   barred := s.pack.pil.barred } } }) ∧
      (n < 3 → (s.pack.pil.inFrame = true → s.pack.pil.since + n < if s.pack.pil.bits = [] then 39 else 23) →
        exec (.pilFrame [(false, n), (true, 1)]) s = .next { s with pack := { s.pack with
          line := true
          pil := { s.pack.pil with since := s.pack.pil.since + n + 1, high := s.pack.pil.high + n + 1
                                   barred := s.pack.pil.barred && decide (s.pack.pil.high + n + 1 < 40) } } }) ∧
      (s.pack.pil.inFrame = false → 70 ≤ n → n ≤ 960 →
        exec (.pilFrame [(false, n), (true, 1)]) s = .next { s with pack := { s.pack with
          line := true
          pil := if s.pack.pil.barred then { s.pack.pil with since := 1, high := 1 } else { s.pack.pil with
            inFrame := true, bits := [], len := pgf s 0xDC00 0 6, since := 1, high := 1 } } }) ∧
      (s.pack.pil.inFrame = false → 3 ≤ n → n < 70 → exec (.pilFrame [(false, n), (true, 1)]) s = .next { s with
        pack := { s.pack with line := true, pil := { s.pack.pil with since := s.pack.pil.since + 1, high := 1 } } }) ∧
      (960 < n → exec (.pilFrame [(false, n), (true, 1)]) s = .next { s with pack := { s.pack with
          line := true, pil := { s.pack.pil.outside with seen := true, high := 1, since := 1 } } }) ∧
      (s.pack.pil.inFrame = true → 70 ≤ n → n ≤ 960 → s.pack.pil.bits.length < 24 + 8 * s.pack.pil.len →
        ∃ t, exec (.pilFrame [(false, n), (true, 1)]) s = .next t ∧ t.pack.pil = { s.pack.pil with
          inFrame := true, bits := [], len := pgf s 0xDC00 0 6, since := 1, high := 1, barred := false } ∧
          t.pack.shortCnt = sat1 s.pack.shortCnt ∧ t.pack.goodCnt = s.pack.goodCnt ∧ t.mem = s.mem)) ∧
  ((∀ (c : Nat) (s : State), s.pack.idm = 2 → slotsRun s = true → s.pack.pil.low = none →
      s.pack.pil.inFrame = true → s.pack.pil.bits ≠ [] →
      frameCause s.pack.pil.bits s.pack.pil.len = some c → s.pack.badRun < 255 →
      ∃ t, exec (.pilFrame [(true, 24)]) s = .next t ∧
        t = { s with pack := t.pack, err := t.err, irqStat := t.irqStat } ∧
        t.pack.line = true ∧ t.pack.pil.inFrame = false ∧ t.pack.pil.bits = [] ∧
        t.pack.badRun = s.pack.badRun + 1 ∧ t.pack.candN = 0 ∧ t.pack.goodCnt = s.pack.goodCnt ∧
        (s.pack.badRun = 2 → t.pack.frozen = true ∧ t.pack.verif = false) ∧
        (s.pack.badRun ≠ 2 → t.pack.frozen = s.pack.frozen ∧ t.pack.verif = s.pack.verif) ∧
        t.pack.crcCnt = (if c = 0 then sat1 s.pack.crcCnt else s.pack.crcCnt) ∧
        t.pack.shortCnt = (if c = 1 then sat1 s.pack.shortCnt else s.pack.shortCnt) ∧
        t.err.code = ePILFRAME ∧ t.err.info = wordOf (c + 256 * t.pack.badRun)) ∧
    (∀ s : State, s.pack.idm = 2 → slotsRun s = true → s.pack.pil.low = none → s.pack.pil.inFrame = true →
      s.pack.pil.bits ≠ [] → frameCause s.pack.pil.bits s.pack.pil.len = none →
      ∃ t, exec (.pilFrame [(true, 24)]) s = .next t ∧ t.pack.badRun = 0 ∧ t.pack.goodCnt = s.pack.goodCnt + 1 ∧
        t.err = s.err ∧ t.pack.pil.inFrame = false ∧ ∀ j, j < s.pack.pil.len → j < 32 →
          vget t.pack.payload j = (bytesOfBits s.pack.pil.bits (s.pack.pil.len + 3)).getD (j + 1) 0) ∧
    (∀ s : State, s.pack.idm = 2 → active s = true → s.pack.verif = true →
      exec .identityTimeout s =
        .next { s with pack := { s.pack with verif := false }, irqStat := s.irqStat ||| 0x100 }) ∧
    (∀ (l : Bool) (n : Nat) (s : State), s.pack.idm ≠ 2 →
      exec (.pilFrame [(l, n)]) s = .next (if slotsRun s then { s with pack := { s.pack with line := l } } else s) ∧
      exec .identityTimeout s = .next s))

/-! ### Authenticated commands, TAP, arbiter, time -/

/-- R197, R481: ACMD, ACNT and ATAG writes of a port that may claim the command registers: ACMD and ACNT take the word
at once and abandon a tag in reception, a tag word waits in the port's buffer. While a command is verified or runs
each is refused with BUSY, and under the other port's claim each with STATE, ERRINFO 0x4A, with nothing else changed
(c is the state of an ATAG word's capture: on Port S the entries of earlier frames have left, R140). -/
def Obligations.CommandRegistersAreClaimed : Prop :=
  (∀ (p : Port) (v w : Word) (s : State), reachesRule s p 0x25 v w → authBusy s = false →
    s.auth.claim ≠ some p.other → exec (.acmdWrite p v) s = .next { gen1Empty s p 0x25 with
      auth := { s.auth with acmd := w, claim := some p, tag := [], msg := none } }) ∧
  (∀ (p : Port) (high : Bool) (v w : Word) (s : State), reachesRule s p (if high then 0x27 else 0x26) v w →
    authBusy s = false → s.auth.claim ≠ some p.other →
    exec (.acntWrite p high v) s = .next { gen1Empty s p (if high then 0x27 else 0x26) with
      auth := { s.auth with acntL := if high then s.auth.acntL else w, acntH := if high then w else s.auth.acntH
                            claim := some p, tag := [], msg := none } }) ∧
  (∀ (p : Port) (v w : Word) (s c : State), reachesRule s p 0x28 v w → captured (gen1Empty s p 0x28) p = c →
    authBusy c = false → c.auth.claim ≠ some p.other → (getPort c p).buf.length < 32 → pageMode c p = false →
    ∃ t, exec (.atagWrite p v) s = .next t ∧ t = { setPort c p (getPort t p) with
        auth := { c.auth with claim := some p } } ∧ (getPort t p).buf = (getPort c p).buf ++ [.atag w]) ∧
  (∀ (p : Port) (v w : Word) (s : State), reachesRule s p 0x25 v w →
    (authBusy s = true → exec (.acmdWrite p v) s = .next (refuse (gen1Empty s p 0x25) p eBUSY 0x4A)) ∧
    (authBusy s = false → s.auth.claim = some p.other →
      exec (.acmdWrite p v) s = .next (refuse (gen1Empty s p 0x25) p eSTATE 0x4A))) ∧
  (∀ (p : Port) (high : Bool) (a : Fin 64) (v w : Word) (s : State), a = (if high then 0x27 else 0x26) →
    reachesRule s p a v w →
    (authBusy s = true → exec (.acntWrite p high v) s = .next (refuse (gen1Empty s p a) p eBUSY 0x4A)) ∧
    (authBusy s = false → s.auth.claim = some p.other →
      exec (.acntWrite p high v) s = .next (refuse (gen1Empty s p a) p eSTATE 0x4A))) ∧
  (∀ (p : Port) (v w : Word) (s c : State), reachesRule s p 0x28 v w → captured (gen1Empty s p 0x28) p = c →
    pageMode c p = false →
    (authBusy c = true → exec (.atagWrite p v) s = .next (refuse c p eBUSY 0x4A)) ∧
    (authBusy c = false → c.auth.claim = some p.other → exec (.atagWrite p v) s = .next (refuse c p eSTATE 0x4A)))

/-- R482, R485 to R488, R492, R506, Table SEC-3: the first three tag words only gather, the first with the message,
for which the arbiter grants the read of the Mailbox (R13; how it serves a row is log entry 49); the fourth starts the
verification, and notes whether the mode or a lockout refuses it. The verification ends at the next CK_FRAME edge, or
ahead of the counter write or effect that follows it (when it ends is log entry 35): a command that the mode or a
lockout refuses is refused, a tag that no key of the port verifies is refused with TAG and counted; the Mailbox of a
provisioning request that step 9 or a later one refuses is wiped at that edge, once the arbiter grants it (R500, log
entry 49); one that verifies, with a new counter and its own conditions met, is accepted: the engine holds it and
LOCKLVL returns to 0 (R493), and outside the engine nothing changes but that a CORK sets TRANS (R56, log entry 48). A
COUNTER refusal leaves the run of bad tags at 0 (R492), and a lockout raises LOCKLVL, up to 7. -/
def Obligations.TagWordsJudgeTheCommand : Prop :=
  (∀ (p : Port) (ups : List Upset) (v : Word) (rest : List BufEntry) (s u : State),
    (getPort s p).buf = .atag v :: rest → domains s = true → s.portP.held = .none → authBusy s = false →
    (if s.auth.tag = [] then arbServe s (.low 3) = some u else u = s) → s.auth.tag.length < 3 →
    ∃ t, exec (.tagWordEffect p ups) s = .next t ∧ (getPort t p).buf = rest ∧ t.auth.tag = s.auth.tag ++ [v] ∧
      t.auth.accepted = none ∧ t.auth.verify = none ∧ t.mem = (upsets u ups).mem ∧
      (s.auth.tag = [] → ∃ m, t.auth.msg = some m ∧ m.cmd = s.auth.acmd ∧ m.cnt = s.auth.acntH ++ s.auth.acntL)) ∧
  (∀ (p : Port) (ups : List Upset) (v : Word) (m : AuthMsg) (rest : List BufEntry) (s : State),
    (getPort s p).buf = .atag v :: rest → domains s = true → s.portP.held = .none → authBusy s = false →
    s.auth.tag.length = 3 → s.auth.msg = some m →
    ∃ t, exec (.tagWordEffect p ups) s = .next t ∧ (getPort t p).buf = rest ∧ t.err = s.err ∧ t.nv = s.nv ∧
      t.auth = { s.auth with tag := s.auth.tag ++ [v], verify := some { port := p, early := earlyRefusal s m } } ∧
      authBusy t = true ∧
      (s.pw.mode = .run → cmdOf m.cmd = some .debugUnlock → earlyRefusal s m = some eSTATE) ∧
      (s.clk.expiring = true → earlyRefusal s m = some eSTATE) ∧
      ((s.pw.mode = .standby ∨ (s.pw.mode = .run ∧ cmdOf m.cmd ≠ some .debugUnlock)) → s.clk.expiring = false →
        earlyRefusal s m = if s.auth.lockOn = true ∧ (ckAon s = false ∨ aonLeft s < s.auth.lockLeft) then some eLOCKED
          else none)) ∧
  (∀ (v : Verify) (m : AuthMsg) (s x : State), s.auth.verify = some v → s.auth.msg = some m →
    (s.pending = [] → x = lockoutTick (aonTick { s with now := s.now + 1 }) → domains x = true →
      ∃ t, step s = .next t ∧ t.auth = { (authVerdict x).auth with wipe := t.auth.wipe } ∧ t.nv = (authVerdict x).nv ∧
        t.auth.verify = none ∧ ((authVerdict x).auth.wipe = false → t.auth.wipe = false) ∧
        ((authVerdict x).auth.wipe = true → arbServe (authVerdict x) (.low 3) ≠ none → t.auth.wipe = false)) ∧
    exec .counterWriteDone s = exec .counterWriteDone (authVerdict s) ∧ exec .cork s = exec .cork (authVerdict s) ∧
    exec .restoreA s = exec .restoreA (authVerdict s) ∧ exec .restoreB s = exec .restoreB (authVerdict s) ∧
    exec .ttPolicy s = exec .ttPolicy (authVerdict s) ∧ exec .regionUnlock s = exec .regionUnlock (authVerdict s) ∧
    exec .cfgLock s = exec .cfgLock (authVerdict s) ∧ exec .lampPolicy s = exec .lampPolicy (authVerdict s) ∧
    exec .debugUnlock s = exec .debugUnlock (authVerdict s) ∧
    (∀ ok, exec (.provisioningRequest ok) s = exec (.provisioningRequest ok) (authVerdict s)) ∧
    (∀ e, v.early = some e → (authVerdict s).auth.done = true ∧ (authVerdict s).auth.result = e ∧
      (authVerdict s).err.code = e ∧ (authVerdict s).err.info = 0x4A ∧ (authVerdict s).auth.accepted = none ∧
      (authVerdict s).mem = s.mem ∧ (authVerdict s).nv = s.nv)) ∧
  (∀ (c : AuthCmd) (k : BitVec 128) (v : Verify) (m : AuthMsg) (s t : State), s.auth.verify = some v →
    s.auth.msg = some m → v.early = none → s.auth.accepted = none → cmdOf m.cmd = some c → c ≠ .provision →
    (portSlots s v.port c).filterMap slotKey = [k] → worn s.nv = false → m.alen = cmdLen c → m.ue = false →
    t = authVerdict s →
    (tagWords k (messageBytes s.nv.uid m) ≠ s.auth.tag →
      t.auth.done = true ∧ t.auth.result = eTAG ∧ t.err.code = eTAG ∧ t.auth.tagFail = sat1 s.auth.tagFail ∧
      t.auth.accepted = none ∧ t.nv = s.nv ∧ t.mem = s.mem ∧
      (s.auth.badRun < 7 → t.auth.badRun = s.auth.badRun + 1 ∧ t.auth.lockOn = s.auth.lockOn) ∧
      (7 ≤ s.auth.badRun → t.auth.lockOn = true ∧ t.auth.badRun = 0 ∧ t.auth.lockLvl = min 7 (s.auth.lockLvl + 1) ∧
        t.auth.lockLeft = 2 ^ (t.auth.lockLvl - 1) * 1000 * msCycles)) ∧
    (tagWords k (messageBytes s.nv.uid m) = s.auth.tag →
      (m.cnt.toNat ≤ (scnt s.nv).toNat → t.auth.result = eCOUNTER ∧ t.err.code = eCOUNTER ∧ t.auth.accepted = none ∧
        t.auth.badRun = 0 ∧ t.auth.lockLvl = s.auth.lockLvl ∧ t.nv = s.nv) ∧
      ((scnt s.nv).toNat < m.cnt.toNat → step11 s c (argWords m.args) = none →
        t.auth.accepted = some ⟨c, v.port, m.cmd, m.cnt, argWords m.args, false⟩ ∧ t.auth.lastCmd = m.cmd ∧
        t.auth.badRun = 0 ∧ t.auth.lockLvl = 0 ∧
        t = { s with auth := t.auth, pw := { s.pw with trans := if c = .cork then .corkSeq else s.pw.trans } })))

/-- R481, R487, R490, R492, R493: the accepted counter reaches the next cell and is counted; a lockout ends; a claim
ends with the tag in reception while STATE is 1. That a claim taken in a lockout, where STATE reads 3, ends so too is
the model's reading (log entry 47, DEDUCED): R481 gives the lapse while STATE is 1. R487, R495 to R498, R385, R440,
R441: the effect of an accepted command whose counter is written, with DONE, RESULT 0 and IRQSTAT.AUTH: a restore
waits for its channel's update (one that a swap or removal has discarded since does not, R447), the named regions are
unlocked, CFGLOCK and the debug bits are set, the lamp policy is taken, with which a waiting channel that it claims
retries at once where its retry was due and the budget held it (R374); the row of any other command, or before the
counter is written, does nothing to it. -/
def Obligations.CounterLockoutAndAcceptedCommands : Prop :=
  ((∀ (a : Accepted) (s : State), s.auth.verify = none → s.auth.accepted = some a → a.written = false →
      s.clk.expiring = false →
      exec .counterWriteDone s = .next { s with
        nv := { s.nv with cells := vset s.nv.cells s.nv.nextCell (a.counter, true)
                          nextCell := (s.nv.nextCell + 1) % 16, acc := s.nv.acc + 1 }
        auth := { s.auth with accepted := some { a with written := true } } }) ∧
    (∀ s : State, s.auth.lockOn = true → islandOn s = true → exec .lockoutEnd s =
      .next { s with auth := { s.auth with lockOn := false, lockLeft := 0 } }) ∧
    (∀ s : State, authBusy s = true → exec .claimTimeout s = .next s) ∧
    (∀ s : State, authBusy s = false → exec .claimTimeout s =
      .next { s with auth := { s.auth with claim := none, tag := [], msg := none } })) ∧
  (∀ (a : Accepted) (s : State), s.auth.verify = none → s.auth.accepted = some a →
      (∀ (c : Instr) (k : AuthCmd), (c, k) ∈ ([(.cork, .cork), (.restoreA, .restoreA), (.restoreB, .restoreB),
          (.ttPolicy, .ttPolicy), (.regionUnlock, .regionUnlock), (.cfgLock, .cfgLock), (.lampPolicy, .lampPolicy),
          (.debugUnlock, .debugUnlock), (.provisioningRequest true, .provision),
          (.provisioningRequest false, .provision)] : List (Instr × AuthCmd)) → (a.cmd ≠ k ∨ a.written = false) →
        exec c s = .next s) ∧
      (a.written = true →
      (a.cmd = .restoreA → s.auth.restoreDrop = true → ∃ t, exec .restoreA s = .next t ∧
        t = { s with auth := t.auth, irqStat := t.irqStat } ∧ t.auth.done = true ∧ t.auth.result = 0 ∧
        t.auth.accepted = none) ∧
      (a.cmd = .restoreA → s.auth.restoreDrop = false → ∃ t, exec .restoreA s = .next t ∧
        t = { s with estA := { s.estA with restore := some a.args }, auth := t.auth, irqStat := t.irqStat } ∧
        t.auth.done = true ∧ t.auth.result = 0 ∧ t.auth.accepted = none ∧ t.auth.claim = none ∧
        t.irqStat = (if s.auth.done then s.irqStat else s.irqStat ||| 0x200)) ∧
      (a.cmd = .restoreB → ∃ t, exec .restoreB s = .next t ∧ t.auth.done = true ∧ t.auth.result = 0 ∧
        t = { s with estB := { s.estB with restore := some a.args }, auth := t.auth, irqStat := t.irqStat }) ∧
      (a.cmd = .regionUnlock → ∃ t, exec .regionUnlock s = .next t ∧ t.auth.done = true ∧ t.auth.result = 0 ∧
        t = { s with disp := { s.disp with rlock := t.disp.rlock }, auth := t.auth, irqStat := t.irqStat } ∧
        ∀ r : Fin 4, t.disp.rlock[r] = (s.disp.rlock[r] && !bit (rArg a.args 0) r.val)) ∧
      (a.cmd = .cfgLock → ∃ t, exec .cfgLock s = .next t ∧ t = { s with auth := t.auth, irqStat := t.irqStat } ∧
        t.auth.cfgLock = true ∧ t.auth.done = true ∧ t.auth.result = 0) ∧
      (a.cmd = .lampPolicy → ∃ t, exec .lampPolicy s = .next t ∧ t.auth.done = true ∧ t.auth.result = 0 ∧
        t = { s with lamps := t.lamps, auth := t.auth, irqStat := t.irqStat } ∧
        t.lamps.ttClaim = loByte (rArg a.args 1) ∧ t.lamps.ttMode = rArg a.args 2 ∧ t.lamps.ttFb = rArg a.args 3 ∧
        ∀ n, bit (rArg a.args 1) n.val = true → ganged s n = false → (getLamp s n).mode = .wait →
          (getLamp s n).retryRdy = true → (getLamp s n).otWait = false → effReq t n = true →
          (getLamp t n).mode = .inrush ∧ (getLamp t n).rleft = (getLamp s n).rleft - 1) ∧
      (a.cmd = .debugUnlock → ∃ t, exec .debugUnlock s = .next t ∧
        t = { s with auth := t.auth, irqStat := t.irqStat } ∧
        t.auth.dbgBs = (s.auth.dbgBs || bit (rArg a.args 1) 0) ∧
        t.auth.dbgTest = (s.auth.dbgTest || bit (rArg a.args 1) 1) ∧ t.auth.done = true ∧ t.auth.result = 0)))

/-- R494, R308: TT_POLICY writes the masks of the banks that BANKS names, the tell-tale mask and the fallback mask of
16 lines each, the tell-tale mask's working copy with it, and no other byte, where the arbiter grants its writes at
L3, in the state u (R13; how it serves a row is log entry 49). R80, R81, R499, R500: CORK enters CORK-ENTRY with every
lamp off and channel A stopped; a provisioning request whose read-back is right puts the key into its blank slot
alone, one whose read-back is wrong leaves the slot failed and is refused with STATE, and both wipe the request from
the Mailbox, where the arbiter grants that at L3 (R13; how it serves a row is log entry 49). -/
def Obligations.TellTalePolicyCorkAndProvisioning : Prop :=
  (∀ (a : Accepted) (s u : State), s.auth.verify = none → s.auth.accepted = some a → a.written = true →
      a.cmd = .ttPolicy → arbServe s (.low 3) = some u → Cellar.wf s.mem = true →
      ∃ t, exec .ttPolicy s = .next t ∧ t.auth.done = true ∧ t.auth.result = 0 ∧ t.err = s.err ∧
        (∀ b : Bank, getBank t b = { getBank s b with maskCopy := (getBank t b).maskCopy }) ∧
        ∀ b : Bank, ∀ k, (h : k < 16) →
          (getBank t b).maskCopy[k] = (if bit (rArg a.args 1) b.num
            then maskLine a.args (8 + 256 * b.num) k else (getBank s b).maskCopy[k]) ∧
          readLine t (maskAddr b + 16 * k) = (if bit (rArg a.args 1) b.num
            then maskLine a.args (8 + 256 * b.num) k else readLine s (maskAddr b + 16 * k)) ∧
          readLine t (fbMaskAddr b + 16 * k) = (if bit (rArg a.args 1) b.num
            then maskLine a.args (136 + 256 * b.num) k else readLine s (fbMaskAddr b + 16 * k)) ∧
          ∀ x, (x < maskAddr .bankA ∨ maskAddr .bankA + 0x100 ≤ x) → (x < maskAddr .bankB ∨
            maskAddr .bankB + 0x100 ≤ x) →
            (x < 0xCA00 ∨ 0xCC00 ≤ x) → Cellar.get t.mem x = Cellar.get s.mem x) ∧
  ((∀ (a : Accepted) (s : State), s.auth.verify = none → s.auth.accepted = some a → a.written = true → a.cmd = .cork →
      s.pw.rst ≠ .pin →
      ∃ t, exec .cork s = .next t ∧ t.pw.mode = .corkEntry ∧ t.pw.trans = .corkSeq ∧ t.pw.corkPort = a.port ∧
        t.auth.done = true ∧ t.auth.result = 0 ∧ (∀ n, powered (getLamp t n) = false) ∧ t.batA.started = false ∧
        t.bankA.drv.req = false ∧ t.bankB.drv.req = false ∧ t.mem = s.mem) ∧
    (∀ (a : Accepted) (ok : Bool) (s u : State), s.auth.verify = none → s.auth.accepted = some a → a.written = true →
      a.cmd = .provision → arbServe s (.low 3) = some u →
      Cellar.wf s.mem = true →
      ∃ t k, exec (.provisioningRequest ok) s = .next t ∧
        k = (if ok then KeySlot.key (provisionKey (a.args.map (fun w => [loByte w, hiByte w])).flatten) (rArg a.args 2)
          else KeySlot.failed (rArg a.args 2)) ∧ t.auth.done = true ∧ t.auth.accepted = none ∧
        (∀ x, Cellar.get t.mem x = if 0x34000 ≤ x ∧ x < 0x34018 then 0 else Cellar.get s.mem x) ∧
        t.nv = (if rArg a.args 1 = 0 then { s.nv with kApp := k } else { s.nv with kSup := k }) ∧
        t.auth.result = (if ok then 0 else eSTATE) ∧ (ok = true → t.err = s.err) ∧
        (ok = false → t.err.code = eSTATE ∧ t.err.info = 0x4A)))

/-- R498, R566 to R568, R572: once DEBUG_UNLOCK has opened the TAP, each instruction selects its data register; EXTEST
with a scan and SAMPLE/PRELOAD capture the balls and load the latches: an observe cell takes the level that the block
gives its ball, that of a COM or SEG ball against 1.0 V, so 0 at VSS, and elsewhere the board's (how far the model
fixes it is log entry 62); a closed TAP changes nothing. IDCODE reads 0xB40969A7. With DBGTEST set a code of the
vendor's test instructions is selected, whatever opened the TAP (which codes these are is the model's choice, log 19);
without it such a code, as any that Table PKG-8 does not list, selects BYPASS. -/
def Obligations.TapInstructionsSelectTheirRegister : Prop :=
  (∀ (c : Instr) (ir : BitVec 5) (s : State),
    ((c = .extest none ∧ ir = 0) ∨ (c = .idcode ∧ ir = 2) ∨ (c = .clamp ∧ ir = 3) ∨ (c = .highz ∧ ir = 4) ∨
      (c = .bypass ∧ ir = 0x1F)) →
    (tapOpen s = true → exec c s = .next { s with tap := { s.tap with ir := ir } }) ∧
    (tapOpen s = false → exec c s = .next s)) ∧
  (∀ (x y : BitVec 373) (s : State),
    (tapOpen s = true →
      exec (.samplePreload x y) s = .next { s with tap := { s.tap with
        ir := 1, boundary := boundaryCapture { s with tap := { s.tap with ir := 1 } } x, latch := y } } ∧
      exec (.extest (some (x, y))) s = .next { s with tap := { s.tap with
        ir := 0, boundary := boundaryCapture { s with tap := { s.tap with ir := 0 } } x, latch := y } }) ∧
    (tapOpen s = false → exec (.samplePreload x y) s = .next s ∧ exec (.extest (some (x, y))) s = .next s)) ∧
  (∀ (x : BitVec 373) (q : Ball) (i : Nat) (s : State), boundaryCells[i]? = some (.observe q) →
    (boundaryCapture s x).getLsbD i = (ballLevel s x q).getD (x.getLsbD i)) ∧
  (∀ (x : BitVec 373) (b : Bank) (n i : Nat) (s : State), scanning s.keys = false → driven (getBank s b).drv = false →
    (boundaryCells[i]? = some (.observe (.com b n)) ∨ boundaryCells[i]? = some (.observe (.seg b n))) →
    (boundaryCapture s x).getLsbD i = false) ∧
  (∀ (x : BitVec 373) (n i : Nat) (s : State), boundaryCells[i]? = some (.observe (.lamp n)) →
    (boundaryCapture s x).getLsbD i = ((vget s.lamps.ch n).conducting || x.getLsbD i)) ∧
  (∀ (c : BitVec 5) (s : State), 4 < c.toNat → (s.auth.dbgTest = false ∨ vendorCode c = false) →
    exec (.vendorTest c) s = .next (if tapOpen s then { s with tap := { s.tap with ir := 0x1F } } else s)) ∧
  (∀ (c : BitVec 5) (s : State), s.auth.dbgTest = true → vendorCode c = true →
    exec (.vendorTest c) s = .next (if s.pw.vio then { s with
      tap := { s.tap with ir := c }, freeCtr := s.freeCtr + 1 } else s)) ∧
  (∀ (c : BitVec 5) (s : State), c.toNat ≤ 4 →
    exec (.vendorTest c) s = .next (if tapOpen s then { s with tap := { s.tap with ir := c } } else s)) ∧
  (∀ s : State, s.tap.ir = 2 → tapData s = (32, 0xB40969A7)) ∧
  (∀ s : State, tapOpen s = (s.auth.dbgBs && s.pw.vio))

/-- R202, R222, R227, R229, R230, R232, R237, R296: ARBSTAT chooses a level and with CLR clears MAXW; a new window
keeps the longest wait of each level, none above its Table CEL-5 bound, reloads the shares and brings the next scrub
burst nearer; CNTCLR of the arbitration page clears its counters, then counts what its own write finds (R219, R237: a
single-bit error in its own word that is not queued is dropped, and counted in WBDROP, where the queue of four is
full); and LCLR a bank's ledger, no byte but the accumulators' and the page word's changing. R28, R111, R224, R225:
the order of the arbiter, for the rows that ask for an access. Port S's window write and load go before Port P's, and
a port that owes a yield waits for a pending request of a level with share left; a row that another request goes
before changes nothing; a grant at L1 makes its port owe a yield, and a grant below ends both. A burst of the booking
passes, for which no row stands, is granted ahead of a held-back row and takes its share once (R227); where all bursts
of the work have been granted ahead its end grants none. (That a row not granted is without effect until it is sent
again is the model's choice, log entry 49.) R219, R222, R231: a scrub burst over words that hold no error, due and
granted at L6, reads eight words and goes on, counting a pass at the wrap; it is not due while its pace lasts or a
write-back is queued. The write-back of the oldest queued word, granted (u), takes its error out. Neither changes a
byte where no upset stands. -/
def Obligations.ArbiterLedgerClearsAndScrub : Prop :=
  ((∀ (p : Port) (v w : Word) (s : State), reachesRule s p 0x31 v w → fld w 0 3 ≠ 7 →
      exec (.arbstatWrite p v) s = .next { gen1Empty s p 0x31 with arb := { s.arb with
        lvl := fld w 0 3, maxw := if bit w 3 then Vector.replicate 7 0 else s.arb.maxw } }) ∧
    (∀ (p : Port) (v w : Word) (s : State), reachesRule s p 0x31 v w → fld w 0 3 = 7 →
      exec (.arbstatWrite p v) s = .next (refuse (gen1Empty s p 0x31) p eRANGE 0x62)) ∧
    (∀ (x : Vector Nat 7) (s : State), domains s = true → ∃ t, exec (.arbWindowStart x) s = .next t ∧
      t = { s with arb := { s.arb with maxw := t.arb.maxw, rem := t.arb.rem, scrubLeft := s.arb.scrubLeft - 1
                                       paid := t.arb.paid } } ∧ (∀ k : Fin 5, t.arb.paid[k] ≤ s.arb.paid[k]) ∧
      (∀ k : Fin 7, t.arb.maxw[k] = max s.arb.maxw[k] (min maxwBound[k] ((x[k] + 3) / 4))) ∧
      ∀ k : Fin 5, t.arb.rem[k] = shareField s k.val) ∧
    (∀ (p : Port) (s u : State), pageAccepted s u p 0xE802 (fun w => w ||| 0x20) → Cellar.wf u.mem = true →
      ∃ t, exec (.eccCounterClear p) s = .next t ∧ onlyBytes u t 0xE802 2 ∧ t.arb.passCnt = 0 ∧
        (eccAt u 0xE800 ≠ some .single ∨ 0xE800 ∈ u.arb.wbQ ∨ u.arb.wbQ.length < 4 → t.arb.wbDrop = 0) ∧
        (eccAt u 0xE800 = some .single → 0xE800 ∉ u.arb.wbQ → 4 ≤ u.arb.wbQ.length → t.arb.wbDrop = 1) ∧
        t.arb.maxw = u.arb.maxw ∧
        (eccAt u 0xE800 = none → t.arb.ceCnt = 0 ∧ t.arb.ueCnt = 0 ∧ t.arb.cev = false ∧ t.arb.uev = false) ∧
        (eccAt u 0xE800 = some .single → t.arb.ceCnt = 1 ∧ t.arb.cev = true ∧ t.arb.ueCnt = 0) ∧
        (eccAt u 0xE800 = some .double → t.arb.ueCnt = 1 ∧ t.arb.uev = true ∧ t.arb.ceCnt = 0)) ∧
    (∀ (p : Port) (b : Bank) (s u : State), pageAccepted s u p (0xC404 + 0x20 * b.num) (fun w => w ||| 1) →
      ∃ t, exec (.ledgerClear p b) s = .next t ∧
        ((getBank u b).led.passes ≠ [] → (getBank t b).led = { (getBank u b).led with clr := true }) ∧
        ((getBank u b).led.passes = [] → u.arb.ecc = [] → Cellar.wf u.mem = true → (getBank t b).led.peak = 0 ∧
          (∀ c x, c < 16 → x < 128 → readAcc t b c x = readAcc u b c x &&& 0x3C000000) ∧
          ∀ a, (a < accAddr b 0 0 ∨ accAddr b 0 0 + 0x2000 ≤ a) →
            (a < 0xC404 + 0x20 * b.num ∨ 0xC406 + 0x20 * b.num ≤ a) → Cellar.get t.mem a = Cellar.get u.mem a))) ∧
  ((∀ (ups : List Upset) (s : State), lowReqs s none = Vector.replicate 5 false → windowReq s .portS = true →
      arbServe s (.window .portP) = none ∧ arbServe s (.window .portS) = some s ∧
      (s.arb.yieldS = false → arbServe s (.low 6) = none) ∧ exec (.bufferEntryLeave .portP ups) s = .next s ∧
      exec (.prefetchLoadDone .portP ups) s = .next s) ∧
    (∀ (p : Port) (s : State), s.bankA.led.passes = [] → s.bankB.led.passes = [] → rowReq s 3 = false →
      windowReq s p.other = false →
      s.batA.hQ ≠ [] → vget s.arb.rem 2 ≠ 0 →
      (if p = .portP then s.arb.yieldP else s.arb.yieldS) = true →
      arbServe s (.window p) = none ∧ arbServe s (.low 4) = some s) ∧
    (∀ (p : Port) (s : State), longReq s 2 = true → rowReq s 3 = false → longReq s 4 = false → rowReq s 4 = false →
      rowReq s 5 = false → rowReq s 6 = false → windowReq s p.other = false → vget s.arb.rem 0 ≠ 0 →
      (if p = .portP then s.arb.yieldP else s.arb.yieldS) = true →
      arbServe s (.window p) = some (grantAhead s 2) ∧ vget (grantAhead s 2).arb.rem 0 = vget s.arb.rem 0 - 1 ∧
      ∀ n, vget s.arb.paid 0 < n →
        vget (grantRest (grantAhead s 2) 2 n).arb.rem 0 = vget (grantRest s 2 n).arb.rem 0) ∧
    (∀ (l n : Nat) (s : State), n ≤ vget s.arb.paid (l - 2) → (grantRest s l n).arb.rem = s.arb.rem ∧
      (grantRest s l n).arb.yieldP = s.arb.yieldP ∧ (grantRest s l n).arb.yieldS = s.arb.yieldS) ∧
    (∀ (p : Port) (s : State), lowReqs s none = Vector.replicate 5 false → windowReq s p.other = false →
      arbServe s (.window p) = some s) ∧
    (∀ (p : Port) (s : State), grantL1 s p = { s with arb := { s.arb with
        yieldP := decide (p = .portP) || s.arb.yieldP, yieldS := decide (p = .portS) || s.arb.yieldS } }) ∧
    (∀ (l : Nat) (s : State), 2 ≤ l → l ≤ 6 → (grantLow s l 1).arb.yieldP = false ∧
      (grantLow s l 1).arb.yieldS = false ∧
      vget (grantLow s l 1).arb.rem (l - 2) = vget s.arb.rem (l - 2) - 1)) ∧
  ((∀ s u : State, domains s = true → pgb s 0xE802 4 = true → s.arb.ecc = [] → s.arb.scrubLeft = 0 → s.arb.wbQ = [] →
      arbServe s (.low 6) = some u →
      ∃ t, exec (.scrubBurst []) s = .next t ∧ t = { s with arb := t.arb } ∧ t.arb.scrubLeft = (pg s 0xE804).toNat ∧
        t.arb.scrubAt = (s.arb.scrubAt + 64) % cellarSize ∧ t.arb.ceCnt = s.arb.ceCnt ∧ t.arb.ueCnt = s.arb.ueCnt ∧
        vget t.arb.rem 4 = vget u.arb.rem 4 - 1 ∧
          t.arb.passCnt = if t.arb.scrubAt = 0 then sat1 s.arb.passCnt else s.arb.passCnt) ∧
    (∀ (ups : List Upset) (s : State), (pgb s 0xE802 4 = false ∨ s.arb.scrubLeft ≠ 0 ∨ s.arb.wbQ ≠ []) →
      exec (.scrubBurst ups) s = .next s) ∧
    (∀ (c : CAddr) (rest : List CAddr) (ups : List Upset) (s u : State), s.arb.wbQ = c :: rest → domains s = true →
      arbServe s (.low 6) = some u → eccAt (upsets u ups) c.toNat ≠ some .double →
      ∃ t, exec (.scrubWriteback ups) s = .next t ∧ t.mem = (upsets s ups).mem ∧ t.arb.wbQ = rest ∧
        eccAt t c.toNat = none ∧ (∀ w, w ≠ c.toNat → eccAt t w = eccAt (upsets s ups) w) ∧
        t.arb.ceCnt = s.arb.ceCnt ∧ t.err = s.err))

/-- R240, R244, R247, R253, R258, R261, Table DRV-3: the glass outputs. In a slot of a driven bank the COM level minus
the SEG level is the pixel's voltage of Table DRV-3 with the slot's polarity, and a COM beyond the duty is at VSS
through its ground switch. In a key slot of bank A every COM and SEGA16 to SEGA127 are at L_0, the active line is at
the key level of the settings that the slot takes (R185, R340), and the other used lines hang on their weak
pull-downs. An undriven bank holds every output at VSS but for the key slots of state 0. VADJ floats while VLEN is
low. R91, R92, R98, R119, R132, R535, Table PKG-8: the host outputs. Without VIO, or under HIGHZ, each floats.
Otherwise, while no boundary instruction drives the balls: HD0 to HD15 are driven only while CS# and OE# are low and
WE# is high, the high byte never in Gen1, with the value of the register that HADDR selects, or the word that the read
of WDATA, KEVT or RTC_L, or a Gen1 strobe, has taken (R95, R96); WAIT# is driven in Gen3 alone, low while an access is
held; SDO floats while SCS# is high; with Port P strapped off HD and WAIT# float and IRQ# is high. TDO floats until
DEBUG_UNLOCK has opened the TAP, without VIO, and outside a scan; an instruction scan shifts out 0b00001, and a data
scan the selected register, of which IDCODE is one (that TDO is driven in a scan alone, bit 0 first, is the family's,
log entry 62). -/
def Obligations.OutputsFollowTheState : Prop :=
  ((∀ (s : State) (b : Bank) (key : Bool) (r : SlotRec) (n x : Nat), driven (getBank s b).drv = true →
      (getBank s b).led.recs.getLast? = some r → (key = false ∨ b = .bankB) →
      (n < r.lines → r.driven = true → r.bias ≤ 4 →
        ∃ u v : Int, comOut s b key n = .level u ∧ segOut s b key x = .level v ∧ u - v = driveUnits r n x) ∧
      (r.lines ≤ n → comOut s b key n = .ground)) ∧
    (∀ (s : State) (n x : Nat), driven s.bankA.drv = true → comOut s .bankA true n = .level 0 ∧
      (16 ≤ x → segOut s .bankA true x = .level 0) ∧
      (x < 16 → x = (slotBegun s).keys.line → segOut s .bankA true x = .level (keyLevel (slotBegun s))) ∧
      (x < 16 → x ≠ (slotBegun s).keys.line → x ≤ (slotBegun s).keys.cur.lines → segOut s .bankA true x = .weak)) ∧
    (∀ (s : State) (b : Bank) (key : Bool) (n x : Nat), driven (getBank s b).drv = false →
      comOut s b key n = .ground ∧
      ((key = false ∨ b = .bankB ∨ (getBank s b).drv.sta ≠ .off ∨ 16 ≤ x) → segOut s b key x = .ground)) ∧
    (∀ (s : State) (b : Bank), vadjCurrent s b =
      if vlen (getBank s b).drv then some ((getBank s b).trim.now * 78125) else none)) ∧
  ((∀ (s : State) (x : Strobes) (a : Fin 64) (n : Nat) (cs sck : Bool) (p : Port), (s.pw.vio = false ∨ s.tap.ir = 4) →
      hdPin s x a n = .hiZ ∧ waitPin s cs = .hiZ ∧ sdoPin s cs sck n = .hiZ ∧ irqPin s p = .hiZ) ∧
    (∀ (s : State) (x : Strobes) (a : Fin 64) (n : Nat) (cs sck : Bool), s.pw.vio = true → s.tap.ir ≠ 4 →
      s.tap.ir ≠ 0 → s.tap.ir ≠ 3 →
      ((x.cs = false ∨ x.oe = false ∨ x.we = true ∨ (s.pw.gen = .gen1 ∧ 8 ≤ n)) → hdPin s x a n = .hiZ) ∧
      (s.pw.face ≠ .dead → s.pw.gen ≠ .portOff → x.cs = true → x.oe = true → x.we = false →
        (s.pw.gen = .gen1 → n < 8) → hdPin s x a n = .ofBool ((hdWord s a).getLsbD n)) ∧
      (s.pw.gen = .gen1 ∨ (s.pw.face = .full ∧ (offOf a = 0x16 ∨ offOf a = 0x2E ∨ offOf a = 0x54)) →
        hdWord s a = s.portP.rdata) ∧
      (s.pw.gen ≠ .gen1 → s.pw.face = .bootFace → hdWord s a = bootRead s a) ∧
      (s.pw.gen ≠ .gen1 → s.pw.face = .full → offOf a ≠ 0x16 → offOf a ≠ 0x2E → offOf a ≠ 0x54 →
        hdWord s a = regValue s .portP (offOf a)) ∧
      ((cs = false ∨ s.pw.gen ≠ .gen3) → waitPin s cs = .hiZ) ∧
      (s.pw.face ≠ .dead → s.pw.gen = .gen3 → (waitPin s true = .low ↔ s.portP.held ≠ .none) ∧
        (waitPin s true = .high ↔ s.portP.held = .none)) ∧
      sdoPin s false sck n = .hiZ ∧
      (s.pw.gen = .portOff → hdPin s x a n = .hiZ ∧ waitPin s cs = .hiZ ∧ (islandOn s = true →
        irqPin s .portP = .high)) ∧
      (islandOn s = true → (irqPin s .portS = .low ↔ irqLow s s.portS = true)) ∧
      (islandOn s = true → s.pw.gen ≠ .portOff → (irqPin s .portP = .low ↔ irqLow s s.portP = true))) ∧
    (∀ (s : State) (x : TapScan) (tdi : List Bool) (n : Nat),
      ((s.pw.vio = false ∨ (s.auth.dbgBs = false ∧ s.auth.dbgTest = false)) → tdoPin s (some (x, tdi, n)) = .hiZ) ∧
      tdoPin s none = .hiZ ∧
      (s.pw.vio = true → s.auth.dbgBs = true →
        (n < 5 → tdoPin s (some (.ir, tdi, n)) = .ofBool (decide (n = 0))) ∧
        (n < (tapData s).1 → tdoPin s (some (.dr, tdi, n)) = .ofBool ((tapData s).2.testBit n)) ∧
        (∀ y, 5 ≤ n → tdi[n - 5]? = some y → tdoPin s (some (.ir, tdi, n)) = .ofBool y))))

/-- R199, R200, R201, R102: a read of RTC_L answers the low word (in Gen1 on Port P its low byte) and snapshots RTC_H
and RTC_SUB for its port; a write of RTC_L is held for the port's next RTC_H write, which starts on its way to the
island with it, and is refused with STATE without it; RTC_ALM and WAKESTAT writes start on their way, the latter
clearing its latches at once. RTC_ALM reads the value written at once (R99) and, where none is on its way, the count
that is left. R39, R200, R201, R508 to R511: on the island: the oldest write arrives; a second ends, the count goes on
by 1, an armed alarm counts down, and BKSEC follows (a count on the substitute clock sets TIMESUB, R42, R48; an alarm
that is due fires before a write replaces it, R525); BKSEC follows from the first write of RTC_H on (R511); the backup
domain counts on its own while it does not follow, loses its count with VBKUP and begins again with it, following at
once where RTC_H has been written since the cold boot (that it then follows in CORK-ENTRY and in a warm boot too is
the model's reading, log entry 13, DEDUCED). Nothing outside the island and the backup domain changes. -/
def Obligations.RtcRegistersAndIslandTime : Prop :=
  ((∀ (p : Port) (s : State), readable s p → ∃ t, exec (.rtcLRead p) s = .next t ∧ t = setPort s p (getPort t p) ∧
      (getPort t p).rdata = onPortBus s p (wordOf s.aon.sec.toNat) ∧
        rtcHRead t p = wordOf (s.aon.sec.toNat / 0x10000) ∧
      rtcSubRead t p = wordOf s.aon.sub) ∧
    (∀ (p : Port) (v w : Word) (s : State), reachesRule s p 0x2A v w → ∃ t, exec (.rtcLWrite p v) s = .next t ∧
      t = setPort (gen1Empty s p 0x2A) p (getPort t p) ∧ (getPort t p).rtcHold = some w ∧ t.aon = s.aon) ∧
    (∀ (p : Port) (v w l : Word) (s : State), reachesRule s p 0x2B v w → (getPort s p).rtcHold = some l →
      ∃ t, exec (.rtcHWrite p v) s = .next t ∧ (getPort t p).rtcHold = none ∧
        t = { setPort (gen1Empty s p 0x2B) p (getPort t p) with aon := { s.aon with q := s.aon.q ++ [.rtc (w ++ l)] } }) ∧
    (∀ (p : Port) (v w : Word) (s : State), reachesRule s p 0x2B v w → (getPort s p).rtcHold = none →
      exec (.rtcHWrite p v) s = .next (refuse (gen1Empty s p 0x2B) p eSTATE 0x56)) ∧
    (∀ (p : Port) (v w : Word) (s : State), reachesRule s p 0x2D v w → exec (.rtcAlmWrite p v) s =
      .next { gen1Empty s p 0x2D with aon := { s.aon with q := s.aon.q ++ [.alm w] } }) ∧
    (∀ (p q : Port) (v w : Word) (s : State), reachesRule s p 0x2D v w →
      ∃ t, exec (.rtcAlmWrite p v) s = .next t ∧ regValue t q 0x5A = w) ∧
    (∀ (q : Port) (s : State), s.aon.q = [] → regValue s q 0x5A = wordOf ((s.aon.alarm).getD 0)) ∧
    (∀ (p : Port) (v w : Word) (s : State), reachesRule s p 0x2F v w → exec (.wakestatClear p v) s =
      .next { gen1Empty s p 0x2F with aon := { s.aon with
        latch := s.aon.latch &&& ~~~ (loByte w), q := s.aon.q ++ [.wakestat (w &&& 0xFF)] } })) ∧
  ((∀ (w : AonWrite) (rest : List AonWrite) (s : State), ckAon s = true → s.aon.q = w :: rest →
      ∃ t, exec .aonWriteArrival s = .next t ∧ (s.aon.alarm ≠ some 0 → t = { s with aon := t.aon, bak := t.bak }) ∧
        t.aon.q = rest ∧ (∀ n, w = .alm n → s.aon.alarm = some 0 → t.aon.latch.getLsbD wkALARM = true ∧
          bit t.irqStat 10 = true) ∧
        (∀ x, w = .rtc x → t.aon.sec = x ∧ t.aon.sub = 0 ∧ t.aon.phase = 0 ∧
          t.bak.follow = true ∧ (s.bak.powered = true → t.bak.sec = x)) ∧
        (∀ n, w = .alm n → t.aon.alarm = (if n = 0 then none else some n.toNat) ∧ t.aon.sec = s.aon.sec) ∧
        (∀ v, w = .wakectl v → t.aon = { s.aon with q := rest, wakeIs := v })) ∧
    (∀ s : State, ckAon s = true → ∃ t, exec .rtcSecond s = .next t ∧
      t = { s with aon := t.aon, bak := t.bak, clk := { s.clk with timeSub := s.clk.timeSub || s.clk.hold && active s } } ∧
      t.aon.sec = s.aon.sec + 1 ∧ t.aon.sub = 0 ∧ t.aon.alarm = s.aon.alarm.map (· - 1) ∧
      (s.bak.powered = true → s.bak.follow = true → t.bak.sec = s.aon.sec + 1) ∧
      (s.bak.follow = false → t.bak = s.bak)) ∧
    (∀ s : State, ckAon s = false → exec .rtcSecond s = .next s) ∧
    (∀ s : State, s.bak.powered = true → s.bak.follow = false → s.pw.mode ≠ .cork →
      exec .backupSecond s = .next { s with bak := { s.bak with sec := s.bak.sec + 1 } }) ∧
    (∀ s : State, exec .vbkupLoss s = .next { s with
      clk := { s.clk with xtalRuns := s.clk.xtalRuns && decide (s.pw.mode ≠ .off) }
      bak := { powered := false, sec := 0, bkv := false, follow := s.bak.follow, unbroken := false } }) ∧
    (∀ s : State, s.bak.powered = false → exec .vbkupReturn s = .next { s with bak := { s.bak with
      powered := true, sec := if s.bak.follow then s.aon.sec else 0 } }))

/-- R512 to R514, R516, R47, R77: a filtered change of a wake input moves its level and latches it, and in SLEEP a
change to its wake level, of an enabled source, begins the exit (IGN and CHG_DET high, KWAKE high, or low with KW_POL
1, as KW_POL stands then, R523; a KWAKE change to its other level wakes nothing); an unfiltered edge latches only
where the island has no clock, and with its clock running does nothing; VSUP low for its time latches once a trip, and
a second time of the same trip, or a trip within one, does nothing; an alarm whose count is 0 fires once. -/
def Obligations.WakeEventsLatchAndWake : Prop :=
  (∀ (i : WakeIn) (l : Bool) (s : State), ckAon s = true → wakeLevel s i ≠ l →
    ∃ t, exec (.wakeInputChange i l) s = .next t ∧ wakeLevel t i = l ∧ t.aon.latch.getLsbD (wakeBit i) = true ∧
      bit t.irqStat 11 = (bit s.irqStat 11 || !s.aon.latch.getLsbD (wakeBit i) ||
        (s.pw.trans == .toSleep && i != .kwake && l && bit s.aon.wakeIs (wakeBit i)) ||
        (s.pw.trans == .toSleep && i == .kwake && (l != pgb s 0xEC0A 0) && bit s.aon.wakeIs (wakeBit i))) ∧
      (s.pw.mode = .sleep → s.pw.trans = .idle → i ≠ .kwake → l = true → bit s.aon.wakeIs (wakeBit i) = true →
        t.pw = { s.pw with trans := .wake }) ∧
      (s.pw.mode = .sleep → s.pw.trans = .idle → i = .kwake → bit s.aon.wakeIs wkKWAKE = true →
        t.pw = if l = pgb s 0xEC0A 0 then s.pw else { s.pw with trans := .wake }) ∧ t.mem = s.mem) ∧
  (∀ (i : WakeIn) (l : Bool) (s : State), wakeLevel s i = l → exec (.wakeInputChange i l) s = .next s) ∧
  (∀ (i : WakeIn) (s : State), islandOn s = true → ckAon s = false →
    ∃ t, exec (.wakeEdgeUnfiltered i) s = .next t ∧ t = { s with
        aon := { s.aon with latch := s.aon.latch ||| BitVec.ofNat 8 (2 ^ wakeBit i) }, irqStat := t.irqStat } ∧
      t.irqStat = if s.aon.latch.getLsbD (wakeBit i) then s.irqStat else s.irqStat ||| 0x800) ∧
  (∀ (i : WakeIn) (s : State), ckAon s = true → exec (.wakeEdgeUnfiltered i) s = .next s) ∧
  (∀ s : State, (s.aon.vlowTrip = false ∨ s.aon.vlowTimer = false) → exec .vsupLow s = .next s) ∧
  (∀ s : State, s.aon.vlowTrip = true → exec .vsupLowTrip s = .next s) ∧
  (∀ s : State, islandOn s = true → s.aon.vlowTrip = false → exec .vsupLowTrip s =
    .next { s with aon := { s.aon with vlowTrip := true, vlowTimer := true } }) ∧
  (∀ s : State, islandOn s = true → exec .vsupLowRelease s =
    .next { s with aon := { s.aon with vlowTrip := false, vlowTimer := false } }) ∧
  (∀ s : State, islandOn s = true → s.aon.vlowTrip = true → s.aon.vlowTimer = true →
    ∃ t, exec .vsupLow s = .next t ∧ t.aon.latch.getLsbD wkVLOW = true ∧ t.aon.vlowTimer = false ∧ t.mem = s.mem) ∧
  (∀ s : State, islandOn s = true → s.aon.alarm = some 0 → ∃ t, exec .alarm s = .next t ∧ t.aon.alarm = none ∧
    t.aon.latch.getLsbD wkALARM = true ∧ bit t.irqStat 10 = true ∧
    (s.pw.mode = .sleep → s.pw.trans = .idle → bit s.aon.wakeIs wkALARM = true →
      t.pw = { s.pw with trans := .wake })) ∧
  (∀ s : State, s.aon.alarm ≠ some 0 → exec .alarm s = .next s)
end

