-- ==== Sys2Proof/Laws/State.lean ====
section
/-! SUPPORT. What each shared update of the state leaves of each field, so that no proof unfolds a record update: the port
and bank accessors, interrupt bits and error records, lamps and clusters, the Gen1 latches. -/

namespace Sys2Proof.Machine

open Sys2Proof

/-! ### Ports and banks -/

@[simp] theorem getPort_setPort (s : State) (p : Port) (x : PortSt) : getPort (setPort s p x) p = x := by
  cases p <;> rfl
@[simp] theorem getPort_setPort_other (s : State) (p : Port) (x : PortSt) :
    getPort (setPort s p x) p.other = getPort s p.other := by cases p <;> rfl
@[simp] theorem setPort_setPort (s : State) (p : Port) (x y : PortSt) : setPort (setPort s p x) p y = setPort s p y := by
  cases p <;> rfl
@[simp] theorem setPort_getPort (s : State) (p : Port) : setPort s p (getPort s p) = s := by cases p <;> rfl
@[simp] theorem getBank_setBank (s : State) (b : Bank) (x : BankSt) : getBank (setBank s b x) b = x := by
  cases b <;> rfl
theorem getBank_setBank_ne (s : State) (b b' : Bank) (x : BankSt) (h : b' ≠ b) :
    getBank (setBank s b x) b' = getBank s b' := by cases b <;> cases b' <;> first | rfl | exact absurd rfl h
@[simp] theorem setBank_setBank (s : State) (b : Bank) (x y : BankSt) : setBank (setBank s b x) b y = setBank s b y := by
  cases b <;> rfl
@[simp] theorem setBank_getBank (s : State) (b : Bank) : setBank s b (getBank s b) = s := by cases b <;> rfl
@[simp] theorem getBank_setPort (s : State) (p : Port) (x : PortSt) (b : Bank) :
    getBank (setPort s p x) b = getBank s b := by cases p <;> cases b <;> rfl
@[simp] theorem getPort_setBank (s : State) (p : Port) (x : BankSt) (b : Bank) :
    getPort (setBank s b x) p = getPort s p := by cases p <;> cases b <;> rfl

/-! ### setPort -/

@[simp] theorem setPort_now (s : State) (p : Port) (x : PortSt) : (setPort s p x).now = s.now := by cases p <;> rfl
@[simp] theorem setPort_freeCtr (s : State) (p : Port) (x : PortSt) : (setPort s p x).freeCtr = s.freeCtr := by cases p <;> rfl
@[simp] theorem setPort_pw (s : State) (p : Port) (x : PortSt) : (setPort s p x).pw = s.pw := by cases p <;> rfl
@[simp] theorem setPort_clk (s : State) (p : Port) (x : PortSt) : (setPort s p x).clk = s.clk := by cases p <;> rfl
@[simp] theorem setPort_irqStat (s : State) (p : Port) (x : PortSt) : (setPort s p x).irqStat = s.irqStat := by cases p <;> rfl
@[simp] theorem setPort_err (s : State) (p : Port) (x : PortSt) : (setPort s p x).err = s.err := by cases p <;> rfl
@[simp] theorem setPort_spi (s : State) (p : Port) (x : PortSt) : (setPort s p x).spi = s.spi := by cases p <;> rfl
@[simp] theorem setPort_roles (s : State) (p : Port) (x : PortSt) : (setPort s p x).roles = s.roles := by cases p <;> rfl
@[simp] theorem setPort_scratch (s : State) (p : Port) (x : PortSt) : (setPort s p x).scratch = s.scratch := by cases p <;> rfl
@[simp] theorem setPort_bankA (s : State) (p : Port) (x : PortSt) : (setPort s p x).bankA = s.bankA := by cases p <;> rfl
@[simp] theorem setPort_bankB (s : State) (p : Port) (x : PortSt) : (setPort s p x).bankB = s.bankB := by cases p <;> rfl
@[simp] theorem setPort_disp (s : State) (p : Port) (x : PortSt) : (setPort s p x).disp = s.disp := by cases p <;> rfl
@[simp] theorem setPort_keys (s : State) (p : Port) (x : PortSt) : (setPort s p x).keys = s.keys := by cases p <;> rfl
@[simp] theorem setPort_lamps (s : State) (p : Port) (x : PortSt) : (setPort s p x).lamps = s.lamps := by cases p <;> rfl
@[simp] theorem setPort_batA (s : State) (p : Port) (x : PortSt) : (setPort s p x).batA = s.batA := by cases p <;> rfl
@[simp] theorem setPort_batB (s : State) (p : Port) (x : PortSt) : (setPort s p x).batB = s.batB := by cases p <;> rfl
@[simp] theorem setPort_estA (s : State) (p : Port) (x : PortSt) : (setPort s p x).estA = s.estA := by cases p <;> rfl
@[simp] theorem setPort_estB (s : State) (p : Port) (x : PortSt) : (setPort s p x).estB = s.estB := by cases p <;> rfl
@[simp] theorem setPort_pack (s : State) (p : Port) (x : PortSt) : (setPort s p x).pack = s.pack := by cases p <;> rfl
@[simp] theorem setPort_auth (s : State) (p : Port) (x : PortSt) : (setPort s p x).auth = s.auth := by cases p <;> rfl
@[simp] theorem setPort_nv (s : State) (p : Port) (x : PortSt) : (setPort s p x).nv = s.nv := by cases p <;> rfl
@[simp] theorem setPort_aon (s : State) (p : Port) (x : PortSt) : (setPort s p x).aon = s.aon := by cases p <;> rfl
@[simp] theorem setPort_bak (s : State) (p : Port) (x : PortSt) : (setPort s p x).bak = s.bak := by cases p <;> rfl
@[simp] theorem setPort_arb (s : State) (p : Port) (x : PortSt) : (setPort s p x).arb = s.arb := by cases p <;> rfl
@[simp] theorem setPort_tap (s : State) (p : Port) (x : PortSt) : (setPort s p x).tap = s.tap := by cases p <;> rfl
@[simp] theorem setPort_mem (s : State) (p : Port) (x : PortSt) : (setPort s p x).mem = s.mem := by cases p <;> rfl
@[simp] theorem setPort_pending (s : State) (p : Port) (x : PortSt) : (setPort s p x).pending = s.pending := by cases p <;> rfl

/-! ### setBank -/

@[simp] theorem setBank_now (s : State) (b : Bank) (x : BankSt) : (setBank s b x).now = s.now := by cases b <;> rfl
@[simp] theorem setBank_freeCtr (s : State) (b : Bank) (x : BankSt) : (setBank s b x).freeCtr = s.freeCtr := by cases b <;> rfl
@[simp] theorem setBank_pw (s : State) (b : Bank) (x : BankSt) : (setBank s b x).pw = s.pw := by cases b <;> rfl
@[simp] theorem setBank_clk (s : State) (b : Bank) (x : BankSt) : (setBank s b x).clk = s.clk := by cases b <;> rfl
@[simp] theorem setBank_irqStat (s : State) (b : Bank) (x : BankSt) : (setBank s b x).irqStat = s.irqStat := by cases b <;> rfl
@[simp] theorem setBank_err (s : State) (b : Bank) (x : BankSt) : (setBank s b x).err = s.err := by cases b <;> rfl
@[simp] theorem setBank_portP (s : State) (b : Bank) (x : BankSt) : (setBank s b x).portP = s.portP := by cases b <;> rfl
@[simp] theorem setBank_portS (s : State) (b : Bank) (x : BankSt) : (setBank s b x).portS = s.portS := by cases b <;> rfl
@[simp] theorem setBank_spi (s : State) (b : Bank) (x : BankSt) : (setBank s b x).spi = s.spi := by cases b <;> rfl
@[simp] theorem setBank_roles (s : State) (b : Bank) (x : BankSt) : (setBank s b x).roles = s.roles := by cases b <;> rfl
@[simp] theorem setBank_scratch (s : State) (b : Bank) (x : BankSt) : (setBank s b x).scratch = s.scratch := by cases b <;> rfl
@[simp] theorem setBank_disp (s : State) (b : Bank) (x : BankSt) : (setBank s b x).disp = s.disp := by cases b <;> rfl
@[simp] theorem setBank_keys (s : State) (b : Bank) (x : BankSt) : (setBank s b x).keys = s.keys := by cases b <;> rfl
@[simp] theorem setBank_lamps (s : State) (b : Bank) (x : BankSt) : (setBank s b x).lamps = s.lamps := by cases b <;> rfl
@[simp] theorem setBank_batA (s : State) (b : Bank) (x : BankSt) : (setBank s b x).batA = s.batA := by cases b <;> rfl
@[simp] theorem setBank_batB (s : State) (b : Bank) (x : BankSt) : (setBank s b x).batB = s.batB := by cases b <;> rfl
@[simp] theorem setBank_estA (s : State) (b : Bank) (x : BankSt) : (setBank s b x).estA = s.estA := by cases b <;> rfl
@[simp] theorem setBank_estB (s : State) (b : Bank) (x : BankSt) : (setBank s b x).estB = s.estB := by cases b <;> rfl
@[simp] theorem setBank_pack (s : State) (b : Bank) (x : BankSt) : (setBank s b x).pack = s.pack := by cases b <;> rfl
@[simp] theorem setBank_auth (s : State) (b : Bank) (x : BankSt) : (setBank s b x).auth = s.auth := by cases b <;> rfl
@[simp] theorem setBank_nv (s : State) (b : Bank) (x : BankSt) : (setBank s b x).nv = s.nv := by cases b <;> rfl
@[simp] theorem setBank_aon (s : State) (b : Bank) (x : BankSt) : (setBank s b x).aon = s.aon := by cases b <;> rfl
@[simp] theorem setBank_bak (s : State) (b : Bank) (x : BankSt) : (setBank s b x).bak = s.bak := by cases b <;> rfl
@[simp] theorem setBank_arb (s : State) (b : Bank) (x : BankSt) : (setBank s b x).arb = s.arb := by cases b <;> rfl
@[simp] theorem setBank_tap (s : State) (b : Bank) (x : BankSt) : (setBank s b x).tap = s.tap := by cases b <;> rfl
@[simp] theorem setBank_mem (s : State) (b : Bank) (x : BankSt) : (setBank s b x).mem = s.mem := by cases b <;> rfl
@[simp] theorem setBank_pending (s : State) (b : Bank) (x : BankSt) : (setBank s b x).pending = s.pending := by cases b <;> rfl

/-! ### setIrq -/

@[simp] theorem setIrq_now (s : State) (i : Nat) : (setIrq s i).now = s.now := rfl
@[simp] theorem setIrq_freeCtr (s : State) (i : Nat) : (setIrq s i).freeCtr = s.freeCtr := rfl
@[simp] theorem setIrq_pw (s : State) (i : Nat) : (setIrq s i).pw = s.pw := rfl
@[simp] theorem setIrq_clk (s : State) (i : Nat) : (setIrq s i).clk = s.clk := rfl
@[simp] theorem setIrq_err (s : State) (i : Nat) : (setIrq s i).err = s.err := rfl
@[simp] theorem setIrq_portP (s : State) (i : Nat) : (setIrq s i).portP = s.portP := rfl
@[simp] theorem setIrq_portS (s : State) (i : Nat) : (setIrq s i).portS = s.portS := rfl
@[simp] theorem setIrq_spi (s : State) (i : Nat) : (setIrq s i).spi = s.spi := rfl
@[simp] theorem setIrq_roles (s : State) (i : Nat) : (setIrq s i).roles = s.roles := rfl
@[simp] theorem setIrq_scratch (s : State) (i : Nat) : (setIrq s i).scratch = s.scratch := rfl
@[simp] theorem setIrq_bankA (s : State) (i : Nat) : (setIrq s i).bankA = s.bankA := rfl
@[simp] theorem setIrq_bankB (s : State) (i : Nat) : (setIrq s i).bankB = s.bankB := rfl
@[simp] theorem setIrq_disp (s : State) (i : Nat) : (setIrq s i).disp = s.disp := rfl
@[simp] theorem setIrq_keys (s : State) (i : Nat) : (setIrq s i).keys = s.keys := rfl
@[simp] theorem setIrq_lamps (s : State) (i : Nat) : (setIrq s i).lamps = s.lamps := rfl
@[simp] theorem setIrq_batA (s : State) (i : Nat) : (setIrq s i).batA = s.batA := rfl
@[simp] theorem setIrq_batB (s : State) (i : Nat) : (setIrq s i).batB = s.batB := rfl
@[simp] theorem setIrq_estA (s : State) (i : Nat) : (setIrq s i).estA = s.estA := rfl
@[simp] theorem setIrq_estB (s : State) (i : Nat) : (setIrq s i).estB = s.estB := rfl
@[simp] theorem setIrq_pack (s : State) (i : Nat) : (setIrq s i).pack = s.pack := rfl
@[simp] theorem setIrq_auth (s : State) (i : Nat) : (setIrq s i).auth = s.auth := rfl
@[simp] theorem setIrq_nv (s : State) (i : Nat) : (setIrq s i).nv = s.nv := rfl
@[simp] theorem setIrq_aon (s : State) (i : Nat) : (setIrq s i).aon = s.aon := rfl
@[simp] theorem setIrq_bak (s : State) (i : Nat) : (setIrq s i).bak = s.bak := rfl
@[simp] theorem setIrq_arb (s : State) (i : Nat) : (setIrq s i).arb = s.arb := rfl
@[simp] theorem setIrq_tap (s : State) (i : Nat) : (setIrq s i).tap = s.tap := rfl
@[simp] theorem setIrq_mem (s : State) (i : Nat) : (setIrq s i).mem = s.mem := rfl
@[simp] theorem setIrq_pending (s : State) (i : Nat) : (setIrq s i).pending = s.pending := rfl
@[simp] theorem setIrq_irqStat (s : State) (i : Nat) : (setIrq s i).irqStat = s.irqStat ||| wordOf (2 ^ i) := rfl

/-! ### setIrqIf -/

@[simp] theorem setIrqIf_now (c : Bool) (s : State) (i : Nat) : (setIrqIf c s i).now = s.now := by cases c <;> rfl
@[simp] theorem setIrqIf_freeCtr (c : Bool) (s : State) (i : Nat) : (setIrqIf c s i).freeCtr = s.freeCtr := by cases c <;> rfl
@[simp] theorem setIrqIf_pw (c : Bool) (s : State) (i : Nat) : (setIrqIf c s i).pw = s.pw := by cases c <;> rfl
@[simp] theorem setIrqIf_clk (c : Bool) (s : State) (i : Nat) : (setIrqIf c s i).clk = s.clk := by cases c <;> rfl
@[simp] theorem setIrqIf_err (c : Bool) (s : State) (i : Nat) : (setIrqIf c s i).err = s.err := by cases c <;> rfl
@[simp] theorem setIrqIf_portP (c : Bool) (s : State) (i : Nat) : (setIrqIf c s i).portP = s.portP := by cases c <;> rfl
@[simp] theorem setIrqIf_portS (c : Bool) (s : State) (i : Nat) : (setIrqIf c s i).portS = s.portS := by cases c <;> rfl
@[simp] theorem setIrqIf_spi (c : Bool) (s : State) (i : Nat) : (setIrqIf c s i).spi = s.spi := by cases c <;> rfl
@[simp] theorem setIrqIf_roles (c : Bool) (s : State) (i : Nat) : (setIrqIf c s i).roles = s.roles := by cases c <;> rfl
@[simp] theorem setIrqIf_scratch (c : Bool) (s : State) (i : Nat) : (setIrqIf c s i).scratch = s.scratch := by cases c <;> rfl
@[simp] theorem setIrqIf_bankA (c : Bool) (s : State) (i : Nat) : (setIrqIf c s i).bankA = s.bankA := by cases c <;> rfl
@[simp] theorem setIrqIf_bankB (c : Bool) (s : State) (i : Nat) : (setIrqIf c s i).bankB = s.bankB := by cases c <;> rfl
@[simp] theorem setIrqIf_disp (c : Bool) (s : State) (i : Nat) : (setIrqIf c s i).disp = s.disp := by cases c <;> rfl
@[simp] theorem setIrqIf_keys (c : Bool) (s : State) (i : Nat) : (setIrqIf c s i).keys = s.keys := by cases c <;> rfl
@[simp] theorem setIrqIf_lamps (c : Bool) (s : State) (i : Nat) : (setIrqIf c s i).lamps = s.lamps := by cases c <;> rfl
@[simp] theorem setIrqIf_batA (c : Bool) (s : State) (i : Nat) : (setIrqIf c s i).batA = s.batA := by cases c <;> rfl
@[simp] theorem setIrqIf_batB (c : Bool) (s : State) (i : Nat) : (setIrqIf c s i).batB = s.batB := by cases c <;> rfl
@[simp] theorem setIrqIf_estA (c : Bool) (s : State) (i : Nat) : (setIrqIf c s i).estA = s.estA := by cases c <;> rfl
@[simp] theorem setIrqIf_estB (c : Bool) (s : State) (i : Nat) : (setIrqIf c s i).estB = s.estB := by cases c <;> rfl
@[simp] theorem setIrqIf_pack (c : Bool) (s : State) (i : Nat) : (setIrqIf c s i).pack = s.pack := by cases c <;> rfl
@[simp] theorem setIrqIf_auth (c : Bool) (s : State) (i : Nat) : (setIrqIf c s i).auth = s.auth := by cases c <;> rfl
@[simp] theorem setIrqIf_nv (c : Bool) (s : State) (i : Nat) : (setIrqIf c s i).nv = s.nv := by cases c <;> rfl
@[simp] theorem setIrqIf_aon (c : Bool) (s : State) (i : Nat) : (setIrqIf c s i).aon = s.aon := by cases c <;> rfl
@[simp] theorem setIrqIf_bak (c : Bool) (s : State) (i : Nat) : (setIrqIf c s i).bak = s.bak := by cases c <;> rfl
@[simp] theorem setIrqIf_arb (c : Bool) (s : State) (i : Nat) : (setIrqIf c s i).arb = s.arb := by cases c <;> rfl
@[simp] theorem setIrqIf_tap (c : Bool) (s : State) (i : Nat) : (setIrqIf c s i).tap = s.tap := by cases c <;> rfl
@[simp] theorem setIrqIf_mem (c : Bool) (s : State) (i : Nat) : (setIrqIf c s i).mem = s.mem := by cases c <;> rfl
@[simp] theorem setIrqIf_pending (c : Bool) (s : State) (i : Nat) : (setIrqIf c s i).pending = s.pending := by cases c <;> rfl

/-! ### record -/

@[simp] theorem record_now (s : State) (c : Byte) (p : Option Port) (a : BitVec 4) (k : Bool) (i : Word) : (record s c p a k i).now = s.now := rfl
@[simp] theorem record_freeCtr (s : State) (c : Byte) (p : Option Port) (a : BitVec 4) (k : Bool) (i : Word) : (record s c p a k i).freeCtr = s.freeCtr := rfl
@[simp] theorem record_pw (s : State) (c : Byte) (p : Option Port) (a : BitVec 4) (k : Bool) (i : Word) : (record s c p a k i).pw = s.pw := rfl
@[simp] theorem record_clk (s : State) (c : Byte) (p : Option Port) (a : BitVec 4) (k : Bool) (i : Word) : (record s c p a k i).clk = s.clk := rfl
@[simp] theorem record_portP (s : State) (c : Byte) (p : Option Port) (a : BitVec 4) (k : Bool) (i : Word) : (record s c p a k i).portP = s.portP := rfl
@[simp] theorem record_portS (s : State) (c : Byte) (p : Option Port) (a : BitVec 4) (k : Bool) (i : Word) : (record s c p a k i).portS = s.portS := rfl
@[simp] theorem record_spi (s : State) (c : Byte) (p : Option Port) (a : BitVec 4) (k : Bool) (i : Word) : (record s c p a k i).spi = s.spi := rfl
@[simp] theorem record_roles (s : State) (c : Byte) (p : Option Port) (a : BitVec 4) (k : Bool) (i : Word) : (record s c p a k i).roles = s.roles := rfl
@[simp] theorem record_scratch (s : State) (c : Byte) (p : Option Port) (a : BitVec 4) (k : Bool) (i : Word) : (record s c p a k i).scratch = s.scratch := rfl
@[simp] theorem record_bankA (s : State) (c : Byte) (p : Option Port) (a : BitVec 4) (k : Bool) (i : Word) : (record s c p a k i).bankA = s.bankA := rfl
@[simp] theorem record_bankB (s : State) (c : Byte) (p : Option Port) (a : BitVec 4) (k : Bool) (i : Word) : (record s c p a k i).bankB = s.bankB := rfl
@[simp] theorem record_disp (s : State) (c : Byte) (p : Option Port) (a : BitVec 4) (k : Bool) (i : Word) : (record s c p a k i).disp = s.disp := rfl
@[simp] theorem record_keys (s : State) (c : Byte) (p : Option Port) (a : BitVec 4) (k : Bool) (i : Word) : (record s c p a k i).keys = s.keys := rfl
@[simp] theorem record_lamps (s : State) (c : Byte) (p : Option Port) (a : BitVec 4) (k : Bool) (i : Word) : (record s c p a k i).lamps = s.lamps := rfl
@[simp] theorem record_batA (s : State) (c : Byte) (p : Option Port) (a : BitVec 4) (k : Bool) (i : Word) : (record s c p a k i).batA = s.batA := rfl
@[simp] theorem record_batB (s : State) (c : Byte) (p : Option Port) (a : BitVec 4) (k : Bool) (i : Word) : (record s c p a k i).batB = s.batB := rfl
@[simp] theorem record_estA (s : State) (c : Byte) (p : Option Port) (a : BitVec 4) (k : Bool) (i : Word) : (record s c p a k i).estA = s.estA := rfl
@[simp] theorem record_estB (s : State) (c : Byte) (p : Option Port) (a : BitVec 4) (k : Bool) (i : Word) : (record s c p a k i).estB = s.estB := rfl
@[simp] theorem record_pack (s : State) (c : Byte) (p : Option Port) (a : BitVec 4) (k : Bool) (i : Word) : (record s c p a k i).pack = s.pack := rfl
@[simp] theorem record_auth (s : State) (c : Byte) (p : Option Port) (a : BitVec 4) (k : Bool) (i : Word) : (record s c p a k i).auth = s.auth := rfl
@[simp] theorem record_nv (s : State) (c : Byte) (p : Option Port) (a : BitVec 4) (k : Bool) (i : Word) : (record s c p a k i).nv = s.nv := rfl
@[simp] theorem record_aon (s : State) (c : Byte) (p : Option Port) (a : BitVec 4) (k : Bool) (i : Word) : (record s c p a k i).aon = s.aon := rfl
@[simp] theorem record_bak (s : State) (c : Byte) (p : Option Port) (a : BitVec 4) (k : Bool) (i : Word) : (record s c p a k i).bak = s.bak := rfl
@[simp] theorem record_arb (s : State) (c : Byte) (p : Option Port) (a : BitVec 4) (k : Bool) (i : Word) : (record s c p a k i).arb = s.arb := rfl
@[simp] theorem record_tap (s : State) (c : Byte) (p : Option Port) (a : BitVec 4) (k : Bool) (i : Word) : (record s c p a k i).tap = s.tap := rfl
@[simp] theorem record_mem (s : State) (c : Byte) (p : Option Port) (a : BitVec 4) (k : Bool) (i : Word) : (record s c p a k i).mem = s.mem := rfl
@[simp] theorem record_pending (s : State) (c : Byte) (p : Option Port) (a : BitVec 4) (k : Bool) (i : Word) : (record s c p a k i).pending = s.pending := rfl

/-! ### gen1Empty -/

@[simp] theorem gen1Empty_now (s : State) (p : Port) (a : Fin 64) : (gen1Empty s p a).now = s.now := by unfold gen1Empty; split <;> rfl
@[simp] theorem gen1Empty_freeCtr (s : State) (p : Port) (a : Fin 64) : (gen1Empty s p a).freeCtr = s.freeCtr := by unfold gen1Empty; split <;> rfl
@[simp] theorem gen1Empty_pw (s : State) (p : Port) (a : Fin 64) : (gen1Empty s p a).pw = s.pw := by unfold gen1Empty; split <;> rfl
@[simp] theorem gen1Empty_clk (s : State) (p : Port) (a : Fin 64) : (gen1Empty s p a).clk = s.clk := by unfold gen1Empty; split <;> rfl
@[simp] theorem gen1Empty_irqStat (s : State) (p : Port) (a : Fin 64) : (gen1Empty s p a).irqStat = s.irqStat := by unfold gen1Empty; split <;> rfl
@[simp] theorem gen1Empty_err (s : State) (p : Port) (a : Fin 64) : (gen1Empty s p a).err = s.err := by unfold gen1Empty; split <;> rfl
@[simp] theorem gen1Empty_portS (s : State) (p : Port) (a : Fin 64) : (gen1Empty s p a).portS = s.portS := by unfold gen1Empty; split <;> rfl
@[simp] theorem gen1Empty_spi (s : State) (p : Port) (a : Fin 64) : (gen1Empty s p a).spi = s.spi := by unfold gen1Empty; split <;> rfl
@[simp] theorem gen1Empty_roles (s : State) (p : Port) (a : Fin 64) : (gen1Empty s p a).roles = s.roles := by unfold gen1Empty; split <;> rfl
@[simp] theorem gen1Empty_scratch (s : State) (p : Port) (a : Fin 64) : (gen1Empty s p a).scratch = s.scratch := by unfold gen1Empty; split <;> rfl
@[simp] theorem gen1Empty_bankA (s : State) (p : Port) (a : Fin 64) : (gen1Empty s p a).bankA = s.bankA := by unfold gen1Empty; split <;> rfl
@[simp] theorem gen1Empty_bankB (s : State) (p : Port) (a : Fin 64) : (gen1Empty s p a).bankB = s.bankB := by unfold gen1Empty; split <;> rfl
@[simp] theorem gen1Empty_disp (s : State) (p : Port) (a : Fin 64) : (gen1Empty s p a).disp = s.disp := by unfold gen1Empty; split <;> rfl
@[simp] theorem gen1Empty_keys (s : State) (p : Port) (a : Fin 64) : (gen1Empty s p a).keys = s.keys := by unfold gen1Empty; split <;> rfl
@[simp] theorem gen1Empty_lamps (s : State) (p : Port) (a : Fin 64) : (gen1Empty s p a).lamps = s.lamps := by unfold gen1Empty; split <;> rfl
@[simp] theorem gen1Empty_batA (s : State) (p : Port) (a : Fin 64) : (gen1Empty s p a).batA = s.batA := by unfold gen1Empty; split <;> rfl
@[simp] theorem gen1Empty_batB (s : State) (p : Port) (a : Fin 64) : (gen1Empty s p a).batB = s.batB := by unfold gen1Empty; split <;> rfl
@[simp] theorem gen1Empty_estA (s : State) (p : Port) (a : Fin 64) : (gen1Empty s p a).estA = s.estA := by unfold gen1Empty; split <;> rfl
@[simp] theorem gen1Empty_estB (s : State) (p : Port) (a : Fin 64) : (gen1Empty s p a).estB = s.estB := by unfold gen1Empty; split <;> rfl
@[simp] theorem gen1Empty_pack (s : State) (p : Port) (a : Fin 64) : (gen1Empty s p a).pack = s.pack := by unfold gen1Empty; split <;> rfl
@[simp] theorem gen1Empty_auth (s : State) (p : Port) (a : Fin 64) : (gen1Empty s p a).auth = s.auth := by unfold gen1Empty; split <;> rfl
@[simp] theorem gen1Empty_nv (s : State) (p : Port) (a : Fin 64) : (gen1Empty s p a).nv = s.nv := by unfold gen1Empty; split <;> rfl
@[simp] theorem gen1Empty_aon (s : State) (p : Port) (a : Fin 64) : (gen1Empty s p a).aon = s.aon := by unfold gen1Empty; split <;> rfl
@[simp] theorem gen1Empty_bak (s : State) (p : Port) (a : Fin 64) : (gen1Empty s p a).bak = s.bak := by unfold gen1Empty; split <;> rfl
@[simp] theorem gen1Empty_arb (s : State) (p : Port) (a : Fin 64) : (gen1Empty s p a).arb = s.arb := by unfold gen1Empty; split <;> rfl
@[simp] theorem gen1Empty_tap (s : State) (p : Port) (a : Fin 64) : (gen1Empty s p a).tap = s.tap := by unfold gen1Empty; split <;> rfl
@[simp] theorem gen1Empty_mem (s : State) (p : Port) (a : Fin 64) : (gen1Empty s p a).mem = s.mem := by unfold gen1Empty; split <;> rfl
@[simp] theorem gen1Empty_pending (s : State) (p : Port) (a : Fin 64) : (gen1Empty s p a).pending = s.pending := by unfold gen1Empty; split <;> rfl
@[simp] theorem gen1Empty_portS_eq (s : State) (a : Fin 64) : gen1Empty s .portS a = s := rfl
@[simp] theorem getBank_gen1Empty (s : State) (p : Port) (a : Fin 64) (b : Bank) : getBank (gen1Empty s p a) b = getBank s b := by
  cases b <;> simp [getBank]

/-! ### setLamp -/

@[simp] theorem setLamp_now (s : State) (n : Fin 8) (c : Lamp) : (setLamp s n c).now = s.now := rfl
@[simp] theorem setLamp_freeCtr (s : State) (n : Fin 8) (c : Lamp) : (setLamp s n c).freeCtr = s.freeCtr := rfl
@[simp] theorem setLamp_pw (s : State) (n : Fin 8) (c : Lamp) : (setLamp s n c).pw = s.pw := rfl
@[simp] theorem setLamp_clk (s : State) (n : Fin 8) (c : Lamp) : (setLamp s n c).clk = s.clk := rfl
@[simp] theorem setLamp_irqStat (s : State) (n : Fin 8) (c : Lamp) : (setLamp s n c).irqStat = s.irqStat := rfl
@[simp] theorem setLamp_err (s : State) (n : Fin 8) (c : Lamp) : (setLamp s n c).err = s.err := rfl
@[simp] theorem setLamp_portP (s : State) (n : Fin 8) (c : Lamp) : (setLamp s n c).portP = s.portP := rfl
@[simp] theorem setLamp_portS (s : State) (n : Fin 8) (c : Lamp) : (setLamp s n c).portS = s.portS := rfl
@[simp] theorem setLamp_spi (s : State) (n : Fin 8) (c : Lamp) : (setLamp s n c).spi = s.spi := rfl
@[simp] theorem setLamp_roles (s : State) (n : Fin 8) (c : Lamp) : (setLamp s n c).roles = s.roles := rfl
@[simp] theorem setLamp_scratch (s : State) (n : Fin 8) (c : Lamp) : (setLamp s n c).scratch = s.scratch := rfl
@[simp] theorem setLamp_bankA (s : State) (n : Fin 8) (c : Lamp) : (setLamp s n c).bankA = s.bankA := rfl
@[simp] theorem setLamp_bankB (s : State) (n : Fin 8) (c : Lamp) : (setLamp s n c).bankB = s.bankB := rfl
@[simp] theorem setLamp_disp (s : State) (n : Fin 8) (c : Lamp) : (setLamp s n c).disp = s.disp := rfl
@[simp] theorem setLamp_keys (s : State) (n : Fin 8) (c : Lamp) : (setLamp s n c).keys = s.keys := rfl
@[simp] theorem setLamp_batA (s : State) (n : Fin 8) (c : Lamp) : (setLamp s n c).batA = s.batA := rfl
@[simp] theorem setLamp_batB (s : State) (n : Fin 8) (c : Lamp) : (setLamp s n c).batB = s.batB := rfl
@[simp] theorem setLamp_estA (s : State) (n : Fin 8) (c : Lamp) : (setLamp s n c).estA = s.estA := rfl
@[simp] theorem setLamp_estB (s : State) (n : Fin 8) (c : Lamp) : (setLamp s n c).estB = s.estB := rfl
@[simp] theorem setLamp_pack (s : State) (n : Fin 8) (c : Lamp) : (setLamp s n c).pack = s.pack := rfl
@[simp] theorem setLamp_auth (s : State) (n : Fin 8) (c : Lamp) : (setLamp s n c).auth = s.auth := rfl
@[simp] theorem setLamp_nv (s : State) (n : Fin 8) (c : Lamp) : (setLamp s n c).nv = s.nv := rfl
@[simp] theorem setLamp_aon (s : State) (n : Fin 8) (c : Lamp) : (setLamp s n c).aon = s.aon := rfl
@[simp] theorem setLamp_bak (s : State) (n : Fin 8) (c : Lamp) : (setLamp s n c).bak = s.bak := rfl
@[simp] theorem setLamp_arb (s : State) (n : Fin 8) (c : Lamp) : (setLamp s n c).arb = s.arb := rfl
@[simp] theorem setLamp_tap (s : State) (n : Fin 8) (c : Lamp) : (setLamp s n c).tap = s.tap := rfl
@[simp] theorem setLamp_mem (s : State) (n : Fin 8) (c : Lamp) : (setLamp s n c).mem = s.mem := rfl
@[simp] theorem setLamp_pending (s : State) (n : Fin 8) (c : Lamp) : (setLamp s n c).pending = s.pending := rfl
@[simp] theorem getLamp_setLamp (s : State) (n : Fin 8) (c : Lamp) : getLamp (setLamp s n c) n = c := by
  simp [getLamp, setLamp]
theorem getLamp_setLamp_ne (s : State) (n m : Fin 8) (c : Lamp) (h : m ≠ n) :
    getLamp (setLamp s n c) m = getLamp s m := by
  have h' : n.val ≠ m.val := fun e => h (Fin.ext e.symm)
  simp [getLamp, setLamp, h']
@[simp] theorem getLamp_setIrq (s : State) (n : Fin 8) (i : Nat) : getLamp (setIrq s i) n = getLamp s n := rfl

end Sys2Proof.Machine
end

