-- ==== Sys2Proof/Laws/Cellar.lean ====
section
/-! SUPPORT. The laws of the Cellar's list: a byte read after a write, the canonical form under every memory operation,
and what the wider writes leave. -/

namespace Sys2Proof.Machine

open Sys2Proof

/-! ### One byte -/

theorem Cellar.get_above {m : List Host.Cell} {k a : Nat} (h : Cellar.above k m = true) (hw : Cellar.wf m = true)
    (ha : a ≤ k) : Cellar.get m a = Cellar.blank a := by
  induction m generalizing k with
  | nil => rfl
  | cons c m ih =>
    obtain ⟨x, v⟩ := c
    simp only [Cellar.above, decide_eq_true_eq] at h
    simp only [Cellar.wf, Bool.and_eq_true] at hw
    have : x ≠ a := by omega
    simp only [Cellar.get, this, if_false]
    exact ih hw.1.2 hw.2 (by omega)

/-- A read after a write: the byte written at its address, every other byte as before. -/
theorem Cellar.get_set {m : List Host.Cell} (hw : Cellar.wf m = true) (a x : Nat) (v : Byte) :
    Cellar.get (Cellar.set m a v) x = if x = a then v else Cellar.get m x := by
  induction m with
  | nil =>
    unfold Cellar.set
    by_cases h : v = Cellar.blank a
    · rw [if_pos h]
      by_cases hx : x = a
      · subst hx; rw [if_pos rfl, h]; rfl
      · rw [if_neg hx]
    · rw [if_neg h]
      by_cases hx : x = a
      · subst hx; simp [Cellar.get]
      · simp [Cellar.get, hx, Ne.symm hx]
  | cons c m ih =>
    obtain ⟨k, w⟩ := c
    have hw' := hw
    simp only [Cellar.wf, Bool.and_eq_true] at hw
    have ih := ih hw.2
    unfold Cellar.set
    split
    · rename_i h
      have ga : Cellar.get ((k, w) :: m) a = Cellar.blank a :=
        Cellar.get_above (k := a) (by simp [Cellar.above, h]) hw' (by omega)
      split
      · rename_i hv
        by_cases hx : x = a
        · subst hx; rw [if_pos rfl, ga, hv]
        · rw [if_neg hx]
      · by_cases hx : x = a
        · subst hx; simp [Cellar.get]
        · simp [Cellar.get, hx, Ne.symm hx]
    · split
      · rename_i _ h
        subst h
        have gb : Cellar.get m a = Cellar.blank a := Cellar.get_above hw.1.2 hw.2 (by omega)
        split
        · rename_i hv
          by_cases hx : x = a
          · subst hx; rw [if_pos rfl, gb, hv]
          · simp [Cellar.get, hx, Ne.symm hx]
        · by_cases hx : x = a
          · subst hx; simp [Cellar.get]
          · simp [Cellar.get, hx, Ne.symm hx]
      · rename_i h1 h2
        by_cases hk : k = x
        · subst hk; simp [Cellar.get, Ne.symm h2]
        · simp only [Cellar.get, hk, if_false]; exact ih

/-- A write leaves every other byte alone, in any list. -/
theorem Cellar.get_set_ne (m : List Host.Cell) {a x : Nat} (v : Byte) (h : x ≠ a) :
    Cellar.get (Cellar.set m a v) x = Cellar.get m x := by
  induction m with
  | nil => unfold Cellar.set; split <;> simp [Cellar.get, Ne.symm h]
  | cons c m ih =>
    obtain ⟨k, w⟩ := c
    unfold Cellar.set
    split
    · split <;> simp [Cellar.get, Ne.symm h]
    · split
      · rename_i h2
        subst h2
        split <;> simp [Cellar.get, Ne.symm h]
      · by_cases hk : k = x
        · subst hk; simp [Cellar.get]
        · simp only [Cellar.get, hk, if_false]; exact ih

/-- The same for n bytes. -/
theorem Cellar.get_setNat_ne (m : List Host.Cell) {a n x : Nat} (v : Nat) (h : x < a ∨ a + n ≤ x) :
    Cellar.get (Cellar.setNat m a n v) x = Cellar.get m x := by
  induction n generalizing m a v with
  | zero => rfl
  | succ n ih => exact (ih _ _ (by omega)).trans (Cellar.get_set_ne _ _ (by omega))

/-- The same for a word. -/
theorem Cellar.get_setWord_ne (m : List Host.Cell) {a x : Nat} (v : Word) (h : x < a ∨ a + 2 ≤ x) :
    Cellar.get (Cellar.setWord m a v) x = Cellar.get m x :=
  (Cellar.get_set_ne _ _ (by omega)).trans (Cellar.get_set_ne _ _ (by omega))

theorem Cellar.above_mono {m : List Host.Cell} {k j : Nat} (h : Cellar.above k m = true) (hj : j ≤ k) :
    Cellar.above j m = true := by
  cases m with
  | nil => rfl
  | cons d m => simp only [Cellar.above, decide_eq_true_eq] at *; omega

theorem Cellar.above_set {m : List Host.Cell} {k a : Nat} {v : Byte} (hw : Cellar.wf m = true)
    (h : Cellar.above k m = true) (ha : k < a) : Cellar.above k (Cellar.set m a v) = true := by
  cases m with
  | nil => unfold Cellar.set; split <;> simp [Cellar.above, ha]
  | cons c m =>
    obtain ⟨x, w⟩ := c
    unfold Cellar.set
    simp only [Cellar.above, decide_eq_true_eq] at h
    simp only [Cellar.wf, Bool.and_eq_true] at hw
    split
    · split <;> simp [Cellar.above, h, ha]
    · split
      · split
        · exact Cellar.above_mono hw.1.2 (by omega)
        · simp [Cellar.above, ha]
      · simp [Cellar.above, h]

/-- A write keeps the canonical form. -/
theorem Cellar.wf_set {m : List Host.Cell} (hw : Cellar.wf m = true) (a : Nat) (v : Byte) :
    Cellar.wf (Cellar.set m a v) = true := by
  induction m with
  | nil => unfold Cellar.set; split <;> simp_all [Cellar.wf, Cellar.above]
  | cons c m ih =>
    obtain ⟨x, w⟩ := c
    have hw' := hw
    simp only [Cellar.wf, Bool.and_eq_true] at hw
    unfold Cellar.set
    split
    · rename_i h
      split
      · exact hw'
      · simp_all [Cellar.wf, Cellar.above]
    · split
      · rename_i _ h
        subst h
        split
        · exact hw.2
        · simp_all [Cellar.wf]
      · rename_i h1 h2
        have := Cellar.above_set (v := v) hw.2 hw.1.2 (show x < a by omega)
        simp_all [Cellar.wf]

/-! ### Wider writes -/

/-- Byte i of a number. -/
theorem byte_of_div (v i : Nat) : (BitVec.ofNat 8 (v / 256 ^ i) : Byte) = BitVec.ofNat 8 (v / 256 ^ i % 256) := by
  apply BitVec.eq_of_toNat_eq; simp

theorem Cellar.wf_setNat {m : List Host.Cell} (hw : Cellar.wf m = true) (a n v : Nat) :
    Cellar.wf (Cellar.setNat m a n v) = true := by
  induction n generalizing m a v with
  | zero => exact hw
  | succ n ih => exact ih (Cellar.wf_set hw _ _) _ _

theorem Cellar.wf_setWord {m : List Host.Cell} (hw : Cellar.wf m = true) (a : Nat) (v : Word) :
    Cellar.wf (Cellar.setWord m a v) = true := Cellar.wf_set (Cellar.wf_set hw _ _) _ _

/-- A read after a write of n bytes of a number. -/
theorem Cellar.get_setNat {m : List Host.Cell} (hw : Cellar.wf m = true) (a n v x : Nat) :
    Cellar.get (Cellar.setNat m a n v) x =
      if a ≤ x ∧ x < a + n then BitVec.ofNat 8 (v / 256 ^ (x - a)) else Cellar.get m x := by
  induction n generalizing m a v with
  | zero =>
    have : ¬ (a ≤ x ∧ x < a + 0) := by omega
    rw [if_neg this]; rfl
  | succ n ih =>
    show Cellar.get (Cellar.setNat (Cellar.set m a (BitVec.ofNat 8 v)) (a + 1) n (v / 256)) x = _
    rw [ih (Cellar.wf_set hw _ _), Cellar.get_set hw]
    by_cases h : a + 1 ≤ x ∧ x < a + 1 + n
    · have h' : a ≤ x ∧ x < a + (n + 1) := by omega
      rw [if_pos h, if_pos h', Nat.div_div_eq_div_mul]
      have : x - a = (x - (a + 1)) + 1 := by omega
      rw [this, Nat.pow_succ, Nat.mul_comm]
    · rw [if_neg h]
      by_cases e : x = a
      · subst e
        have h' : x ≤ x ∧ x < x + (n + 1) := by omega
        simp
      · have h' : ¬ (a ≤ x ∧ x < a + (n + 1)) := by omega
        rw [if_neg e, if_neg h']

/-- A read after a word write. -/
theorem Cellar.get_setWord {m : List Host.Cell} (hw : Cellar.wf m = true) (a x : Nat) (v : Word) :
    Cellar.get (Cellar.setWord m a v) x =
      if x = a + 1 then hiByte v else if x = a then loByte v else Cellar.get m x := by
  unfold Cellar.setWord
  rw [Cellar.get_set (Cellar.wf_set hw _ _), Cellar.get_set hw]

/-- Two lists that agree on n bytes from a read the same number there. -/
theorem Cellar.getNat_congr {m m' : List Host.Cell} {a n : Nat}
    (h : ∀ x, a ≤ x → x < a + n → Cellar.get m x = Cellar.get m' x) :
    Cellar.getNat m a n = Cellar.getNat m' a n := by
  induction n generalizing a with
  | zero => rfl
  | succ n ih =>
    simp only [Cellar.getNat]
    rw [h a (by omega) (by omega), ih (fun x h1 h2 => h x (by omega) (by omega))]

/-- The number read back from n bytes that hold it. -/
theorem Cellar.getNat_eq {m : List Host.Cell} {a n v : Nat}
    (h : ∀ x, a ≤ x → x < a + n → Cellar.get m x = BitVec.ofNat 8 (v / 256 ^ (x - a))) :
    Cellar.getNat m a n = v % 256 ^ n := by
  induction n generalizing a v with
  | zero => simp [Cellar.getNat, Nat.mod_one]
  | succ n ih =>
    simp only [Cellar.getNat]
    rw [h a (by omega) (by omega), ih (v := v / 256) (fun x h1 h2 => ?_)]
    · simp only [Nat.sub_self, pow_zero, Nat.div_one, BitVec.toNat_ofNat]
      have e : v % 256 ^ (n + 1) = v % 256 + 256 * (v / 256 % 256 ^ n) := by
        rw [show 256 ^ (n + 1) = 256 * 256 ^ n by rw [Nat.pow_succ, Nat.mul_comm]]; exact Nat.mod_mul
      exact e.symm
    · rw [h x (by omega) (by omega), Nat.div_div_eq_div_mul]
      have : x - a = (x - (a + 1)) + 1 := by omega
      rw [this, Nat.pow_succ, Nat.mul_comm]

/-- The number read after the write of another place is as before. -/
theorem Cellar.getNat_setNat_ne {m : List Host.Cell} (hw : Cellar.wf m = true) {a n v b k : Nat}
    (h : b + k ≤ a ∨ a + n ≤ b) : Cellar.getNat (Cellar.setNat m a n v) b k = Cellar.getNat m b k := by
  apply Cellar.getNat_congr
  intro x h1 h2
  rw [Cellar.get_setNat hw, if_neg (by omega)]

/-- The number read after its own write. -/
theorem Cellar.getNat_setNat {m : List Host.Cell} (hw : Cellar.wf m = true) (a n v : Nat) :
    Cellar.getNat (Cellar.setNat m a n v) a n = v % 256 ^ n := by
  apply Cellar.getNat_eq
  intro x h1 h2
  rw [Cellar.get_setNat hw, if_pos ⟨h1, h2⟩]

/-! ### A part of the Cellar that is kept -/

theorem Cellar.above_filter {m : List Host.Cell} (p : Host.Cell → Bool) {k : Nat} (hw : Cellar.wf m = true)
    (h : Cellar.above k m = true) : Cellar.above k (m.filter p) = true := by
  induction m generalizing k with
  | nil => rfl
  | cons c m ih =>
    obtain ⟨x, v⟩ := c
    simp only [Cellar.wf, Bool.and_eq_true] at hw
    by_cases hp : p (x, v) = true
    · rw [List.filter_cons_of_pos hp]; exact h
    · rw [List.filter_cons_of_neg hp]
      simp only [Cellar.above, decide_eq_true_eq] at h
      exact ih hw.2 (Cellar.above_mono hw.1.2 (by omega))

/-- A part of the Cellar's list has its canonical form. -/
theorem Cellar.wf_filter {m : List Host.Cell} (p : Host.Cell → Bool) (hw : Cellar.wf m = true) :
    Cellar.wf (m.filter p) = true := by
  induction m with
  | nil => rfl
  | cons c m ih =>
    obtain ⟨x, v⟩ := c
    have hw' := hw
    simp only [Cellar.wf, Bool.and_eq_true] at hw
    by_cases hp : p (x, v) = true
    · rw [List.filter_cons_of_pos hp]
      simp only [Cellar.wf, Bool.and_eq_true]
      exact ⟨⟨hw.1.1, Cellar.above_filter p hw.2 hw.1.2⟩, ih hw.2⟩
    · rw [List.filter_cons_of_neg hp]; exact ih hw.2

/-- Of a part by addresses, the bytes at those addresses read as before and every other byte as its fill. -/
theorem Cellar.get_filter (m : List Host.Cell) (p : Nat → Bool) (a : Nat) :
    Cellar.get (m.filter (fun c => p c.1)) a = if p a then Cellar.get m a else Cellar.blank a := by
  induction m with
  | nil => simp [Cellar.get]
  | cons c m ih =>
    obtain ⟨x, v⟩ := c
    by_cases hp : p x = true
    · rw [List.filter_cons_of_pos (by simpa using hp)]
      by_cases hx : x = a
      · subst hx; simp [Cellar.get, hp]
      · simp only [Cellar.get, hx, if_false]; exact ih
    · rw [List.filter_cons_of_neg (by simpa using hp), ih]
      by_cases hx : x = a
      · subst hx; simp [hp]
      · simp [Cellar.get, hx]

end Sys2Proof.Machine
end

