-- ==== Sys2Proof/Laws/Ops.lean ====
section
/-! SUPPORT. What each shared operation can do, said once: the gates of the register rows, grants, ECC reads and writes,
upsets, the lamps' settling, wake latches. An equation `op s = { s with … }` names every field that the operation can
change. -/

namespace Sys2Proof.Machine

open Sys2Proof

/-! ### The gates -/

/-- A write that reaches its register's rule is that rule, run on the word formed. -/
theorem gate_reach {s : State} {p : Port} {a : Fin 64} {v w : Word} {body : State → Word → State}
    (h : reachesRule s p a v w) : gate s p a v body = body (gen1Empty s p a) w := by
  obtain ⟨h1, h2, h3, h4, h5⟩ := h
  unfold gate
  have h6 : ¬ 0x68 ≤ offOf a := by omega
  rw [if_neg (by simp [h1]), if_neg (by simp [h2]), if_neg h6, h4]
  have h7 : ¬ ((gen1Empty s p a).pw.mode = .corkEntry ∧ offOf a ≠ 0x16) := by
    rw [gen1Empty_pw]; exact fun e => e.2 (h5 e.1)
  simp only [h7, if_false]

/-- A read that reaches the register file is the register's own rule. -/
theorem readGate_read {s : State} {p : Port} {a : Fin 64} {body : State → Word × State} (h : readable s p) :
    readGate s p a body = readDone (body s).2 p a (body s).1 := by
  unfold readGate
  rw [if_neg (by simp [h.1]), if_neg (by simp [h.2])]

/-- A finished read changes its port alone. -/
theorem readDone_frame (s : State) (p : Port) (a : Fin 64) (v : Word) :
    readDone s p a v = setPort s p (getPort (readDone s p a v) p) := by
  cases p with
  | portP => unfold readDone; dsimp only; split <;> rfl
  | portS => rfl

/-- What a finished read returns: the value, of which Port P in Gen1 returns the low byte alone (R102). -/
theorem readDone_rdata (s : State) (p : Port) (a : Fin 64) (v : Word) :
    (getPort (readDone s p a v) p).rdata = if p = .portP ∧ s.pw.gen = .gen1 then (loByte v).zeroExtend 16 else v := by
  cases p with
  | portP => unfold readDone; dsimp only; split <;> rfl
  | portS => rfl

/-- A register write with nothing beside it is the register's own rule. -/
theorem registerWrite_alone (s : State) (p : Port) (a : Fin 64) (v : Word) :
    exec (.registerWrite p a v .alone) s = .next (regWrite s p a v) := by
  show Host.Outcome.next (writeBeside s p a v .alone) = _
  simp [writeBeside, Beside.alone]

/-! ### Grants and ECC -/

theorem grantLow_frame (s : State) (l n : Nat) : grantLow s l n = { s with arb := (grantLow s l n).arb } := rfl

/-- The end of work of many bursts changes the arbiter alone, and leaves the shares and the yields where all its bursts
have been granted ahead. -/
theorem grantRest_frame (s : State) (l n : Nat) : grantRest s l n = { s with arb := (grantRest s l n).arb } := by
  unfold grantRest; dsimp only; split <;> rfl

theorem grantRest_paid {s : State} {l n : Nat} (h : n ≤ vget s.arb.paid (l - 2)) :
    grantRest s l n =
      { s with arb := { s.arb with paid := vset s.arb.paid (l - 2) (vget s.arb.paid (l - 2) - n) } } := by
  unfold grantRest; dsimp only; rw [if_neg (by omega)]

theorem grantWork_frame (s : State) (l n : Nat) (first : Bool) :
    grantWork s l n first = { s with arb := (grantWork s l n first).arb } := by
  cases first
  · rfl
  · exact grantRest_frame s l n

/-- The bursts that go before a request change the arbiter's shares and yields alone. -/
theorem burstsFirst_frame (own : Grant) (n : Nat) (s : State) :
    burstsFirst own n s = { s with arb := (burstsFirst own n s).arb } := by
  induction n generalizing s with
  | zero => rfl
  | succ n ih =>
    have step (t : State) (ht : t = { s with arb := t.arb }) :
        burstsFirst own n t = { s with arb := (burstsFirst own n t).arb } := by
      have h := ih t
      generalize burstsFirst own n t = u at h ⊢
      rw [h, ht]
    rw [burstsFirst]
    split
    · split
      · exact step _ rfl
      · rfl
    · rfl

/-- To be granted changes the arbiter's shares and yields alone. -/
theorem arbServe_frame {s t : State} {own : Grant} (h : arbServe s own = some t) : t = { s with arb := t.arb } := by
  unfold arbServe at h; dsimp only at h
  split at h
  · cases h; exact burstsFirst_frame own 32 s
  · cases h

/-- A row whose request is granted acts on the state in which it is; one that is not changes nothing. -/
theorem granted_of {s t : State} {own : Grant} {act : State → State} (h : arbServe s own = some t) :
    granted s own act = act t := by unfold granted; rw [h]

theorem granted_not {s : State} {own : Grant} {act : State → State} (h : arbServe s own = none) :
    granted s own act = s := by unfold granted; rw [h]


theorem grantL1_frame (s : State) (p : Port) : grantL1 s p = { s with arb := (grantL1 s p).arb } := by cases p <;> rfl

theorem detectUe_frame (s : State) (w : Nat) : detectUe s w =
    { s with arb := (detectUe s w).arb, err := (detectUe s w).err, irqStat := (detectUe s w).irqStat } := by
  unfold detectUe; dsimp only; split <;> rfl

/-- A read of an ECC word can note a corrected or an uncorrectable error; it changes nothing else. -/
theorem eccRead_frame (s : State) (w : Nat) : eccRead s w =
    { s with arb := (eccRead s w).arb, err := (eccRead s w).err, irqStat := (eccRead s w).irqStat } := by
  unfold eccRead
  split
  · rfl
  · rfl
  · exact detectUe_frame s w

theorem eccReadN_frame (s : State) (w n : Nat) : eccReadN s w n =
    { s with arb := (eccReadN s w n).arb, err := (eccReadN s w n).err, irqStat := (eccReadN s w n).irqStat } := by
  induction n generalizing s w with
  | zero => rfl
  | succ n ih => rw [eccReadN, ih, eccRead_frame]

/-- In a Cellar without errors a read notes nothing. -/
theorem eccRead_clean {s : State} (h : s.arb.ecc = []) (w : Nat) : eccRead s w = s := by
  simp [eccRead, eccAt, h]

theorem eccReadN_clean {s : State} (h : s.arb.ecc = []) (w n : Nat) : eccReadN s w n = s := by
  induction n generalizing w with
  | zero => rfl
  | succ n ih => rw [eccReadN, eccRead_clean h, ih]

theorem eccBad_clean {s : State} (h : s.arb.ecc = []) (w : Nat) : eccBad s w = false := by simp [eccBad, eccAt, h]

theorem eccBadN_clean {s : State} (h : s.arb.ecc = []) (w n : Nat) : eccBadN s w n = false := by
  induction n generalizing w with
  | zero => rfl
  | succ n ih => simp [eccBadN, eccBad_clean h, ih]

theorem eccWritten_clean {s : State} (h : s.arb.ecc = []) (w : Nat) : (eccWritten s w).arb.ecc = [] := by
  simp [eccWritten, h]

theorem upset_frame (s : State) (u : Upset) : upset s u = { s with arb := (upset s u).arb, mem := (upset s u).mem } := by
  cases u with
  | single w => unfold upset; dsimp only; split <;> rfl
  | double w d => rfl

/-- Upsets change the memory and what the ECC words hold, nothing else. -/
theorem upsets_frame (s : State) (l : List Upset) :
    upsets s l = { s with arb := (upsets s l).arb, mem := (upsets s l).mem } := by
  induction l generalizing s with
  | nil => rfl
  | cons u l ih =>
    show upsets (upset s u) l = { s with arb := (upsets (upset s u) l).arb, mem := (upsets (upset s u) l).mem }
    have h := ih (upset s u)
    generalize upsets (upset s u) l = t at h ⊢
    rw [h, upset_frame]

theorem upset_wf {s : State} (h : Cellar.wf s.mem = true) (u : Upset) : Cellar.wf (upset s u).mem = true := by
  cases u with
  | single w => unfold upset; dsimp only; split <;> exact h
  | double w d => unfold upset; dsimp only; split <;> first | exact h | exact Cellar.wf_setNat h _ _ _

theorem upsets_wf {s : State} (h : Cellar.wf s.mem = true) (l : List Upset) : Cellar.wf (upsets s l).mem = true := by
  induction l generalizing s with
  | nil => exact h
  | cons u l ih => exact ih (upset_wf h u)

/-- A store of one word: the bytes of the word, and the bookkeeping of the read it makes. -/
theorem storeWord_frame (s : State) (a : Nat) (v : Word) : storeWord s a v =
    { s with arb := (storeWord s a v).arb, err := (storeWord s a v).err, irqStat := (storeWord s a v).irqStat,
             mem := Cellar.setWord s.mem a v } := by
  have h := eccRead_frame s (eccWord a)
  simp only [storeWord, eccWritten]
  generalize eccRead s (eccWord a) = t at h ⊢
  rw [h]

theorem storeEcc_frame (s : State) (w n v : Nat) :
    storeEcc s w n v = { s with arb := (storeEcc s w n v).arb, mem := (storeEcc s w n v).mem } := by
  induction n generalizing s w v with
  | zero => rfl
  | succ n ih =>
    have h := ih { eccWritten s w with mem := Cellar.setNat s.mem w 8 v } (w + 8) (v / 2 ^ 64)
    rw [show storeEcc s w (n + 1) v = storeEcc { eccWritten s w with mem := Cellar.setNat s.mem w 8 v } (w + 8) n
      (v / 2 ^ 64) from rfl]
    generalize storeEcc _ (w + 8) n (v / 2 ^ 64) = t at h ⊢
    rw [h]; rfl

theorem storeEcc_wf {s : State} (h : Cellar.wf s.mem = true) (w n v : Nat) :
    Cellar.wf (storeEcc s w n v).mem = true := by
  induction n generalizing s w v with
  | zero => exact h
  | succ n ih => exact ih (Cellar.wf_setNat h _ _ _) _ _

/-- The bytes after a device write of n whole ECC words. -/
theorem storeEcc_get {s : State} (h : Cellar.wf s.mem = true) (w n v x : Nat) :
    Cellar.get (storeEcc s w n v).mem x =
      if w ≤ x ∧ x < w + 8 * n then BitVec.ofNat 8 (v / 256 ^ (x - w)) else Cellar.get s.mem x := by
  induction n generalizing s w v with
  | zero => rw [if_neg (by omega)]; rfl
  | succ n ih =>
    show Cellar.get (storeEcc { eccWritten s w with mem := Cellar.setNat s.mem w 8 v } (w + 8) n (v / 2 ^ 64)).mem x = _
    rw [ih (Cellar.wf_setNat h _ _ _)]
    by_cases h1 : w + 8 ≤ x ∧ x < w + 8 + 8 * n
    · rw [if_pos h1, if_pos (by omega)]
      have e : (256 : Nat) ^ (x - w) = 2 ^ 64 * 256 ^ (x - (w + 8)) := by
        rw [show x - w = 8 + (x - (w + 8)) by omega, Nat.pow_add]; rfl
      rw [e, Nat.div_div_eq_div_mul]
    · rw [if_neg h1]
      show Cellar.get (Cellar.setNat s.mem w 8 v) x = _
      rw [Cellar.get_setNat h]
      by_cases h2 : w ≤ x ∧ x < w + 8
      · rw [if_pos h2, if_pos (by omega)]
      · rw [if_neg h2, if_neg (by omega)]

/-! ### Lamps -/

theorem followReq_frame (s : State) (n : Fin 8) : followReq s n = { s with lamps := (followReq s n).lamps } := by
  unfold followReq; split <;> rfl

theorem followAll_frame (l : List (Fin 8)) (s : State) :
    l.foldl followReq s = { s with lamps := (l.foldl followReq s).lamps } := by
  induction l generalizing s with
  | nil => rfl
  | cons n l ih => simp only [List.foldl]; rw [ih, followReq_frame]

theorem flasherFollow_frame (s : State) : flasherFollow s = { s with lamps := (flasherFollow s).lamps } := by
  unfold flasherFollow; dsimp only; split_ifs <;> rfl

/-- Settling the lamps changes the lamp block alone. -/
theorem lampsSettle_frame (s : State) : lampsSettle s = { s with lamps := (lampsSettle s).lamps } := by
  unfold lampsSettle; rw [followAll_frame, flasherFollow_frame]

theorem latchCause_frame (s : State) (n : Fin 8) (i : Nat) : latchCause s n i =
    { s with lamps := (latchCause s n i).lamps, irqStat := (latchCause s n i).irqStat } := by
  unfold latchCause; dsimp only; split <;> rfl

theorem setLamp_frame (s : State) (n : Fin 8) (c : Lamp) : setLamp s n c = { s with lamps := (setLamp s n c).lamps } := rfl

theorem switchOn_frame (s : State) (n : Fin 8) : switchOn s n = { s with lamps := (switchOn s n).lamps } := rfl

/-- A retry changes the lamps alone. -/
theorem tryRetry_frame (s : State) (n : Fin 8) : tryRetry s n = { s with lamps := (tryRetry s n).lamps } := by
  have fold : ∀ (l : List (Fin 8)) (t : State), l.foldl (fun s m =>
      if (getLamp s m).mode = .wait ∧ ((getLamp s m).retryRdy ∨ retryTimeOver s (getLamp s m)) ∧ !budgetHolds s m then
        switchOn (setLamp s m { getLamp s m with rleft := (getLamp s m).rleft - 1 }) m
      else s) t = { t with lamps := (l.foldl (fun s m =>
      if (getLamp s m).mode = .wait ∧ ((getLamp s m).retryRdy ∨ retryTimeOver s (getLamp s m)) ∧ !budgetHolds s m then
        switchOn (setLamp s m { getLamp s m with rleft := (getLamp s m).rleft - 1 }) m
      else s) t).lamps } := by
    intro l
    induction l with
    | nil => intro t; rfl
    | cons m l ih =>
      intro t
      simp only [List.foldl_cons]
      split
      · exact (ih _).trans rfl
      · exact ih t
  unfold tryRetry
  dsimp only
  split
  · split
    · rfl
    · exact fold _ _
  · rfl

/-- R497, R385: the lamp policy changes the lamps alone. -/
theorem lampPolicy_frame (s : State) (a : List Word) : lampPolicy s a = { s with lamps := (lampPolicy s a).lamps } := by
  have fold : ∀ (l : List (Fin 8)) (t : State), l.foldl (fun s n => if claimed s n then tryRetry s n else s) t =
      { t with lamps := (l.foldl (fun s n => if claimed s n then tryRetry s n else s) t).lamps } := by
    intro l
    induction l with
    | nil => intro t; rfl
    | cons n l ih =>
      intro t
      simp only [List.foldl_cons]
      split
      · refine (ih _).trans ?_
        generalize (List.foldl _ (tryRetry t n) l).lamps = z
        rw [tryRetry_frame]
      · exact ih t
  unfold lampPolicy
  refine (fold _ _).trans ?_
  generalize State.lamps (List.foldl _ _ _) = z
  rw [lampsSettle_frame]

/-- R373, R374: a tell-tale channel is never held back by its cluster's budget. -/
theorem budgetHolds_of_claimed {s : State} {n : Fin 8} (h : claimed s n = true) : budgetHolds s n = false := by
  simp [budgetHolds, h]

/-- R381: a derated half conducts no longer in a period than its cap allows. -/
theorem onTime_le_cap {s : State} {n : Fin 8} (h : (getLamp s n).gangDer = true) :
    onTime s n ≤ (periodInForce s n * (getLamp s n).gangCap / 1000 : Nat) := by
  simp only [onTime, h, if_true]; exact min_le_right _ _

/-- R511: following changes the backup domain alone. -/
theorem backupFollow_frame (s : State) : backupFollow s = { s with bak := (backupFollow s).bak } := by
  unfold backupFollow; split <;> rfl

/-! ### Batteries and the ledger over a warm boot -/

/-- R449: keeping a model for the update in progress changes channel A alone. -/
theorem modelHeld_frame (s : State) (a : Nat) : modelHeld s a = { s with batA := (modelHeld s a).batA } := by
  unfold modelHeld; split <;> rfl

/-- R411: a window write into a model block changes the batteries alone. -/
theorem modelTouched_frame (s : State) (a : Nat) :
    modelTouched s a = { s with batA := (modelTouched s a).batA, batB := (modelTouched s a).batB } := by
  unfold modelTouched
  split
  · rfl
  · split <;> rfl

/-! ### Wake latches -/

theorem latchWake_frame (s : State) (i : Nat) : latchWake s i =
    { s with aon := { s.aon with latch := s.aon.latch ||| BitVec.ofNat 8 (2 ^ i) }, irqStat := (latchWake s i).irqStat } := by
  unfold latchWake; dsimp only; split <;> rfl

theorem startWake_frame (s : State) : startWake s = { s with pw := (startWake s).pw } := by
  unfold startWake; split <;> rfl

theorem declareMiss_frame (s : State) : declareMiss s =
    { s with roles := (declareMiss s).roles, irqStat := (declareMiss s).irqStat, lamps := (declareMiss s).lamps } := by
  unfold declareMiss
  have h := lampsSettle_frame (setIrq { s with roles := { s.roles with
    fallbk := true, hbMissed := true, fbEnding := false, fbBeat := none } } irqHB)
  generalize lampsSettle _ = t at h ⊢
  rw [h]; rfl

theorem abandonSleep_frame (s : State) : abandonSleep s =
    { s with pw := { s.pw with trans := .idle }, roles := (abandonSleep s).roles, irqStat := (abandonSleep s).irqStat,
             lamps := (abandonSleep s).lamps } := by
  unfold abandonSleep
  dsimp only
  split
  · have h := declareMiss_frame (setIrq { s with pw := { s.pw with trans := .idle } } irqWAKE)
    generalize declareMiss _ = t at h ⊢
    rw [h]; rfl
  · rfl

/-- A wake event changes the transition, and where it ends a SLEEP entry what that ends. -/
theorem wakeEvent_frame (s : State) (i : Nat) : wakeEvent s i =
    { s with pw := (wakeEvent s i).pw, roles := (wakeEvent s i).roles, irqStat := (wakeEvent s i).irqStat,
             lamps := (wakeEvent s i).lamps } := by
  unfold wakeEvent
  split
  · split
    · have h := abandonSleep_frame s
      generalize abandonSleep s = t at h ⊢
      rw [h]
    · have h := startWake_frame s
      generalize startWake s = t at h ⊢
      rw [h]
  · rfl

end Sys2Proof.Machine
end

