-- ==== Sys2Proof/WellFormed.lean ====
section
/-! DEFINITION. Which terms are commands the board can present: an upset lies in the 1 MiB Cellar on an 8-byte ECC word
(R218), a thermistor ratio is at most 1 (R396), a bank has at most one frame boundary in a cycle (R208), and the row that
clears the error record writes OVR (R175). `exec` gives every term a meaning, well-formed or not. -/

namespace Sys2Proof

/-- An upset names the byte address of an ECC word of the Cellar (R218). -/
def Upset.wellFormed : Upset → Bool
  | .single w => decide (w < 0x100000 ∧ w % 8 = 0)
  | .double w _ => decide (w < 0x100000 ∧ w % 8 = 0)

/-- Every upset of a list is well formed. -/
def wfUpsets (l : List Upset) : Bool := l.all Upset.wellFormed

/-- A conversion's thermistor ratio x = V(BAT) / V(BAREF) is at most 1 (R396), in units of 2⁻²⁴. -/
def Sample.wellFormed (m : Sample) : Bool := decide (m.x ≤ 2 ^ 24)

/-- What a register write names beside it: upsets of ECC words, and at most one frame boundary of a bank (R208). -/
def Beside.wellFormed (w : Beside) : Bool :=
  wfUpsets (w.leaves.getD []) && decide (w.boundaries.map edgeBank).Nodup

/-- The commands the board, the ports and the units can present. DESIGN CHOICE (log 52). -/
def Instr.WellFormed : Instr → Bool
  | .conversion m => m.wellFormed
  | .prefetchLoadDone _ u | .bufferEntryLeave _ u | .slotBoundary _ u | .bookingPassEnd _ u => wfUpsets u
  | .animEnd _ u | .animCopy _ u | .animFill _ u | .animWait _ u | .animLoop _ u | .animSync _ u => wfUpsets u
  | .animBar _ u | .animJump _ u | .modelValidationDone _ u | .estimatorUpdate _ u | .tagWordEffect _ u => wfUpsets u
  | .scrubBurst u | .scrubWriteback u => wfUpsets u
  | .registerWrite _ _ _ w => w.wellFormed
  | .errstatClear _ v => v.getLsbD 15
  | _ => true

end Sys2Proof
end

