-- ==== Sys2Proof/Tests/Slice0.lean ====
section
/-! SUPPORT. Tests of the model: ill-formed terms, small cases whose expected values come from the spec's bench notes and
tables, and for every statement with hypotheses a witness that meets them, one for each of its clauses. -/

open Sys2Proof Sys2Proof.Machine

/-! ### The states of the witnesses -/

/-- A state of RUN, as reset but for the mode. -/
def wRun : State := { State.reset with pw := { State.reset.pw with mode := .run } }
/-- Changes of one part of a state. -/
def onPw (f : Power → Power) (s : State) : State := { s with pw := f s.pw }
def onClk (f : Clock → Clock) (s : State) : State := { s with clk := f s.clk }
def onP (f : PortSt → PortSt) (s : State) : State := { s with portP := f s.portP }
def onS (f : PortSt → PortSt) (s : State) : State := { s with portS := f s.portS }
def onA (f : BankSt → BankSt) (s : State) : State := { s with bankA := f s.bankA }
def onDrv (f : Drive → Drive) (s : State) : State := { s with bankA := { s.bankA with drv := f s.bankA.drv } }
def onThr (f : Thread → Thread) (s : State) : State := { s with bankA := { s.bankA with thr := f s.bankA.thr } }
def onKeys (f : Keys → Keys) (s : State) : State := { s with keys := f s.keys }
def onLamps (f : Lamps → Lamps) (s : State) : State := { s with lamps := f s.lamps }
def onAuth (f : Auth → Auth) (s : State) : State := { s with auth := f s.auth }
def onAon (f : Aon → Aon) (s : State) : State := { s with aon := f s.aon }
def onRoles (f : Roles → Roles) (s : State) : State := { s with roles := f s.roles }
def onBatA (f : BatA → BatA) (s : State) : State := { s with batA := f s.batA }
def onBatB (f : BatB → BatB) (s : State) : State := { s with batB := f s.batB }
def onPack (f : Pack → Pack) (s : State) : State := { s with pack := f s.pack }
def onArb (f : Arb → Arb) (s : State) : State := { s with arb := f s.arb }
/-- A bank A in a sequence state. -/
def wSta (x : Sta) : State := onDrv (fun d => { d with sta := x, req := true, vgood := true }) wRun
def wBoot : State := onPw (fun p => { p with mode := .boot, face := .bootFace, bstep := 2 })
  (onClk (fun c => { c with rootOk := false, released := false, pllLock := false, attempting := true }) State.reset)
def wSleep : State := onPw (fun p => { p with mode := .sleep, face := .bootFace }) State.reset
def wOff : State := onPw (fun p => { p with mode := .off, face := .dead }) State.reset
def wGen1 : State := onPw (fun p => { p with gen := .gen1 }) State.reset
def wGen3 : State := onPw (fun p => { p with gen := .gen3 }) State.reset
/-- A strap read alike at its three samples. -/
def lvl (b : Bool) : Samples := ⟨b, b, b⟩
/-- A page word with a value. -/
def wPage (a : Nat) (v : Word) (s : State) : State := { s with mem := Cellar.setWord s.mem a v }
/-- Bank A's thread running at PC 0 with the instruction w there. -/
def wAnim (w : Nat) : State := onThr (fun t => { t with stat := 1, pc := 0 })
  { wRun with mem := Cellar.setNat wRun.mem (animAddr 0) 8 w }
/-- Bits at their places. -/
def at2 (l : List (Nat × Nat)) : Nat := (l.map (fun x => x.2 * 2 ^ x.1)).sum
/-- A lamp channel 0 (bank of helper edits). -/
def onLamp (n : Fin 8) (f : Lamp → Lamp) (s : State) : State := setLamp s n (f (getLamp s n))
/-- In Expert mode. -/
def wExp : State := onPw (fun p => { p with expert := true }) wRun
/-- A lamp of the given mode, conducting. -/
def wLamp (m : LampMode) : State := { onLamp 2 (fun l => { l with mode := m, conducting := true, duty := 500, runI := 10 }) wRun with
  lamps := { (onLamp 2 (fun l => { l with mode := m, conducting := true, duty := 500, runI := 10 }) wRun).lamps with lctl := 0x0404 } }
/-- Cluster 0's budget is low, and channel 2 alone has tell-tale priority. -/
def wBudget (s : State) : State :=
  onLamps (fun l => { l with ttClaim := 0x04, cl := Vector.replicate 2 { l.cl[0] with b := 0, eMax := 100 } }) s
/-- A command whose counter write is done. -/
def wAcc (c : AuthCmd) (args : List Word) : State :=
  onAuth (fun a => { a with accepted := some ⟨c, .portS, 0x0001, 5, args, true⟩, claim := some .portS }) wRun
/-- Port S's buffer holds a tag word. -/
def wTag (v : Word) (s : State) : State := onS (fun x => { x with buf := [.atag v] }) s
/-- The key of the tests, in the Supervisor's slot. -/
def wKey : BitVec 128 := 0x0F1E2D3C4B5A69788796A5B4C3D2E1F0
/-- The message of a CFG_LOCK command with counter n. -/
def wMsg (n : BitVec 32) : AuthMsg := ⟨0xA106, n, cmdLen .cfgLock, [], false⟩
/-- Port S has sent three tag words under the message; its buffer holds the fourth. -/
def wTag3 (tag : List Word) (v : Word) (n : BitVec 32) : State :=
  wTag v { onAuth (fun a => { a with tag := tag, msg := some (wMsg n), claim := some .portS }) State.reset with
    nv := { State.reset.nv with kSup := .key wKey 1 } }
/-- A tag that is complete and whose verification runs. -/
def wVer (tag : List Word) (n : BitVec 32) (e : Option Byte) : State :=
  onAuth (fun a => { a with verify := some ⟨.portS, e⟩ }) { (wTag3 tag 0 n) with portS := State.reset.portS }
/-- The right tag. -/
def wGood (n : BitVec 32) : List Word := tagWords wKey (messageBytes State.reset.nv.uid (wMsg n))
/-- The TAP opened. -/
def wTap : State := onAuth (fun a => { a with dbgBs := true }) wRun
/-- A tag that differs from the right one in its last word. -/
theorem wBad_ne (n : BitVec 32) : wGood n ≠ (wGood n).take 3 ++ [(wGood n).getD 3 0 + 1] := by
  intro h
  have h2 := congrArg (fun l => l.getD 3 0) h
  have h3 : ((wGood n).take 3 ++ [(wGood n).getD 3 0 + 1]).getD 3 0 = (wGood n).getD 3 0 + 1 := rfl
  simp only [h3] at h2
  simp at h2
/-- A write that is waiting. -/
def wRtc : State := { State.reset with pending := [.rtcAlmWrite .portP 5] }

/-! ### Ill-formed terms are refused by the check (WellFormed) -/

theorem test_conversion_ratio_above_one_is_ill_formed :
    Instr.WellFormed (.conversion ⟨0, 0, 2 ^ 24 + 1, 0, 0, 0⟩) = false := by decide
theorem test_conversion_ratio_one_is_well_formed :
    Instr.WellFormed (.conversion ⟨0, 0, 2 ^ 24, 0, 0, 0⟩) = true := by decide
theorem test_upset_outside_the_cellar_is_ill_formed :
    Instr.WellFormed (.scrubBurst [.single 0x100000]) = false := by decide
theorem test_upset_off_its_word_is_ill_formed :
    Instr.WellFormed (.bufferEntryLeave .portP [.double 0x10004 0]) = false := by decide
theorem test_upset_in_the_last_word_is_well_formed :
    Instr.WellFormed (.estimatorUpdate .chA [.double 0xFFFF8 0]) = true := by decide
theorem test_errstat_clear_without_OVR_is_ill_formed : Instr.WellFormed (.errstatClear .portP 0x7FFF) = false := by decide
theorem test_two_boundaries_of_one_bank_are_ill_formed :
    Instr.WellFormed (.registerWrite .portP 0x33 0 { Beside.alone with boundaries := [.frame .bankA, .flush .bankA] }) = false :=
  by decide
theorem test_boundaries_of_both_banks_are_well_formed :
    Instr.WellFormed (.registerWrite .portP 0x33 0 { Beside.alone with boundaries := [.frame .bankA, .flush .bankB] }) = true :=
  by decide

/-! ### The queue, and the rows without bits -/

theorem test_step_runs_the_oldest_command :
    step { State.reset with pending := [.registerWrite .portP 0x33 0x1234 .alone, .kevtRead .portP] } =
      .next { State.reset with scratch := 0x1234, pending := [.kevtRead .portP] } := rfl
theorem test_no_row_has_bits : decodeTableWord 16 0 = none := by decide

/-! ### Ports (bench note of 05: a Supervisor's frames) -/

/-- The bits of a Port S frame, first bit first. -/
def frame32 (n : Nat) : List Bool := natBits 32 n

set_option maxRecDepth 20000 in
theorem test_crc_of_the_bench_frames :
    crc8 (natBits 24 0x040000) = 0x08 ∧ crc8 (natBits 24 0x905A80) = 0x6C := by decide
set_option maxRecDepth 20000 in
theorem test_sysstat_response : spiOut (portSFrame wRun (frame32 0x04000008)) = 0x02000237 := by decide
set_option maxRecDepth 20000 in
theorem test_heartbeat_frame_is_answered_with_its_word :
    (portSFrame wRun (frame32 0x905A806C)).spi = .answer 0 8 0x5A80 ∧
      (portSFrame wRun (frame32 0x905A806C)).roles.hbNext = true := by decide
set_option maxRecDepth 20000 in
theorem test_frame_with_a_wrong_crc_is_FRAME :
    (portSFrame wRun (frame32 0x905A806D)).spi = .answer 1 8 0 ∧
      (portSFrame wRun (frame32 0x905A806D)).roles.hbNext = false := by decide

/-! ### Drive and ledger (bench notes of 08, 09 and 11) -/

/-- The table of Table DRV-7. -/
def e2Table : State := wPage 0xC048 0xE6DA (wPage 0xC04A 0x00F3 (wPage 0xC04C 0x0D06 (wPage 0xC04E 0x1A13 wRun)))

theorem test_compensation_at_minus_30 : tcValue (tcEntry e2Table .bankB) (-300) = -32 := by decide
theorem test_compensation_at_the_ends :
    tcValue (tcEntry e2Table .bankB) (-400) = -38 ∧ tcValue (tcEntry e2Table .bankB) 1000 = 26 := by decide
theorem test_slots_of_the_bench_frame : (List.range 16).all (fun k => slotLen 15360 16 k == 960) = true := by decide
theorem test_accumulator_of_pixel_5_40 : accAddr .bankB 5 40 = 0xAAA0 ∧ accAddr .bankB 0 40 = 0xA0A0 := by decide
theorem test_accumulator_word_of_the_bench : accOf 0x20FFFA00 = -1536 := by decide
theorem test_pixel_units_at_a_fifth_bias :
    driveUnits ⟨5, false, 0x20, true, 960, 0, 0, 0, 15360, 16, 16, (BankSt.ready).drv.bias⟩ 5 5 = 60 ∧
      driveUnits ⟨5, true, 0x20, true, 960, 0, 0, 0, 15360, 16, 16, (BankSt.ready).drv.bias⟩ 5 6 = -36 := by decide

/-! ### Layers and keys (bench notes of 10 and 11) -/

theorem test_bar_of_the_bench_has_five_entries : barK 1 10 4321 0 10000 = 5 := by decide
theorem test_bar_rounded_down_has_four : barK 0 10 4321 0 10000 = 4 := by decide
theorem test_key_event_of_the_bench : keyEvent 1 2 1 0x125 = 0x2911 := by decide
theorem test_third_equal_sample_changes_the_key :
    debounce false true 1 3 = (2, false) ∧ debounce false true 2 3 = (0, true) := by decide
theorem test_kctl_of_the_bench :
    (Keys.ready.reg.kslot, Keys.ready.reg.deb, Keys.ready.reg.lines, Keys.ready.reg.kins) = (1, 3, 15, 7) := by decide

/-! ### Battery and state of charge (bench notes of 13 and 14) -/

theorem test_pack_voltage_of_the_bench :
    scaleV (wPage 0xD400 0x3000 wRun) ⟨1085500000, 0, 0, 0, 0, 0⟩ = 5210400 := by decide
theorem test_report_falls_with_the_ratio : report 1 500000 400000 300000 = 375000 := by decide
theorem test_report_holds_at_rest : report 0 500000 400000 390000 = 500000 := by decide
theorem test_report_reaches_zero_with_the_count : report 1 250000 200000 0 = 0 := by decide

/-! ### Authenticated commands (bench note of 16) -/

theorem test_message_of_the_bench_restore :
    messageBytes 0x5E11004200071234 ⟨0xA103, 7, 12, [0x02, 0x52, 0x03, 0x00, 0xB6, 0x1C, 0x20, 0x1C, 0xF1, 0xFF, 0x58, 0x02],
      false⟩ = [0x5E, 0x11, 0x00, 0x42, 0x00, 0x07, 0x12, 0x34, 0xA1, 0x03, 0x00, 0x00, 0x00, 0x07, 0x00, 0x0C,
        0x02, 0x52, 0x03, 0x00, 0xB6, 0x1C, 0x20, 0x1C, 0xF1, 0xFF, 0x58, 0x02] := by decide
theorem test_restore_B_has_twelve_bytes : cmdLen .restoreB = 12 := by decide

/-! ### The crack loop (bench note of 17) and the island -/

/-- Bank A's loop with a learned base of 120 and a trend just below the limit. -/
def wCrack : State := onDrv (fun d => { d with fcnt := 1 }) (onA (fun x => { x with crack := { x.crack with
  sta := 2, base := 120, learned := 16, openRun := 1 } }) { wSta .content with disp := { wRun.disp with crackPol := 1 } })

theorem test_second_open_reading_is_status_4 :
    (crackMeasure wCrack .bankA 6001).bankA.crack.sta = 4 := by decide
theorem test_rtc_wraps : ∃ t, exec .rtcSecond (onAon (fun a => { a with sec := 0xFFFFFFFF }) wRun) = .next t ∧
    t.aon.sec = 0 := ⟨_, rfl, by decide⟩

/-- Table PKG-4, rows J and N. -/
theorem test_balls_of_the_centre_rows :
    [ballAt 8 9, ballAt 8 14, ballAt 8 17, ballAt 12 10] = [.vadj .bankA, .xin, .bav, .crk .bankB false] := by decide

/-- R381: at 1875 mA a derated half conducts 1228 of 3072 CK_LAMP cycles, 749.5 mA in the mean; 1229 would exceed 750. -/
theorem test_derated_on_time :
    onTime (onLamp 2 (fun l => { l with gangDer := true, gangCap := gangCapOf 1875, dutyNow := 1000, pwmP := 3072 }) (wLamp .on)) 2
      = 1228 := by decide

/-! ### Witnesses -/

set_option maxRecDepth 20000 in
theorem witness_IdleStepTicksAndCommandsKeepTheQueue :
    (∃ (s : State), s.pending = []) ∧
    (∃ (c : Instr) (s t : State), exec c s = .next t) ∧
    (∃ (s : State), s.pending = [] ∧ ckAon s = false ∧ domains s = false) ∧
    (∃ (s : State), s.pending = [] ∧ ckAon s = true ∧ domains s = false ∧ s.aon.phase < 367 ∧ s.auth.lockOn = false) ∧
    (∃ (s : State), s.pending = [] ∧ s.auth.verify = none ∧ s.auth.wipe = false) :=
  ⟨⟨State.reset, by decide⟩,
    ⟨.ready, wOff, wOff, rfl⟩,
    ⟨wOff, by decide⟩,
    ⟨onAon (fun a => { a with phase := 366 }) wSleep, by decide⟩,
    ⟨onAuth (fun a => { a with lockOn := true, lockLeft := 2 }) (onAon (fun a => { a with phase := 370 }) (onDrv (fun d => { d with sta := .allOff, pend := .other }) wRun)), by decide⟩⟩

set_option maxRecDepth 20000 in
theorem witness_CellarStaysCanonical :
    ∃ (s t : State), Cellar.wf s.mem = true ∧ step s = .next t :=
  ⟨wRtc, (onAon (fun a => { a with q := [.alm 5] }) State.reset), by decide, rfl⟩

set_option maxRecDepth 20000 in
theorem witness_QueuesKeepTheirDepth :
    ∃ (s t : State), queueBounds s ∧ step s = .next t :=
  ⟨wRtc, (onAon (fun a => { a with q := [.alm 5] }) State.reset), (by unfold queueBounds; decide), rfl⟩

set_option maxRecDepth 20000 in
theorem witness_OtpAndCounterAreWrittenOnlyByTheirRules :
    ∃ (c : Instr) (s t : State), exec c s = .next t :=
  ⟨.ready, wOff, wOff, rfl⟩

set_option maxRecDepth 20000 in
theorem witness_PowerOnPowerLossAndCorkExit :
    (∃ (x : Straps) (s : State), s.pw.mode = Mode.off) ∧
    (∃ (x : Straps) (s : State), s.pw.mode = Mode.cork) ∧
    (∃ (s : State), s.pw.mode ≠ Mode.off) :=
  ⟨⟨⟨lvl false, lvl true, lvl false, lvl true⟩, wOff, by decide⟩,
    ⟨⟨lvl false, lvl true, lvl false, lvl true⟩, onPw (fun p => { p with mode := .cork, face := .dead }) State.reset, by decide⟩,
    ⟨wRun, by decide⟩⟩

set_option maxRecDepth 20000 in
theorem witness_StrapAndBootStepsAdvance :
    (∃ (s : State), s.pw.mode = Mode.off) ∧
    (∃ (s : State), s.pw.mode ≠ Mode.off) ∧
    (∃ (s : State), s.pw.mode ≠ Mode.off ∧ s.pw.mode ≠ Mode.cork) ∧
    (∃ (s : State), s.pw.mode = Mode.boot ∧ s.pw.face = Face.dead) ∧
    (∃ (s : State), s.pw.mode = Mode.boot ∧ s.clk.rootOk = false) ∧
    (∃ (s : State), s.pw.mode = Mode.boot ∧ s.clk.src = false ∧ s.clk.rootOk = false ∧ s.clk.attempting = true) ∧
    (∃ (s : State), s.pw.mode = Mode.boot ∧ s.clk.src = false ∧ s.clk.rootOk = false ∧ s.clk.attempting = false) ∧
    (∃ (s : State), s.pw.mode = Mode.boot ∧ s.clk.rootOk = true ∧ s.clk.released = false) ∧
    (∃ (s : State), s.pw.mode = Mode.boot ∧ s.clk.released = true ∧ s.pw.bstep = 4) ∧
    (∃ (s : State), s.pw.mode = Mode.boot ∧ s.clk.released = true ∧ s.pw.bstep = 5 ∧ s.pw.rst = ResetWait.noReset) ∧
    (∃ (s : State), (s.pw.mode = Mode.off ∨ s.pw.mode = Mode.cork)) :=
  ⟨⟨wOff, by decide⟩,
    ⟨wRun, by decide⟩,
    ⟨wRun, by decide⟩,
    ⟨onPw (fun p => { p with face := .dead, bstep := 1 }) wBoot, by decide⟩,
    ⟨wBoot, by decide⟩,
    ⟨wBoot, by decide⟩,
    ⟨onClk (fun c => { c with attempting := false }) wBoot, by decide⟩,
    ⟨onClk (fun c => { c with rootOk := true }) wBoot, by decide⟩,
    ⟨onPw (fun p => { p with bstep := 4 }) (onClk (fun c => { c with rootOk := true, released := true }) wBoot), by decide⟩,
    ⟨onP (fun x => { x with disc := 2 }) (onPw (fun p => { p with bstep := 5 }) (onClk (fun c => { c with rootOk := true, released := true }) wBoot)), by decide⟩,
    ⟨wOff, by decide⟩⟩

set_option maxRecDepth 20000 in
theorem witness_BootFaceDiscardsOrWakes :
    (∃ (p : Port) (a : Fin 64) (v : Word) (s : State), portLive s p = true ∧ s.pw.face = Face.bootFace ∧ isHostWake s p a v = false) ∧
    (∃ (p : Port) (v : Word) (s : State), portLive s p = true ∧ s.pw.face = Face.bootFace ∧ s.pw.mode = Mode.sleep ∧ s.pw.trans = Trans.idle ∧ pgb s 58374 1 = true ∧ (p = Port.portP → s.pw.gen ≠ Gen.gen1) ∧ fld v 0 3 = 1 ∧ fld v 8 8 = 0) ∧
    (∃ (lo : Byte) (v : Word) (s : State), portLive s Port.portP = true ∧ s.pw.face = Face.bootFace ∧ s.pw.mode = Mode.sleep ∧ s.pw.trans = Trans.idle ∧ pgb s 58374 1 = true ∧ s.pw.gen = Gen.gen1 ∧ s.portP.g1wr = some (3, lo) ∧ BitVec.toNat lo % 8 = 1 ∧ fld v 8 8 = 0) :=
  ⟨⟨.portP, 3, 0x0002, wBoot, by decide⟩,
    ⟨.portS, 0x0001, wSleep, by decide⟩,
    ⟨0x09, 0x0001, onP (fun x => { x with g1wr := some (3, 0x09) }) (onPw (fun p => { p with gen := .gen1 }) wSleep), by decide⟩⟩

set_option maxRecDepth 20000 in
theorem witness_AllowedModeRequestsAreExecuted :
    (∃ (p : Port) (e : Bool) (w : Word) (s : State), reachesRule s p 3 (sysctlWord 2 0 e) w ∧ fld w 0 3 = 2 ∧ fld w 8 8 = 0 ∧ s.pw.mode = Mode.standby ∧ s.pw.trans = Trans.idle ∧ s.clk.expiring = false ∧ tapHoldsRun s = false) ∧
    (∃ (p : Port) (e : Bool) (w : Word) (s : State), reachesRule s p 3 (sysctlWord 1 0 e) w ∧ fld w 0 3 = 1 ∧ fld w 8 8 = 0 ∧ s.pw.mode = Mode.run ∧ s.pw.trans = Trans.idle ∧ s.clk.expiring = false ∧ s.roles.fdon = false) ∧
    (∃ (p : Port) (e : Bool) (w : Word) (s : State), reachesRule s p 3 (sysctlWord 3 0 e) w ∧ fld w 0 3 = 3 ∧ fld w 8 8 = 0 ∧ s.pw.mode = Mode.standby ∧ s.pw.trans = Trans.idle ∧ s.clk.expiring = false ∧ wakeEnabled s = true ∧ wakeActive s = false ∧ authBusy s = false) :=
  ⟨⟨.portS, true, 0x000A, State.reset, (by unfold reachesRule; decide)⟩,
    ⟨.portP, false, 0x0001, wSta .content, (by unfold reachesRule; decide)⟩,
    ⟨.portP, false, 0x0003, State.reset, (by unfold reachesRule; decide)⟩⟩

set_option maxRecDepth 20000 in
theorem witness_SysctlRefusalsAndMergedModeRequests :
    (∃ (p : Port) (v : Word) (w : Word) (s : State), reachesRule s p 3 v w ∧ fld w 8 8 = 195 ∧ mayReset s p = false) ∧
    (∃ (p : Port) (v : Word) (w : Word) (s : State), reachesRule s p 3 v w ∧ (fld w 8 8 ≠ 195 ∨ mayReset s p = true) ∧ (3 < fld w 0 3 ∨ fld w 8 8 ≠ 0 ∧ fld w 8 8 ≠ 195 ∨ fld w 0 3 ≠ 0 ∧ fld w 8 8 ≠ 0)) ∧
    (∃ (p : Port) (v : Word) (w : Word) (s : State), reachesRule s p 3 v w ∧ fld w 0 3 ≠ 0 ∧ fld w 0 3 ≤ 3 ∧ fld w 8 8 = 0 ∧ (s.pw.trans ≠ Trans.idle ∨ modeAllowed s (fld w 0 3) = false)) ∧
    (∃ (s : State), reachesRule s Port.portS 3 2 2 ∧ reachesRule s Port.portP 3 2 2 ∧ s.pw.gen ≠ Gen.gen1 ∧ s.pw.mode = Mode.standby ∧ s.pw.trans = Trans.idle ∧ s.clk.expiring = false ∧ tapHoldsRun s = false) ∧
    (∃ (p : Port) (v : Word) (w : Word) (s : State), reachesRule s p 3 v w ∧ fld w 0 3 = 0 ∧ fld w 8 8 = 195 ∧ mayReset s p = true ∧ (s.pw.trans ≠ Trans.idle ∨ s.roles.fdon = true ∧ s.pw.mode = Mode.run)) :=
  ⟨⟨.portP, 0xC300, 0xC300, wPage 0xE406 0xB State.reset, (by unfold reachesRule; decide)⟩,
    ⟨.portS, 0x0007, 0x0007, State.reset, (by unfold reachesRule; decide)⟩,
    ⟨.portS, 0x0003, 0x0003, wRun, (by unfold reachesRule; decide)⟩,
    ⟨State.reset, (by unfold reachesRule; decide)⟩,
    ⟨.portS, 0xC300, 0xC300, onRoles (fun r => { r with fdon := true }) wRun, (by unfold reachesRule; decide)⟩⟩

set_option maxRecDepth 20000 in
theorem witness_ResetsLeadToAWarmBoot :
    (∃ (p : Port) (e : Bool) (w : Word) (s : State), reachesRule s p 3 (sysctlWord 0 195 e) w ∧ fld w 0 3 = 0 ∧ fld w 8 8 = 195 ∧ mayReset s p = true ∧ s.pw.trans = Trans.idle ∧ (s.roles.fdon = true → s.pw.mode ≠ Mode.run)) ∧
    (∃ (s : State), s.pw.mode ≠ Mode.off ∧ s.pw.mode ≠ Mode.cork) ∧
    (∃ (a : Accepted) (s : State), s.auth.accepted = some a ∧ s.auth.verify = none ∧ s.pw.rst = ResetWait.pin) ∧
    (∃ (s : State), banksQuiet s = true ∧ (s.pw.rst = ResetWait.pin ∨ s.pw.rst = ResetWait.soft ∧ s.clk.expiring = false)) :=
  ⟨⟨.portS, false, 0xC300, wSta .content, (by unfold reachesRule; decide)⟩,
    ⟨wSta .content, by decide⟩,
    ⟨⟨.cork, .portS, 1, 5, [], true⟩, onPw (fun p => { p with rst := .pin }) (wAcc .cork []), by decide⟩,
    ⟨onPw (fun p => { p with rst := .pin }) wRun, by decide⟩⟩

set_option maxRecDepth 20000 in
theorem witness_TransitionsReachTheirMode :
    (∃ (s : State), s.pw.trans = Trans.toStandby ∧ s.pw.mode = Mode.run ∧ banksQuiet s = true) ∧
    (∃ (s : State), s.pw.trans = Trans.toSleep ∧ s.pw.mode = Mode.standby ∧ s.pw.rst = ResetWait.noReset ∧ s.portP.buf = [] ∧ s.portS.buf = [] ∧ s.auth.verify = none ∧ s.auth.wipe = false) ∧
    (∃ (s : State), s.pw.trans = Trans.wake ∧ s.pw.mode = Mode.sleep ∧ s.clk.rootOk = true ∧ s.pw.rst = ResetWait.noReset) ∧
    (∃ (s : State), s.pw.mode = Mode.corkEntry ∧ s.pw.trans = Trans.corkSeq ∧ banksQuiet s = true ∧ s.clk.expiring = false ∧ s.pw.rst = ResetWait.noReset ∧ s.portP.buf = [] ∧ s.portS.buf = [] ∧ s.aon.chg = false) ∧
    (∃ (s : State), s.pw.mode = Mode.corkEntry ∧ s.pw.trans = Trans.corkSeq ∧ banksQuiet s = true ∧ s.clk.expiring = false ∧ s.pw.rst = ResetWait.noReset ∧ s.portP.buf = [] ∧ s.portS.buf = [] ∧ s.aon.chg = true ∧ s.arb.ecc = []) :=
  ⟨⟨onPw (fun p => { p with trans := .toStandby }) wRun, by decide⟩,
    ⟨onPw (fun p => { p with trans := .toSleep }) State.reset, by decide⟩,
    ⟨onPw (fun p => { p with trans := .wake }) wSleep, by decide⟩,
    ⟨onPw (fun p => { p with mode := .corkEntry, trans := .corkSeq }) State.reset, by decide⟩,
    ⟨onAon (fun a => { a with chg := true }) (onPw (fun p => { p with mode := .corkEntry, trans := .corkSeq }) State.reset), by decide⟩⟩

set_option maxRecDepth 20000 in
theorem witness_RootLossHoldoverAndExpiry :
    (∃ (u : Bool) (s : State), s.pw.mode = .sleep ∧ s.clk.rootOk = true ∧ s.pw.trans = .wake) ∧
    (∃ (s : State), active s = true ∧ s.clk.hold = true ∧ s.clk.expiring = false ∧ banksQuiet s = true ∧ s.auth.accepted = none ∧ s.pw.rst ≠ ResetWait.pin) ∧
    (∃ (s : State), active s = true ∧ s.clk.hold = true ∧ s.clk.expiring = false ∧ s.bankA.drv.sta = Sta.content) ∧
    (∃ (s : State), s.pw.mode = Mode.sleep ∧ s.clk.sleepLost = true ∧ s.clk.rootOk = false) ∧
    (∃ (u : Bool) (s : State), active s = true ∧ s.clk.rootOk = true ∧ pgb s 58368 0 = true) ∧
    (∃ (u : Bool) (s : State), s.pw.mode = Mode.sleep ∧ s.clk.rootOk = true) ∧
    (∃ (s : State), active s = true ∧ s.clk.rootOk = true ∧ s.clk.pllLock = true ∧ pgb s 58368 0 = true) ∧
    (∃ (u : Bool) (s : State), active s = true ∧ s.clk.rootOk = true ∧ s.clk.hold = false ∧ pgb s 58368 0 = false ∧ banksQuiet s = true ∧ s.auth.accepted = none ∧ s.pw.rst ≠ ResetWait.pin) ∧
    (∃ (u : Bool) (s : State), active s = true ∧ s.clk.rootOk = true ∧ s.clk.hold = false ∧ pgb s 58368 0 = false ∧ s.bankA.drv.sta = Sta.content) ∧
    (∃ (u : Bool) (s : State), active s = true ∧ s.clk.rootOk = true ∧ s.clk.hold = false ∧ pgb s 58368 0 = false ∧ s.clk.pllLock = true ∧ s.bankA.drv.sta = Sta.content) ∧
    (∃ (u : Bool) (s : State), s.pw.mode = Mode.boot ∧ s.clk.rootOk = true) ∧
    (∃ (r : Bool) (s : State), active s = true ∧ s.clk.hold = true ∧ s.clk.expiring = false) :=
  ⟨⟨true, (onPw (fun p => { p with trans := .wake }) wSleep), by decide⟩,
    ⟨onClk (fun c => { c with hold := true }) wRun, by decide⟩,
    ⟨onClk (fun c => { c with hold := true }) (wSta .content), by decide⟩,
    ⟨onClk (fun c => { c with sleepLost := true, rootOk := false }) wSleep, by decide⟩,
    ⟨true, onPw (fun p => { p with mode := .corkEntry }) State.reset, by decide⟩,
    ⟨false, wSleep, by decide⟩,
    ⟨wRun, by decide⟩,
    ⟨true, wPage 0xE400 0 wRun, by decide⟩,
    ⟨true, wPage 0xE400 0 (wSta .content), by decide⟩,
    ⟨false, wPage 0xE400 0 (wSta .content), by decide⟩,
    ⟨false, onPw (fun p => { p with bstep := 5 }) (onClk (fun c => { c with rootOk := true, released := true, pllLock := true }) wBoot), by decide⟩,
    ⟨true, onClk (fun c => { c with hold := true }) wRun, by decide⟩⟩

set_option maxRecDepth 20000 in
theorem witness_SuppliesComeAndGo :
    (∃ (s : State), islandOn s = true ∧ s.pw.reduced = false) ∧
    (∃ (s : State), islandOn s = true ∧ s.pw.reduced = true ∧ s.clk.expiring = false) ∧
    (∃ (s : State), (s.pw.mode = Mode.run ∨ s.pw.mode = Mode.corkEntry)) ∧
    (∃ (s : State), s.pw.mode = Mode.sleep) ∧
    (∃ (p : Port) (a : Fin 64) (v : Word) (s : State), s.pw.vio = false) :=
  ⟨⟨wRun, by decide⟩,
    ⟨onDrv (fun d => { d with req := true }) (onPw (fun p => { p with reduced := true }) wRun), by decide⟩,
    ⟨wSta .content, by decide⟩,
    ⟨wSleep, by decide⟩,
    ⟨.portP, 3, 0, onPw (fun p => { p with vio := false }) wRun, by decide⟩⟩

set_option maxRecDepth 20000 in
theorem witness_RegisterWriteGateAndRefusals :
    (∃ (p : Port) (a : Fin 64) (v : Word) (s : State), portLive s p = false) ∧
    (∃ (p : Port) (a : Fin 64) (v : Word) (s : State), portLive s p = true ∧ s.pw.face = Face.bootFace) ∧
    (∃ (p : Port) (a : Fin 64) (v : Word) (s : State), portLive s p = true ∧ s.pw.face = Face.full ∧ 104 ≤ offOf a) ∧
    (∃ (p : Port) (a : Fin 64) (v : Word) (s : State), portLive s p = true ∧ s.pw.face = Face.full ∧ offOf a < 104 ∧ gen1Word s p a v = none) ∧
    (∃ (p : Port) (a : Fin 64) (v : Word) (s : State), portLive s p = true ∧ s.pw.face = Face.full ∧ offOf a < 104 ∧ gen1Word s p a v ≠ none ∧ s.pw.mode = Mode.corkEntry ∧ offOf a ≠ 22) ∧
    (∃ (ups : List Upset) (v : Word) (a : CAddr) (x : Word) (rest : List BufEntry) (s : State) (u : State), s.portP.buf = BufEntry.wdata a x :: rest ∧ s.err = ErrRec.none ∧ exec (Instr.bufferEntryLeave Port.portP ups) s = Host.Outcome.next u ∧ u.err = ErrRec.none) ∧
    (∃ (vS : Word) (vP : Word) (wP : Word) (s : State), reachesRule s Port.portS 51 vS vS ∧ reachesRule s Port.portP 51 vP wP) ∧
    (∃ (vS : Word) (vP : Word) (wP : Word) (s : State), reachesRule s Port.portS 21 vS vS ∧ fld vS 4 4 < 2 ∧ reachesRule s Port.portP 6 vP wP ∧ bit wP 15 = true) ∧
    (∃ (vS : Word) (vP : Word) (wP : Word) (s : State), reachesRule s Port.portS 21 vS vS ∧ fld vS 4 4 < 2 ∧ reachesRule s Port.portP 4 vP wP) ∧
    (∃ (v : Word) (w : Word) (b : Bank) (s : State) (u : State), reachesRule s Port.portP 13 v w ∧ bit w 14 = false ∧ Bank.ofBit (bit w 15) = b ∧ dctlError (gen1Empty s Port.portP 13) w = none ∧ slotsRun s = true ∧ exec (Instr.frameBoundary b) (dctlShow (gen1Empty s Port.portP 13) w) = Host.Outcome.next u ∧ (getBank u b).drv.dutyWait = false) ∧
    (∃ (v : Word) (w : Word) (b : Bank) (s : State) (u : State), reachesRule s Port.portP 18 v w ∧ exec (Instr.frameBoundary b) (gen1Empty s Port.portP 18) = Host.Outcome.next u) ∧
    (∃ (v : Word) (b : Bank) (s : State), reachesRule s Port.portS 18 v v) ∧
    (∃ (v : Word) (w : Word) (s : State) (u : State) (x : State), reachesRule s Port.portP 18 v w ∧ exec (Instr.frameBoundary Bank.bankA) (gen1Empty s Port.portP 18) = Host.Outcome.next u ∧ exec (Instr.frameBoundary Bank.bankB) u = Host.Outcome.next x ∧ slotsRun s = true) ∧
    (∃ (v : Word) (w : Word) (b : Bank) (s : State) (u : State), reachesRule s Port.portP 14 v w ∧ dpwrError s (reqShown s.bankA.drv) (reqShown s.bankB.drv) w = none ∧ exec (Instr.frameBoundary b) (gen1Empty s Port.portP 14) = Host.Outcome.next u ∧ slotsRun s = true ∧ (b = Bank.bankA ∨ bit w 0 = reqShown s.bankA.drv) ∧ (b = Bank.bankB ∨ bit w 1 = reqShown s.bankB.drv)) ∧
    (∃ (vS : Word) (vP : Word) (wS : Word) (wP : Word) (b : Bank) (s : State), reachesRule s Port.portS 14 vS wS ∧ reachesRule s Port.portP 3 vP wP ∧ fld wP 0 3 = 1 ∧ fld wP 8 8 = 0 ∧ modeAllowed s 1 = true) ∧
    (∃ (c : Word) (v : Word) (w : Word) (ups : List Upset) (rest : List BufEntry) (b : Bank) (s : State) (u : State), reachesRule s Port.portP 51 c w ∧ s.portP.buf = BufEntry.dcommit v :: rest ∧ s.err = ErrRec.none ∧ slotsRun s = true ∧ s.pw.gen ≠ Gen.gen1 ∧ s.portP.held = Held.none ∧ s.portP.load = none ∧ exec (Instr.frameBoundary b) { now := s.now, freeCtr := s.freeCtr, pw := s.pw, clk := s.clk, irqStat := s.irqStat, err := s.err, portP := have __src := s.portP; { irqEn := __src.irqEn, ale := __src.ale, waddr := __src.waddr, ainc := __src.ainc, page := __src.page, wdrop := __src.wdrop, dropCnt := __src.dropCnt, pre := __src.pre, follow := __src.follow, fresh := __src.fresh, load := __src.load, buf := rest, held := __src.held, g1rd := __src.g1rd, g1wr := __src.g1wr, rtcSnap := __src.rtcSnap, rtcHold := __src.rtcHold, rawSnap := __src.rawSnap, socSnap := __src.socSnap, disc := __src.disc, rdata := __src.rdata }, portS := s.portS, spi := s.spi, roles := s.roles, scratch := s.scratch, bankA := s.bankA, bankB := s.bankB, disp := s.disp, keys := s.keys, lamps := s.lamps, batA := s.batA, batB := s.batB, estA := s.estA, estB := s.estB, pack := s.pack, auth := s.auth, nv := s.nv, aon := s.aon, bak := s.bak, arb := s.arb, tap := s.tap, mem := s.mem, pending := s.pending } = Host.Outcome.next u ∧ bit v (5 + b.num) = true) :=
  ⟨⟨.portP, 0x33, 0x1234, onPw (fun p => { p with vio := false }) wRun, by decide⟩,
    ⟨.portP, 0x33, 0x1234, wBoot, by decide⟩,
    ⟨.portP, 0x34, 0x1234, wRun, by decide⟩,
    ⟨.portP, 0x33, 0x1234, wGen1, by decide⟩,
    ⟨.portP, 0x33, 0x1234, onPw (fun p => { p with mode := .corkEntry }) State.reset, by decide⟩,
    ⟨[], 0x1234, 0x00010, 0x5678, [], onP (fun x => { x with buf := [.wdata 0x00010 0x5678] }) wRun, grantL1 (storeWord wRun 0x10 0x5678) .portP, by decide, by decide, rfl, by decide⟩,
    ⟨0x1234, 0x5678, 0x5678, wRun, (by unfold reachesRule; decide)⟩,
    ⟨0x0010, 0x8000, 0x8000, wRun, (by unfold reachesRule; decide)⟩,
    ⟨0x0010, 0x0002, 0x0002, wRun, (by unfold reachesRule; decide)⟩,
    ⟨0x00A2, 0x00A2, .bankA, wRun, frameWork (dctlShow wRun 0xA2) .bankA false none, (by unfold reachesRule; decide), by decide, by decide, by decide, by decide, rfl, by decide⟩,
    ⟨0x0055, 0x0055, .bankA, wRun, frameWork wRun .bankA false none, (by unfold reachesRule; decide), rfl⟩,
    ⟨0x0055, .bankA, wRun, (by unfold reachesRule; decide)⟩,
    ⟨0x0055, 0x0055, wRun, frameWork wRun .bankA false none, frameWork (frameWork wRun .bankA false none) .bankB false none, (by unfold reachesRule; decide), rfl, rfl, by decide⟩,
    ⟨0x0001, 0x0001, .bankA, wRun, frameWork wRun .bankA false none, (by unfold reachesRule; decide), by decide, rfl, by decide, by decide, by decide⟩,
    ⟨0x0003, 0x0001, 0x0003, 0x0001, .bankA, wRun, (by unfold reachesRule; decide)⟩,
    ⟨0x1234, 0x3021, 0x1234, [], [], .bankA, onP (fun x => { x with buf := [.dcommit 0x3021] }) wRun, frameWork wRun .bankA false none, (by unfold reachesRule; decide), by decide, by decide, by decide, by decide, by decide, by decide, rfl, by decide⟩⟩

set_option maxRecDepth 20000 in
theorem witness_PlainRegisterWrites :
    (∃ (p : Port) (v : Word) (w : Word) (s : State), reachesRule s p 51 v w) ∧
    (∃ (p : Port) (v : Word) (w : Word) (s : State), reachesRule s p 5 v w) ∧
    (∃ (p : Port) (a : Fin 64) (v : Word) (w : Word) (s : State), reachesRule s p a v w ∧ offOf a ∈ [0, 2, 14, 30, 46, 50, 62, 64, 66, 68, 70, 88, 100]) ∧
    (∃ (p : Port) (v : Word) (w : Word) (s : State), reachesRule s p 2 v w) ∧
    (∃ (p : Port) (v : Word) (w : Word) (s : State), reachesRule s p 22 v w) ∧
    (∃ (p : Port) (v : Word) (w : Word) (s : State), reachesRule s p 30 v w) ∧
    (∃ (p : Port) (v : Word) (w : Word) (s : State), reachesRule s p 36 v w) ∧
    (∃ (p : Port) (v : Word) (w : Word) (s : State), reachesRule s p 41 v w) ∧
    (∃ (p : Port) (v : Word) (w : Word) (s : State), reachesRule s p 48 v w) ∧
    (∃ (p : Port) (v : Word) (w : Word) (s : State), reachesRule s p 26 v w ∧ fld w 4 3 < 6) ∧
    (∃ (p : Port) (v : Word) (w : Word) (s : State), reachesRule s p 26 v w ∧ 6 ≤ fld w 4 3) ∧
    (∃ (p : Port) (v : Word) (w : Word) (s : State), reachesRule s p 20 v w ∧ fld w 2 2 < 2) ∧
    (∃ (p : Port) (v : Word) (w : Word) (s : State), reachesRule s p 20 v w ∧ 2 ≤ fld w 2 2) ∧
    (∃ (p : Port) (v : Word) (w : Word) (s : State), reachesRule s p 46 v w) :=
  ⟨⟨.portP, 0x1234, 0x1234, wRun, (by unfold reachesRule; decide)⟩,
    ⟨.portS, 0x1234, 0x1234, wRun, (by unfold reachesRule; decide)⟩,
    ⟨.portP, 0x1F, 0x1234, 0x1234, wRun, (by unfold reachesRule; decide)⟩,
    ⟨.portP, 0x0010, 0x0010, onPw (fun p => { p with collapse := true }) wRun, (by unfold reachesRule; decide)⟩,
    ⟨.portP, 0x0060, 0x0060, onKeys (fun k => { k with ovf := true, ghost := true }) wRun, (by unfold reachesRule; decide)⟩,
    ⟨.portP, 0x0180, 0x0180, onBatA (fun b => { b with ora := true, hwrap := true }) wRun, (by unfold reachesRule; decide)⟩,
    ⟨.portS, 0x0018, 0x0018, onPack (fun k => { k with swap := true, rem := true }) wRun, (by unfold reachesRule; decide)⟩,
    ⟨.portP, 0x0020, 0x0020, onAuth (fun a => { a with done := true }) wRun, (by unfold reachesRule; decide)⟩,
    ⟨.portP, 0x0070, 0x0070, onClk (fun c => { c with rootLoss := true, timeSub := true }) wRun, (by unfold reachesRule; decide)⟩,
    ⟨.portP, 0x0053, 0x0053, wRun, (by unfold reachesRule; decide)⟩,
    ⟨.portP, 0x0063, 0x0063, wRun, (by unfold reachesRule; decide)⟩,
    ⟨.portP, 0x0005, 0x0005, wSta .content, (by unfold reachesRule; decide)⟩,
    ⟨.portP, 0x0008, 0x0008, wRun, (by unfold reachesRule; decide)⟩,
    ⟨.portP, 0xFFFF, 0xFFFF, wRun, (by unfold reachesRule; decide)⟩⟩

set_option maxRecDepth 20000 in
theorem witness_KeyInterruptFollowsTheFifo :
    (∃ (s t : State), keyFlag s ∧ step s = .next t) ∧
    (∃ (p : Port) (v : Word) (w : Word) (s : State), reachesRule s p 4 v w) :=
  ⟨⟨wRtc, (onAon (fun a => { a with q := [.alm 5] }) State.reset), (by unfold keyFlag; decide), rfl⟩,
    ⟨.portP, 0x0011, 0x0011, onKeys (fun k => { k with fifo := [0x100] }) { wRun with irqStat := 0xFFFF }, (by unfold reachesRule; decide)⟩⟩

set_option maxRecDepth 20000 in
theorem witness_ErrorRecordReadsAndClears :
    (∃ (p : Port) (v : Word) (w : Word) (s : State), reachesRule s p 6 v w ∧ bit w 15 = true) ∧
    (∃ (p : Port) (v : Word) (w : Word) (s : State), reachesRule s p 6 v w ∧ bit w 15 = false) :=
  ⟨⟨.portP, 0x8000, 0x8000, refuse wRun .portP eSTATE 6, (by unfold reachesRule; decide)⟩,
    ⟨.portP, 0x7FFF, 0x7FFF, refuse wRun .portP eSTATE 6, (by unfold reachesRule; decide)⟩⟩

set_option maxRecDepth 20000 in
theorem witness_Gen1LowByteWritesAreHeld :
    ∃ (ale : Option Byte) (ad : Byte) (b : Byte) (s : State), portLive s Port.portP = true ∧ s.pw.gen = Gen.gen1 ∧ ale.getD s.portP.ale = ad ∧ BitVec.toNat ad < 128 ∧ BitVec.toNat ad % 2 = 0 :=
  ⟨some 0x66, 0x66, 0x34, wGen1, by decide⟩

set_option maxRecDepth 20000 in
theorem witness_Gen1WordsAndPortSFrames :
    (∃ (l : List Bool) (s : State), readable s Port.portS ∧ frameGood l = false) ∧
    (∃ (l : List Bool) (s : State), readable s Port.portS ∧ s.pw.mode ≠ Mode.corkEntry ∧ frameGood l = true ∧ rxBit l 31 = true ∧ rxField l 30 6 = 51) ∧
    (∃ (ale : Option Byte) (b : Byte) (s : State), portLive s Port.portP = true ∧ s.pw.gen = Gen.gen1) ∧
    (∃ (ad : Byte) (b : Byte) (s : State), portLive s Port.portP = true ∧ s.pw.gen = Gen.gen1 ∧ 128 ≤ BitVec.toNat ad) ∧
    (∃ (ad : Byte) (b : Byte) (s : State), portLive s Port.portP = true ∧ s.pw.gen = Gen.gen1 ∧ BitVec.toNat ad < 128 ∧ BitVec.toNat ad % 2 = 1) ∧
    (∃ (b : Byte) (v : Word) (s : State), portLive s Port.portP = true ∧ s.pw.gen = Gen.gen1 ∧ s.pw.face = Face.full ∧ s.pw.mode ≠ Mode.corkEntry ∧ s.portP.g1wr = some (51, b)) ∧
    (∃ (a : Fin 64) (ad : Byte) (s : State), readable s Port.portP ∧ s.pw.gen = Gen.gen1 ∧ BitVec.toNat ad = 2 * ↑a ∧ offOf a ≠ 22 ∧ offOf a ≠ 46 ∧ offOf a ≠ 84) ∧
    (∃ (a : Fin 64) (ad : Byte) (hi : Byte) (s : State), portLive s Port.portP = true ∧ s.pw.gen = Gen.gen1 ∧ BitVec.toNat ad = 2 * ↑a + 1 ∧ s.portP.g1rd = some (a, hi)) ∧
    (∃ (l : List Bool) (n : Fin 64) (s : State), readable s Port.portS ∧ frameGood l = true ∧ rxBit l 31 = false ∧ rxField l 30 6 = ↑n ∧ offOf n ≠ 22 ∧ offOf n ≠ 46 ∧ offOf n ≠ 84) :=
  ⟨⟨[true], wRun, (by unfold readable; decide)⟩,
    ⟨true :: (natBits 6 0x33 ++ [false] ++ natBits 16 0x1234) ++ natBits 8 (crc8 (true :: (natBits 6 0x33 ++ [false] ++ natBits 16 0x1234))).toNat, wRun, (by unfold readable; decide)⟩,
    ⟨some 0x66, 0x34, wGen1, by decide⟩,
    ⟨0x80, 0x34, onPw (fun p => { p with gen := .gen1 }) wSleep, by decide⟩,
    ⟨0x67, 0x34, wGen1, by decide⟩,
    ⟨0x34, 0x1200, onP (fun x => { x with g1wr := some (0x33, 0x34) }) wGen1, by decide⟩,
    ⟨0x01, 0x02, { wGen1 with scratch := 0x55AA }, (by unfold readable; decide)⟩,
    ⟨0x33, 0x67, 0x55, onP (fun x => { x with g1rd := some (0x33, 0x55) }) wGen1, by decide⟩,
    ⟨false :: (natBits 6 0x33 ++ [false] ++ natBits 16 0) ++ natBits 8 (crc8 (false :: (natBits 6 0x33 ++ [false] ++ natBits 16 0))).toNat, 0x33, { wRun with scratch := 0x1234 }, (by unfold readable; decide)⟩⟩

set_option maxRecDepth 20000 in
theorem witness_WindowControlWritesAndReads :
    (∃ (p : Port) (v w : Word) (s : State), reachesRule s p 0x0C v w ∧ pageMode s p = true) ∧
    (∃ (p : Port) (v w : Word) (s : State), reachesRule s p 0x0C v w ∧ pageMode s p = false ∧ pageMode (setPort s p { getPort s p with ainc := bit w 0, page := bit w 1 }) p = true) ∧
    (∃ (p : Port) (high : Bool) (v : Word) (w : Word) (s : State), reachesRule s p (if high = true then 10 else 9) v w) ∧
    (∃ (p : Port) (v : Word) (w : Word) (s : State), reachesRule s p 12 v w) ∧
    (∃ (p : Port) (w : Word) (rest : List Word) (s : State) (c : State), readable s p ∧ captured s p = c ∧ (getPort c p).pre = w :: rest ∧ pageMode s p = false) ∧
    (∃ (w : Word) (rest : List Word) (s : State), readable s Port.portP ∧ pageMode s Port.portP = true ∧ s.portP.pre = w :: rest) ∧
    (∃ (v : Word) (w : Word) (s : State), reachesRule s Port.portP 9 v w ∧ pageMode s Port.portP = true) ∧
    (∃ (l : Load) (s : State) (u : State), s.portP.load = some l ∧ l.behind = 0 ∧ l.page = true ∧ l.follow = false ∧ domains s = true ∧ arbServe s (Grant.window Port.portP) = some u ∧ s.portP.held = Held.none ∧ isPage (BitVec.toNat l.addr) = false ∧ noSram (BitVec.toNat l.addr) = false) ∧
    (∃ (p : Port) (s : State) (c : State), readable s p ∧ captured s p = c ∧ (getPort c p).pre = [] ∧ (p = Port.portP → s.pw.gen ≠ Gen.gen3)) ∧
    (∃ (s : State), readable s Port.portP ∧ s.portP.pre = [] ∧ s.pw.gen = Gen.gen3) ∧
    (∃ (s : State), s.portP.held = Held.read) ∧
    (∃ (s : State), active s = true ∧ queueBounds s) :=
  ⟨⟨.portP, 1, 1, (onP (fun x => { x with page := true, ainc := true, pre := [7, 8] }) (onPw (fun p => { p with gen := .gen3 }) wRun)), (by unfold reachesRule; decide)⟩,
    ⟨.portP, 3, 3, wGen3, (by unfold reachesRule; decide)⟩,
    ⟨.portP, false, 0x1235, 0x1235, wRun, (by unfold reachesRule; decide)⟩,
    ⟨.portP, 0x0009, 0x0009, onP (fun x => { x with wdrop := true, dropCnt := 3 }) wRun, (by unfold reachesRule; decide)⟩,
    ⟨.portP, 0x1234, [], onP (fun x => { x with pre := [0x1234] }) wRun, onP (fun x => { x with pre := [0x1234] }) wRun, (by unfold readable; decide)⟩,
    ⟨0x1234, [0x5678], onP (fun x => { x with pre := [0x1234, 0x5678], page := true, fresh := true }) wGen3, (by unfold readable; decide)⟩,
    ⟨0x1236, 0x1236, onP (fun x => { x with pre := [0x1234], page := true }) wGen3, (by unfold reachesRule; decide)⟩,
    ⟨⟨0x1002, 0, true, false⟩, onP (fun x => { x with load := some ⟨0x1002, 0, true, false⟩, page := true }) wGen3, onP (fun x => { x with load := some ⟨0x1002, 0, true, false⟩, page := true }) wGen3, by decide⟩,
    ⟨.portS, onS (fun x => { x with pre := [] }) wRun, onS (fun x => { x with pre := [] }) wRun, (by unfold readable; decide)⟩,
    ⟨onP (fun x => { x with pre := [] }) wGen3, (by unfold readable; decide)⟩,
    ⟨onP (fun x => { x with held := .read }) wGen3, by decide⟩,
    ⟨onS (fun x => { x with buf := [.wdata 0x00010 0x5678], load := some ⟨0x10, 1, false, false⟩ }) wRun, (by unfold queueBounds; decide)⟩⟩

set_option maxRecDepth 20000 in
theorem witness_WindowWritesReachTheCellar :
    (∃ (p : Port) (v w : Word) (s c : State), reachesRule s p 0x0B v w ∧ captured (gen1Empty s p 0x0B) p = c ∧ winError c p (getPort s p).waddr.toNat w = none ∧ (getPort c p).buf.length < 32 ∧ keysWord (getPort s p).waddr.toNat = true) ∧
    (∃ (p : Port) (v : Word) (w : Word) (s : State) (c : State), reachesRule s p 11 v w ∧ captured (gen1Empty s p 11) p = c ∧ winError c p (BitVec.toNat (getPort s p).waddr) w = none ∧ (getPort c p).buf.length < 32) ∧
    (∃ (p : Port) (v : Word) (w : Word) (s : State) (c : State) (e : Byte), reachesRule s p 11 v w ∧ captured (gen1Empty s p 11) p = c ∧ winError c p (BitVec.toNat (getPort s p).waddr) w = some e) ∧
    (∃ (p : Port) (v : Word) (w : Word) (s : State) (c : State), reachesRule s p 11 v w ∧ captured (gen1Empty s p 11) p = c ∧ winError c p (BitVec.toNat (getPort s p).waddr) w = none ∧ 32 ≤ (getPort c p).buf.length ∧ (p = Port.portP → s.pw.gen ≠ Gen.gen3)) ∧
    (∃ (p : Port) (v : Word) (w : Word) (s : State) (c : State), reachesRule s p 11 v w ∧ captured (gen1Empty s p 11) p = c ∧ winError c p (BitVec.toNat (getPort s p).waddr) w = none ∧ 32 ≤ (getPort c p).buf.length ∧ p = Port.portP ∧ s.pw.gen = Gen.gen3) ∧
    (∃ (p : Port) (ups : List Upset) (a : CAddr) (v : Word) (rest : List BufEntry) (s : State) (u : State), (getPort s p).buf = BufEntry.wdata a v :: rest ∧ domains s = true ∧ arbServe s (Grant.window p) = some u ∧ s.portP.held = Held.none ∧ isPage (BitVec.toNat a) = false ∧ Cellar.wf s.mem = true) ∧
    (∃ (p : Port) (ups : List Upset) (l : Load) (s : State) (u : State), (getPort s p).load = some l ∧ l.behind = 0 ∧ l.page = false ∧ l.follow = false ∧ domains s = true ∧ arbServe s (Grant.window p) = some u ∧ s.portP.held = Held.none ∧ isPage (BitVec.toNat l.addr) = false ∧ noSram (BitVec.toNat l.addr) = false) :=
  ⟨⟨.portP, 5, 5, (onP (fun x => { x with waddr := 0xCC00 }) wExp), (onP (fun x => { x with waddr := 0xCC00 }) wExp), (by unfold reachesRule; decide)⟩,
    ⟨.portP, 0x1234, 0x1234, wRun, wRun, (by unfold reachesRule; decide)⟩,
    ⟨.portP, 0x1234, 0x1234, onP (fun x => { x with waddr := 0x30000 }) wRun, onP (fun x => { x with waddr := 0x30000 }) wRun, eRANGE, (by unfold reachesRule; decide)⟩,
    ⟨.portP, 0x1234, 0x1234, onP (fun x => { x with buf := List.replicate 32 (.dcommit 0) }) wRun, onP (fun x => { x with buf := List.replicate 32 (.dcommit 0) }) wRun, (by unfold reachesRule; decide)⟩,
    ⟨.portP, 0x1234, 0x1234, onP (fun x => { x with buf := List.replicate 32 (.dcommit 0) }) wGen3, onP (fun x => { x with buf := List.replicate 32 (.dcommit 0) }) wGen3, (by unfold reachesRule; decide)⟩,
    ⟨.portP, [], 0x00010, 0x1234, [], onP (fun x => { x with buf := [.wdata 0x00010 0x1234] }) wRun, onP (fun x => { x with buf := [.wdata 0x00010 0x1234] }) wRun, by decide⟩,
    ⟨.portP, [.double 0x10 0x123456789], ⟨0x10, 0, false, false⟩, onP (fun x => { x with load := some ⟨0x10, 0, false, false⟩ }) wRun, onP (fun x => { x with load := some ⟨0x10, 0, false, false⟩ }) wRun, by decide⟩⟩

set_option maxRecDepth 20000 in
theorem witness_RoleSwapsTakePlaceOnceOrLapse :
    (∃ (p : Port) (v : Word) (w : Word) (s : State), reachesRule s p 8 v w ∧ bit w 2 = true ∧ bit w 7 = false ∧ swapRefused s p = false ∧ (s.roles.swpnd = some p.other ∨ pgb s 60416 1 = false)) ∧
    (∃ (p : Port) (v : Word) (w : Word) (s : State), reachesRule s p 8 v w ∧ bit w 2 = true ∧ bit w 7 = false ∧ swapRefused s p = false ∧ s.roles.swpnd = none ∧ pgb s 60416 1 = true) ∧
    (∃ (vS : Word) (vP : Word) (wS : Word) (wP : Word) (s : State), reachesRule s Port.portS 8 vS wS ∧ reachesRule s Port.portP 8 vP wP ∧ bit wS 2 = true ∧ bit wP 2 = true ∧ bit wS 7 = false ∧ bit wP 7 = false ∧ swapRefused s Port.portS = false ∧ swapRefused s Port.portP = false) ∧
    (∃ (p : Port) (s : State), s.roles.swpnd = some p) ∧
    (∃ (p : Port) (v : Word) (w : Word) (s : State), reachesRule s p 8 v w ∧ bit w 2 = true ∧ bit w 7 = false ∧ swapRefused s p = true) ∧
    (∃ (p : Port) (v : Word) (w : Word) (s : State), reachesRule s p 8 v w ∧ bit w 2 = true ∧ bit w 7 = true ∧ isSup s p = true ∧ fld w 8 8 = hbKey s ∧ hbEarly s = false ∧ s.roles.fallbk = false ∧ swapRefused s p = false ∧ (bit w 4 = true → s.pw.mode = Mode.run ∧ s.pw.trans = Trans.idle) ∧ (s.roles.swpnd = some p.other ∨ pgb s 60416 1 = false)) ∧
    (∃ (p : Port) (v : Word) (w : Word) (s : State), reachesRule s p 8 v w ∧ bit w 2 = true ∧ bit w 7 = true ∧ isSup s p = true ∧ fld w 8 8 = hbKey s ∧ hbEarly s = false ∧ s.roles.fallbk = false ∧ swapRefused s p = false ∧ (bit w 4 = true → s.pw.mode = Mode.run ∧ s.pw.trans = Trans.idle) ∧ s.roles.swpnd = none ∧ pgb s 60416 1 = true) :=
  ⟨⟨.portP, 0x0004, 0x0004, wRun, (by unfold reachesRule; decide)⟩,
    ⟨.portP, 0x0004, 0x0004, wPage 0xEC00 3 wRun, (by unfold reachesRule; decide)⟩,
    ⟨4, 4, 4, 4, wRun, (by unfold reachesRule; decide)⟩,
    ⟨.portP, onRoles (fun r => { r with swpnd := some .portP }) wRun, by decide⟩,
    ⟨.portP, 4, 4, onRoles (fun r => { r with swpnd := some .portP }) wRun, (by unfold reachesRule; decide)⟩,
    ⟨.portS, 0x5A84, 0x5A84, wRun, (by unfold reachesRule; decide)⟩,
    ⟨.portS, 0x5A94, 0x5A94, wPage 0xEC00 3 wRun, (by unfold reachesRule; decide)⟩⟩

set_option maxRecDepth 20000 in
theorem witness_HeartbeatsForcedDisplayAndFallback :
    (∃ (p : Port) (v : Word) (w : Word) (s : State), reachesRule s p 8 v w ∧ bit w 7 = true ∧ isSup s p = true ∧ bit w 2 = false ∧ (bit w 4 = true → s.pw.mode = Mode.run ∧ s.pw.trans = Trans.idle) ∧ fld w 8 8 = 0) ∧
    (∃ (p : Port) (v : Word) (w : Word) (s : State), reachesRule s p 8 v w ∧ bit w 7 = true ∧ isSup s p = true ∧ bit w 2 = false ∧ (bit w 4 = true → s.pw.mode = Mode.run ∧ s.pw.trans = Trans.idle) ∧ fld w 8 8 = hbKey s ∧ hbEarly s = false ∧ s.roles.fallbk = false) ∧
    (∃ (p : Port) (v : Word) (w : Word) (s : State), reachesRule s p 8 v w ∧ bit w 7 = true ∧ isSup s p = true ∧ bit w 2 = false ∧ (bit w 4 = true → s.pw.mode = Mode.run ∧ s.pw.trans = Trans.idle) ∧ fld w 8 8 = hbKey s ∧ hbEarly s = true) ∧
    (∃ (p : Port) (v : Word) (w : Word) (s : State), reachesRule s p 8 v w ∧ bit w 7 = true ∧ isSup s p = true ∧ fld w 8 8 ≠ 0 ∧ fld w 8 8 ≠ hbKey s) ∧
    (∃ (p : Port) (v : Word) (w : Word) (s : State), reachesRule s p 8 v w ∧ bit w 7 = true ∧ isSup s p = true ∧ bit w 4 = true ∧ (s.pw.mode ≠ Mode.run ∨ s.pw.trans ≠ Trans.idle) ∧ (fld w 8 8 = 0 ∨ fld w 8 8 = hbKey s)) ∧
    (∃ (p : Port) (v : Word) (w : Word) (s : State), reachesRule s p 8 v w ∧ bit w 7 = true ∧ isSup s p = false) ∧
    (∃ (s : State), s.now ≤ s.roles.hbRef + BitVec.toNat (pg s 60418) * msCycles) ∧
    (∃ (s : State), hbSupervised s = true ∧ s.roles.hbRef + BitVec.toNat (pg s 60418) * msCycles < s.now) ∧
    (∃ (p : Port) (v : Word) (w : Word) (b : Nat) (s : State), reachesRule s p 8 v w ∧ bit w 7 = true ∧ isSup s p = true ∧ bit w 2 = false ∧ bit w 4 = false ∧ fld w 8 8 = hbKey s ∧ hbEarly s = false ∧ s.roles.fallbk = true ∧ s.roles.fbEnding = false ∧ s.roles.fbBeat = some b) :=
  ⟨⟨.portS, 0x0090, 0x0090, wRun, (by unfold reachesRule; decide)⟩,
    ⟨.portS, 0x5A80, 0x5A80, wRun, (by unfold reachesRule; decide)⟩,
    ⟨.portS, 0x5A80, 0x5A80, wPage 0xEC04 5 (onRoles (fun r => { r with hbLast := some 0 }) wRun), (by unfold reachesRule; decide)⟩,
    ⟨.portS, 0xA580, 0xA580, wRun, (by unfold reachesRule; decide)⟩,
    ⟨.portS, 0x0090, 0x0090, onPw (fun p => { p with mode := .standby }) wRun, (by unfold reachesRule; decide)⟩,
    ⟨.portP, 0x5A80, 0x5A80, wRun, (by unfold reachesRule; decide)⟩,
    ⟨wRun, by decide⟩,
    ⟨wPage 0xEC00 1 ({ wRun with now := 1000000000 }), by decide⟩,
    ⟨.portS, 0x5A80, 0x5A80, 0, onRoles (fun r => { r with fallbk := true, fbBeat := some 0 }) wRun, (by unfold reachesRule; decide)⟩⟩

set_option maxRecDepth 20000 in
theorem witness_DisplayControlAndDutyFlush :
    (∃ (p : Port) (b : Bank) (w : Word) (s : State), reachesRule s p 13 (wordOf (16384 + 32768 * b.num)) w) ∧
    (∃ (p : Port) (b : Bank) (v : Word) (w : Word) (s : State), reachesRule s p 13 v w ∧ bit w 14 = false ∧ b = Bank.ofBit (bit w 15) ∧ fld w 3 3 ≤ 4 ∧ fld w 6 3 ≤ 4 ∧ (fld w 0 3 = 0 ↔ fld w 3 3 = 0) ∧ (fld w 0 3 = (getBank s b).drv.duty ∧ fld w 3 3 = (getBank s b).drv.bias ∨ (getBank s b).drv.sta = Sta.off)) ∧
    (∃ (p : Port) (b : Bank) (v : Word) (w : Word) (s : State), reachesRule s p 13 v w ∧ bit w 14 = false ∧ b = Bank.ofBit (bit w 15) ∧ (4 < fld w 3 3 ∨ 4 < fld w 6 3 ∨ fld w 0 3 = 0 ∧ fld w 3 3 ≠ 0 ∨ fld w 0 3 ≠ 0 ∧ fld w 3 3 = 0)) ∧
    (∃ (p : Port) (b : Bank) (v : Word) (w : Word) (s : State), reachesRule s p 13 v w ∧ bit w 14 = false ∧ b = Bank.ofBit (bit w 15) ∧ fld w 3 3 ≤ 4 ∧ fld w 6 3 ≤ 4 ∧ (fld w 0 3 = 0 ↔ fld w 3 3 = 0) ∧ (fld w 0 3 ≠ (getBank s b).drv.duty ∨ fld w 3 3 ≠ (getBank s b).drv.bias) ∧ (getBank s b).drv.sta ≠ Sta.off) ∧
    (∃ (b : Bank) (s : State), (getBank s b).drv.flushing = true ∧ slotsRun s = true ∧ catchUps (getBank s b) = []) ∧
    (∃ (b : Bank) (s : State), (slotsRun s = false ∨ (getBank s b).drv.flushing = false ∨ catchUps (getBank s b) ≠ [])) ∧
    (∃ (b : Bank) (ups : List Upset) (v : Word) (s : State), slotsRun s = true ∧ (getBank s b).drv.flushing = false ∧ ((getBank s b).drv.sta = Sta.off ∨ (getBank s b).drv.sta = Sta.content ∧ (getBank s b).drv.pend = PendDown.none) ∧ (getBank s b).drv.slot < frameSlots (getBank s b).drv ∧ (getBank s b).drv.burst = none ∧ 0 < slotLen (frameLen (getBank s b).drv) (frameSlots (getBank s b).drv) (getBank s b).drv.slot ∧ (getBank s b).held = [v]) :=
  ⟨⟨.portP, .bankB, 0xC000, wRun, (by unfold reachesRule; decide)⟩,
    ⟨.portP, .bankA, 0x0009, 0x0009, wRun, (by unfold reachesRule; decide)⟩,
    ⟨.portP, .bankA, 0x0008, 0x0008, wRun, (by unfold reachesRule; decide)⟩,
    ⟨.portP, .bankA, 0x0009, 0x0009, wSta .content, (by unfold reachesRule; decide)⟩,
    ⟨.bankA, onDrv (fun d => { d with flushing := true, duty := 3 }) wRun, by decide⟩,
    ⟨.bankA, onDrv (fun d => { d with flushing := true, duty := 3 }) wSleep, by decide⟩,
    ⟨.bankA, [], 0xF021, onA (fun x => { x with held := [0xF021] }) wRun, by decide⟩⟩

set_option maxRecDepth 20000 in
theorem witness_DisplayPowerRequests :
    (∃ (p : Port) (v w : Word) (s : State), reachesRule s p 0x0E v w ∧ bit w 0 = true ∧ s.bankA.drv.req = false ∧ s.bankA.drv.reqNext = none ∧ bit w 1 = reqShown s.bankB.drv ∧ s.pw.trans = .idle ∧ s.pw.mode ≠ .standby ∧ s.pw.reduced = false ∧ s.bankA.drv.sta = .content ∧ s.bankA.drv.pend = .byClear) ∧
    (∃ (p : Port) (v w : Word) (s : State), reachesRule s p 0x0E v w ∧ bit w 0 = true ∧ s.bankA.drv.req = false ∧ s.bankA.drv.reqNext = none ∧ bit w 1 = reqShown s.bankB.drv ∧ s.pw.trans = .idle ∧ s.pw.mode ≠ .standby ∧ s.pw.reduced = false ∧ s.bankA.drv.sta = .allOff ∧ s.bankA.drv.pend = .other) ∧
    (∃ (p : Port) (v w : Word) (s : State), reachesRule s p 0x0E v w ∧ bit w 0 = true ∧ s.bankA.drv.req = false ∧ s.bankA.drv.reqNext = none ∧ bit w 1 = reqShown s.bankB.drv ∧ s.pw.trans = .idle ∧ s.pw.mode ≠ .standby ∧ s.pw.reduced = false ∧ s.bankA.drv.sta = .settling ∧ s.bankA.drv.pend = .none) ∧
    (∃ (p : Port) (b : Bank) (v : Word) (w : Word) (s : State), reachesRule s p 14 v w ∧ bit w b.num = true ∧ (getBank s b).drv.req = false ∧ (getBank s b).drv.reqNext = none ∧ (∀ (b' : Bank), b' ≠ b → bit w b'.num = reqShown (getBank s b').drv) ∧ s.pw.trans = Trans.idle ∧ s.pw.mode ≠ Mode.standby ∧ s.pw.reduced = false) ∧
    (∃ (p : Port) (b : Bank) (v : Word) (w : Word) (s : State), reachesRule s p 14 v w ∧ bit w b.num = false ∧ (getBank s b).drv.req = true ∧ (getBank s b).drv.reqNext = none ∧ (∀ (b' : Bank), b' ≠ b → bit w b'.num = reqShown (getBank s b').drv) ∧ s.pw.trans = Trans.idle ∧ (s.roles.fdon = true → s.pw.mode ≠ Mode.run)) ∧
    (∃ (p : Port) (b : Bank) (v : Word) (w : Word) (s : State), reachesRule s p 14 v w ∧ s.pw.trans = Trans.idle ∧ (bit w b.num = true → s.pw.mode ≠ Mode.standby ∧ s.pw.reduced = false) ∧ (bit w b.num = false → s.roles.fdon = true → s.pw.mode ≠ Mode.run) ∧ (getBank s b).drv.reqNext = some !bit w b.num ∧ (getBank s b).drv.req = bit w b.num ∧ (∀ (b' : Bank), b' ≠ b → bit w b'.num = reqShown (getBank s b').drv)) ∧
    (∃ (p : Port) (b : Bank) (v : Word) (w : Word) (s : State), reachesRule s p 14 v w ∧ ((bit w b.num = true ∧ reqShown (getBank s b).drv = false) ∧ (s.pw.mode = Mode.standby ∨ s.pw.reduced = true) ∨ (bit w b.num = false ∧ reqShown (getBank s b).drv = true) ∧ s.roles.fdon = true ∧ s.pw.mode = Mode.run ∨ s.pw.trans ≠ Trans.idle)) ∧
    (∃ (b : Bank) (ups : List Upset) (s : State), (getBank s b).drv.sta = Sta.settling ∧ (getBank s b).drv.req = true ∧ s.clk.expiring = false ∧ (getBank s b).drv.slot < frameSlots (getBank s b).drv ∧ (getBank s b).drv.burst = none) :=
  ⟨⟨.portP, 1, 1, (onDrv (fun d => { d with req := false, pend := .byClear }) (wSta .content)), (by unfold reachesRule; decide)⟩,
    ⟨.portP, 1, 1, (onDrv (fun d => { d with req := false, pend := .other }) (wSta .allOff)), (by unfold reachesRule; decide)⟩,
    ⟨.portP, 1, 1, (onDrv (fun d => { d with req := false, pend := .none }) (wSta .settling)), (by unfold reachesRule; decide)⟩,
    ⟨.portP, .bankA, 1, 1, wRun, (by unfold reachesRule; decide), by decide, by decide, by decide, (by intro b' h; cases b' <;> first | exact absurd rfl h | decide), by decide, by decide, by decide⟩,
    ⟨.portP, .bankA, 0, 0, wSta .waitVlcd, (by unfold reachesRule; decide), by decide, by decide, by decide, (by intro b' h; cases b' <;> first | exact absurd rfl h | decide), by decide, by decide⟩,
    ⟨.portP, .bankA, 0, 0, onDrv (fun d => { d with reqNext := some true }) wRun, (by unfold reachesRule; decide), by decide, by decide, by decide, by decide, by decide, (by intro b' h; cases b' <;> first | exact absurd rfl h | decide)⟩,
    ⟨.portP, .bankB, 2, 2, State.reset, (by unfold reachesRule; decide)⟩,
    ⟨.bankA, [], onDrv (fun d => { d with fcnt := 7, slot := 1 }) (wSta .settling), by decide⟩⟩

set_option maxRecDepth 20000 in
theorem witness_GlassSupplyAndBankSequence :
    (∃ (b : Bank) (s : State), (getBank s b).drv.vgood = false) ∧
    (∃ (b : Bank) (s : State), (getBank s b).drv.vgood = true ∧ driven (getBank s b).drv = true) ∧
    (∃ (b : Bank) (s : State), (getBank s b).drv.vgood = true ∧ (getBank s b).drv.sta = Sta.biasSettle ∧ (getBank s b).drv.t20Out = false) ∧
    (∃ (b : Bank) (s : State), (getBank s b).drv.vgood = true ∧ (getBank s b).drv.sta = Sta.release ∧ (getBank s b).drv.req = false ∧ (getBank s b).drv.latch = false) ∧
    (∃ (b : Bank) (s : State), (getBank s b).drv.sta = Sta.waitVlcd) ∧
    (∃ (b : Bank) (s : State), driven (getBank s b).drv = true ∧ (getBank s b).drv.vlossRun = true ∧ pgb s (drivePage b + 2) 8 = false) ∧
    (∃ (b : Bank) (s : State), driven (getBank s b).drv = true ∧ (getBank s b).drv.vlossRun = true ∧ pgb s (drivePage b + 2) 8 = true) ∧
    (∃ (b : Bank) (s : State), (getBank s b).drv.sta = Sta.biasSettle) ∧
    (∃ (b : Bank) (s : State), (getBank s b).drv.sta = Sta.grounding ∧ s.clk.expiring = false ∧ (getBank s b).drv.vgood = true) ∧
    (∃ (b : Bank) (s : State), (getBank s b).drv.sta = Sta.grounding ∧ s.clk.expiring = false ∧ (getBank s b).drv.vgood = false ∧ (getBank s b).drv.req = false ∧ (getBank s b).drv.latch = false) ∧
    (∃ (b : Bank) (s : State), (getBank s b).drv.sta = Sta.release ∧ ((getBank s b).drv.req = false ∧ (getBank s b).drv.latch = false ∨ s.pw.reduced = true ∨ s.clk.expiring = true)) ∧
    (∃ (b : Bank) (s : State), (getBank s b).drv.sta = Sta.release ∧ ((getBank s b).drv.req = true ∨ (getBank s b).drv.latch = true) ∧ s.pw.reduced = false ∧ s.clk.expiring = false) :=
  ⟨⟨.bankA, onDrv (fun d => { d with sta := .waitVlcd }) wRun, by decide⟩,
    ⟨.bankA, wSta .content, by decide⟩,
    ⟨.bankA, wSta .biasSettle, by decide⟩,
    ⟨.bankA, onDrv (fun d => { d with req := false }) (wSta .release), by decide⟩,
    ⟨.bankA, wSta .waitVlcd, by decide⟩,
    ⟨.bankA, onDrv (fun d => { d with vlossRun := true }) (wPage 0xC002 0x52 (wSta .content)), by decide⟩,
    ⟨.bankA, onDrv (fun d => { d with vlossRun := true }) (wPage 0xC002 0x152 (wSta .content)), by decide⟩,
    ⟨.bankA, wSta .biasSettle, by decide⟩,
    ⟨.bankA, wSta .grounding, by decide⟩,
    ⟨.bankA, onDrv (fun d => { d with sta := .grounding }) wRun, by decide⟩,
    ⟨.bankA, onDrv (fun d => { d with req := false }) (wSta .release), by decide⟩,
    ⟨.bankA, wSta .release, by decide⟩⟩

set_option maxRecDepth 20000 in
theorem witness_FrameAndSlotBoundaries :
    (∃ (b : Bank) (s : State), driven (getBank s b).drv = true ∧ ((getBank s b).drv.sta = Sta.allOff → (getBank s b).drv.pend = PendDown.none) ∧ (getBank s b).drv.burst = none) ∧
    (∃ (b : Bank) (s : State), driven (getBank s b).drv = false ∧ slotsRun s = false) ∧
    (∃ (b : Bank) (ups : List Upset) (s : State), (getBank s b).drv.sta = Sta.content ∧ (getBank s b).drv.pend = PendDown.none ∧ (getBank s b).drv.slot < frameSlots (getBank s b).drv ∧ (getBank s b).drv.burst = none) ∧
    (∃ (b : Bank) (s : State), (driven (getBank s b).drv = true ∨ slotsRun s = true) ∧ ((getBank s b).drv.sta = Sta.allOff → (getBank s b).drv.pend = PendDown.none)) ∧
    (∃ (b : Bank) (q : Burst) (c : Batch) (l : Nat) (s : State), slotsRun s = true ∧ (getBank s b).drv.burst = some q ∧ s.arb.l0At = some s.now ∧ ((getBank s b).drv.sta = Sta.allOff → (getBank s b).drv.pend = PendDown.none) ∧ l < 5 ∧ q.rack.getLsbD l = true ∧ (getLayer (getBank s b) l).cur = some c ∧ c.named &&& lineBit q.line ≠ 0) :=
  ⟨⟨.bankA, wSta .content, by decide⟩,
    ⟨.bankA, wBoot, by decide⟩,
    ⟨.bankA, [], wSta .content, by decide⟩,
    ⟨.bankA, onDrv (fun d => { d with dutyWait := true, duty := 3, reqNext := some false }) (wSta .content), by decide⟩,
    ⟨.bankA, ⟨0, true, 1, 0⟩, ⟨3, 1, 3⟩, 0, onA (fun x => { x with layers := x.layers.set 0 { x.layers[0] with cur := some ⟨3, 1, 3⟩ } }) (onArb (fun a => { a with l0At := some 0 }) (onDrv (fun d => { d with burst := some ⟨0, true, 1, 0⟩ }) (wSta .content))), by decide⟩⟩

set_option maxRecDepth 20000 in
theorem witness_BookingPassesBookEveryUsedPixel :
    (∃ (b : Bank) (ups : List Upset) (s : State), arbServe s (Grant.low 2) = none) ∧
    (∃ (b : Bank) (q : Pass) (rest : List Pass) (s : State) (u : State), domains s = true ∧ (getBank s b).led.passes = q :: rest ∧ arbServe s (Grant.low 2) = some u ∧ (getBank s b).led.clr = false ∧ s.arb.ecc = [] ∧ Cellar.wf s.mem = true) :=
  ⟨⟨.bankA, [], onP (fun x => { x with buf := [.wdata 0x00010 0x1234] }) wRun, by decide⟩,
    ⟨.bankA, ⟨[blankRec wRun .bankA 0, { blankRec wRun .bankA 1 with pix := 3 }], (15360, 16), 0, true⟩, [], onA (fun x => { x with led := { x.led with passes := [⟨[blankRec wRun .bankA 0, { blankRec wRun .bankA 1 with pix := 3 }], (15360, 16), 0, true⟩] } }) wRun, onA (fun x => { x with led := { x.led with passes := [⟨[blankRec wRun .bankA 0, { blankRec wRun .bankA 1 with pix := 3 }], (15360, 16), 0, true⟩] } }) wRun, by decide⟩⟩

set_option maxRecDepth 20000 in
theorem witness_ContrastTrimAndTemperature :
    (∃ (p : Port) (b : Bank) (w : Word) (s : State), reachesRule s p 19 (wordOf (16384 + 32768 * b.num)) w) ∧
    (∃ (p : Port) (v : Word) (w : Word) (s : State) (b : Bank), reachesRule s p 19 v w ∧ bit w 14 = false ∧ b = Bank.ofBit (bit w 15)) ∧
    (∃ (b : Bank) (s : State), vlen (getBank s b).drv = true ∧ (getBank s b).trim.now ≠ trimEff (getBank s b).trim) ∧
    (∃ (x : Word) (s : State), active s = true) ∧
    (∃ (s : State), domains s = true) :=
  ⟨⟨.portP, .bankB, 0xC000, wRun, (by unfold reachesRule; decide)⟩,
    ⟨.portP, 0x00FE, 0x00FE, wRun, .bankA, (by unfold reachesRule; decide)⟩,
    ⟨.bankA, onA (fun x => { x with trim := { x.trim with target := 1, armed := true } }) (wSta .content), by decide⟩,
    ⟨0x0400, wRun, by decide⟩,
    ⟨wRun, by decide⟩⟩

set_option maxRecDepth 20000 in
theorem witness_CrackMeasurementsAreJudged :
    (∃ (b : Bank) (m : Nat) (s : State), driven (getBank s b).drv = true ∧ (getBank s b).crack.en = true ∧ (getBank s b).crack.startNext = false ∧ (getBank s b).drv.fcnt % 16 ≠ 0 ∧ 5000 < m ∧ (getBank s b).crack.openRun = 1 ∧ (getBank s b).crack.sta ≠ 4 ∧ s.disp.crackPol = 1 ∧ (getBank s b).drv.sta = .settling) ∧
    (∃ (b : Bank) (m : Nat) (s : State), driven (getBank s b).drv = true ∧ (getBank s b).crack.en = true ∧ (getBank s b).crack.startNext = false ∧ (getBank s b).drv.fcnt % 16 ≠ 0 ∧ 5000 < m ∧ (getBank s b).crack.openRun = 1 ∧ (getBank s b).crack.sta ≠ 4 ∧ s.disp.crackPol = 1 ∧ (getBank s b).drv.sta = .content ∧ (getBank s b).drv.pend = .none) ∧
    (∃ (b : Bank) (m : Nat) (s : State), driven (getBank s b).drv = true ∧ (getBank s b).crack.en = true ∧ (getBank s b).crack.startNext = false ∧ (getBank s b).drv.fcnt % 16 = 0 ∧ (pg s 0xEC12).toNat * 100 < m ∧ (getBank s b).crack.leakRun = 1 ∧ (getBank s b).crack.openRun < 2 ∧ (getBank s b).crack.sta ≠ 4 ∧ (getBank s b).crack.sta ≠ 5 ∧ s.disp.crackPol = 1) ∧
    (∃ (b : Bank) (m : Nat) (s : State), (driven (getBank s b).drv = false ∨ (getBank s b).crack.en = false)) ∧
    (∃ (b : Bank) (m : Nat) (s : State), driven (getBank s b).drv = true ∧ (getBank s b).crack.en = true ∧ (getBank s b).crack.startNext = false ∧ (getBank s b).drv.fcnt % 16 ≠ 0) ∧
    (∃ (b : Bank) (m : Nat) (s : State), driven (getBank s b).drv = true ∧ (getBank s b).crack.en = true ∧ (getBank s b).crack.startNext = false ∧ (getBank s b).drv.fcnt % 16 = 0) :=
  ⟨⟨.bankA, 6001, (onA (fun x => { x with crack := { x.crack with openRun := 1, sta := 2 } }) { onDrv (fun d => { d with fcnt := 1, req := true }) (wSta .settling) with disp := { wRun.disp with crackPol := 1 } }), by decide⟩,
    ⟨.bankA, 5001, (onA (fun x => { x with crack := { x.crack with openRun := 1, sta := 2 } }) { onDrv (fun d => { d with fcnt := 1 }) (wSta .content) with disp := { wRun.disp with crackPol := 1 } }), by decide⟩,
    ⟨.bankA, 70000, (onA (fun x => { x with crack := { x.crack with leakRun := 1, sta := 2 } }) { wSta .content with disp := { wRun.disp with crackPol := 1 } }), by decide⟩,
    ⟨.bankA, 300, wRun, by decide⟩,
    ⟨.bankA, 6001, onA (fun x => { x with crack := { x.crack with openRun := 1, sta := 2 } }) { onDrv (fun d => { d with fcnt := 1 }) (wSta .allOff) with disp := { wRun.disp with crackPol := 1 } }, by decide⟩,
    ⟨.bankA, 70000, wSta .content, by decide⟩⟩

set_option maxRecDepth 20000 in
theorem witness_CommitsLayersAndBlink :
    (∃ (p : Port) (v : Word) (w : Word) (s : State) (c : State), reachesRule s p 16 v w ∧ captured (gen1Empty s p 16) p = c ∧ commitRefusal c p w = none ∧ (getPort c p).buf.length < 32 ∧ pageMode c p = false) ∧
    (∃ (p : Port) (v : Word) (w : Word) (s : State) (c : State), reachesRule s p 16 v w ∧ captured (gen1Empty s p 16) p = c ∧ bit w 4 = true ∧ isSup s p = false ∧ pageMode c p = false) ∧
    (∃ (p : Port) (v : Word) (rest : List BufEntry) (s : State), (getPort s p).buf = BufEntry.dcommit v :: rest ∧ domains s = true ∧ s.portP.held = Held.none) ∧
    (∃ (p : Port) (v : Word) (w : Word) (s : State), reachesRule s p 17 v w ∧ fld w 0 3 ≤ 4) ∧
    (∃ (p : Port) (v : Word) (w : Word) (s : State), reachesRule s p 17 v w ∧ 4 < fld w 0 3) ∧
    (∃ (p : Port) (v : Word) (w : Word) (s : State), reachesRule s p 18 v w) :=
  ⟨⟨.portP, 0xF021, 0xF021, wRun, wRun, (by unfold reachesRule; decide)⟩,
    ⟨.portP, 0xF030, 0xF030, wRun, wRun, (by unfold reachesRule; decide)⟩,
    ⟨.portP, 0x3021, [], { onP (fun x => { x with buf := [.dcommit 0x3021] }) wRun with now := 5 }, by decide⟩,
    ⟨.portP, 0x00EC, 0x00EC, wRun, (by unfold reachesRule; decide)⟩,
    ⟨.portP, 0x0005, 0x0005, wRun, (by unfold reachesRule; decide)⟩,
    ⟨.portP, 0xFFFF, 0xFFFF, wRun, (by unfold reachesRule; decide)⟩⟩

set_option maxRecDepth 20000 in
theorem witness_ThreadAndRegionPageRows :
    (∃ (p : Port) (b : Bank) (s : State) (u : State), pageAccepted s u p (51328 + 16 * b.num) (fun w => w ||| 1) ∧ Cellar.wf u.mem = true) ∧
    (∃ (p : Port) (b : Bank) (s : State) (u : State), pageAccepted s u p (51328 + 16 * b.num) (fun w => w &&& 65534) ∧ Cellar.wf u.mem = true) ∧
    (∃ (p : Port) (r : Fin 4) (second : Bool) (v : Word) (s : State) (u : State), pageAccepted s u p (51360 + 8 * ↑r + if second = true then 2 else 0) (fun _ => v) ∧ Cellar.wf u.mem = true) ∧
    (∃ (p : Port) (r : Fin 4) (s : State) (u : State), pageAccepted s u p (51360 + 8 * ↑r + 4) (fun w => w ||| 2)) ∧
    (∃ (p : Port) (b : Bank) (e : Byte) (s : State) (c : State), readable s p ∧ pageCaptured s p = c ∧ winError c p (51328 + 16 * b.num) (pg c (51328 + 16 * b.num) &&& wordOf (pageWord (51328 + 16 * b.num)).stored ||| 1) = some e) ∧
    (∃ (b : Bank) (x : BufEntry) (rest : List BufEntry) (s : State) (c : State), readable s Port.portP ∧ pageCaptured s Port.portP = c ∧ c.portP.buf = x :: rest ∧ c.portP.buf.length < 32 ∧ winError c Port.portP (51328 + 16 * b.num) (pg c (51328 + 16 * b.num) &&& wordOf (pageWord (51328 + 16 * b.num)).stored ||| 1) = none) :=
  ⟨⟨.portP, .bankB, wRun, wRun, (by unfold pageAccepted readable; decide)⟩,
    ⟨.portS, .bankA, wPage 0xC880 1 wRun, wPage 0xC880 1 wRun, (by unfold pageAccepted readable; decide)⟩,
    ⟨.portS, 2, true, 0, wRun, wRun, (by unfold pageAccepted readable; decide)⟩,
    ⟨.portS, 3, wRun, wRun, (by unfold pageAccepted readable; decide)⟩,
    ⟨.portP, .bankA, eSTATE, onPw (fun p => { p with mode := .corkEntry }) State.reset, onPw (fun p => { p with mode := .corkEntry }) State.reset, (by unfold readable; decide)⟩,
    ⟨.bankB, .dcommit 0x3021, [], onP (fun x => { x with buf := [.dcommit 0x3021] }) (onPw (fun p => { p with expert := true }) wRun), onP (fun x => { x with buf := [.dcommit 0x3021] }) (onPw (fun p => { p with expert := true }) wRun), (by unfold readable; decide)⟩⟩

set_option maxRecDepth 20000 in
theorem witness_ThreadControlLoopAndBar :
    (∃ (b : Bank) (ups : List Upset) (s : State) (u : State) (r : State), upsets u ups = r ∧ animReady s u ups b 0 0 61) ∧
    (∃ (b : Bank) (ups : List Upset) (s : State) (u : State) (r : State), upsets u ups = r ∧ animReady s u ups b 3 12 49 ∧ ifld (animFetch r b) 0 12 ≠ 0) ∧
    (∃ (b : Bank) (ups : List Upset) (s : State) (u : State) (r : State), upsets u ups = r ∧ animReady s u ups b 5 0 58) ∧
    (∃ (b : Bank) (ups : List Upset) (s : State) (u : State) (r : State), upsets u ups = r ∧ animReady s u ups b 7 17 44 ∧ ifld (animFetch r b) 0 17 % 8 = 0) ∧
    (∃ (b : Bank) (ups : List Upset) (s : State) (u : State) (r : State), upsets u ups = r ∧ (getBank s b).thr.stat = 1 ∧ 64 ≤ (getBank s b).thr.execd) ∧
    (∃ (b : Bank) (ups : List Upset) (s : State) (u : State) (r : State) (w : BitVec 64), upsets u ups = r ∧ w = animFetch r b ∧ animReady s u ups b 4 44 15 ∧ ifld w 17 15 = 0 ∧ ifld w 0 17 % 8 = 0) ∧
    (∃ (b : Bank) (ups : List Upset) (s : State) (u : State) (r : State) (w : BitVec 64), upsets u ups = r ∧ w = animFetch r b ∧ animReady s u ups b 6 17 30 ∧ ifld w 53 1 = 1 ∧ ifld w 0 17 % 2 = 0) ∧
    (∃ (b : Bank) (ups : List Upset) (s : State) (u : State) (r : State) (w : BitVec 64), upsets u ups = r ∧ w = animFetch r b ∧ animReady s u ups b 6 17 30 ∧ ifld w 53 1 = 0 ∧ ifld w 0 17 % 2 = 0 ∧ (animRead (animRead1 r b) (ifld w 0 17) 2).1 = false) ∧
    (∃ (b : Bank) (ups : List Upset) (s : State) (u : State) (r : State) (w : BitVec 64), upsets u ups = r ∧ w = animFetch r b ∧ animReady s u ups b 6 17 30 ∧ ifld w 53 1 = 0 ∧ ifld w 0 17 % 2 = 0 ∧ (animRead (animRead1 r b) (ifld w 0 17) 2).1 = true) ∧
    (∃ (b : Bank) (ups : List Upset) (s : State) (u : State) (r : State) (w : BitVec 64), upsets u ups = r ∧ w = animFetch r b ∧ animReady s u ups b 6 17 30 ∧ ifld w 0 17 % 2 = 1) :=
  ⟨⟨.bankA, [], wAnim 0, wAnim 0, wAnim 0, (by unfold animReady; decide)⟩,
    ⟨.bankA, [], wAnim (at2 [(61, 3), (0, 0xFFF)]), wAnim (at2 [(61, 3), (0, 0xFFF)]), wAnim (at2 [(61, 3), (0, 0xFFF)]), (by unfold animReady; decide)⟩,
    ⟨.bankA, [], wAnim (at2 [(61, 5), (59, 2), (58, 1)]), wAnim (at2 [(61, 5), (59, 2), (58, 1)]), wAnim (at2 [(61, 5), (59, 2), (58, 1)]), (by unfold animReady; decide)⟩,
    ⟨.bankA, [], wAnim (at2 [(61, 7), (0, 0x1FFF8)]), wAnim (at2 [(61, 7), (0, 0x1FFF8)]), wAnim (at2 [(61, 7), (0, 0x1FFF8)]), (by unfold animReady; decide)⟩,
    ⟨.bankA, [], onThr (fun t => { t with execd := 64 }) (wAnim 0), onThr (fun t => { t with execd := 64 }) (wAnim 0), onThr (fun t => { t with execd := 64 }) (wAnim 0), by decide⟩,
    ⟨.bankA, [], wAnim (at2 [(61, 4), (59, 1), (32, 2), (0, 0x80)]), wAnim (at2 [(61, 4), (59, 1), (32, 2), (0, 0x80)]), wAnim (at2 [(61, 4), (59, 1), (32, 2), (0, 0x80)]), BitVec.ofNat 64 (at2 [(61, 4), (59, 1), (32, 2), (0, 0x80)]), (by unfold animReady; decide)⟩,
    ⟨.bankA, [], wAnim (at2 [(61, 6), (59, 1), (53, 1)]), wAnim (at2 [(61, 6), (59, 1), (53, 1)]), wAnim (at2 [(61, 6), (59, 1), (53, 1)]), BitVec.ofNat 64 (at2 [(61, 6), (59, 1), (53, 1)]), (by unfold animReady; decide)⟩,
    ⟨.bankA, [], wPage 0x10102 5 (wAnim (at2 [(61, 6), (59, 1), (56, 7), (54, 1), (47, 3), (0, 0x100)])), wPage 0x10102 5 (wAnim (at2 [(61, 6), (59, 1), (56, 7), (54, 1), (47, 3), (0, 0x100)])), wPage 0x10102 5 (wAnim (at2 [(61, 6), (59, 1), (56, 7), (54, 1), (47, 3), (0, 0x100)])), BitVec.ofNat 64 (at2 [(61, 6), (59, 1), (56, 7), (54, 1), (47, 3), (0, 0x100)]), (by unfold animReady; decide)⟩,
    ⟨.bankA, [], (fun s => { s with arb := { s.arb with ecc := [(0x10100, .double)] } }) (wAnim (at2 [(61, 6), (59, 1), (56, 7), (54, 1), (47, 3), (0, 0x100)])), (fun s => { s with arb := { s.arb with ecc := [(0x10100, .double)] } }) (wAnim (at2 [(61, 6), (59, 1), (56, 7), (54, 1), (47, 3), (0, 0x100)])), (fun s => { s with arb := { s.arb with ecc := [(0x10100, .double)] } }) (wAnim (at2 [(61, 6), (59, 1), (56, 7), (54, 1), (47, 3), (0, 0x100)])), BitVec.ofNat 64 (at2 [(61, 6), (59, 1), (56, 7), (54, 1), (47, 3), (0, 0x100)]), (by unfold animReady; decide)⟩,
    ⟨.bankA, [], wAnim (at2 [(61, 6), (59, 1), (56, 7), (0, 0x101)]), wAnim (at2 [(61, 6), (59, 1), (56, 7), (0, 0x101)]), wAnim (at2 [(61, 6), (59, 1), (56, 7), (0, 0x101)]), BitVec.ofNat 64 (at2 [(61, 6), (59, 1), (56, 7), (0, 0x101)]), (by unfold animReady; decide)⟩⟩

set_option maxRecDepth 20000 in
theorem witness_DrawingInstructionsWriteTheAnimationDecanter :
    (∃ (b : Bank) (s : State) (u : State) (w : BitVec 64), w = animFetch s b ∧ s.arb.ecc = [] ∧ Cellar.wf s.mem = true ∧ animReady s u [] b 2 0 38 ∧ ifld w 57 4 ≤ ifld w 53 4 ∧ ifld w 46 7 ≤ ifld w 39 7) ∧
    (∃ (b : Bank) (s : State) (u : State) (w : BitVec 64), w = animFetch s b ∧ s.arb.ecc = [] ∧ Cellar.wf s.mem = true ∧ animReady s u [] b 1 17 30 ∧ ifld w 57 4 ≤ ifld w 53 4 ∧ ifld w 50 3 ≤ ifld w 47 3 ∧ ifld w 0 17 % 2 = 0) ∧
    (∃ (b : Bank) (s : State) (u : State) (w : BitVec 64), w = animFetch s b ∧ s.arb.ecc = [] ∧ Cellar.wf s.mem = true ∧ animReady s u [] b 2 0 38 ∧ ifld w 53 4 < ifld w 57 4) :=
  ⟨⟨.bankA, wAnim (at2 [(61, 2), (57, 2), (53, 5), (46, 3), (39, 100), (38, 1)]), wAnim (at2 [(61, 2), (57, 2), (53, 5), (46, 3), (39, 100), (38, 1)]), BitVec.ofNat 64 (at2 [(61, 2), (57, 2), (53, 5), (46, 3), (39, 100), (38, 1)]), (by unfold animReady; decide)⟩,
    ⟨.bankA, wAnim (at2 [(61, 1), (57, 2), (53, 5), (50, 3), (47, 7), (0, 0x40)]), wAnim (at2 [(61, 1), (57, 2), (53, 5), (50, 3), (47, 7), (0, 0x40)]), BitVec.ofNat 64 (at2 [(61, 1), (57, 2), (53, 5), (50, 3), (47, 7), (0, 0x40)]), (by unfold animReady; decide)⟩,
    ⟨.bankA, wAnim (at2 [(61, 2), (57, 5), (53, 4), (46, 3), (39, 100)]), wAnim (at2 [(61, 2), (57, 5), (53, 4), (46, 3), (39, 100)]), BitVec.ofNat 64 (at2 [(61, 2), (57, 5), (53, 4), (46, 3), (39, 100)]), (by unfold animReady; decide)⟩⟩

set_option maxRecDepth 20000 in
theorem witness_KeyScanControlAndKeyEventsLeave :
    (∃ (p : Port) (v : Word) (w : Word) (s : State), reachesRule s p 21 v w ∧ 2 ≤ fld w 4 4 ∧ fld w 4 4 ≤ 8) ∧
    (∃ (p : Port) (v : Word) (w : Word) (s : State), reachesRule s p 21 v w ∧ (fld w 4 4 < 2 ∨ 8 < fld w 4 4)) ∧
    (∃ (p : Port) (s : State) (u : State), pageAccepted s u p 52224 (fun w => w ||| 8) ∧ Cellar.wf u.mem = true ∧ u.keys.capt = []) ∧
    (∃ (p : Port) (e : Word) (rest : List Word) (s : State), readable s p ∧ s.keys.fifo = e :: rest) ∧
    (∃ (p : Port) (s : State), readable s p ∧ s.keys.fifo = []) ∧
    (∃ (e : KeyLog) (rest : List KeyLog) (s : State) (u : State), s.keys.logQ = e :: rest ∧ domains s = true ∧ arbServe s (Grant.low 5) = some u ∧ Cellar.wf s.mem = true) ∧
    (∃ (p : Port) (v : Word) (w : Word) (ret : Byte) (s : State), reachesRule s p 21 v w ∧ 2 ≤ fld w 4 4 ∧ fld w 4 4 ≤ 8 ∧ s.keys.boot = 0 ∧ s.keys.line = 0 ∧ s.keys.en = true ∧ s.keys.scanAt ≠ some s.now ∧ s.keys.regAt ≠ some s.now ∧ s.keys.enNext = none ∧ s.keys.logHold = none ∧ slotBegins s = true) :=
  ⟨⟨.portP, 0x7F81, 0x7F81, wRun, (by unfold reachesRule; decide)⟩,
    ⟨.portP, 0x7F90, 0x7F90, wRun, (by unfold reachesRule; decide)⟩,
    ⟨.portP, wExp, wExp, (by unfold pageAccepted readable; decide)⟩,
    ⟨.portP, 0x1234, [], onKeys (fun k => { k with fifo := [0x1234] }) wRun, (by unfold readable; decide)⟩,
    ⟨.portP, wRun, (by unfold readable; decide)⟩,
    ⟨⟨0x1234, 1025, 3, 4, 5, 6, 1⟩, [], onKeys (fun k => { k with logQ := [⟨0x1234, 1025, 3, 4, 5, 6, 1⟩] }) wRun, onKeys (fun k => { k with logQ := [⟨0x1234, 1025, 3, 4, 5, 6, 1⟩] }) wRun, by decide⟩,
    ⟨.portP, 0x7F80, 0x7F80, 0xFF, onKeys (fun k => { k with boot := 0, en := true, run := true, due := true }) (wSta .content), (by unfold reachesRule; decide)⟩⟩

set_option maxRecDepth 20000 in
theorem witness_KeySlotsDebounceTheirLine :
    (∃ (s : State) (k : Keys), slotBegins (slotMeets s) = true ∧ k = (slotBegun s).keys ∧ k.line < 16 ∧ k.boot = 1 ∧ k.cur.lines ≤ k.line) ∧
    (∃ (ret : Byte) (s : State) (k : Keys), slotBegins (slotMeets s) = true ∧ k = (slotBegun s).keys ∧ k.line < 16) ∧
    (∃ (ret : Byte) (s : State) (k : Keys) (n : Nat), slotBegins (slotMeets s) = true ∧ k = (slotBegun s).keys ∧ k.line < 16) ∧
    (∃ (old : BitVec 128) (l : Nat) (r : Nat) (n : Nat) (ty : Nat) (gh : Bool) (s : State), n = keyNo l r ∧ gh = (!s.keys.cur.diodes && rectangle s.keys.kmap l r) ∧ s.keys.kmap.getLsbD n = true ∧ old.getLsbD n = false ∧ gh = false ∧ ty = (if 0 < s.keys.boot then tHELD else tPRESS)) ∧
    (∃ (old : BitVec 128) (l : Nat) (r : Nat) (n : Nat) (ty : Nat) (gh : Bool) (s : State), n = keyNo l r ∧ gh = (!s.keys.cur.diodes && rectangle s.keys.kmap l r) ∧ s.keys.kmap.getLsbD n = true ∧ old.getLsbD n = false ∧ gh = true) ∧
    (∃ (old : BitVec 128) (l : Nat) (r : Nat) (n : Nat) (ty : Nat) (gh : Bool) (s : State), n = keyNo l r ∧ gh = (!s.keys.cur.diodes && rectangle s.keys.kmap l r) ∧ s.keys.kmap.getLsbD n = false ∧ old.getLsbD n = true) ∧
    (∃ (old : BitVec 128) (l : Nat) (r : Nat) (n : Nat) (ty : Nat) (gh : Bool) (s : State), n = keyNo l r ∧ gh = (!s.keys.cur.diodes && rectangle s.keys.kmap l r) ∧ s.keys.kmap.getLsbD n = old.getLsbD n ∧ s.keys.amap.getLsbD n = true ∧ gh = false) ∧
    (∃ (old : BitVec 128) (l : Nat) (r : Nat) (n : Nat) (ty : Nat) (gh : Bool) (s : State), n = keyNo l r ∧ gh = (!s.keys.cur.diodes && rectangle s.keys.kmap l r) ∧ s.keys.kmap.getLsbD n = old.getLsbD n ∧ (s.keys.amap.getLsbD n = false ∨ gh = true)) :=
  ⟨⟨(onKeys (fun k => { k with boot := 1, en := true, run := true, line := 15, kmap := 0x101, reg := { k.reg with lines := 0 } }) wRun), (slotBegun (onKeys (fun k => { k with boot := 1, en := true, run := true, line := 15, kmap := 0x101, reg := { k.reg with lines := 0 } }) wRun)).keys, by decide⟩,
    ⟨0x01, onKeys (fun k => { k with due := true, en := true, counts := vset k.counts 0 3 }) (wSta .content), (slotBegun (onKeys (fun k => { k with due := true, en := true, counts := vset k.counts 0 3 }) (wSta .content))).keys, by decide⟩,
    ⟨0xFF, onKeys (fun k => { k with en := true, line := 15 }) wRun, (slotBegun (onKeys (fun k => { k with en := true, line := 15 }) wRun)).keys, 77, by decide⟩,
    ⟨0, 1, 2, 10, tPRESS, false, onKeys (fun k => { k with kmap := 0x400, boot := 0 }) wRun, by decide⟩,
    ⟨0x0103, 1, 1, 9, 0, true, onKeys (fun k => { k with kmap := 0x0303, boot := 0, cur := { k.cur with diodes := false } }) wRun, by decide⟩,
    ⟨0x0400, 1, 2, 10, 0, false, onKeys (fun k => { k with amap := 0x400 }) wRun, by decide⟩,
    ⟨0x0400, 1, 2, 10, 0, false, onKeys (fun k => { k with kmap := 0x400, amap := 0x400 }) wRun, by decide⟩,
    ⟨0x0303, 1, 1, 9, 0, true, onKeys (fun k => { k with kmap := 0x0303, amap := 0x200, cur := { k.cur with diodes := false } }) wRun, by decide⟩⟩

set_option maxRecDepth 20000 in
theorem witness_KeyEventsEnterTheFifo :
    ∃ (p : Port) (e : Word) (rest : List Word) (s : State), readable s p ∧ s.keys.fifo = e :: rest ∧ keyType e = tMARKER ∧ hasMarker rest = false ∧ rest.length < 15 :=
  ⟨.portP, 0x0500, [0x1000], onKeys (fun k => { k with fifo := [0x0500, 0x1000] }) wRun, (by unfold readable; decide)⟩

set_option maxRecDepth 20000 in
theorem witness_LampRegistersAndFaultClears :
    (∃ (p : Port) (v : Word) (w : Word) (new : Word) (s : State), reachesRule s p 24 v w ∧ new = w &&& ~~~wordOf (gangOdd s) ||| s.lamps.lctl &&& wordOf (gangOdd s) ∧ (isSup s p = true ∨ (new ^^^ s.lamps.lctl) &&& wordOf (BitVec.toNat s.lamps.ttClaim * 257) = 0) ∧ (s.pw.mode = Mode.standby → new &&& ~~~s.lamps.lctl &&& 255 = 0)) ∧
    (∃ (p : Port) (v : Word) (w : Word) (new : Word) (s : State), reachesRule s p 24 v w ∧ new = w &&& ~~~wordOf (gangOdd s) ||| s.lamps.lctl &&& wordOf (gangOdd s) ∧ isSup s p = false ∧ (new ^^^ s.lamps.lctl) &&& wordOf (BitVec.toNat s.lamps.ttClaim * 257) ≠ 0) ∧
    (∃ (p : Port) (v : Word) (w : Word) (new : Word) (s : State), reachesRule s p 24 v w ∧ new = w &&& ~~~wordOf (gangOdd s) ||| s.lamps.lctl &&& wordOf (gangOdd s) ∧ (isSup s p = true ∨ (new ^^^ s.lamps.lctl) &&& wordOf (BitVec.toNat s.lamps.ttClaim * 257) = 0) ∧ s.pw.mode = Mode.standby ∧ new &&& ~~~s.lamps.lctl &&& 255 ≠ 0) ∧
    (∃ (p : Port) (v : Word) (w : Word) (s : State), reachesRule s p 27 v w ∧ (BitVec.getLsbD s.lamps.ttClaim ↑s.lamps.selCh = false ∨ isSup s p = true) ∧ s.lamps.selParam < 4 ∧ BitVec.toNat w ≤ lparamMax s.lamps.selParam) ∧
    (∃ (p : Port) (v : Word) (w : Word) (s : State), reachesRule s p 27 v w ∧ (BitVec.getLsbD s.lamps.ttClaim ↑s.lamps.selCh = false ∨ isSup s p = true) ∧ s.lamps.selParam = 5 ∧ BitVec.toNat w ≤ 1 ∧ (getLamp s s.lamps.selCh).mode = LampMode.off ∧ (getLamp s (pairOf s.lamps.selCh)).mode = LampMode.off) ∧
    (∃ (p : Port) (v : Word) (w : Word) (s : State), reachesRule s p 27 v w ∧ (BitVec.getLsbD s.lamps.ttClaim ↑s.lamps.selCh = false ∨ isSup s p = true) ∧ s.lamps.selParam = 4 ∧ ↑s.lamps.selCh % 2 = 0 ∧ BitVec.toNat w ≤ 1 ∧ (getLamp s s.lamps.selCh).mode = LampMode.off ∧ (getLamp s (pairOf s.lamps.selCh)).mode = LampMode.off) ∧
    (∃ (p : Port) (v : Word) (w : Word) (s : State), reachesRule s p 27 v w ∧ (BitVec.getLsbD s.lamps.ttClaim ↑s.lamps.selCh = false ∨ isSup s p = true) ∧ (lparamMax s.lamps.selParam < BitVec.toNat w ∨ s.lamps.selParam = 4 ∧ ↑s.lamps.selCh % 2 = 1)) ∧
    (∃ (p : Port) (v : Word) (w : Word) (s : State), reachesRule s p 27 v w ∧ (BitVec.getLsbD s.lamps.ttClaim ↑s.lamps.selCh = false ∨ isSup s p = true) ∧ (s.lamps.selParam = 5 ∨ s.lamps.selParam = 4 ∧ ↑s.lamps.selCh % 2 = 0) ∧ BitVec.toNat w ≤ 1 ∧ ((getLamp s s.lamps.selCh).mode ≠ LampMode.off ∨ (getLamp s (pairOf s.lamps.selCh)).mode ≠ LampMode.off)) ∧
    (∃ (p : Port) (v : Word) (w : Word) (s : State), reachesRule s p 28 v w) ∧
    (∃ (p : Port) (v : Word) (w : Word) (x : LampCause) (s : State), reachesRule s p 28 v w ∧ (getLamp (causeArises s x) x.n).flt = true) ∧
    (∃ (p : Port) (v : Word) (w : Word) (s : State), reachesRule s p 27 v w ∧ BitVec.getLsbD s.lamps.ttClaim ↑s.lamps.selCh = true ∧ isSup s p = false) :=
  ⟨⟨.portP, 0x0101, 0x0101, 0x0101, wRun, (by unfold reachesRule; decide)⟩,
    ⟨.portP, 0x0101, 0x0101, 0x0101, onLamps (fun l => { l with ttClaim := 1 }) wRun, (by unfold reachesRule; decide)⟩,
    ⟨.portS, 0x0101, 0x0101, 0x0101, State.reset, (by unfold reachesRule; decide)⟩,
    ⟨.portP, 0x0064, 0x0064, onLamps (fun l => { l with selCh := 3, selParam := 0 }) wRun, (by unfold reachesRule; decide)⟩,
    ⟨.portP, 1, 1, onLamps (fun l => { l with selCh := 3, selParam := 5 }) wRun, (by unfold reachesRule; decide)⟩,
    ⟨.portP, 1, 1, onLamps (fun l => { l with selCh := 2, selParam := 4 }) wRun, (by unfold reachesRule; decide)⟩,
    ⟨.portP, 0, 0, onLamps (fun l => { l with selCh := 3, selParam := 4 }) wRun, (by unfold reachesRule; decide)⟩,
    ⟨.portP, 1, 1, onLamps (fun l => { l with selCh := 2, selParam := 5 }) (wLamp .on), (by unfold reachesRule; decide)⟩,
    ⟨.portP, 0x00FF, 0x00FF, onLamp 2 (fun l => { l with mode := .latched, flt := true, causes := 1, conducting := false }) (wLamp .on), (by unfold reachesRule; decide)⟩,
    ⟨.portP, 0x00FF, 0x00FF, ⟨2, 0, 5⟩, wLamp .on, (by unfold reachesRule; decide)⟩,
    ⟨.portP, 0xFFFF, 0xFFFF, onLamps (fun l => { l with selCh := 3, selParam := 0, ttClaim := 8 }) wRun, (by unfold reachesRule; decide)⟩⟩

set_option maxRecDepth 20000 in
theorem witness_LampTripsOpenTheSwitch :
    (∃ (n : Fin 8) (c : Instr) (e : Nat) (bitNo : Nat) (s : State), (getLamp s n).conducting = true ∧ powered (getLamp s n) = true ∧ (c = Instr.lampAbsoluteShort n e ∧ bitNo = cSHORT ∨ c = Instr.lampDesaturation n e ∧ bitNo = cSHORT ∧ (getLamp s n).senseless = false ∨ c = Instr.lampOverload n e ∧ bitNo = cSHORT ∧ (getLamp s n).mode = LampMode.on ∧ (getLamp s n).senseless = false ∨ c = Instr.lampOvertemp n ∧ bitNo = cOT ∧ e = 0)) ∧
    (∃ (n : Fin 8) (e : Nat) (s : State), (getLamp s n).conducting = true ∧ powered (getLamp s n) = true) ∧
    (∃ (n : Fin 8) (e : Nat) (e' : Nat) (s : State), ganged s n = true ∧ (getLamp s n).conducting = true ∧ powered (getLamp s n) = true ∧ (getLamp s (pairOf n)).conducting = true ∧ powered (getLamp s (pairOf n)) = true) :=
  ⟨⟨2, .lampAbsoluteShort 2 9, 9, cSHORT, wLamp .inrush, by decide⟩,
    ⟨2, 9, wLamp .on, by decide⟩,
    ⟨2, 9, 7, onLamp 2 (fun l => { l with gang := true, rleft := 3 }) (onLamp 3 (fun l => { l with mode := .on, conducting := true }) (wLamp .on)), by decide⟩⟩

set_option maxRecDepth 20000 in
theorem witness_LampRetriesWindowsAndPwm :
    (∃ (n m : Fin 8) (s : State), (getLamp s n).mode = .wait ∧ retryTimeOver s (getLamp s n) = true ∧ effReq s n = true ∧ budgetHolds s n = false ∧ m ∈ mates s n ∧ m ≠ n ∧ (getLamp s m).mode = .wait ∧ retryTimeOver s (getLamp s m) = true ∧ budgetHolds s m = true) ∧
    (∃ (n : Fin 8) (s : State), retryTimeOver s (getLamp s n) = false) ∧
    (∃ (n : Fin 8) (s : State), (getLamp s n).mode = LampMode.wait ∧ retryTimeOver s (getLamp s n) = true ∧ effReq s n = true ∧ (∀ m ∈ mates s n, (getLamp s m).otWait = false ∨ (getLamp s m).hot = false) ∧ budgetHolds s n = false) ∧
    (∃ (n : Fin 8) (s : State), (getLamp s n).mode = LampMode.wait ∧ (getLamp s n).retryRdy = true ∧ effReq s n = true ∧ (∀ m ∈ mates s n, m ≠ n → (getLamp s m).otWait = false ∨ (getLamp s m).hot = false) ∧ budgetHolds s n = false) ∧
    (∃ (n : Fin 8) (s : State), gridEdge s n = false) ∧
    (∃ (n : Fin 8) (i : Word) (s : State), (getLamp s n).mode = LampMode.on ∧ (getLamp s n).pwmRun = true ∧ (getLamp s n).conducting = true) ∧
    (∃ (n : Fin 8) (P : Nat) (s : State) (u : State), gridEdge s n = true ∧ (getLamp s n).mode = LampMode.on ∧ bit s.lamps.lctl (↑(leader s n) + 8) = true ∧ P = pwmPeriod (getLamp s (leader s n)).pwmf (pgf s (lampPage (leader s n) + 4) 0 16) ∧ u = setLamp s n (have __src := getLamp s n; { duty := __src.duty, pwmf := __src.pwmf, inrush := __src.inrush, retry := __src.retry, gang := __src.gang, flash := __src.flash, mode := __src.mode, conducting := __src.conducting, limA := __src.limA, winEnd := __src.winEnd, winMs := __src.winMs, derlvl := __src.derlvl, rleft := __src.rleft, retryN := __src.retryN, senseless := __src.senseless, gangDer := __src.gangDer, gangCap := if (getLamp s n).gangDer = true then gangCapOf (BitVec.toNat (getLamp s n).iOn) else (getLamp s n).gangCap, causes := __src.causes, flt := __src.flt, hot := __src.hot, otWait := __src.otWait, retryRdy := __src.retryRdy, pwmP := __src.pwmP, pwmHz := __src.pwmHz, dutyNow := (getLamp s (leader s n)).duty, pwmRun := __src.pwmRun, openNow := __src.openNow, offDiag := __src.offDiag, runI := __src.runI, boutI := __src.boutI, retryMs := __src.retryMs, onAt := __src.onAt, tripAt := __src.tripAt, cut := __src.cut, inr := __src.inr, fltCnt := __src.fltCnt, iOn := __src.iOn }) ∧ (P = 0 ∨ P = (getLamp s n).pwmP)) ∧
    (∃ (n : Fin 8) (P : Nat) (s : State) (u : State), gridEdge s n = true ∧ (getLamp s n).mode = LampMode.on ∧ bit s.lamps.lctl (↑(leader s n) + 8) = true ∧ P = pwmPeriod (getLamp s (leader s n)).pwmf (pgf s (lampPage (leader s n) + 4) 0 16) ∧ u = setLamp s n (have __src := getLamp s n; { duty := __src.duty, pwmf := __src.pwmf, inrush := __src.inrush, retry := __src.retry, gang := __src.gang, flash := __src.flash, mode := __src.mode, conducting := __src.conducting, limA := __src.limA, winEnd := __src.winEnd, winMs := __src.winMs, derlvl := __src.derlvl, rleft := __src.rleft, retryN := __src.retryN, senseless := __src.senseless, gangDer := __src.gangDer, gangCap := if (getLamp s n).gangDer = true then gangCapOf (BitVec.toNat (getLamp s n).iOn) else (getLamp s n).gangCap, causes := __src.causes, flt := __src.flt, hot := __src.hot, otWait := __src.otWait, retryRdy := __src.retryRdy, pwmP := __src.pwmP, pwmHz := __src.pwmHz, dutyNow := (getLamp s (leader s n)).duty, pwmRun := __src.pwmRun, openNow := __src.openNow, offDiag := __src.offDiag, runI := __src.runI, boutI := __src.boutI, retryMs := __src.retryMs, onAt := __src.onAt, tripAt := __src.tripAt, cut := __src.cut, inr := __src.inr, fltCnt := __src.fltCnt, iOn := __src.iOn }) ∧ P ≠ 0 ∧ P ≠ (getLamp s n).pwmP) ∧
    (∃ (n : Fin 8) (i : Nat) (s : State), (getLamp s n).gangDer = true ∧ (getLamp s n).gangCap = gangCapOf i) :=
  ⟨⟨2, 3, (onLamp 2 (fun l => { l with conducting := false, retryMs := 1, rleft := 3, gang := true }) (onLamp 3 (fun l => { l with mode := .wait, retryMs := 1, rleft := 3, gang := true }) (wBudget { wLamp .wait with now := 100000000 }))), by decide⟩,
    ⟨2, onLamp 2 (fun l => { l with conducting := false, rleft := 3, retryMs := 100 }) (wLamp .wait), by decide⟩,
    ⟨2, onLamp 2 (fun l => { l with conducting := false, retryMs := 1, rleft := 3 }) { wLamp .wait with now := 100000000 }, by decide⟩,
    ⟨2, onLamp 2 (fun l => { l with conducting := false, retryRdy := true, rleft := 3, hot := true, otWait := true }) (wLamp .wait), by decide⟩,
    ⟨2, onLamps (fun l => { l with flkAt := 77 }) (wLamp .on), by decide⟩,
    ⟨2, 0x0100, onLamp 2 (fun l => { l with pwmRun := true }) (wLamp .on), by decide⟩,
    ⟨2, pwmPeriod (getLamp ({ wLamp .on with now := (getLamp (wLamp .on) 2).pwmP / 8 }) 2).pwmf (pgf ({ wLamp .on with now := (getLamp (wLamp .on) 2).pwmP / 8 }) (lampPage 2 + 4) 0 16), { wLamp .on with now := (getLamp (wLamp .on) 2).pwmP / 8 }, setLamp ({ wLamp .on with now := (getLamp (wLamp .on) 2).pwmP / 8 }) 2 { getLamp ({ wLamp .on with now := (getLamp (wLamp .on) 2).pwmP / 8 }) 2 with dutyNow := (getLamp ({ wLamp .on with now := (getLamp (wLamp .on) 2).pwmP / 8 }) (leader ({ wLamp .on with now := (getLamp (wLamp .on) 2).pwmP / 8 }) 2)).duty, gangCap := if (getLamp ({ wLamp .on with now := (getLamp (wLamp .on) 2).pwmP / 8 }) 2).gangDer then gangCapOf (getLamp ({ wLamp .on with now := (getLamp (wLamp .on) 2).pwmP / 8 }) 2).iOn.toNat else (getLamp ({ wLamp .on with now := (getLamp (wLamp .on) 2).pwmP / 8 }) 2).gangCap }, by decide⟩,
    ⟨2, pwmPeriod (getLamp ({ onLamp 2 (fun l => { l with pwmf := 1, pwmP := 16 }) (wLamp .on) with now := 2 }) 2).pwmf (pgf ({ onLamp 2 (fun l => { l with pwmf := 1, pwmP := 16 }) (wLamp .on) with now := 2 }) (lampPage 2 + 4) 0 16), { onLamp 2 (fun l => { l with pwmf := 1, pwmP := 16 }) (wLamp .on) with now := 2 }, setLamp ({ onLamp 2 (fun l => { l with pwmf := 1, pwmP := 16 }) (wLamp .on) with now := 2 }) 2 { getLamp ({ onLamp 2 (fun l => { l with pwmf := 1, pwmP := 16 }) (wLamp .on) with now := 2 }) 2 with dutyNow := (getLamp ({ onLamp 2 (fun l => { l with pwmf := 1, pwmP := 16 }) (wLamp .on) with now := 2 }) (leader ({ onLamp 2 (fun l => { l with pwmf := 1, pwmP := 16 }) (wLamp .on) with now := 2 }) 2)).duty, gangCap := if (getLamp ({ onLamp 2 (fun l => { l with pwmf := 1, pwmP := 16 }) (wLamp .on) with now := 2 }) 2).gangDer then gangCapOf (getLamp ({ onLamp 2 (fun l => { l with pwmf := 1, pwmP := 16 }) (wLamp .on) with now := 2 }) 2).iOn.toNat else (getLamp ({ onLamp 2 (fun l => { l with pwmf := 1, pwmP := 16 }) (wLamp .on) with now := 2 }) 2).gangCap }, by decide⟩,
    ⟨2, 1875, onLamp 2 (fun l => { l with gangDer := true, gangCap := 400, dutyNow := 900 }) (wLamp .on), by decide⟩⟩

set_option maxRecDepth 20000 in
theorem witness_LampDiagnosticsAndGangs :
    (∃ (n : Fin 8) (c : Instr) (k : Nat) (s : State), (c = Instr.openLoadOn n ∧ k = cOPENON ∧ (getLamp s n).mode = LampMode.on ∧ (getLamp s n).senseless = false ∨ c = Instr.openLoadOff n ∧ k = cOPENOFF ∧ (getLamp s n).mode = LampMode.off ∧ (getLamp s n).offDiag = true ∧ slotsRun s = true ∨ c = Instr.shortToBattery n ∧ k = cSTB ∧ active s = true ∧ powered (getLamp s n) = false ∨ c = Instr.senseImplausible n ∧ k = cSENSE ∧ powered (getLamp s n) = true ∧ (getLamp s n).conducting = true)) ∧
    (∃ (n : Fin 8) (c : Instr) (k : Nat) (s : State), (getLamp s n).senseless = true) ∧
    (∃ (k : Fin 4) (odd : Bool) (ma : Nat) (e : Fin 8) (o : Fin 8) (s : State), e.val = 2 * k.val ∧ o.val = 2 * k.val + 1 ∧ (getLamp s e).gang = true ∧ (getLamp s e).mode = LampMode.on ∧ (getLamp s o).mode = LampMode.on ∧ (getLamp s e).senseless = false ∧ (getLamp s o).senseless = false) ∧
    (∃ (n : Fin 8) (s : State), (getLamp s n).gangDer = true ∧ (getLamp s n).mode = LampMode.inrush ∧ (getLamp s (pairOf n)).mode = LampMode.inrush) ∧
    (∃ (p : Port) (v : Word) (w : Word) (n : Fin 8) (s : State), reachesRule s p 28 v w) :=
  ⟨⟨2, .openLoadOn 2, cOPENON, wLamp .on, by decide⟩,
    ⟨2, .senseImplausible 2, cSENSE, onLamp 2 (fun l => { l with senseless := true }) (wLamp .on), by decide⟩,
    ⟨1, true, 900, 2, 3, onLamp 2 (fun l => { l with gang := true }) (onLamp 3 (fun l => { l with mode := .on, conducting := true }) (wLamp .on)), by decide⟩,
    ⟨3, onLamp 2 (fun l => { l with gang := true, mode := .inrush }) (onLamp 3 (fun l => { l with mode := .inrush, gangDer := true, limA := 40, winMs := 20, winEnd := 80 }) wRun), by decide⟩,
    ⟨.portP, 0x0008, 0x0008, 3, onLamp 2 (fun l => { l with gang := true, flt := true, causes := 0x40 }) (onLamp 3 (fun l => { l with flt := true, causes := 0x40, gangDer := true }) wRun), (by unfold reachesRule; decide)⟩⟩

set_option maxRecDepth 20000 in
theorem witness_ClusterBudgetsAndFlasher :
    (∃ (e : Vector Nat 8) (t0 : Word) (t1 : Word) (ion : Vector Word 8) (s : State), active s = true) ∧
    (∃ (s : State), s.lamps.flRun = true ∧ s.lamps.flOut = false ∧ s.pw.mode = Mode.run ∧ lampsHeld s = false ∧ ∃ n, wantsFlasher s n = true) ∧
    (∃ (low : Byte) (s : State), s.lamps.flRun = true ∧ s.lamps.flOut = true) ∧
    (∃ (low : Byte) (s : State), hbOverdue s = true) ∧
    (∃ (low : Byte) (s : State), s.lamps.flRun = false) ∧
    (∃ (p : Port) (v : Word) (w : Word) (s : State), reachesRule s p 24 v w ∧ isSup s p = true ∧ s.pw.mode = Mode.run ∧ lampsHeld s = false) :=
  ⟨⟨Vector.replicate 8 100, 25, 0xFFF0, Vector.replicate 8 3, onLamp 2 (fun l => { l with inr := true }) (wLamp .inrush), by decide⟩,
    ⟨onLamp 2 (fun l => { l with flash := true }) (onLamps (fun l => { l with flRun := true }) (wLamp .off)), by decide⟩,
    ⟨4, onLamps (fun l => { l with flRun := true, flOut := true }) (onLamp 2 (fun l => { l with flash := true }) (wLamp .on)), by decide⟩,
    ⟨4, wPage 0xEC02 1 (wPage 0xEC00 1 { wLamp .on with now := 1000000000 }), by decide⟩,
    ⟨4, wRun, by decide⟩,
    ⟨.portS, 0x0404, 0x0404, onLamp 2 (fun l => { l with flash := true }) (onLamps (fun l => { l with ttClaim := 4, ttMode := 0x10 }) wRun), (by unfold reachesRule; decide)⟩⟩

set_option maxRecDepth 20000 in
theorem witness_BatteryControlAndConversions :
    (∃ (p : Port) (v : Word) (w : Word) (s : State), reachesRule s p 29 v w ∧ fld w 5 2 ≠ 3) ∧
    (∃ (p : Port) (v : Word) (w : Word) (s : State), reachesRule s p 29 v w ∧ fld w 5 2 = 3) ∧
    (∃ (p : Port) (d : BitVec 2) (s : State), readable s p ∧ s.pw.mode ≠ Mode.corkEntry ∧ (p = Port.portP → s.pw.gen ≠ Gen.gen1) ∧ d.toNat ≠ 3 ∧ d.toNat ≠ s.pack.idm) ∧
    (∃ (m : Sample) (s : State), s.batA.started = true ∧ slotsRun s = true ∧ s.batA.ending = false ∧ overV m = false ∧ overI m = false ∧ s.batA.acc.n < 39 ∧ s.batA.harv = false) ∧
    (∃ (m : Sample) (s : State), s.batA.started = true ∧ slotsRun s = true ∧ s.batA.ending = false) ∧
    (∃ (m : Sample) (s : State), s.batA.started = true ∧ slotsRun s = true ∧ s.batA.ending = true) ∧
    (∃ (m : Sample) (s : State), (s.batA.started = false ∨ slotsRun s = false)) :=
  ⟨⟨.portP, 0x0001, 0x0001, wRun, (by unfold reachesRule; decide)⟩,
    ⟨.portP, 0x0061, 0x0061, wRun, (by unfold reachesRule; decide)⟩,
    ⟨.portS, 1, onPack (fun k => { k with idm := 2, pres := 1 }) wRun, (by unfold readable; decide)⟩,
    ⟨⟨100000, 5000, 30000, 0x923456, 5, 6⟩, onBatA (fun b => { b with started := true, ena := true, harv := false }) wRun, by decide⟩,
    ⟨⟨1300000000, 5000, 30000, 0x123456, 5, 6⟩, onBatA (fun b => { b with started := true, ena := true, acc := { b.acc with n := 39 } }) wRun, by decide⟩,
    ⟨⟨100000, 5000, 30000, 0x123456, 5, 6⟩, onBatA (fun b => { b with started := true, ending := true, ena := false, valid := true }) wRun, by decide⟩,
    ⟨⟨100000, 5000, 30000, 0x123456, 5, 6⟩, onBatA (fun b => { b with started := false }) wRun, by decide⟩⟩

set_option maxRecDepth 20000 in
theorem witness_HarvestRecordsAndSnapshots :
    (∃ (r : HRec) (rest : List HRec) (s : State) (u : State), s.batA.hQ = r :: rest ∧ domains s = true ∧ s.batA.hwp < 32768 ∧ arbServe s (Grant.low 4) = some u ∧ s.batA.trig = none ∧ Cellar.wf s.mem = true) ∧
    (∃ (p : Port) (s : State) (u : State), pageAccepted s u p 54294 (fun w => w ||| 32768) ∧ Cellar.wf u.mem = true) ∧
    (∃ (p : Port) (s : State), readable s p) ∧
    (∃ (s : State), s.batA.hQ ≠ [] ∧ arbServe s (Grant.low 4) = none) :=
  ⟨⟨⟨1, 2, 3, 4⟩, [], onBatA (fun b => { b with hQ := [⟨1, 2, 3, 4⟩], hwp := 32767 }) wRun, onBatA (fun b => { b with hQ := [⟨1, 2, 3, 4⟩], hwp := 32767 }) wRun, by decide⟩,
    ⟨.portP, wExp, wExp, (by unfold pageAccepted readable; decide)⟩,
    ⟨.portS, onBatA (fun b => { b with rawV := 0x12345 }) wRun, (by unfold readable; decide)⟩,
    ⟨onBatA (fun b => { b with hQ := [⟨1, 2, 3, 4⟩] }) (onP (fun x => { x with load := some ⟨0x10, 0, false, false⟩ }) wRun), by decide⟩⟩

set_option maxRecDepth 20000 in
theorem witness_ChannelBSamplesAndDips :
    (∃ (r : BitVec 12) (s : State), slotsRun s = true ∧ ckAon s = true) ∧
    (∃ (r : BitVec 12) (s : State), s.pw.mode = Mode.sleep ∧ ckAon s = true) ∧
    (∃ (p : Port) (s : State) (u : State), pageAccepted s u p 55304 (fun w => w ||| 1) ∧ Cellar.wf u.mem = true) ∧
    (∃ (s : State), slotsRun s = true ∧ s.batB.dipU ≠ none ∧ s.batB.inCrank = false ∧ sampleSpan s.batB.dipLen s.batB.crkT = true) ∧
    (∃ (s : State), slotsRun s = true ∧ s.batB.inCrank = true ∧ sampleSpan s.batB.aboveRun 50 = true) :=
  ⟨⟨0x800, wRun, by decide⟩,
    ⟨0x800, wSleep, by decide⟩,
    ⟨.portP, wExp, wExp, (by unfold pageAccepted readable; decide)⟩,
    ⟨onBatB (fun b => { b with dipU := some (1000, 2), dipLen := 1000, crkT := 5 }) wRun, by decide⟩,
    ⟨onBatB (fun b => { b with inCrank := true, aboveRun := 1000, dipMin := 7 }) wRun, by decide⟩⟩

set_option maxRecDepth 20000 in
theorem witness_ModelsAndEstimatorUpdates :
    (∃ (p : Port) (s : State) (u : State), pageAccepted s u p 54326 (fun w => w ||| 1) ∧ Cellar.wf u.mem = true) ∧
    (∃ (p : Port) (s : State) (u : State), pageAccepted s u p 55306 (fun w => w ||| 1) ∧ Cellar.wf u.mem = true) ∧
    (∃ (ups : List Upset) (s : State) (u : State), s.batA.mbusy = true ∧ active s = true ∧ arbServe s (Grant.low 4) = some u) ∧
    (∃ (ups : List Upset) (s : State) (u : State), s.batB.mbusy = true ∧ active s = true ∧ arbServe s (Grant.low 4) = some u) ∧
    (∃ (k : Machine.Acc) (ups : List Upset) (s : State) (u : State), s.batA.due = some k ∧ slotsRun s = true ∧ (if s.batA.mstat = 1 then arbServe s (Grant.low 4) = some u else u = s)) ∧
    (∃ (r : Restore) (k : Machine.Acc) (ups : List Upset) (s : State) (u : State), s.batA.due = some k ∧ slotsRun s = true ∧ (if s.batA.mstat = 1 then arbServe s (Grant.low 4) = some u else u = s) ∧ s.estA.restore = some r ∧ bit (rArg r 1) 0 = true) ∧
    (∃ (r : Restore) (k : Machine.Acc) (ups : List Upset) (s : State) (u : State), s.batA.due = some k ∧ slotsRun s = true ∧ (if s.batA.mstat = 1 then arbServe s (Grant.low 4) = some u else u = s) ∧ s.estA.restore = some r ∧ bit (rArg r 1) 0 = false ∧ bit (rArg r 1) 1 = true) ∧
    (∃ (ups : List Upset) (s : State) (u : State), s.batB.sumN ≠ 0 ∧ slotsRun s = true ∧ ckAon s = true ∧ (if s.batB.mstat = 1 then arbServe s (Grant.low 4) = some u else u = s)) ∧
    (∃ (s : State), s.batA.due = none) ∧
    (∃ (c : BatCh) (ups : List Upset) (s : State), getMstat s c = 1 ∧ domains s = true ∧ arbServe s (Grant.low 4) = none) :=
  ⟨⟨.portP, wExp, wExp, (by unfold pageAccepted readable; decide)⟩,
    ⟨.portS, wExp, wExp, (by unfold pageAccepted readable; decide)⟩,
    ⟨[], onBatA (fun b => { b with mbusy := true }) wRun, onBatA (fun b => { b with mbusy := true }) wRun, by decide⟩,
    ⟨[], onBatB (fun b => { b with mbusy := true, minval := true }) wRun, onBatB (fun b => { b with mbusy := true, minval := true }) wRun, by decide⟩,
    ⟨{ Acc.zero with n := 40, v := 4000000, i := 400, tn := 40, t := 100000 }, [], onBatA (fun b => { b with due := some { Acc.zero with n := 40, v := 4000000, i := 400, tn := 40, t := 100000 } }) { wRun with estA := { wRun.estA with valid := true, rep := 500000, int := 500000 } }, onBatA (fun b => { b with due := some { Acc.zero with n := 40, v := 4000000, i := 400, tn := 40, t := 100000 } }) { wRun with estA := { wRun.estA with valid := true, rep := 500000, int := 500000 } }, by decide⟩,
    ⟨[0x0102, 0x0001, 0, 0, 0, 0x1388, 0x1388, 0, 0, 0, 0, 0], { Acc.zero with n := 40, v := 4000000, i := 400, tn := 40, t := 100000 }, [], onBatA (fun b => { b with due := some { Acc.zero with n := 40, v := 4000000, i := 400, tn := 40, t := 100000 } }) { wRun with estA := { wRun.estA with valid := true, restore := some [0x0102, 0x0001, 0, 0, 0, 0x1388, 0x1388, 0, 0, 0, 0, 0] } }, onBatA (fun b => { b with due := some { Acc.zero with n := 40, v := 4000000, i := 400, tn := 40, t := 100000 } }) { wRun with estA := { wRun.estA with valid := true, restore := some [0x0102, 0x0001, 0, 0, 0, 0x1388, 0x1388, 0, 0, 0, 0, 0] } }, by decide⟩,
    ⟨[0x0102, 0x0002, 0, 0, 0, 0, 0, 0x1388, 0x2710, 0x3E8, 5, 0], { Acc.zero with n := 40, v := 4000000, i := 400, tn := 40, t := 100000 }, [], onBatA (fun b => { b with due := some { Acc.zero with n := 40, v := 4000000, i := 400, tn := 40, t := 100000 } }) { wRun with estA := { wRun.estA with restore := some [0x0102, 0x0002, 0, 0, 0, 0, 0, 0x1388, 0x2710, 0x3E8, 5, 0] } }, onBatA (fun b => { b with due := some { Acc.zero with n := 40, v := 4000000, i := 400, tn := 40, t := 100000 } }) { wRun with estA := { wRun.estA with restore := some [0x0102, 0x0002, 0, 0, 0, 0, 0, 0x1388, 0x2710, 0x3E8, 5, 0] } }, by decide⟩,
    ⟨[], onBatB (fun b => { b with sumN := 100, sumV := 120000 }) wRun, onBatB (fun b => { b with sumN := 100, sumV := 120000 }) wRun, by decide⟩,
    ⟨wRun, by decide⟩,
    ⟨.chB, [], onBatB (fun b => { b with mstat := 1 }) (onP (fun x => { x with buf := [.wdata 0x00010 0x1234] }) wRun), by decide⟩⟩

set_option maxRecDepth 20000 in
theorem witness_ReportMovesOnlyWithItsFlow :
    (∃ (flow r i j : Nat), r ≤ socFull ∧ i ≤ socFull ∧ j ≤ socFull ∧ flow = 1) ∧
    (∃ (flow r i j : Nat), r ≤ socFull ∧ i ≤ socFull ∧ j ≤ socFull ∧ flow = 2) ∧
    (∃ (flow r i j : Nat), r ≤ socFull ∧ i ≤ socFull ∧ j ≤ socFull ∧ flow = 0 ∧ j ≠ 0) ∧
    (∃ (flow r i j : Nat), r ≤ socFull ∧ i ≤ socFull ∧ j ≤ socFull ∧ flow ≠ 2 ∧ j = 0) ∧
    (∃ (flow r i j : Nat), r ≤ socFull ∧ i ≤ socFull ∧ j ≤ socFull ∧ flow = 1 ∧ i = 0 ∧ 0 < r ∧ 0 < j) ∧
    (∃ (flow r i j : Nat), r ≤ socFull ∧ i ≤ socFull ∧ j ≤ socFull ∧ flow = 2 ∧ i = socFull ∧ r < i) :=
  ⟨⟨1, socFull, socFull, 0, by decide⟩,
    ⟨2, 400000, 500000, 600000, by decide⟩,
    ⟨0, 400000, 500000, 490000, by decide⟩,
    ⟨0, 400000, 500000, 0, by decide⟩,
    ⟨1, 400000, 0, 500, by decide⟩,
    ⟨2, 400000, socFull, socFull, by decide⟩⟩

set_option maxRecDepth 20000 in
theorem witness_PackPresenceAndIdentity :
    (∃ (x : Nat) (s : State), ckAon s = true ∧ (s.pack.idm = 2 ∨ s.pack.idm = 1 ∧ (98 * 2 ^ 24 < 100 * x ∨ 100 * x < 2 * 2 ^ 24)) ∧ s.pack.pres ≠ 0) ∧
    (∃ (x : Nat) (s : State), ckAon s = true ∧ (s.pack.idm = 2 ∨ s.pack.idm = 1 ∧ 3 * 2 ^ 24 ≤ 100 * x ∧ 100 * x ≤ 97 * 2 ^ 24) ∧ s.pack.pres ≠ 1) ∧
    (∃ (x : Nat) (s : State), s.pack.idm = 0) ∧
    (∃ (p : Port) (s : State) (u : State), pageAccepted s u p 56352 (fun w => w ||| 1) ∧ Cellar.wf u.mem = true) ∧
    (∃ (x : Nat) (s : State), s.pack.idm = 1 ∧ 2 * 2 ^ 24 ≤ 100 * x ∧ 100 * x ≤ 98 * 2 ^ 24) ∧
    (∃ (x : Nat) (s : State), s.pack.idm = 1 ∧ (100 * x < 3 * 2 ^ 24 ∨ 97 * 2 ^ 24 < 100 * x)) ∧
    (∃ (c : Nat) (s : State), s.pack.idm = 2 ∧ slotsRun s = true ∧ s.pack.pil.low = none ∧ s.pack.pil.inFrame = true ∧ s.pack.pil.bits ≠ [] ∧ frameCause s.pack.pil.bits s.pack.pil.len = some c ∧ s.pack.badRun < 255) ∧
    (∃ (s : State), s.pack.idm = 2 ∧ slotsRun s = true ∧ s.pack.pil.low = none ∧ s.pack.pil.inFrame = true ∧ s.pack.pil.bits ≠ [] ∧ frameCause s.pack.pil.bits s.pack.pil.len = none) ∧
    (∃ (s : State), s.pack.idm = 2 ∧ active s = true ∧ s.pack.verif = true) ∧
    (∃ (l : Bool) (n : Nat) (s : State), s.pack.idm ≠ 2) ∧
    (∃ (n : Nat) (s : State), s.pack.idm = 2 ∧ slotsRun s = true ∧ s.pack.pil.low = none ∧ s.pack.pil.seen = true ∧ s.pack.pil.inFrame = true ∧ (3 ≤ n ∧ n ≤ 8 ∨ 10 ≤ n ∧ n ≤ 16) ∧ (s.pack.pil.bits = [] ∧ 3 ≤ s.pack.pil.since ∧ s.pack.pil.since ≤ 39 ∨ s.pack.pil.bits ≠ [] ∧ 16 ≤ s.pack.pil.since ∧ s.pack.pil.since ≤ 23)) ∧
    (∃ (n : Nat) (s : State), s.pack.idm = 2 ∧ slotsRun s = true ∧ s.pack.pil.low = none ∧ s.pack.pil.seen = true ∧ n < 3 ∧ (s.pack.pil.inFrame = true → s.pack.pil.since + n < if s.pack.pil.bits = [] then 39 else 23)) ∧
    (∃ (n : Nat) (s : State), s.pack.idm = 2 ∧ slotsRun s = true ∧ s.pack.pil.low = none ∧ s.pack.pil.seen = true ∧ s.pack.pil.inFrame = false ∧ 70 ≤ n ∧ n ≤ 960) ∧
    (∃ (n : Nat) (s : State), s.pack.idm = 2 ∧ slotsRun s = true ∧ s.pack.pil.low = none ∧ s.pack.pil.seen = true ∧ s.pack.pil.inFrame = false ∧ 3 ≤ n ∧ n < 70) ∧
    (∃ (n : Nat) (s : State), s.pack.idm = 2 ∧ slotsRun s = true ∧ s.pack.pil.low = none ∧ s.pack.pil.seen = true ∧ s.pack.pil.inFrame = true ∧ 70 ≤ n ∧ n ≤ 960 ∧ s.pack.pil.bits.length < 24 + 8 * s.pack.pil.len) ∧
    (∃ (x : Nat) (s : State), ckAon s = true ∧ s.pack.idm = 2 ∧ s.pack.pres = 0) ∧
    (∃ (n : Nat) (s : State), s.pack.idm = 2 ∧ slotsRun s = true ∧ s.pack.pil.low = none ∧ s.pack.pil.seen = true ∧ 960 < n) :=
  ⟨⟨5, onPack (fun k => { k with idm := 1, pres := 1 }) wRun, by decide⟩,
    ⟨0x0800000, onPack (fun k => { k with idm := 1, pres := 0 }) wRun, by decide⟩,
    ⟨0x0800000, onPack (fun k => { k with idm := 0 }) wRun, by decide⟩,
    ⟨.portP, wExp, wExp, (by unfold pageAccepted readable; decide)⟩,
    ⟨0x0060000, onPack (fun k => { k with idm := 1 }) wRun, by decide⟩,
    ⟨0x0060000, onPack (fun k => { k with idm := 1 }) wRun, by decide⟩,
    ⟨1, onPack (fun k => { k with idm := 2, badRun := 2, pil := { k.pil with seen := true, inFrame := true, bits := [true, false], len := 8, since := 5 } }) wRun, by decide⟩,
    ⟨onPack (fun k => { k with idm := 2, pres := 1, pil := { k.pil with seen := true, inFrame := true, bits := natBits 8 0xA5 ++ natBits 64 0x0102030405060708 ++ natBits 16 (crc16 [1, 2, 3, 4, 5, 6, 7, 8]).toNat, len := 8, since := 5 } }) wRun, by decide⟩,
    ⟨onPack (fun k => { k with idm := 2, verif := true }) wRun, by decide⟩,
    ⟨true, 5, onPack (fun k => { k with idm := 1 }) wRun, by decide⟩,
    ⟨10, onPack (fun k => { k with idm := 2, pil := { k.pil with seen := true, inFrame := true, bits := [true], since := 16 } }) wRun, by decide⟩,
    ⟨2, onPack (fun k => { k with idm := 2, pil := { k.pil with seen := true, inFrame := true, since := 36, high := 36 } }) wRun, by decide⟩,
    ⟨70, onPack (fun k => { k with idm := 2, pil := { k.pil with seen := true } }) wRun, by decide⟩,
    ⟨69, onPack (fun k => { k with idm := 2, pil := { k.pil with seen := true } }) wRun, by decide⟩,
    ⟨70, onPack (fun k => { k with idm := 2, pil := { k.pil with seen := true, inFrame := true, bits := [true], len := 8 } }) wRun, by decide⟩,
    ⟨5, onPack (fun k => { k with idm := 2, pres := 0, line := true, pil := { k.pil with inFrame := true, bits := [true] } }) wRun, by decide⟩,
    ⟨961, onPack (fun k => { k with idm := 2, pil := { k.pil with seen := true, inFrame := true, bits := [true], len := 8 } }) wRun, by decide⟩⟩

set_option maxRecDepth 20000 in
theorem witness_CommandRegistersAreClaimed :
    (∃ (p : Port) (v : Word) (w : Word) (s : State), reachesRule s p 37 v w ∧ authBusy s = false ∧ s.auth.claim ≠ some p.other) ∧
    (∃ (p : Port) (high : Bool) (v : Word) (w : Word) (s : State), reachesRule s p (if high = true then 39 else 38) v w ∧ authBusy s = false ∧ s.auth.claim ≠ some p.other) ∧
    (∃ (p : Port) (v : Word) (w : Word) (s : State) (c : State), reachesRule s p 40 v w ∧ captured (gen1Empty s p 40) p = c ∧ authBusy c = false ∧ c.auth.claim ≠ some p.other ∧ (getPort c p).buf.length < 32 ∧ pageMode c p = false) ∧
    (∃ (p : Port) (v : Word) (w : Word) (s : State), reachesRule s p 37 v w ∧ authBusy s = true) ∧
    (∃ (p : Port) (v : Word) (w : Word) (s : State), reachesRule s p 37 v w ∧ authBusy s = false ∧ s.auth.claim = some p.other) ∧
    (∃ (p : Port) (high : Bool) (a : Fin 64) (v : Word) (w : Word) (s : State), a = (if high = true then 39 else 38) ∧ reachesRule s p a v w ∧ authBusy s = true) ∧
    (∃ (p : Port) (high : Bool) (a : Fin 64) (v : Word) (w : Word) (s : State), a = (if high = true then 39 else 38) ∧ reachesRule s p a v w ∧ authBusy s = false ∧ s.auth.claim = some p.other) ∧
    (∃ (p : Port) (v : Word) (w : Word) (s : State) (c : State), reachesRule s p 40 v w ∧ captured (gen1Empty s p 40) p = c ∧ pageMode c p = false ∧ authBusy c = true) ∧
    (∃ (p : Port) (v : Word) (w : Word) (s : State) (c : State), reachesRule s p 40 v w ∧ captured (gen1Empty s p 40) p = c ∧ pageMode c p = false ∧ authBusy c = false ∧ c.auth.claim = some p.other) :=
  ⟨⟨.portP, 0x0001, 0x0001, wRun, (by unfold reachesRule; decide)⟩,
    ⟨.portP, true, 0x0001, 0x0001, wRun, (by unfold reachesRule; decide)⟩,
    ⟨.portP, 0x0001, 0x0001, wRun, wRun, (by unfold reachesRule; decide)⟩,
    ⟨.portP, 0x0001, 0x0001, wAcc .cfgLock [], (by unfold reachesRule; decide)⟩,
    ⟨.portP, 0x0001, 0x0001, onAuth (fun a => { a with claim := some .portS }) wRun, (by unfold reachesRule; decide)⟩,
    ⟨.portP, true, 0x27, 0x0001, 0x0001, wAcc .cfgLock [], (by unfold reachesRule; decide)⟩,
    ⟨.portP, true, 0x27, 0x0001, 0x0001, onAuth (fun a => { a with claim := some .portS }) wRun, (by unfold reachesRule; decide)⟩,
    ⟨.portP, 0x0001, 0x0001, wAcc .cfgLock [], wAcc .cfgLock [], (by unfold reachesRule; decide)⟩,
    ⟨.portP, 0x0001, 0x0001, onAuth (fun a => { a with claim := some .portS }) wRun, onAuth (fun a => { a with claim := some .portS }) wRun, (by unfold reachesRule; decide)⟩⟩

set_option maxRecDepth 20000 in
theorem witness_TagWordsJudgeTheCommand :
    (∃ (p : Port) (ups : List Upset) (v : Word) (rest : List BufEntry) (s : State) (u : State), (getPort s p).buf = BufEntry.atag v :: rest ∧ domains s = true ∧ s.portP.held = Held.none ∧ authBusy s = false ∧ (if s.auth.tag = [] then arbServe s (Grant.low 3) = some u else u = s) ∧ s.auth.tag.length < 3) ∧
    (∃ (p : Port) (ups : List Upset) (v : Word) (m : AuthMsg) (rest : List BufEntry) (s : State), (getPort s p).buf = BufEntry.atag v :: rest ∧ domains s = true ∧ s.portP.held = Held.none ∧ authBusy s = false ∧ s.auth.tag.length = 3 ∧ s.auth.msg = some m) ∧
    (∃ (v : Verify) (m : AuthMsg) (s : State) (x : State), s.auth.verify = some v ∧ s.auth.msg = some m ∧ s.pending = [] ∧ x = lockoutTick (aonTick { now := s.now + 1, freeCtr := s.freeCtr, pw := s.pw, clk := s.clk, irqStat := s.irqStat, err := s.err, portP := s.portP, portS := s.portS, spi := s.spi, roles := s.roles, scratch := s.scratch, bankA := s.bankA, bankB := s.bankB, disp := s.disp, keys := s.keys, lamps := s.lamps, batA := s.batA, batB := s.batB, estA := s.estA, estB := s.estB, pack := s.pack, auth := s.auth, nv := s.nv, aon := s.aon, bak := s.bak, arb := s.arb, tap := s.tap, mem := s.mem, pending := s.pending }) ∧ domains x = true) ∧
    (∃ (v : Verify) (m : AuthMsg) (s : State) (x : State), s.auth.verify = some v ∧ s.auth.msg = some m) ∧
    (∃ (c : AuthCmd) (k : BitVec 128) (v : Verify) (m : AuthMsg) (s : State) (t : State), s.auth.verify = some v ∧ s.auth.msg = some m ∧ v.early = none ∧ s.auth.accepted = none ∧ cmdOf m.cmd = some c ∧ c ≠ AuthCmd.provision ∧ List.filterMap slotKey (portSlots s v.port c) = [k] ∧ worn s.nv = false ∧ m.alen = cmdLen c ∧ m.ue = false ∧ t = authVerdict s ∧ tagWords k (messageBytes s.nv.uid m) ≠ s.auth.tag) ∧
    (∃ (c : AuthCmd) (k : BitVec 128) (v : Verify) (m : AuthMsg) (s : State) (t : State), s.auth.verify = some v ∧ s.auth.msg = some m ∧ v.early = none ∧ s.auth.accepted = none ∧ cmdOf m.cmd = some c ∧ c ≠ AuthCmd.provision ∧ List.filterMap slotKey (portSlots s v.port c) = [k] ∧ worn s.nv = false ∧ m.alen = cmdLen c ∧ m.ue = false ∧ t = authVerdict s ∧ tagWords k (messageBytes s.nv.uid m) = s.auth.tag ∧ (scnt s.nv).toNat < m.cnt.toNat ∧ step11 s c (argWords m.args) = none) ∧
    (∃ (c : AuthCmd) (k : BitVec 128) (v : Verify) (m : AuthMsg) (s : State) (t : State), s.auth.verify = some v ∧ s.auth.msg = some m ∧ v.early = none ∧ s.auth.accepted = none ∧ cmdOf m.cmd = some c ∧ c ≠ AuthCmd.provision ∧ List.filterMap slotKey (portSlots s v.port c) = [k] ∧ worn s.nv = false ∧ m.alen = cmdLen c ∧ m.ue = false ∧ t = authVerdict s ∧ tagWords k (messageBytes s.nv.uid m) = s.auth.tag ∧ m.cnt.toNat ≤ (scnt s.nv).toNat) :=
  ⟨⟨.portS, [], 0x1234, [], wTag 0x1234 wRun, wTag 0x1234 wRun, by decide⟩,
    ⟨.portS, [], 4, wMsg 5, [], wTag3 [1, 2, 3] 4 5, by decide⟩,
    ⟨⟨.portS, none⟩, wMsg 5, wVer [1, 2, 3, 4] 5 none, lockoutTick (aonTick { (wVer [1, 2, 3, 4] 5 none) with now := (wVer [1, 2, 3, 4] 5 none).now + 1 }), rfl, rfl, rfl, rfl, by decide⟩,
    ⟨⟨.portS, some eLOCKED⟩, wMsg 5, wVer [1, 2, 3, 4] 5 (some eLOCKED), wVer [1, 2, 3, 4] 5 (some eLOCKED), by decide⟩,
    ⟨.cfgLock, wKey, ⟨.portS, none⟩, wMsg 5, wVer ((wGood 5).take 3 ++ [(wGood 5).getD 3 0 + 1]) 5 none, authVerdict (wVer ((wGood 5).take 3 ++ [(wGood 5).getD 3 0 + 1]) 5 none), rfl, rfl, rfl, rfl, by decide, by decide, by decide, by decide, rfl, rfl, rfl, wBad_ne 5⟩,
    ⟨.cfgLock, wKey, ⟨.portS, none⟩, wMsg 5, wVer (wGood 5) 5 none, authVerdict (wVer (wGood 5) 5 none), rfl, rfl, rfl, rfl, by decide, by decide, by decide, by decide, rfl, rfl, rfl, rfl, by decide, by decide⟩,
    ⟨.cfgLock, wKey, ⟨.portS, none⟩, wMsg 0, wVer (wGood 0) 0 none, authVerdict (wVer (wGood 0) 0 none), rfl, rfl, rfl, rfl, by decide, by decide, by decide, by decide, rfl, rfl, rfl, rfl, by decide⟩⟩

set_option maxRecDepth 20000 in
theorem witness_CounterLockoutAndAcceptedCommands :
    (∃ (a : Accepted) (n : Fin 8) (s : State), s.auth.verify = none ∧ s.auth.accepted = some a ∧ a.written = true ∧ a.cmd = .lampPolicy ∧ bit (rArg a.args 1) n.val = true ∧ ganged s n = false ∧ (getLamp s n).mode = .wait ∧ (getLamp s n).retryRdy = true ∧ (getLamp s n).otWait = false ∧ effReq (lampPolicy s a.args) n = true) ∧
    (∃ (a : Accepted) (s : State), s.auth.verify = none ∧ s.auth.accepted = some a ∧ a.written = false ∧ s.clk.expiring = false) ∧
    (∃ (s : State), s.auth.lockOn = true ∧ islandOn s = true) ∧
    (∃ (s : State), authBusy s = false) ∧
    (∃ (s : State), authBusy s = true) ∧
    (∃ (a : Accepted) (s : State), s.auth.verify = none ∧ s.auth.accepted = some a ∧ a.written = true ∧ a.cmd = AuthCmd.restoreA ∧ s.auth.restoreDrop = false) ∧
    (∃ (a : Accepted) (s : State), s.auth.verify = none ∧ s.auth.accepted = some a ∧ a.written = true ∧ a.cmd = AuthCmd.restoreB) ∧
    (∃ (a : Accepted) (s : State), s.auth.verify = none ∧ s.auth.accepted = some a ∧ a.written = true ∧ a.cmd = AuthCmd.regionUnlock) ∧
    (∃ (a : Accepted) (s : State), s.auth.verify = none ∧ s.auth.accepted = some a ∧ a.written = true ∧ a.cmd = AuthCmd.cfgLock) ∧
    (∃ (a : Accepted) (s : State), s.auth.verify = none ∧ s.auth.accepted = some a ∧ a.written = true ∧ a.cmd = AuthCmd.lampPolicy) ∧
    (∃ (a : Accepted) (s : State), s.auth.verify = none ∧ s.auth.accepted = some a ∧ a.written = true ∧ a.cmd = AuthCmd.debugUnlock) ∧
    (∃ (a : Accepted) (s : State) (c : Instr) (k : AuthCmd), s.auth.verify = none ∧ s.auth.accepted = some a ∧ (c, k) ∈ [(Instr.cork, AuthCmd.cork), (Instr.restoreA, AuthCmd.restoreA), (Instr.restoreB, AuthCmd.restoreB), (Instr.ttPolicy, AuthCmd.ttPolicy), (Instr.regionUnlock, AuthCmd.regionUnlock), (Instr.cfgLock, AuthCmd.cfgLock), (Instr.lampPolicy, AuthCmd.lampPolicy), (Instr.debugUnlock, AuthCmd.debugUnlock), (Instr.provisioningRequest true, AuthCmd.provision), (Instr.provisioningRequest false, AuthCmd.provision)] ∧ (a.cmd ≠ k ∨ a.written = false)) ∧
    (∃ (a : Accepted) (s : State), s.auth.verify = none ∧ s.auth.accepted = some a ∧ a.written = true ∧ a.cmd = AuthCmd.restoreA ∧ s.auth.restoreDrop = true) :=
  ⟨⟨⟨.lampPolicy, .portS, 1, 5, [0, 0x0004, 0x0000, 0x0000], true⟩, 2, (onAuth (fun a => { a with accepted := some ⟨.lampPolicy, .portS, 1, 5, [0, 0x0004, 0x0000, 0x0000], true⟩ }) (onLamp 2 (fun l => { l with conducting := false, retryRdy := true, rleft := 3, retryMs := 1 }) (wBudget (wLamp .wait)))), by decide⟩,
    ⟨⟨.cfgLock, .portS, 1, 5, [], false⟩, onAuth (fun a => { a with accepted := some ⟨.cfgLock, .portS, 1, 5, [], false⟩ }) wRun, by decide⟩,
    ⟨onAuth (fun a => { a with lockOn := true, lockLeft := 77 }) wRun, by decide⟩,
    ⟨onAuth (fun a => { a with claim := some .portS, tag := [1] }) wRun, by decide⟩,
    ⟨wAcc .cfgLock [], by decide⟩,
    ⟨⟨.restoreA, .portS, 1, 5, [0x0102, 1], true⟩, wAcc .restoreA [0x0102, 1], by decide⟩,
    ⟨⟨.restoreB, .portS, 1, 5, [0x0102, 1], true⟩, wAcc .restoreB [0x0102, 1], by decide⟩,
    ⟨⟨.regionUnlock, .portS, 1, 5, [0x0105], true⟩, wAcc .regionUnlock [0x0105], by decide⟩,
    ⟨⟨.cfgLock, .portS, 1, 5, [], true⟩, wAcc .cfgLock [], by decide⟩,
    ⟨⟨.lampPolicy, .portS, 1, 5, [0, 0x00F0, 0xAAAA, 0x5555], true⟩, wAcc .lampPolicy [0, 0x00F0, 0xAAAA, 0x5555], by decide⟩,
    ⟨⟨.debugUnlock, .portS, 1, 5, [0, 3], true⟩, wAcc .debugUnlock [0, 3], by decide⟩,
    ⟨⟨.debugUnlock, .portS, 1, 5, [0, 3], true⟩, wAcc .debugUnlock [0, 3], .cfgLock, .cfgLock, by decide⟩,
    ⟨⟨.restoreA, .portS, 1, 5, [0x0102, 1], true⟩, onAuth (fun a => { a with restoreDrop := true }) (wAcc .restoreA [0x0102, 1]), by decide⟩⟩

set_option maxRecDepth 20000 in
theorem witness_TellTalePolicyCorkAndProvisioning :
    (∃ (a : Accepted) (s : State) (u : State), s.auth.verify = none ∧ s.auth.accepted = some a ∧ a.written = true ∧ a.cmd = AuthCmd.ttPolicy ∧ arbServe s (Grant.low 3) = some u ∧ Cellar.wf s.mem = true) ∧
    (∃ (a : Accepted) (s : State), s.auth.verify = none ∧ s.auth.accepted = some a ∧ a.written = true ∧ a.cmd = AuthCmd.cork ∧ s.pw.rst ≠ ResetWait.pin) ∧
    (∃ (a : Accepted) (ok : Bool) (s : State) (u : State), s.auth.verify = none ∧ s.auth.accepted = some a ∧ a.written = true ∧ a.cmd = AuthCmd.provision ∧ arbServe s (Grant.low 3) = some u ∧ Cellar.wf s.mem = true) :=
  ⟨⟨⟨.ttPolicy, .portS, 1, 5, 0 :: 2 :: (List.range 260).map wordOf, true⟩, wAcc .ttPolicy (0 :: 2 :: (List.range 260).map wordOf), wAcc .ttPolicy (0 :: 2 :: (List.range 260).map wordOf), by decide⟩,
    ⟨⟨.cork, .portS, 1, 5, [], true⟩, wAcc .cork [], by decide⟩,
    ⟨⟨.provision, .portS, 1, 5, [0, 1, 0x1234, 1, 2, 3, 4, 5, 6, 7, 8], true⟩, true, wPage 0x34000 0xFFFF (wAcc .provision [0, 1, 0x1234, 1, 2, 3, 4, 5, 6, 7, 8]), wPage 0x34000 0xFFFF (wAcc .provision [0, 1, 0x1234, 1, 2, 3, 4, 5, 6, 7, 8]), by decide⟩⟩

set_option maxRecDepth 20000 in
theorem witness_TapInstructionsSelectTheirRegister :
    (∃ (c : Instr) (ir : BitVec 5) (s : State), (c = Instr.extest none ∧ ir = 0 ∨ c = Instr.idcode ∧ ir = 2 ∨ c = Instr.clamp ∧ ir = 3 ∨ c = Instr.highz ∧ ir = 4 ∨ c = Instr.bypass ∧ ir = 31) ∧ tapOpen s = true) ∧
    (∃ (c : Instr) (ir : BitVec 5) (s : State), (c = Instr.extest none ∧ ir = 0 ∨ c = Instr.idcode ∧ ir = 2 ∨ c = Instr.clamp ∧ ir = 3 ∨ c = Instr.highz ∧ ir = 4 ∨ c = Instr.bypass ∧ ir = 31) ∧ tapOpen s = false) ∧
    (∃ (x : BitVec 373) (y : BitVec 373) (s : State), tapOpen s = true) ∧
    (∃ (x : BitVec 373) (y : BitVec 373) (s : State), tapOpen s = false) ∧
    (∃ (c : BitVec 5) (s : State), 4 < c.toNat ∧ (s.auth.dbgTest = false ∨ vendorCode c = false)) ∧
    (∃ (s : State), s.tap.ir = 2) ∧
    (∃ (c : BitVec 5) (s : State), s.auth.dbgTest = true ∧ vendorCode c = true) ∧
    (∃ (c : BitVec 5) (s : State), c.toNat ≤ 4) ∧
    (∃ (x : BitVec 373) (q : Ball) (i : Nat) (s : State), boundaryCells[i]? = some (BCell.observe q)) ∧
    (∃ (x : BitVec 373) (b : Bank) (n : Nat) (i : Nat) (s : State), scanning s.keys = false ∧ driven (getBank s b).drv = false ∧ (boundaryCells[i]? = some (BCell.observe (Ball.com b n)) ∨ boundaryCells[i]? = some (BCell.observe (Ball.seg b n)))) ∧
    (∃ (x : BitVec 373) (n : Nat) (i : Nat) (s : State), boundaryCells[i]? = some (BCell.observe (Ball.lamp n))) :=
  ⟨⟨.clamp, 3, wTap, by decide⟩,
    ⟨.clamp, 3, wRun, by decide⟩,
    ⟨5, 6, wTap, by decide⟩,
    ⟨5, 6, wRun, by decide⟩,
    ⟨9, wRun, by decide⟩,
    ⟨{ wTap with tap := { wTap.tap with ir := 2 } }, by decide⟩,
    ⟨0x12, onAuth (fun a => { a with dbgTest := true }) wRun, by decide⟩,
    ⟨3, wTap, by decide⟩,
    ⟨5, .shipG, (boundaryCells.idxOf (.observe .shipG)), wTap, by decide⟩,
    ⟨2 ^ 373 - 1, .bankA, 3, (boundaryCells.idxOf (.observe (.com .bankA 3))), onKeys (fun k => { k with en := false, run := false, boot := 0 }) wTap, by decide⟩,
    ⟨0, 2, (boundaryCells.idxOf (.observe (.lamp 2))), onAuth (fun a => { a with dbgBs := true }) (wLamp .on), by decide⟩⟩

set_option maxRecDepth 20000 in
theorem witness_ArbiterLedgerClearsAndScrub :
    (∃ (p : Port) (s u : State), pageAccepted s u p 0xE802 ((fun w => w ||| 0x20)) ∧ Cellar.wf u.mem = true ∧ eccAt u 0xE800 = some .single ∧ 0xE800 ∉ u.arb.wbQ ∧ u.arb.wbQ.length = 4) ∧
    (∃ (p : Port) (s u : State), pageAccepted s u p 0xE802 ((fun w => w ||| 0x20)) ∧ Cellar.wf u.mem = true ∧ eccAt u 0xE800 = some .single ∧ 0xE800 ∉ u.arb.wbQ ∧ u.arb.wbQ.length < 4) ∧
    (∃ (p : Port) (s u : State), pageAccepted s u p 0xE802 ((fun w => w ||| 0x20)) ∧ Cellar.wf u.mem = true ∧ eccAt u 0xE800 = some .single ∧ 0xE800 ∈ u.arb.wbQ) ∧
    (∃ (p : Port) (v : Word) (w : Word) (s : State), reachesRule s p 49 v w ∧ fld w 0 3 ≠ 7) ∧
    (∃ (p : Port) (v : Word) (w : Word) (s : State), reachesRule s p 49 v w ∧ fld w 0 3 = 7) ∧
    (∃ (x : Vector Nat 7) (s : State), domains s = true) ∧
    (∃ (p : Port) (s : State) (u : State), pageAccepted s u p 59394 (fun w => w ||| 32) ∧ Cellar.wf u.mem = true) ∧
    (∃ (p : Port) (b : Bank) (s : State) (u : State), pageAccepted s u p (50180 + 32 * b.num) (fun w => w ||| 1)) ∧
    (∃ (s : State) (u : State), domains s = true ∧ pgb s 59394 4 = true ∧ s.arb.ecc = [] ∧ s.arb.scrubLeft = 0 ∧ s.arb.wbQ = [] ∧ arbServe s (Grant.low 6) = some u) ∧
    (∃ (ups : List Upset) (s : State), (pgb s 59394 4 = false ∨ s.arb.scrubLeft ≠ 0 ∨ s.arb.wbQ ≠ [])) ∧
    (∃ (c : CAddr) (rest : List CAddr) (ups : List Upset) (s : State) (u : State), s.arb.wbQ = c :: rest ∧ domains s = true ∧ arbServe s (Grant.low 6) = some u ∧ eccAt (upsets u ups) (BitVec.toNat c) ≠ some EccErr.double) ∧
    (∃ (ups : List Upset) (s : State), lowReqs s none = Vector.replicate 5 false ∧ windowReq s Port.portS = true) ∧
    (∃ (p : Port) (s : State), s.bankA.led.passes = [] ∧ s.bankB.led.passes = [] ∧ rowReq s 3 = false ∧ windowReq s p.other = false ∧ s.batA.hQ ≠ [] ∧ vget s.arb.rem 2 ≠ 0 ∧ (if p = Port.portP then s.arb.yieldP else s.arb.yieldS) = true) ∧
    (∃ (p : Port) (s : State), lowReqs s none = Vector.replicate 5 false ∧ windowReq s p.other = false) ∧
    (∃ (l : Nat) (s : State), 2 ≤ l ∧ l ≤ 6) ∧
    (∃ (p : Port) (s : State), longReq s 2 = true ∧ rowReq s 3 = false ∧ longReq s 4 = false ∧ rowReq s 4 = false ∧ rowReq s 5 = false ∧ rowReq s 6 = false ∧ windowReq s p.other = false ∧ vget s.arb.rem 0 ≠ 0 ∧ (if p = Port.portP then s.arb.yieldP else s.arb.yieldS) = true) ∧
    (∃ (l : Nat) (n : Nat) (s : State), n ≤ vget s.arb.paid (l - 2)) :=
  ⟨⟨.portP, (onArb (fun a => { a with wbDrop := 9, wbQ := [0x00008, 0x00010, 0x00018, 0x00020], ecc := [(0xE800, .single)] }) wExp), (onArb (fun a => { a with wbDrop := 9, wbQ := [0x00008, 0x00010, 0x00018, 0x00020], ecc := [(0xE800, .single)] }) wExp), (by unfold pageAccepted readable; decide)⟩,
    ⟨.portP, (onArb (fun a => { a with wbDrop := 9, wbQ := [0x00008, 0x00010, 0x00018], ecc := [(0xE800, .single)] }) wExp), (onArb (fun a => { a with wbDrop := 9, wbQ := [0x00008, 0x00010, 0x00018], ecc := [(0xE800, .single)] }) wExp), (by unfold pageAccepted readable; decide)⟩,
    ⟨.portP, (onArb (fun a => { a with wbDrop := 9, wbQ := [0x00008, 0x00010, 0xE800, 0x00020], ecc := [(0xE800, .single)] }) wExp), (onArb (fun a => { a with wbDrop := 9, wbQ := [0x00008, 0x00010, 0xE800, 0x00020], ecc := [(0xE800, .single)] }) wExp), (by unfold pageAccepted readable; decide)⟩,
    ⟨.portP, 0x000D, 0x000D, wRun, (by unfold reachesRule; decide)⟩,
    ⟨.portP, 0x000F, 0x000F, wRun, (by unfold reachesRule; decide)⟩,
    ⟨#v[1, 2, 3, 4, 5, 20000, 7], wRun, by decide⟩,
    ⟨.portP, onArb (fun a => { a with ceCnt := 4, uev := true }) wExp, onArb (fun a => { a with ceCnt := 4, uev := true }) wExp, (by unfold pageAccepted readable; decide)⟩,
    ⟨.portP, .bankB, onPw (fun p => { p with expert := true }) State.reset, onPw (fun p => { p with expert := true }) State.reset, (by unfold pageAccepted readable; decide)⟩,
    ⟨onArb (fun a => { a with scrubAt := 0xFFFC0 }) wRun, onArb (fun a => { a with scrubAt := 0xFFFC0 }) wRun, by decide⟩,
    ⟨[], wPage 0xE802 1 wRun, by decide⟩,
    ⟨0x00008, [], [], onArb (fun a => { a with wbQ := [0x00008], ecc := [(8, .single)] }) wRun, onArb (fun a => { a with wbQ := [0x00008], ecc := [(8, .single)] }) wRun, by decide⟩,
    ⟨[], onS (fun x => { x with load := some ⟨0x10, 0, false, false⟩ }) (onP (fun x => { x with load := some ⟨0x20, 0, false, false⟩, buf := [.wdata 0x30 5] }) (onArb (fun a => { a with scrubLeft := 7 }) wRun)), by decide⟩,
    ⟨.portP, onArb (fun a => { a with yieldP := true, rem := Vector.replicate 5 1 }) (onBatA (fun b => { b with hQ := [⟨1, 2, 3, 4⟩] }) (onP (fun x => { x with buf := [.wdata 0x30 5] }) wRun)), by decide⟩,
    ⟨.portS, onS (fun x => { x with buf := [.wdata 0x30 5] }) (onArb (fun a => { a with scrubLeft := 7 }) wRun), by decide⟩,
    ⟨4, wRun, by decide⟩,
    ⟨.portP, onArb (fun a => { a with yieldP := true, rem := Vector.replicate 5 1, scrubLeft := 7 }) (onA (fun x => { x with led := { x.led with passes := [⟨[], (0, 0), 3, false⟩] } }) (onP (fun x => { x with buf := [.wdata 0x30 5] }) wRun)), by decide⟩,
    ⟨4, 3, onArb (fun a => { a with yieldP := true, paid := #v[0, 0, 3, 0, 0], rem := Vector.replicate 5 2 }) wRun, by decide⟩⟩

set_option maxRecDepth 20000 in
theorem witness_OutputsFollowTheState :
    (∃ (s : State) (b : Bank) (key : Bool) (r : SlotRec) (n : Nat) (x : Nat), driven (getBank s b).drv = true ∧ (getBank s b).led.recs.getLast? = some r ∧ (key = false ∨ b = Bank.bankB) ∧ n < r.lines ∧ r.driven = true ∧ r.bias ≤ 4) ∧
    (∃ (s : State) (b : Bank) (key : Bool) (r : SlotRec) (n : Nat) (x : Nat), driven (getBank s b).drv = true ∧ (getBank s b).led.recs.getLast? = some r ∧ (key = false ∨ b = Bank.bankB) ∧ r.lines ≤ n) ∧
    (∃ (s : State) (n : Nat) (x : Nat), driven s.bankA.drv = true ∧ 16 ≤ x) ∧
    (∃ (s : State) (n : Nat) (x : Nat), driven s.bankA.drv = true ∧ x < 16 ∧ x = (slotBegun s).keys.line) ∧
    (∃ (s : State) (n : Nat) (x : Nat), driven s.bankA.drv = true ∧ x < 16 ∧ x ≠ (slotBegun s).keys.line ∧ x ≤ (slotBegun s).keys.cur.lines) ∧
    (∃ (s : State) (b : Bank) (key : Bool) (n : Nat) (x : Nat), driven (getBank s b).drv = false ∧ (key = false ∨ b = Bank.bankB ∨ (getBank s b).drv.sta ≠ Sta.off ∨ 16 ≤ x)) ∧
    (∃ (s : State) (x : Strobes) (a : Fin 64) (n : Nat) (cs : Bool) (sck : Bool) (p : Port), (s.pw.vio = false ∨ s.tap.ir = 4)) ∧
    (∃ (s : State) (x : Strobes) (a : Fin 64) (n : Nat) (cs : Bool) (sck : Bool), s.pw.vio = true ∧ s.tap.ir ≠ 4 ∧ s.tap.ir ≠ 0 ∧ s.tap.ir ≠ 3 ∧ (x.cs = false ∨ x.oe = false ∨ x.we = true ∨ s.pw.gen = Gen.gen1 ∧ 8 ≤ n)) ∧
    (∃ (s : State) (x : Strobes) (a : Fin 64) (n : Nat) (cs : Bool) (sck : Bool), s.pw.vio = true ∧ s.tap.ir ≠ 4 ∧ s.tap.ir ≠ 0 ∧ s.tap.ir ≠ 3 ∧ s.pw.face ≠ Face.dead ∧ s.pw.gen ≠ Gen.portOff ∧ x.cs = true ∧ x.oe = true ∧ x.we = false ∧ (s.pw.gen = Gen.gen1 → n < 8)) ∧
    (∃ (s : State) (x : Strobes) (a : Fin 64) (n : Nat) (cs : Bool) (sck : Bool), s.pw.vio = true ∧ s.tap.ir ≠ 4 ∧ s.tap.ir ≠ 0 ∧ s.tap.ir ≠ 3 ∧ (cs = false ∨ s.pw.gen ≠ Gen.gen3)) ∧
    (∃ (s : State) (x : Strobes) (a : Fin 64) (n : Nat) (cs : Bool) (sck : Bool), s.pw.vio = true ∧ s.tap.ir ≠ 4 ∧ s.tap.ir ≠ 0 ∧ s.tap.ir ≠ 3 ∧ s.pw.face ≠ Face.dead ∧ s.pw.gen = Gen.gen3) ∧
    (∃ (s : State) (x : Strobes) (a : Fin 64) (n : Nat) (cs : Bool) (sck : Bool), s.pw.vio = true ∧ s.tap.ir ≠ 4 ∧ s.tap.ir ≠ 0 ∧ s.tap.ir ≠ 3) ∧
    (∃ (s : State) (x : Strobes) (a : Fin 64) (n : Nat) (cs : Bool) (sck : Bool), s.pw.vio = true ∧ s.tap.ir ≠ 4 ∧ s.tap.ir ≠ 0 ∧ s.tap.ir ≠ 3 ∧ s.pw.gen = Gen.portOff) ∧
    (∃ (s : State) (x : Strobes) (a : Fin 64) (n : Nat) (cs : Bool) (sck : Bool), s.pw.vio = true ∧ s.tap.ir ≠ 4 ∧ s.tap.ir ≠ 0 ∧ s.tap.ir ≠ 3 ∧ islandOn s = true) ∧
    (∃ (s : State) (x : Strobes) (a : Fin 64) (n : Nat) (cs : Bool) (sck : Bool), s.pw.vio = true ∧ s.tap.ir ≠ 4 ∧ s.tap.ir ≠ 0 ∧ s.tap.ir ≠ 3 ∧ islandOn s = true ∧ s.pw.gen ≠ Gen.portOff) ∧
    (∃ (s : State) (x : TapScan) (tdi : List Bool) (n : Nat), (s.pw.vio = false ∨ s.auth.dbgBs = false ∧ s.auth.dbgTest = false)) ∧
    (∃ (s : State) (x : TapScan) (tdi : List Bool) (n : Nat), s.pw.vio = true ∧ s.auth.dbgBs = true ∧ n < 5) ∧
    (∃ (s : State) (x : TapScan) (tdi : List Bool) (n : Nat), s.pw.vio = true ∧ s.auth.dbgBs = true ∧ n < (tapData s).1) ∧
    (∃ (s : State) (x : TapScan) (tdi : List Bool) (n : Nat) (y : Bool), s.pw.vio = true ∧ s.auth.dbgBs = true ∧ 5 ≤ n ∧ tdi[n - 5]? = some y) ∧
    (∃ (s : State) (x : Strobes) (a : Fin 64) (n : Nat) (cs : Bool) (sck : Bool), s.pw.vio = true ∧ s.tap.ir ≠ 4 ∧ s.tap.ir ≠ 0 ∧ s.tap.ir ≠ 3 ∧ (s.pw.gen = Gen.gen1 ∨ s.pw.face = Face.full ∧ (offOf a = 22 ∨ offOf a = 46 ∨ offOf a = 84))) ∧
    (∃ (s : State) (x : Strobes) (a : Fin 64) (n : Nat) (cs : Bool) (sck : Bool), s.pw.vio = true ∧ s.tap.ir ≠ 4 ∧ s.tap.ir ≠ 0 ∧ s.tap.ir ≠ 3 ∧ s.pw.gen ≠ Gen.gen1 ∧ s.pw.face = Face.bootFace) ∧
    (∃ (s : State) (x : Strobes) (a : Fin 64) (n : Nat) (cs : Bool) (sck : Bool), s.pw.vio = true ∧ s.tap.ir ≠ 4 ∧ s.tap.ir ≠ 0 ∧ s.tap.ir ≠ 3 ∧ s.pw.gen ≠ Gen.gen1 ∧ s.pw.face = Face.full ∧ offOf a ≠ 22 ∧ offOf a ≠ 46 ∧ offOf a ≠ 84) :=
  ⟨⟨onA (fun x => { x with led := { x.led with recs := [({ blankRec wRun .bankA 3 with pix := 5 })] } }) (wSta .content), .bankA, false, { blankRec wRun .bankA 3 with pix := 5 }, 3, 2, by decide⟩,
    ⟨onA (fun x => { x with led := { x.led with recs := [({ blankRec wRun .bankA 3 with pix := 5, neg := true, lines := 8 })] } }) (wSta .content), .bankA, false, { blankRec wRun .bankA 3 with pix := 5, neg := true, lines := 8 }, 8, 1, by decide⟩,
    ⟨wSta .content, 5, 16, by decide⟩,
    ⟨wSta .content, 5, 0, by decide⟩,
    ⟨wSta .content, 5, 7, by decide⟩,
    ⟨wRun, .bankA, true, 0, 16, by decide⟩,
    ⟨onPw (fun p => { p with vio := false }) wRun, ⟨true, true, false⟩, 0x33, 3, true, true, .portP, by decide⟩,
    ⟨wRun, ⟨true, true, true⟩, 0x33, 3, true, true, by decide⟩,
    ⟨{ wRun with portP := { wRun.portP with rdata := 8 } }, ⟨true, true, false⟩, 0x33, 3, true, true, by decide⟩,
    ⟨wRun, ⟨true, true, false⟩, 0x33, 3, true, true, by decide⟩,
    ⟨wGen3, ⟨true, true, false⟩, 0x33, 3, true, true, by decide⟩,
    ⟨wRun, ⟨true, true, false⟩, 0x33, 3, true, true, by decide⟩,
    ⟨onPw (fun p => { p with gen := .portOff }) { wRun with irqStat := 1 }, ⟨true, true, false⟩, 0x33, 3, true, true, by decide⟩,
    ⟨{ wRun with irqStat := 0xFFFF }, ⟨true, true, false⟩, 0x33, 3, true, true, by decide⟩,
    ⟨{ wRun with irqStat := 0xFFFF }, ⟨true, true, false⟩, 0x33, 3, true, true, by decide⟩,
    ⟨wRun, .ir, [], 0, by decide⟩,
    ⟨onAuth (fun a => { a with dbgBs := true }) wRun, .ir, [], 0, by decide⟩,
    ⟨onAuth (fun a => { a with dbgBs := true }) wRun, .dr, [], 3, by decide⟩,
    ⟨onAuth (fun a => { a with dbgBs := true }) wRun, .ir, [true, false], 5, true, by decide⟩,
    ⟨{ wRun with portP := { wRun.portP with rdata := 8 } }, ⟨true, true, false⟩, 0x0B, 3, true, true, by decide⟩,
    ⟨wBoot, ⟨true, true, false⟩, 0x02, 3, true, true, by decide⟩,
    ⟨{ wRun with scratch := 8 }, ⟨true, true, false⟩, 0x33, 3, true, true, by decide⟩⟩

set_option maxRecDepth 20000 in
theorem witness_RtcRegistersAndIslandTime :
    (∃ (p : Port) (s : State), readable s p) ∧
    (∃ (p : Port) (v : Word) (w : Word) (s : State), reachesRule s p 42 v w) ∧
    (∃ (p : Port) (v : Word) (w : Word) (l : Word) (s : State), reachesRule s p 43 v w ∧ (getPort s p).rtcHold = some l) ∧
    (∃ (p : Port) (v : Word) (w : Word) (s : State), reachesRule s p 43 v w ∧ (getPort s p).rtcHold = none) ∧
    (∃ (p : Port) (v : Word) (w : Word) (s : State), reachesRule s p 45 v w) ∧
    (∃ (p : Port) (v : Word) (w : Word) (s : State), reachesRule s p 47 v w) ∧
    (∃ (w : AonWrite) (rest : List AonWrite) (s : State), ckAon s = true ∧ s.aon.q = w :: rest) ∧
    (∃ (s : State), ckAon s = true) ∧
    (∃ (s : State), ckAon s = false) ∧
    (∃ (s : State), s.bak.powered = true ∧ s.bak.follow = false ∧ s.pw.mode ≠ Mode.cork) ∧
    (∃ (s : State), s.bak.powered = false) ∧
    (∃ (p : Port) (q : Port) (v : Word) (w : Word) (s : State), reachesRule s p 45 v w) ∧
    (∃ (q : Port) (s : State), s.aon.q = []) :=
  ⟨⟨.portS, onAon (fun a => { a with sec := 0x12345678 }) wRun, (by unfold readable; decide)⟩,
    ⟨.portP, 1, 1, wRun, (by unfold reachesRule; decide)⟩,
    ⟨.portP, 1, 1, 2, onP (fun x => { x with rtcHold := some 2 }) wRun, (by unfold reachesRule; decide)⟩,
    ⟨.portP, 1, 1, wRun, (by unfold reachesRule; decide)⟩,
    ⟨.portP, 5, 5, wRun, (by unfold reachesRule; decide)⟩,
    ⟨.portP, 0x0009, 0x0009, onAon (fun a => { a with latch := 0xFF }) wRun, (by unfold reachesRule; decide)⟩,
    ⟨.rtc 77, [], onAon (fun a => { a with q := [.rtc 77] }) wRun, by decide⟩,
    ⟨onAon (fun a => { a with alarm := some 0, sec := 0xFFFFFFFF }) wRun, by decide⟩,
    ⟨wOff, by decide⟩,
    ⟨{ wRun with bak := { wRun.bak with powered := true, follow := false } }, by decide⟩,
    ⟨{ wRun with bak := { wRun.bak with powered := false } }, by decide⟩,
    ⟨.portP, .portS, 5, 5, onAon (fun a => { a with q := [.alm 9, .rtc 7] }) wRun, (by unfold reachesRule; decide)⟩,
    ⟨.portS, onAon (fun a => { a with alarm := some 77 }) wRun, by decide⟩⟩

set_option maxRecDepth 20000 in
theorem witness_WakeEventsLatchAndWake :
    (∃ (i : WakeIn) (l : Bool) (s : State), ckAon s = true ∧ wakeLevel s i ≠ l) ∧
    (∃ (i : WakeIn) (l : Bool) (s : State), wakeLevel s i = l) ∧
    (∃ (i : WakeIn) (s : State), islandOn s = true ∧ ckAon s = false) ∧
    (∃ (s : State), islandOn s = true ∧ s.aon.vlowTrip = false) ∧
    (∃ (s : State), islandOn s = true) ∧
    (∃ (s : State), islandOn s = true ∧ s.aon.vlowTrip = true ∧ s.aon.vlowTimer = true) ∧
    (∃ (s : State), islandOn s = true ∧ s.aon.alarm = some 0) ∧
    (∃ (s : State), s.aon.alarm ≠ some 0) ∧
    (∃ (i : WakeIn) (s : State), ckAon s = true) ∧
    (∃ (s : State), (s.aon.vlowTrip = false ∨ s.aon.vlowTimer = false)) ∧
    (∃ (s : State), s.aon.vlowTrip = true) :=
  ⟨⟨.ign, true, onAon (fun a => { a with wakeIs := 0xFF }) wSleep, by decide⟩,
    ⟨.ign, false, wRun, by decide⟩,
    ⟨.chg, onClk (fun c => { c with rootOk := false }) (wBoot), by decide⟩,
    ⟨wRun, by decide⟩,
    ⟨wRun, by decide⟩,
    ⟨onAon (fun a => { a with vlowTrip := true, vlowTimer := true }) wRun, by decide⟩,
    ⟨onAon (fun a => { a with alarm := some 0, wakeIs := 0xFF }) wSleep, by decide⟩,
    ⟨wRun, by decide⟩,
    ⟨.ign, wRun, by decide⟩,
    ⟨onAon (fun a => { a with vlowTrip := true, vlowTimer := false }) wRun, by decide⟩,
    ⟨onAon (fun a => { a with vlowTrip := true }) wRun, by decide⟩⟩
end

section
/-! Register writes that a register's own rule settles (R6, Table REG-1): what `exec` gives once a write reaches the
rule, the banks that DCRACK's enables leave, and O18. -/

namespace Sys2Proof.Machine

open Sys2Proof

/-! ### The row of a write that reaches its register -/

/-- With nothing beside it, a write that reaches its register's rule ends in the state that the rule gives. -/
theorem registerWrite_reach {s t : State} {p : Port} {a : Fin 64} {v w : Word} (h : reachesRule s p a v w)
    (hrule : regWriteBody p (offOf a) (gen1Empty s p a) w = t) :
    exec (.registerWrite p a v .alone) s = .next t := by
  rw [registerWrite_alone, regWrite, gate_reach h, hrule]

/-- R6: the rule of a read-only register discards the write. -/
theorem regWriteBody_readOnly (p : Port) {off : Nat} (s : State) (w : Word)
    (h : off ∈ [0x00, 0x02, 0x0E, 0x1E, 0x2E, 0x32, 0x3E, 0x40, 0x42, 0x44, 0x46, 0x58, 0x64]) :
    regWriteBody p off s w = s := by
  simp only [List.mem_cons, List.not_mem_nil, or_false] at h
  rcases h with rfl | rfl | rfl | rfl | rfl | rfl | rfl | rfl | rfl | rfl | rfl | rfl | rfl <;> rfl

/-- The Gen1 latches leave a port's interrupt enables. -/
@[simp] theorem getPort_gen1Empty_irqEn (s : State) (p q : Port) (a : Fin 64) :
    (getPort (gen1Empty s p a) q).irqEn = (getPort s q).irqEn := by
  unfold gen1Empty
  split
  · cases q <;> rfl
  · rfl

/-! ### IRQEN (R174) -/

/-- Putting a port's old enables back undoes a write of IRQEN. -/
theorem setPort_irqenWrite_restore (s : State) (p : Port) (w : Word) :
    setPort (irqenWrite s p w) p { getPort (irqenWrite s p w) p with irqEn := (getPort s p).irqEn } = s := by
  rw [irqenWrite, getPort_setPort, setPort_setPort]
  exact setPort_getPort s p

/-! ### DCRACK (R184, R520) -/

/-- A bank after its crack enable was written. -/
def crackEnabled (x : BankSt) (v : Bool) : BankSt :=
  if v = x.crack.en then x
  else if v then { x with crack := { x.crack with en := true, startNext := driven x.drv } }
  else { x with crack := { x.crack with en := false, sta := 0, startNext := false } }

/-- Writing ENx changes its bank alone. -/
theorem crackEnable_eq_setBank (s : State) (b : Bank) (v : Bool) :
    crackEnable s b v = setBank s b (crackEnabled (getBank s b) v) := by
  unfold crackEnable crackEnabled
  dsimp only
  split
  · exact (setBank_getBank s b).symm
  · split <;> rfl

/-- A DCRACK write in range changes the two banks' crack state and the polarity. -/
theorem dcrackWrite_inRange (s : State) (p : Port) {w : Word} (h : fld w 2 2 < 2) :
    dcrackWrite s p w = { s with bankA := crackEnabled s.bankA (bit w 0), bankB := crackEnabled s.bankB (bit w 1)
                                 disp := { s.disp with crackPol := fld w 2 2 } } := by
  rw [dcrackWrite, if_neg (by omega), crackEnable_eq_setBank, crackEnable_eq_setBank]
  rfl

/-- R520: an enable that is written as it stands leaves the bank; a new one measures a driven bank from its next frame;
a cleared one clears the status. -/
theorem crackEnabled_cases (x : BankSt) (v : Bool) :
    (v = x.crack.en → crackEnabled x v = x) ∧
    (v = true → x.crack.en = false →
      crackEnabled x v = { x with crack := { x.crack with en := true, startNext := driven x.drv } }) ∧
    (v = false → x.crack.en = true →
      crackEnabled x v = { x with crack := { x.crack with en := false, sta := 0, startNext := false } }) := by
  refine ⟨fun h => if_pos h, ?_, ?_⟩
  · rintro rfl hoff
    simp [crackEnabled, hoff]
  · rintro rfl hon
    simp [crackEnabled, hon]

/-- The row of a DCRACK write in range. -/
theorem dcrackRow_inRange {s : State} {p : Port} {v w : Word} (h : reachesRule s p 0x14 v w) (hpol : fld w 2 2 < 2) :
    ∃ t, exec (.registerWrite p 0x14 v .alone) s = .next t ∧
      t.disp = { s.disp with crackPol := fld w 2 2 } ∧
      t = { gen1Empty s p 0x14 with bankA := t.bankA, bankB := t.bankB, disp := t.disp } ∧
      ∀ b : Bank, getBank t b = crackEnabled (getBank s b) (bit w b.num) := by
  refine ⟨_, registerWrite_reach h (dcrackWrite_inRange _ p hpol), ?_, rfl, fun b => ?_⟩
  · simp only [gen1Empty_disp]
  · cases b <;> simp only [getBank, Bank.num, gen1Empty_bankA, gen1Empty_bankB]

/-! ### The statement -/

/-- Settles O18: each write reaches its register's rule, and the rule names the fields it changes. -/
theorem plainRegisterWrites : Obligations.PlainRegisterWrites := by
  unfold Obligations.PlainRegisterWrites
  refine ⟨?scratch, ?irqen, ?readOnly, ?sysstat, ?kstat, ?bstat, ?bpack, ?astat, ?clkstat, ?lsel, ?dcrack, ?wakectl⟩
  case scratch => exact fun p v w s h => registerWrite_reach h rfl
  case irqen =>
    intro p v w s h
    refine ⟨_, registerWrite_reach h rfl, ?_, getPort_setPort_other _ p _, ?_⟩
    · exact congrArg PortSt.irqEn (getPort_setPort _ p _)
    · rw [← getPort_gen1Empty_irqEn s p p 0x05]
      exact setPort_irqenWrite_restore _ p w
  case readOnly =>
    exact fun p a v w s h hoff => registerWrite_reach h (regWriteBody_readOnly p _ w hoff)
  -- The write-1-to-clear rules touch fields that the Gen1 latches leave as they were.
  case sysstat => exact fun p v w s h => registerWrite_reach h (by rw [← gen1Empty_pw s p 0x02]; rfl)
  case kstat => exact fun p v w s h => registerWrite_reach h (by rw [← gen1Empty_keys s p 0x16]; rfl)
  case bstat =>
    exact fun p v w s h => registerWrite_reach h (by rw [← gen1Empty_batA s p 0x1E, ← gen1Empty_batB s p 0x1E]; rfl)
  case bpack => exact fun p v w s h => registerWrite_reach h (by rw [← gen1Empty_pack s p 0x24]; rfl)
  case astat => exact fun p v w s h => registerWrite_reach h (by rw [← gen1Empty_auth s p 0x29]; rfl)
  case clkstat => exact fun p v w s h => registerWrite_reach h (by rw [← gen1Empty_clk s p 0x30]; rfl)
  case lsel =>
    refine fun p v w s h => ⟨fun hparam => ?_, fun hparam => registerWrite_reach h (if_pos hparam)⟩
    refine ⟨_, registerWrite_reach h (if_neg (by omega)), ?_, rfl⟩
    rw [← gen1Empty_lamps s p 0x1A]
  case dcrack =>
    refine fun p v w s h => ⟨fun hpol => ?_, fun hpol => registerWrite_reach h (if_pos hpol)⟩
    obtain ⟨t, hrow, hdisp, hframe, hbank⟩ := dcrackRow_inRange h hpol
    refine ⟨t, hrow, hdisp, hframe, fun b => ?_⟩
    rw [hbank b]
    exact crackEnabled_cases (getBank s b) (bit w b.num)
  case wakectl => exact fun p v w s h => registerWrite_reach h (by rw [← gen1Empty_aon s p 0x2E]; rfl)

end Sys2Proof.Machine
end

section
/-! Mode requests and the lamps and banks that they switch off (R23, R24, R57, R59): what settling leaves of lamps that
may not be on, what a power-down request leaves of a bank's own requests, and O11. -/

namespace Sys2Proof.Machine

open Sys2Proof

/-! ### Lamps that may not be on (R364) -/

/-- Following one channel changes no other. -/
theorem followReq_getLamp_ne (s : State) {n m : Fin 8} (h : m ≠ n) : getLamp (followReq s n) m = getLamp s m := by
  unfold followReq
  split
  case h_5 => rfl
  all_goals exact getLamp_setLamp_ne _ _ _ _ h

/-- R364: a channel that follows its request while no lamp may be on ends unpowered. -/
theorem followReq_unpowered {s : State} (h : lampsAllowed s = false) (n : Fin 8) :
    powered (getLamp (followReq s n) n) = false := by
  have hreq : effReq s n = false := by simp [effReq, h]
  unfold followReq
  rw [hreq]
  cases hmode : (getLamp s n).mode <;> simp [switchOff, powered, hmode]

theorem followReq_lampsAllowed (s : State) (n : Fin 8) : lampsAllowed (followReq s n) = lampsAllowed s := by
  rw [followReq_frame]; rfl

theorem flasherFollow_lampsAllowed (s : State) : lampsAllowed (flasherFollow s) = lampsAllowed s := by
  rw [flasherFollow_frame]; rfl

/-- While no lamp may be on, every channel of a list that was followed is unpowered, and every one that was so before. -/
theorem followAll_unpowered (l : List (Fin 8)) {s : State} (h : lampsAllowed s = false) {n : Fin 8}
    (hn : n ∈ l ∨ powered (getLamp s n) = false) : powered (getLamp (l.foldl followReq s) n) = false := by
  induction l generalizing s with
  | nil => simpa using hn
  | cons m l ih =>
    refine ih (by rw [followReq_lampsAllowed, h]) ?_
    by_cases hm : n = m
    · exact .inr (hm ▸ followReq_unpowered h n)
    · rw [followReq_getLamp_ne s hm]
      simpa [hm] using hn

/-- R364: lamps that may not be on are off once they have settled. -/
theorem lampsSettle_unpowered {s : State} (h : lampsAllowed s = false) (n : Fin 8) :
    powered (getLamp (lampsSettle s) n) = false :=
  followAll_unpowered _ (by rw [flasherFollow_lampsAllowed, h]) (.inl (List.mem_finRange n))

theorem followReq_lctl (s : State) (n : Fin 8) : (followReq s n).lamps.lctl = s.lamps.lctl := by
  unfold followReq; split <;> rfl

theorem flasherFollow_lctl (s : State) : (flasherFollow s).lamps.lctl = s.lamps.lctl := by
  unfold flasherFollow; dsimp only; split_ifs <;> rfl

/-- Settling keeps the requests that it follows. -/
theorem lampsSettle_lctl (s : State) : (lampsSettle s).lamps.lctl = s.lamps.lctl := by
  have follow (l : List (Fin 8)) (t : State) : (l.foldl followReq t).lamps.lctl = t.lamps.lctl := by
    induction l generalizing t with
    | nil => rfl
    | cons n l ih => rw [List.foldl_cons, ih, followReq_lctl]
  rw [lampsSettle, follow, flasherFollow_lctl]

/-! ### Banks whose requests are cleared (R582) -/

/-- The state t is s but for one bank, which holds no request, no LATCH and no waiting change of its DPWR bit. -/
structure RequestsCleared (s : State) (b : Bank) (t : State) : Prop where
  bank : t = setBank s b (getBank t b)
  req : (getBank t b).drv.req = false
  latch : (getBank t b).drv.latch = false
  reqNext : (getBank t b).drv.reqNext = none

section
variable {s t : State} {b : Bank}

/-- Work on the cleared bank that keeps its requests keeps them cleared. -/
theorem RequestsCleared.setBank (h : RequestsCleared s b t) {x : BankSt} (hr : x.drv.req = (getBank t b).drv.req)
    (hl : x.drv.latch = (getBank t b).drv.latch) (hn : x.drv.reqNext = (getBank t b).drv.reqNext) :
    RequestsCleared s b (setBank t b x) := by
  refine ⟨?_, ?_, ?_, ?_⟩
  · rw [getBank_setBank]
    conv_lhs => rw [h.bank]
    exact setBank_setBank s b _ x
  · rw [getBank_setBank, hr, h.req]
  · rw [getBank_setBank, hl, h.latch]
  · rw [getBank_setBank, hn, h.reqNext]

theorem RequestsCleared.settleSkipped (h : RequestsCleared s b t) : RequestsCleared s b (settleSkipped t b) := by
  unfold Machine.settleSkipped
  dsimp only
  split
  · exact h.setBank rfl rfl rfl
  · exact h

/-- A bank without requests that reaches state 0 stays there. -/
theorem RequestsCleared.enterOff (h : RequestsCleared s b t) : RequestsCleared s b (enterOff t b) := by
  unfold Machine.enterOff
  dsimp only
  rw [if_neg (by simp [h.req, h.latch])]
  exact h.setBank rfl rfl rfl

theorem RequestsCleared.enterRelease (h : RequestsCleared s b t) : RequestsCleared s b (enterRelease t b) := by
  have hskip := h.settleSkipped
  unfold Machine.enterRelease
  dsimp only
  generalize Machine.settleSkipped t b = u at hskip ⊢
  have htrim : RequestsCleared s b (setTrim u b { (getBank u b).trim with armed := false, waitArm := false }) :=
    hskip.setBank rfl rfl rfl
  have hrel : RequestsCleared s b (setDrv (setTrim u b { (getBank u b).trim with armed := false, waitArm := false }) b
      { (getBank u b).drv with sta := .release, pend := .none }) := by
    refine htrim.setBank ?_ ?_ ?_
    all_goals simp only [setTrim, getBank_setBank]
  split
  · exact hrel
  · exact hrel.enterOff

theorem RequestsCleared.downAct (h : RequestsCleared s b t) (k : PendDown) : RequestsCleared s b (downAct t b k) := by
  unfold Machine.downAct
  dsimp only
  split
  · exact h.enterRelease
  · exact h.enterRelease
  · exact h.setBank rfl rfl rfl
  · split
    · exact h.setBank rfl rfl rfl
    · exact h.setBank rfl rfl rfl
  · exact h

end

/-- R582: a power-down request changes its bank alone, and leaves it without a request. -/
theorem bankDown_requestsCleared (s : State) (b : Bank) : RequestsCleared s b (bankDown s b) := by
  refine RequestsCleared.downAct ⟨?_, ?_, ?_, ?_⟩ .other
  all_goals simp only [setDrv, getBank_setBank, noRequest]

/-- Both banks' power-down requests change the banks alone, and leave both without a request. -/
theorem banksDown_requestless (s : State) :
    ∃ x y, banksDown s = { s with bankA := x, bankB := y } ∧ x.drv.req = false ∧ x.drv.reqNext = none ∧
      y.drv.req = false ∧ y.drv.reqNext = none := by
  have hA := bankDown_requestsCleared s .bankA
  have hB := bankDown_requestsCleared (bankDown s .bankA) .bankB
  refine ⟨(bankDown s .bankA).bankA, (banksDown s).bankB, ?_, hA.req, hA.reqNext, hB.req, hB.reqNext⟩
  unfold banksDown
  generalize bankDown (bankDown s .bankA) .bankB = u at hB ⊢
  generalize bankDown s .bankA = t at hA hB ⊢
  rw [hB.bank, hA.bank]
  rfl

/-! ### The mode requests -/

theorem modeAllowed_setExpert (s : State) (w : Word) (m : Nat) : modeAllowed (setExpert s w) m = modeAllowed s m := rfl

theorem modeAllowed_gen1Empty (s : State) (p : Port) (a : Fin 64) (m : Nat) :
    modeAllowed (gen1Empty s p a) m = modeAllowed s m := by
  unfold gen1Empty; split <;> rfl

/-- R57: a SYSCTL word that asks for an allowed mode and no reset begins it. -/
theorem sysctlWrite_allowed {s : State} {p : Port} {w : Word} {m : Nat} (hm : fld w 0 3 = m) (hk : fld w 8 8 = 0)
    (h0 : 0 < m) (h3 : m ≤ 3) (hallow : modeAllowed s m = true) :
    sysctlWrite s p w = modeBegin (setExpert s w) m := by
  subst hm
  simp [sysctlWrite, hk, hallow, show ¬ 3 < fld w 0 3 by omega, show fld w 0 3 ≠ 0 by omega]

/-- A mode request that reaches SYSCTL and is allowed begins. -/
theorem sysctlGate_allowed {s : State} {p : Port} {v w : Word} {m : Nat} (h : reachesRule s p 3 v w)
    (hm : fld w 0 3 = m) (hk : fld w 8 8 = 0) (h0 : 0 < m) (h3 : m ≤ 3) (hallow : modeAllowed s m = true) :
    gate s p 3 v (fun s w => sysctlWrite s p w) = modeBegin (setExpert (gen1Empty s p 3) w) m := by
  rw [gate_reach h]
  exact sysctlWrite_allowed hm hk h0 h3 (by rw [modeAllowed_gen1Empty, hallow])

/-- Leaving RUN (Table PWR-1): with the lamps held off, every lamp is unpowered, its ON bit and the banks' requests are
cleared, and besides the lamps and the banks nothing changes. -/
theorem quietOutputs_held {s : State} (h : lampsAllowed s = false) :
    ∃ x y, quietOutputs s = { s with bankA := x, bankB := y, lamps := (quietOutputs s).lamps } ∧
      (quietOutputs s).lamps.lctl = s.lamps.lctl &&& 0xFF00 ∧ (∀ n, powered (getLamp (quietOutputs s) n) = false) ∧
      x.drv.req = false ∧ x.drv.reqNext = none ∧ y.drv.req = false ∧ y.drv.reqNext = none := by
  have hframe := lampsSettle_frame { s with lamps := { s.lamps with lctl := s.lamps.lctl &&& 0xFF00 } }
  have hlctl := lampsSettle_lctl { s with lamps := { s.lamps with lctl := s.lamps.lctl &&& 0xFF00 } }
  have hoff := lampsSettle_unpowered (s := { s with lamps := { s.lamps with lctl := s.lamps.lctl &&& 0xFF00 } }) h
  unfold quietOutputs
  generalize lampsSettle _ = u at hframe hlctl hoff ⊢
  obtain ⟨x, y, hxy, hreq⟩ := banksDown_requestless u
  rw [hxy]
  refine ⟨x, y, ?_, hlctl, hoff, hreq⟩
  rw [hframe]

/-! ### The commands -/

theorem exec_mreqRun (p : Port) (e : Bool) (s : State) :
    exec (.mreqRun p e) s = .next (gate s p 3 (sysctlWord 2 0 e) (fun s w => sysctlWrite s p w)) := rfl

theorem exec_mreqStandby (p : Port) (e : Bool) (s : State) :
    exec (.mreqStandby p e) s = .next (gate s p 3 (sysctlWord 1 0 e) (fun s w => sysctlWrite s p w)) := rfl

theorem exec_mreqSleep (p : Port) (e : Bool) (s : State) :
    exec (.mreqSleep p e) s = .next (gate s p 3 (sysctlWord 3 0 e) (fun s w => sysctlWrite s p w)) := rfl

/-- R59: an allowed request of RUN changes the power block, and the lamps settle. -/
theorem modeBegin_run (s : State) : modeBegin s 2 =
    { s with pw := { s.pw with mode := .run }, lamps := (modeBegin s 2).lamps } :=
  lampsSettle_frame { s with pw := { s.pw with mode := .run } }

/-- Settles O11: an allowed request that reaches SYSCTL begins its mode; RUN settles the lamps, STANDBY quiets the
outputs, and SLEEP changes the transition alone. -/
theorem allowedModeRequestsAreExecuted : Obligations.AllowedModeRequestsAreExecuted := by
  unfold Obligations.AllowedModeRequestsAreExecuted
  refine ⟨?run, ?standby, ?sleep⟩
  case run =>
    intro p e w s h hm hk hmode htrans hexp htap
    have hallow : modeAllowed s 2 = true := by simp [modeAllowed, hmode, htrans, hexp, htap]
    rw [exec_mreqRun, sysctlGate_allowed h hm hk (by decide) (by decide) hallow, modeBegin_run]
    refine ⟨_, rfl, ?_⟩
    simp [setExpert]
  case standby =>
    intro p e w s h hm hk hmode htrans hexp hfdon
    have hallow : modeAllowed s 1 = true := by simp [modeAllowed, hmode, htrans, hexp, hfdon]
    obtain ⟨x, y, hq, hlctl, hoff, hxr, hxn, hyr, hyn⟩ := quietOutputs_held
      (s := { setExpert (gen1Empty s p 3) w with pw := { (setExpert (gen1Empty s p 3) w).pw with trans := .toStandby } })
      (by simp [lampsAllowed, lampsHeld])
    rw [exec_mreqStandby, sysctlGate_allowed h hm hk (by decide) (by decide) hallow, modeBegin]
    refine ⟨_, rfl, ?_, ?_, hoff, ?_⟩
    · rw [hq]; simp [setExpert]
    · rw [hlctl]; simp [setExpert]
    · rw [hq]; exact ⟨hxr, hxn, hyr, hyn, gen1Empty_err s p 3⟩
  case sleep =>
    intro p e w s h hm hk hmode htrans hexp hen hact hbusy
    have hallow : modeAllowed s 3 = true := by simp [modeAllowed, hmode, htrans, hexp, hen, hact, hbusy]
    rw [exec_mreqSleep, sysctlGate_allowed h hm hk (by decide) (by decide) hallow]
    simp [modeBegin, setExpert]

end Sys2Proof.Machine
end

section
/-! What a frame boundary keeps (R208, R283, R306 to R329, R378): the operations of its work each leave the modes, the
ports, the clocks, the batteries, the backup and security domains and the last heartbeat as they are, set IRQSTAT bits
without clearing one, and make no record while the Cellar holds no error. -/

namespace Sys2Proof.Machine

open Sys2Proof

/-! ### The relation -/

/-- The machine with all that a frame boundary can change blanked. -/
def beyondFrame (s : State) : State :=
  { s with freeCtr := 0, irqStat := 0, err := ErrRec.none, roles := Roles.ready s.roles.ppri s.roles.hbRef
           bankA := BankSt.ready, bankB := BankSt.ready, disp := Display.ready, keys := Keys.ready
           lamps := Lamps.ready, arb := Arb.ready, mem := [] }

/-- The state t is s after work of a frame boundary. -/
structure FrameKeeps (s t : State) : Prop where
  beyond : beyondFrame t = beyondFrame s
  irq : ∀ i, bit s.irqStat i = true → bit t.irqStat i = true
  clean : s.arb.ecc = [] → t.arb.ecc = [] ∧ t.err = s.err

namespace FrameKeeps

theorem refl (s : State) : FrameKeeps s s := ⟨rfl, fun _ h => h, fun h => ⟨h, rfl⟩⟩

theorem trans {s t u : State} (h : FrameKeeps s t) (k : FrameKeeps t u) : FrameKeeps s u := by
  refine ⟨k.beyond.trans h.beyond, fun i hi => k.irq i (h.irq i hi), fun hecc => ?_⟩
  obtain ⟨het, hrt⟩ := h.clean hecc
  obtain ⟨heu, hru⟩ := k.clean het
  exact ⟨heu, hru.trans hrt⟩

/-- An operation that leaves IRQSTAT, ERRSTAT and the ECC state, and what a boundary keeps, is work of a boundary. -/
theorem of_eq {s t : State} (hb : beyondFrame t = beyondFrame s) (hi : t.irqStat = s.irqStat)
    (ha : t.arb.ecc = s.arb.ecc) (he : t.err = s.err) : FrameKeeps s t :=
  ⟨hb, fun _ h => by rw [hi]; exact h, fun h => ⟨ha.trans h, he⟩⟩

theorem foldl {α : Type} {f : State → α → State} (hf : ∀ s a, FrameKeeps s (f s a)) (l : List α) (s : State) :
    FrameKeeps s (l.foldl f s) := by
  induction l generalizing s with
  | nil => exact refl s
  | cons a l ih => exact (hf s a).trans (ih (f s a))

theorem pw {s t : State} (h : FrameKeeps s t) : t.pw = s.pw := (congrArg State.pw h.beyond :)

theorem portP {s t : State} (h : FrameKeeps s t) : t.portP = s.portP := (congrArg State.portP h.beyond :)

theorem portS {s t : State} (h : FrameKeeps s t) : t.portS = s.portS := (congrArg State.portS h.beyond :)

theorem hbRef {s t : State} (h : FrameKeeps s t) : t.roles.hbRef = s.roles.hbRef :=
  (congrArg (fun u : State => u.roles.hbRef) h.beyond :)

end FrameKeeps

/-! ### Parts of the state -/

theorem frameKeeps_setBank (s : State) (b : Bank) (x : BankSt) : FrameKeeps s (setBank s b x) := by
  cases b <;> exact FrameKeeps.of_eq rfl rfl rfl rfl

theorem frameKeeps_setDrv (s : State) (b : Bank) (d : Drive) : FrameKeeps s (setDrv s b d) := frameKeeps_setBank s b _

theorem frameKeeps_setLed (s : State) (b : Bank) (l : Ledger) : FrameKeeps s (setLed s b l) := frameKeeps_setBank s b _

theorem frameKeeps_setTrim (s : State) (b : Bank) (t : Trim) : FrameKeeps s (setTrim s b t) := frameKeeps_setBank s b _

theorem frameKeeps_setThr (s : State) (b : Bank) (t : Thread) : FrameKeeps s (setThr s b t) := frameKeeps_setBank s b _

theorem frameKeeps_setCrack (s : State) (b : Bank) (c : Crack) : FrameKeeps s (setCrack s b c) :=
  frameKeeps_setBank s b _

theorem frameKeeps_lamps (s : State) (l : Lamps) : FrameKeeps s { s with lamps := l } :=
  FrameKeeps.of_eq rfl rfl rfl rfl

theorem frameKeeps_setLamp (s : State) (n : Fin 8) (c : Lamp) : FrameKeeps s (setLamp s n c) := frameKeeps_lamps s _

theorem frameKeeps_disp (s : State) (d : Display) : FrameKeeps s { s with disp := d } := FrameKeeps.of_eq rfl rfl rfl rfl

/-- R172: setting a bit of IRQSTAT clears no other. -/
theorem frameKeeps_setIrq (s : State) (i : Nat) : FrameKeeps s (setIrq s i) :=
  ⟨rfl, fun j h => by simp only [setIrq_irqStat, bit, BitVec.getLsbD_or] at h ⊢; rw [h, Bool.true_or],
    fun h => ⟨h, rfl⟩⟩

theorem frameKeeps_setIrqIf (c : Bool) (s : State) (i : Nat) : FrameKeeps s (setIrqIf c s i) := by
  cases c
  · exact FrameKeeps.refl s
  · exact frameKeeps_setIrq s i

theorem frameKeeps_lampsSettle (s : State) : FrameKeeps s (lampsSettle s) := by
  rw [lampsSettle_frame]
  exact frameKeeps_lamps s _

/-! ### The Cellar (R218 to R221, R224) -/

theorem frameKeeps_grantLow (s : State) (l n : Nat) : FrameKeeps s (grantLow s l n) := FrameKeeps.of_eq rfl rfl rfl rfl

/-- R219, R220: a read makes a record only of an error. -/
theorem frameKeeps_eccRead (s : State) (w : Nat) : FrameKeeps s (eccRead s w) := by
  refine ⟨by rw [eccRead_frame]; rfl, fun i h => ?_, fun h => by rw [eccRead_clean h]; exact ⟨h, rfl⟩⟩
  unfold eccRead
  split
  · exact h
  · exact h
  · unfold detectUe
    dsimp only
    split
    · exact h
    · exact (frameKeeps_setIrq _ irqERR).irq i h

theorem frameKeeps_eccReadN (s : State) (w n : Nat) : FrameKeeps s (eccReadN s w n) := by
  induction n generalizing s w with
  | zero => exact FrameKeeps.refl s
  | succ n ih => exact (frameKeeps_eccRead s w).trans (ih _ _)

/-- R221: a device write gives its ECC words fresh check bits. -/
theorem frameKeeps_storeEcc (s : State) (w n v : Nat) : FrameKeeps s (storeEcc s w n v) := by
  induction n generalizing s w v with
  | zero => exact FrameKeeps.refl s
  | succ n ih =>
    have hword : FrameKeeps s { eccWritten s w with mem := Cellar.setNat s.mem w 8 v } :=
      ⟨rfl, fun _ h => h, fun h => ⟨eccWritten_clean h w, rfl⟩⟩
    exact hword.trans (ih _ _ _)

theorem frameKeeps_storeLine (s : State) (a : Nat) (v : BitVec 128) : FrameKeeps s (storeLine s a v) :=
  frameKeeps_storeEcc s a 2 _

/-! ### Slot bursts (R226, R312, R314) -/

theorem frameKeeps_rackLayer (s : State) (b : Bank) (q : Burst) (l : Nat) : FrameKeeps s (rackLayer s b q l) := by
  unfold rackLayer
  dsimp only
  split
  · have hread := (frameKeeps_eccReadN s (decLine b l q.line) 2).trans (frameKeeps_eccReadN _ (idleLine b l
      (getLayer (getBank s b) l) q.line) 2)
    split
    · exact hread
    · exact hread.trans (frameKeeps_storeLine _ _ _)
  · split
    · split
      · exact frameKeeps_storeLine _ _ _
      · exact (frameKeeps_eccReadN _ _ _).trans (frameKeeps_storeLine _ _ _)
    · exact FrameKeeps.refl s

theorem frameKeeps_burstWork (s : State) (b : Bank) (q : Burst) : FrameKeeps s (burstWork s b q) := by
  have hfetch : FrameKeeps s (if q.shown then fetchReads s b q.line else s) := by
    split
    · exact FrameKeeps.foldl (fun s l => frameKeeps_eccReadN s _ 2) _ s
    · exact FrameKeeps.refl s
  exact hfetch.trans (FrameKeeps.foldl (fun s l => frameKeeps_rackLayer s b q l) _ _)

theorem frameKeeps_l0Burst (s : State) (b : Bank) (q : Burst) : FrameKeeps s (l0Burst s b q) :=
  (frameKeeps_burstWork s b q).trans (FrameKeeps.of_eq rfl rfl rfl rfl)

theorem frameKeeps_burstRuns (s : State) (b : Bank) : FrameKeeps s (burstRuns s b) := by
  unfold burstRuns
  dsimp only
  split
  · exact FrameKeeps.refl s
  · exact (frameKeeps_setDrv s b _).trans (frameKeeps_l0Burst _ b _)

theorem frameKeeps_burstSettled (s : State) (b : Bank) : FrameKeeps s (burstSettled s b) := by
  unfold burstSettled
  dsimp only
  split
  · exact FrameKeeps.refl s
  · split
    · exact (frameKeeps_setDrv s b _).trans (frameKeeps_setBank _ b _)
    · exact frameKeeps_burstRuns s b

/-! ### Trim and power requests that waited for the boundary (R208) -/

theorem frameKeeps_trimRetarget (s : State) (b : Bank) : FrameKeeps s (trimRetarget s b) := by
  unfold trimRetarget trimArrived
  dsimp only
  split
  · split
    · exact (frameKeeps_setTrim s b _).trans (frameKeeps_setIrq _ irqVLCD)
    · exact FrameKeeps.refl s
  · exact frameKeeps_setTrim s b _

theorem frameKeeps_waitsTaken (s : State) (b : Bank) : FrameKeeps s (waitsTaken s b) := by
  unfold waitsTaken
  dsimp only
  split
  · exact (frameKeeps_setDrv s b _).trans ((frameKeeps_setTrim _ b _).trans (frameKeeps_trimRetarget _ b))
  · exact frameKeeps_setDrv s b _

theorem frameKeeps_keySlotGone (s : State) (b : Bank) : FrameKeeps s (keySlotGone s b) := by
  unfold keySlotGone
  split
  · exact FrameKeeps.of_eq rfl rfl rfl rfl
  · exact FrameKeeps.refl s

theorem frameKeeps_bankUp (s : State) (b : Bank) : FrameKeeps s (bankUp s b) := by
  have hup (d : Drive) : FrameKeeps s (setDrv (keySlotGone (setTrim s b
      { (getBank s b).trim with now := trimEff (getBank s b).trim }) b) b d) :=
    ((frameKeeps_setTrim s b _).trans (frameKeeps_keySlotGone _ b)).trans (frameKeeps_setDrv _ b d)
  unfold bankUp
  dsimp only
  split
  · exact (hup _).trans (frameKeeps_setDrv _ b _)
  · exact hup _

theorem frameKeeps_enterOff (s : State) (b : Bank) : FrameKeeps s (enterOff s b) := by
  unfold enterOff
  dsimp only
  split
  · exact (frameKeeps_setDrv s b _).trans (frameKeeps_bankUp _ b)
  · exact frameKeeps_setDrv s b _

theorem frameKeeps_enterRelease (s : State) (b : Bank) : FrameKeeps s (enterRelease s b) := by
  have hskip : FrameKeeps s (settleSkipped s b) := by
    unfold settleSkipped
    dsimp only
    split
    · exact frameKeeps_setLed s b _
    · exact FrameKeeps.refl s
  have hrel (y : Trim) (d : Drive) : FrameKeeps s (setDrv (setTrim (settleSkipped s b) b y) b d) :=
    (hskip.trans (frameKeeps_setTrim _ b y)).trans (frameKeeps_setDrv _ b d)
  unfold enterRelease
  dsimp only
  split
  · exact hrel _ _
  · exact (hrel _ _).trans (frameKeeps_enterOff _ b)

theorem frameKeeps_downAct (s : State) (b : Bank) (k : PendDown) : FrameKeeps s (downAct s b k) := by
  unfold downAct
  dsimp only
  split
  · exact frameKeeps_enterRelease s b
  · exact frameKeeps_enterRelease s b
  · exact frameKeeps_setDrv s b _
  · split
    · exact frameKeeps_setDrv s b _
    · exact frameKeeps_setDrv s b _
  · exact FrameKeeps.refl s

theorem frameKeeps_powerSet (s : State) (b : Bank) : FrameKeeps s (powerSet s b) := by
  unfold powerSet
  dsimp only
  split
  · split
    · exact frameKeeps_bankUp s b
    · exact frameKeeps_setDrv s b _
  · exact frameKeeps_setDrv s b _
  · exact frameKeeps_setDrv s b _
  · exact frameKeeps_setDrv s b _

theorem frameKeeps_powerBit (s : State) (b : Bank) (v : Bool) : FrameKeeps s (powerBit s b v) := by
  unfold powerBit
  dsimp only
  split
  · exact FrameKeeps.refl s
  · split
    · exact frameKeeps_setDrv s b _
    · split
      · exact frameKeeps_powerSet s b
      · exact (frameKeeps_setDrv s b _).trans (frameKeeps_downAct _ b .byClear)

theorem frameKeeps_reqTaken (s : State) (b : Bank) : FrameKeeps s (reqTaken s b) := by
  unfold reqTaken
  dsimp only
  split
  · exact (frameKeeps_setDrv s b _).trans (frameKeeps_powerBit _ b _)
  · exact FrameKeeps.refl s

/-! ### Layers, masks and blink groups (R149, R308, R318 to R321) -/

theorem frameKeeps_layersBoundary (s : State) (b : Bank) : FrameKeeps s (layersBoundary s b) := by
  unfold layersBoundary
  extract_lets x r x' late ttLate s1 s2 stale anyTt s3
  have h1 : FrameKeeps s s1 := frameKeeps_setBank s b _
  have h2 : FrameKeeps s1 s2 := (frameKeeps_setIrqIf _ _ irqCOMMIT).trans (frameKeeps_setIrqIf _ _ irqLATE)
  have h3 : FrameKeeps s2 s3 := frameKeeps_setIrqIf _ _ irqLATE
  exact ((h1.trans h2).trans h3).trans (frameKeeps_disp s3 _)

theorem frameKeeps_fallbackBoundary (s : State) (b : Bank) : FrameKeeps s (fallbackBoundary s b) := by
  unfold fallbackBoundary
  extract_lets x s1
  have h1 : FrameKeeps s s1 := frameKeeps_setBank s b _
  split
  · have hroles : FrameKeeps s1 { s1 with roles := { s1.roles with
        fallbk := false, fbEnding := false, hbMissed := false, fbBeat := none } } := FrameKeeps.of_eq rfl rfl rfl rfl
    exact h1.trans (hroles.trans (frameKeeps_lampsSettle _))
  · exact h1

/-! ### The animation engine (R326, R335) -/

theorem frameKeeps_animRead (s : State) (o n : Nat) : FrameKeeps s (animRead s o n).2 :=
  (FrameKeeps.foldl frameKeeps_eccRead _ s).trans (frameKeeps_grantLow _ _ _)

theorem frameKeeps_animPut (s : State) (b : Bank) (c : Nat) (anew : Bool) (m v : BitVec 128) :
    FrameKeeps s (animPut s b c anew m v) := by
  unfold animPut
  extract_lets a m' old new s1 s2 t
  have h1 : FrameKeeps s s1 := (frameKeeps_eccReadN s a 2).trans (frameKeeps_grantLow _ 5 1)
  split
  · exact h1
  · exact h1.trans ((frameKeeps_storeLine s1 a new).trans (frameKeeps_setThr _ b _))

theorem frameKeeps_barDraw (s : State) (b : Bank) (i : Nat) (r : BarSt) (lit : Nat → Bool) :
    FrameKeeps s (barDraw s b i r lit) := by
  unfold barDraw
  extract_lets s1 t
  have h1 : FrameKeeps s s1 := by
    refine FrameKeeps.foldl (fun u j => ?_) _ s
    split
    · exact FrameKeeps.refl u
    · exact frameKeeps_animPut u b _ true _ _
  exact h1.trans (frameKeeps_setThr s1 b _)

theorem frameKeeps_barRender (s : State) (b : Bank) (i : Nat) : FrameKeeps s (barRender s b i) := by
  unfold barRender
  split
  · exact FrameKeeps.refl s
  · next r _ =>
    extract_lets rd s0 v s1 lo hi unk k t
    have h0 : FrameKeeps s s0 := frameKeeps_animRead s r.list (r.count + 2)
    have h1 : FrameKeeps s0 s1 := by
      unfold s1
      split
      · exact FrameKeeps.of_eq rfl rfl rfl rfl
      · exact FrameKeeps.refl s0
    split
    · exact h0.trans (frameKeeps_setThr s0 b _)
    · split
      · exact (h0.trans h1).trans (frameKeeps_setThr s1 b _)
      · exact (h0.trans h1).trans ((frameKeeps_setThr s1 b _).trans (frameKeeps_barDraw _ b i r _))

theorem frameKeeps_animCarry (s : State) (b : Bank) (c : Nat) : FrameKeeps s (animCarry s b c) := by
  unfold animCarry
  split
  · extract_lets s1 s2 y q
    have h1 : FrameKeeps s s1 := (frameKeeps_eccReadN s (decLine b 2 c) 2).trans (frameKeeps_grantLow _ 5 1)
    have h2 : FrameKeeps s1 s2 := frameKeeps_storeLine s1 _ _
    exact (h1.trans h2).trans (frameKeeps_setBank s2 b _)
  · exact FrameKeeps.refl s

theorem frameKeeps_animResume (s : State) (b : Bank) (old : Vector BlinkSt 4) : FrameKeeps s (animResume s b old) := by
  unfold animResume
  dsimp only
  split
  · exact frameKeeps_setThr s b _
  · split
    · exact frameKeeps_setThr s b _
    · split
      · split
        · split
          · exact frameKeeps_setThr s b _
          · exact frameKeeps_setThr s b _
        · split
          · exact frameKeeps_setThr s b _
          · exact frameKeeps_setThr s b _
      · exact frameKeeps_setThr s b _

theorem frameKeeps_animBoundary (s : State) (b : Bank) (old : Vector BlinkSt 4) :
    FrameKeeps s (animBoundary s b old) := by
  unfold animBoundary
  extract_lets t t' s1 s2 s3 x s4
  have h1 : FrameKeeps s s1 := frameKeeps_setThr s b _
  have h2 : FrameKeeps s1 s2 := FrameKeeps.foldl (fun u i => frameKeeps_barRender u b i) _ s1
  have h3 : FrameKeeps s2 s3 := FrameKeeps.foldl (fun u c => frameKeeps_animCarry u b c) _ s2
  have h4 : FrameKeeps s3 s4 := frameKeeps_setThr s3 b _
  exact (((h1.trans h2).trans h3).trans h4).trans (frameKeeps_animResume s4 b old)

/-! ### Plans, the crack loop and the lamps of the lock (R287, R378, R518) -/

theorem frameKeeps_planSettle (s : State) (b : Bank) (k : Nat) (rs : List SlotRec) :
    FrameKeeps s (planSettle s b k rs) :=
  FrameKeeps.trans (t := { s with freeCtr := s.freeCtr + 1 }) (FrameKeeps.of_eq rfl rfl rfl rfl)
    (frameKeeps_setLed _ b _)

theorem frameKeeps_planFrame (s : State) (b : Bank) : FrameKeeps s (planFrame s b) := by
  unfold planFrame
  dsimp only
  split
  · exact (frameKeeps_setLed s b _).trans (frameKeeps_planSettle _ b 0 _)
  · split
    · exact frameKeeps_setLed s b _
    · exact frameKeeps_setLed s b _

theorem frameKeeps_crackLearn (s : State) (b : Bank) : FrameKeeps s (crackLearn s b) := by
  unfold crackLearn
  dsimp only
  split
  · exact frameKeeps_setCrack s b _
  · exact frameKeeps_setCrack s b _

theorem frameKeeps_periodStart (s : State) (n : Fin 8) : FrameKeeps s (periodStart s n) := by
  unfold periodStart
  extract_lets l c s1 c'
  have h1 : FrameKeeps s s1 := frameKeeps_setLamp s n _
  split
  · exact h1.trans (frameKeeps_setLamp s1 n _)
  · exact h1

theorem frameKeeps_lampLocked (s : State) (n : Fin 8) : FrameKeeps s (lampLocked s n) := by
  unfold lampLocked
  dsimp only
  split
  · split
    · exact frameKeeps_setLamp s _ _
    · exact (frameKeeps_setLamp s _ _).trans (frameKeeps_periodStart _ n)
  · split
    · exact frameKeeps_setLamp s _ _
    · exact FrameKeeps.refl s

theorem frameKeeps_lampFrame (s : State) (b : Bank) : FrameKeeps s (lampFrame s b) := by
  unfold lampFrame
  extract_lets named x s1
  have h1 : FrameKeeps s s1 := by
    unfold s1
    split
    · exact frameKeeps_lamps s _
    · exact FrameKeeps.refl s
  split
  · exact h1.trans ((frameKeeps_lamps s1 _).trans (FrameKeeps.foldl frameKeeps_lampLocked _ _))
  · exact h1

/-! ### The boundary -/

/-- Every frame boundary keeps what `FrameKeeps` says, operation by operation. -/
theorem frameKeeps_frameWork (s : State) (b : Bank) (first : Bool) (cut : Option Nat) :
    FrameKeeps s (frameWork s b first cut) := by
  unfold frameWork
  extract_lets s1 d old e on left s2 s3 s4 l1 l2 l3 s5 s6 s7
  have h1 : FrameKeeps s s1 := (frameKeeps_burstSettled s b).trans (frameKeeps_waitsTaken _ b)
  have h2 : FrameKeeps s1 s2 := frameKeeps_setDrv s1 b _
  have h3 : FrameKeeps s2 s3 := frameKeeps_reqTaken s2 b
  have h4 : FrameKeeps s3 s4 := by
    unfold s4
    split
    · exact frameKeeps_setLed s3 b _
    · exact FrameKeeps.refl s3
  have h5 : FrameKeeps s4 s5 := by
    unfold s5
    split
    · have hl1 : FrameKeeps s4 l1 := frameKeeps_layersBoundary s4 b
      have hl2 : FrameKeeps l1 l2 := (frameKeeps_fallbackBoundary l1 b).trans (frameKeeps_setBank _ b _)
      have hl3 : FrameKeeps l2 l3 := frameKeeps_setBank l2 b _
      exact ((hl1.trans hl2).trans hl3).trans (frameKeeps_animBoundary l3 b old)
    · exact FrameKeeps.refl s4
  have h6 : FrameKeeps s5 s6 := frameKeeps_planFrame s5 b
  have h7 : FrameKeeps s6 s7 := by
    unfold s7
    split
    · exact frameKeeps_crackLearn s6 b
    · exact FrameKeeps.refl s6
  exact ((((((h1.trans h2).trans h3).trans h4).trans h5).trans h6).trans h7).trans (frameKeeps_lampFrame s7 b)

/-- R315: so does the return of the line slots. -/
theorem frameKeeps_slotsResume (s : State) (b : Bank) : FrameKeeps s (slotsResume s b) := by
  unfold slotsResume
  dsimp only
  split
  · exact FrameKeeps.refl s
  · exact (frameKeeps_setDrv s b _).trans (frameKeeps_frameWork _ b false _)

/-- The slots of both banks resume (R81, R315). -/
theorem frameKeeps_slotsResume_both (s : State) :
    FrameKeeps s (slotsResume (slotsResume s .bankA) .bankB) :=
  (frameKeeps_slotsResume s .bankA).trans (frameKeeps_slotsResume _ .bankB)

end Sys2Proof.Machine
end

section
/-! The ends of the mode transitions and the SHIP_G step (R23, R47, R78, R79, R81, R355, R490): what stops in SLEEP, what
the wake resumes, what Cork mode keeps, and O14. -/

namespace Sys2Proof.Machine

open Sys2Proof

/-! ### What stops at SLEEP (R78, R398) -/

/-- R398: stopping channel A changes the channel and its estimate, and of IRQSTAT what the clearing of ENA signals. -/
theorem stopA_frame (s : State) : stopA s =
    { s with batA := (stopA s).batA, estA := (stopA s).estA, irqStat := (stopA s).irqStat } := by
  unfold stopA
  dsimp only
  split
  · simp only [enaClear, clearEstimate, dropRecord, setIrqIf]
    split_ifs <;> rfl
  · rfl

theorem stopA_irqStat {s : State} (h : s.batA.ending = false) : (stopA s).irqStat = s.irqStat := by
  unfold stopA
  dsimp only
  rw [if_neg (by simp [h])]
  rfl

/-- R69, R71: the boot face changes Port P alone, and holds no access. -/
theorem faceTakesHeld_frame (s : State) : faceTakesHeld s = { s with portP := (faceTakesHeld s).portP } := by
  unfold faceTakesHeld; dsimp only; split <;> rfl

theorem faceTakesHeld_held (s : State) : (faceTakesHeld s).portP.held = .none := by
  unfold faceTakesHeld
  dsimp only
  split
  · assumption
  · rfl
  · rfl

/-- The machine after everything that stops at SLEEP, before its mode changes. -/
def sleepStops (s : State) : State :=
  slotsStop (slotsStop (faceTakesHeld (pilIdle (crankStop (stopA s)))) .bankA false) .bankB false

/-- What stops at SLEEP: the held access, the slots of the banks, the battery channels and the PIL decoder. -/
theorem sleepStops_frame (s : State) : sleepStops s =
    { s with irqStat := (stopA s).irqStat, portP := (sleepStops s).portP, bankA := (sleepStops s).bankA
             bankB := (sleepStops s).bankB, batA := (stopA s).batA, batB := (sleepStops s).batB
             estA := (stopA s).estA, pack := (sleepStops s).pack } := by
  have hA := stopA_frame s
  unfold sleepStops
  generalize stopA s = u at hA ⊢
  have hface := faceTakesHeld_frame (pilIdle (crankStop u))
  generalize faceTakesHeld (pilIdle (crankStop u)) = v at hface ⊢
  rw [hface, hA]
  rfl

theorem sleepStops_held (s : State) : (sleepStops s).portP.held = .none :=
  faceTakesHeld_held (pilIdle (crankStop (stopA s)))

/-- R315: the stop of its line slots leaves a bank's sequence state and its ledger. -/
theorem sleepStops_bankA (s : State) :
    (sleepStops s).bankA.drv.sta = s.bankA.drv.sta ∧ (sleepStops s).bankA.led = s.bankA.led := by
  have hbank : (faceTakesHeld (pilIdle (crankStop (stopA s)))).bankA = s.bankA := by
    rw [faceTakesHeld_frame]
    show (stopA s).bankA = s.bankA
    rw [stopA_frame]
  constructor
  · rw [← hbank]; rfl
  · rw [← hbank]; rfl

/-! ### What the wake resumes (R73, R79, R442) -/

theorem restartA_frame (s : State) : restartA s = { s with batA := (restartA s).batA, estA := (restartA s).estA } := by
  unfold restartA; split <;> rfl

/-- R442: what a SLEEP leaves of channel A's estimate, and the bit that tells of a change of its flow. -/
theorem estWake_frame (s : State) (t : Nat) (sub : Bool) : estWake s t sub =
    { s with estA := (estWake s t sub).estA, irqStat := (estWake s t sub).irqStat } := by
  unfold estWake
  dsimp only
  split
  · simp only [setIrqIf]
    split <;> rfl
  · rfl

theorem estWake_irq {s : State} {i : Nat} (h : bit s.irqStat i = true) (t : Nat) (sub : Bool) :
    bit (estWake s t sub).irqStat i = true := by
  unfold estWake
  dsimp only
  split
  · exact (frameKeeps_setIrqIf _ _ irqBAT).irq i h
  · exact h

/-- R73: reporting the discarded writes changes the record, IRQSTAT and the two ports. -/
theorem bootWrites_frame (s : State) : bootWrites s =
    { s with err := (bootWrites s).err, irqStat := (bootWrites s).irqStat, portP := (bootWrites s).portP
             portS := (bootWrites s).portS } := by
  unfold bootWrites; dsimp only; split <;> rfl

theorem bootWrites_irq {s : State} {i : Nat} (h : bit s.irqStat i = true) : bit (bootWrites s).irqStat i = true := by
  unfold bootWrites
  dsimp only
  split
  · exact h
  · exact (frameKeeps_setIrq _ irqERR).irq i h

/-- R73: no discarded write is left to report. -/
theorem bootWrites_disc (s : State) : (bootWrites s).portP.disc = 0 ∧ (bootWrites s).portS.disc = 0 := by
  unfold bootWrites
  dsimp only
  split
  · omega
  · exact ⟨rfl, rfl⟩

/-- The machine that the wake leaves before its slots resume, from one whose mode has changed. -/
def wakeResumed (u : State) (t : Nat) (sub : Bool) : State := estWake (restartA (bootWrites (setIrq u irqWAKE))) t sub

/-- R79: the wake's report and the resumed channel A change no mode and no heartbeat time, set IRQSTAT.WAKE and leave no
discarded write. -/
theorem wakeResumed_keeps (u : State) (t : Nat) (sub : Bool) :
    (wakeResumed u t sub).pw = u.pw ∧ (wakeResumed u t sub).roles = u.roles ∧
      bit (wakeResumed u t sub).irqStat 11 = true ∧ (wakeResumed u t sub).portP.disc = 0 ∧
      (wakeResumed u t sub).portS.disc = 0 := by
  have hwake : bit (setIrq u irqWAKE).irqStat 11 = true := by
    simp only [setIrq_irqStat, bit, BitVec.getLsbD_or, Bool.or_eq_true]
    exact .inr (by decide)
  have hirq : bit (restartA (bootWrites (setIrq u irqWAKE))).irqStat 11 = true := by
    rw [restartA_frame]
    exact bootWrites_irq hwake
  obtain ⟨hP, hS⟩ := bootWrites_disc (setIrq u irqWAKE)
  refine ⟨?_, ?_, estWake_irq hirq t sub, ?_, ?_⟩
  all_goals rw [wakeResumed, estWake_frame, restartA_frame]
  · rw [bootWrites_frame]; rfl
  · rw [bootWrites_frame]; rfl
  · exact hP
  · exact hS

/-! ### What Cork mode keeps (R490) -/

/-- R490: a cut counter write changes the counter alone, never the keys or the UID. -/
theorem tornCounter_keys (s : State) : (tornCounter s).nv.kApp = s.nv.kApp ∧ (tornCounter s).nv.kSup = s.nv.kSup ∧
    (tornCounter s).nv.uid = s.nv.uid := by
  unfold tornCounter
  split
  · split
    · exact ⟨rfl, rfl, rfl⟩
    · exact ⟨rfl, rfl, rfl⟩
  · exact ⟨rfl, rfl, rfl⟩

/-- R490: with no counter write to cut, nothing of the non-volatile state changes. -/
theorem tornCounter_nv {s : State} (h : s.auth.accepted = none) : (tornCounter s).nv = s.nv := by
  unfold tornCounter; rw [h]

/-! ### The commands in the states that they act in -/

theorem exec_standbyReached {s : State} (ht : s.pw.trans = .toStandby) (hm : s.pw.mode = .run)
    (hq : banksQuiet s = true) : exec .standbyReached s =
      .next (lampsSettle { s with pw := { s.pw with mode := .standby, trans := .idle } }) :=
  congrArg Host.Outcome.next (if_pos ⟨ht, hm, hq⟩)

/-- R78: SLEEP is entered where the buffers are empty and no command runs. -/
theorem exec_sleepEntered {s : State} (ht : s.pw.trans = .toSleep) (hm : s.pw.mode = .standby)
    (hr : s.pw.rst = .noReset) (hP : s.portP.buf = []) (hS : s.portS.buf = []) (hv : s.auth.verify = none)
    (hw : s.auth.wipe = false) : exec .sleepEntered s =
      .next (let u := sleepStops s
        { u with
          pw := { u.pw with mode := .sleep, trans := .idle, face := .bootFace }
          clk := { u.clk with hold := false, sleepLost := u.clk.hold && !u.clk.rootOk
                              timeSub := u.clk.timeSub || (u.clk.hold && !u.clk.rootOk), pllLock := false
                              released := false }
          aon := { u.aon with sleepSec := u.aon.sec, sleepSub := u.clk.hold && !u.clk.rootOk }
          auth := { u.auth with claim := none, tag := [], msg := none }
          keys := { u.keys with counts := Vector.replicate 128 0, due := false } }) :=
  congrArg Host.Outcome.next (if_pos ⟨ht, hm, hr, by rw [hP]; rfl, by rw [hS]; rfl, by rw [hv]; rfl, by rw [hw]; rfl⟩)

/-- R79: the wake completes where the root is confirmed and no reset waits. -/
theorem exec_wakeComplete {s : State} (ht : s.pw.trans = .wake) (hm : s.pw.mode = .sleep) (hk : s.clk.rootOk = true)
    (hr : s.pw.rst = .noReset) : ∃ u t sub, exec .wakeComplete s =
      .next (slotsResume (slotsResume (wakeResumed u t sub) .bankA) .bankB) ∧
      u.pw.mode = .standby ∧ u.pw.trans = .idle ∧ u.pw.face = .full ∧ u.roles.hbRef = s.now :=
  ⟨_, _, _, congrArg Host.Outcome.next (if_pos ⟨ht, hm, hk, hr⟩), rfl, rfl, rfl, rfl⟩

/-- R81: the SHIP_G step is taken where the banks are down, the buffers empty and no reset is under way. -/
theorem exec_corkShipStep {s : State} (hm : s.pw.mode = .corkEntry) (ht : s.pw.trans = .corkSeq)
    (hq : banksQuiet s = true) (he : s.clk.expiring = false) (hr : s.pw.rst = .noReset) (hP : s.portP.buf = [])
    (hS : s.portS.buf = []) : exec .corkShipStep s =
      .next (if s.aon.chg then
        slotsResume (slotsResume (recordInfo (restartA { s with pw := { s.pw with mode := .standby, trans := .idle } })
          eSTATE (some s.pw.corkPort) 0x4A) .bankA) .bankB
      else corkMode s) :=
  congrArg Host.Outcome.next (if_pos ⟨hm, ht, hq, by rw [he]; rfl, hr, by rw [hP]; rfl, by rw [hS]; rfl⟩)

/-! ### The statement -/

/-- Settles O14: each command acts in the state named, and its end is read off what the units that stop or resume
keep. -/
theorem transitionsReachTheirMode : Obligations.TransitionsReachTheirMode := by
  unfold Obligations.TransitionsReachTheirMode
  refine ⟨⟨?standby, ?sleep, ?wake⟩, ?cork⟩
  case standby =>
    intro s ht hm hq
    refine ⟨_, exec_standbyReached ht hm hq, ?_⟩
    rw [lampsSettle_frame]
    exact ⟨rfl, rfl, rfl, rfl, rfl⟩
  case sleep =>
    intro s ht hm hr hP hS hv hw
    refine ⟨_, exec_sleepEntered ht hm hr hP hS hv hw, ?_⟩
    obtain ⟨hsta, hled⟩ := sleepStops_bankA s
    have hheld := sleepStops_held s
    have hpw : (sleepStops s).pw = s.pw := by rw [sleepStops_frame]
    have hclk : (sleepStops s).clk = s.clk := by rw [sleepStops_frame]
    have hkeys : (sleepStops s).keys = s.keys := by rw [sleepStops_frame]
    have hmem : (sleepStops s).mem = s.mem := by rw [sleepStops_frame]
    have hirq : s.batA.ending = false → (sleepStops s).irqStat = s.irqStat := fun hend => by
      rw [sleepStops_frame]
      exact stopA_irqStat hend
    generalize sleepStops s = u at *
    dsimp only
    rw [hpw, hclk, hkeys]
    exact ⟨fun hhold hok => ⟨by simp [hhold, hok], rfl⟩, rfl, rfl, rfl, rfl, rfl, hmem, hsta, hled,
      hirq, hheld⟩
  case wake =>
    intro s ht hm hk hr
    obtain ⟨u, k, sub, hexec, hmode, htrans, hface, hbeat⟩ := exec_wakeComplete ht hm hk hr
    obtain ⟨hpw, hroles, hirq, hP, hS⟩ := wakeResumed_keeps u k sub
    have hkeep := frameKeeps_slotsResume_both (wakeResumed u k sub)
    refine ⟨_, hexec, ?_, ?_, ?_, hkeep.irq 11 hirq, ?_, ?_, ?_⟩
    · rw [hkeep.pw, hpw, hmode]
    · rw [hkeep.pw, hpw, htrans]
    · rw [hkeep.pw, hpw, hface]
    · rw [hkeep.hbRef, hroles, hbeat]
    · rw [hkeep.portP, hP]
    · rw [hkeep.portS, hS]
  case cork =>
    intro s hm ht hq he hr hP hS
    rw [exec_corkShipStep hm ht hq he hr hP hS]
    constructor
    · intro hchg
      obtain ⟨hkApp, hkSup, huid⟩ := tornCounter_keys s
      rw [if_neg (by simp [hchg])]
      exact ⟨_, rfl, rfl, rfl, rfl, rfl, hkApp, hkSup, huid, tornCounter_nv⟩
    · intro hchg hecc
      rw [if_pos hchg]
      have hpw : (restartA { s with pw := { s.pw with mode := .standby, trans := .idle } }).pw =
          { s.pw with mode := .standby, trans := .idle } := by rw [restartA_frame]
      have hclean : (restartA { s with pw := { s.pw with mode := .standby, trans := .idle } }).arb.ecc = [] := by
        rw [restartA_frame]
        exact hecc
      generalize restartA _ = u at *
      have hkeep := frameKeeps_slotsResume_both (recordInfo u eSTATE (some s.pw.corkPort) 0x4A)
      obtain ⟨_, herr⟩ := hkeep.clean hclean
      refine ⟨_, rfl, ?_, ?_, ?_, ?_, ?_⟩
      · rw [hkeep.pw, recordInfo, record_pw, hpw]
      · rw [hkeep.pw, recordInfo, record_pw, hpw]
      · rw [herr]; rfl
      · rw [herr]; rfl
      · rw [hkeep.pw, recordInfo, record_pw, hpw]

end Sys2Proof.Machine
end

section
/-! Root loss, loss of lock, holdover and its expiry (R41 to R48, R79, R88, Table CLK-5): what holdover's entry gives
with HOLD_EN 1 and 0, what the expiry reaction of R45 does to the lamps and the banks, when its clock-failure reset
follows, and O15. -/

namespace Sys2Proof.Machine

open Sys2Proof

/-! ### A bank that goes down (Table DRV-5, R582) -/

/-- R262, R582: a bank that is down already only loses its requests. -/
theorem bankDown_quiet {s : State} {b : Bank} (h : bankQuiet (getBank s b).drv = true) :
    bankDown s b = setDrv s b (noRequest (getBank s b).drv) := by
  have hsta : (getBank s b).drv.sta = .off ∨ (getBank s b).drv.sta = .release := by simpa [bankQuiet] using h
  rcases hsta with hoff | hrel
  · simp [bankDown, downAct, setDrv, noRequest, hoff]
  · simp [bankDown, downAct, setDrv, noRequest, hrel]

/-- R269: a bank that shows content stays there until its next common-slot boundary, with the power-down pending. -/
theorem bankDown_content {s : State} {b : Bank} (h : (getBank s b).drv.sta = .content) :
    (getBank (bankDown s b) b).drv.sta = .content ∧ (getBank (bankDown s b) b).drv.pend = .other := by
  unfold bankDown downAct
  simp only [setDrv, getBank_setBank, noRequest, h]
  split
  · simp
  · simp [PendDown.join]

/-- Bank B's power-down is no work on bank A. -/
theorem banksDown_bankA (s : State) : (banksDown s).bankA = getBank (bankDown s .bankA) .bankA := by
  unfold banksDown
  rw [(bankDown_requestsCleared (bankDown s .bankA) .bankB).bank]
  rfl

/-- R262: banks that are down stay down. -/
theorem banksDown_quiet {s : State} (h : banksQuiet s = true) : banksQuiet (banksDown s) = true := by
  obtain ⟨hA, hB⟩ : bankQuiet s.bankA.drv = true ∧ bankQuiet s.bankB.drv = true := by
    simpa [banksQuiet] using h
  have hA' := bankDown_quiet (b := .bankA) hA
  have hB' := bankDown_quiet (s := setDrv s .bankA (noRequest s.bankA.drv)) (b := .bankB) hB
  rw [banksDown, hA', getBank, hB', banksQuiet, Bool.and_eq_true]
  exact ⟨hA, hB⟩

/-! ### The expiry reaction (R45, R88) -/

theorem lampsSettle_bankA (s : State) : (lampsSettle s).bankA = s.bankA := by rw [lampsSettle_frame]

theorem lampsSettle_bankB (s : State) : (lampsSettle s).bankB = s.bankB := by rw [lampsSettle_frame]

/-- The machine with the note that the reaction runs. -/
def expiryMarked (s : State) : State := { s with clk := { s.clk with expiring := true } }

/-- The machine once the lamps are off and the power-down of the banks is asked for. -/
def expiryQuiets (s : State) : State := banksDown (lampsSettle (expiryMarked s))

theorem expiryBegins_eq (s : State) : expiryBegins s = expiryDone (expiryQuiets s) := rfl

/-- R45: besides the note that it runs, the reaction's beginning changes the lamps and the banks alone. -/
theorem expiryQuiets_eq (s : State) : ∃ x y, expiryQuiets s =
    { expiryMarked s with bankA := x, bankB := y, lamps := (lampsSettle (expiryMarked s)).lamps } := by
  have hlamps := lampsSettle_frame (expiryMarked s)
  unfold expiryQuiets
  generalize lampsSettle (expiryMarked s) = u at hlamps ⊢
  obtain ⟨x, y, hdown, -⟩ := banksDown_requestless u
  refine ⟨x, y, ?_⟩
  rw [hdown, hlamps]

theorem getLamp_congr {s t : State} (h : t.lamps = s.lamps) (n : Fin 8) : getLamp t n = getLamp s n :=
  congrArg (fun l : Lamps => l.ch[n]) h

/-- R45: the lamps are off while the reaction runs. -/
theorem expiryQuiets_unpowered (s : State) (n : Fin 8) : powered (getLamp (expiryQuiets s) n) = false := by
  have hheld : lampsAllowed (expiryMarked s) = false := by simp [lampsAllowed, lampsHeld, expiryMarked]
  have hoff := lampsSettle_unpowered hheld n
  have hlamps : (expiryQuiets s).lamps = (lampsSettle (expiryMarked s)).lamps := by
    obtain ⟨x, y, hframe⟩ := expiryQuiets_eq s
    rw [hframe]
  rw [getLamp_congr hlamps, hoff]

theorem expiryQuiets_banksQuiet {s : State} (h : banksQuiet s = true) : banksQuiet (expiryQuiets s) = true := by
  have hlamps : banksQuiet (lampsSettle (expiryMarked s)) = true := by
    rw [banksQuiet, lampsSettle_bankA, lampsSettle_bankB]
    exact h
  rw [expiryQuiets]
  exact banksDown_quiet hlamps

/-- R45, R269: bank A, where it shows content, waits for its boundary without a request. -/
theorem expiryQuiets_content {s : State} (h : s.bankA.drv.sta = .content) :
    (expiryQuiets s).bankA.drv.sta = .content ∧ (expiryQuiets s).bankA.drv.pend = .other ∧
      (expiryQuiets s).bankA.drv.req = false := by
  have hsta : (getBank (lampsSettle (expiryMarked s)) .bankA).drv.sta = .content := by
    rw [getBank, lampsSettle_bankA]
    exact h
  obtain ⟨hstays, hpend⟩ := bankDown_content hsta
  rw [expiryQuiets, banksDown_bankA]
  exact ⟨hstays, hpend, (bankDown_requestsCleared (lampsSettle (expiryMarked s)) .bankA).req⟩

/-- R45: the reaction is complete where the banks are down and no counter write is in progress, unless a recognised
RESET# boots warm instead. -/
theorem expiryDone_quiet {s : State} (he : s.clk.expiring = true) (hq : banksQuiet s = true)
    (ha : s.auth.accepted = none) (hr : s.pw.rst ≠ .pin) : expiryDone s = clockFailure s := by
  simp [expiryDone, he, hq, ha, hr]

theorem expiryDone_notQuiet {s : State} (hq : banksQuiet s = false) : expiryDone s = s := by
  simp [expiryDone, hq]

/-- Table PWR-3: the clock-failure reset is a cold boot with RCAUSE 3 that keeps the keys. -/
theorem clockFailure_boots (s : State) : (clockFailure s).pw.mode = .boot ∧ (clockFailure s).pw.rcause = 3 ∧
    (clockFailure s).clk.hold = false ∧ (clockFailure s).mem = [] ∧ (clockFailure s).nv.kApp = s.nv.kApp :=
  ⟨rfl, rfl, rfl, rfl, (tornCounter_keys s).1⟩

/-- R45: where nothing has to be waited for, the reaction ends at once in the clock-failure reset. -/
theorem expiryBegins_quiet {s : State} (hq : banksQuiet s = true) (ha : s.auth.accepted = none)
    (hr : s.pw.rst ≠ .pin) : (expiryBegins s).pw.mode = .boot ∧ (expiryBegins s).pw.rcause = 3 ∧
      (expiryBegins s).clk.hold = false ∧ (expiryBegins s).mem = [] ∧ (expiryBegins s).nv.kApp = s.nv.kApp := by
  have hdown := expiryQuiets_banksQuiet hq
  have hboot := clockFailure_boots (expiryQuiets s)
  obtain ⟨x, y, hframe⟩ := expiryQuiets_eq s
  have hmarked : (expiryQuiets s).clk.expiring = true := by rw [hframe]; rfl
  have hacc : (expiryQuiets s).auth.accepted = none := by rw [hframe]; exact ha
  have hrst : (expiryQuiets s).pw.rst ≠ .pin := by rw [hframe]; exact hr
  have hkey : (expiryQuiets s).nv.kApp = s.nv.kApp := by rw [hframe]; rfl
  rw [expiryBegins_eq, expiryDone_quiet hmarked hdown hacc hrst]
  rwa [hkey] at hboot

/-- R45, R269: where bank A shows content, the reaction waits for it, with the lamps off. -/
theorem expiryBegins_content {s : State} (h : s.bankA.drv.sta = .content) :
    (expiryBegins s).clk = { s.clk with expiring := true } ∧ (expiryBegins s).pw = s.pw ∧
      (expiryBegins s).bankA.drv.pend = .other ∧ (expiryBegins s).bankA.drv.req = false ∧
      ∀ n, powered (getLamp (expiryBegins s) n) = false := by
  obtain ⟨hstays, hpend, hreq⟩ := expiryQuiets_content h
  obtain ⟨x, y, hframe⟩ := expiryQuiets_eq s
  rw [expiryBegins_eq, expiryDone_notQuiet (by simp [banksQuiet, bankQuiet, hstays])]
  exact ⟨by rw [hframe]; rfl, by rw [hframe]; rfl, hpend, hreq, expiryQuiets_unpowered s⟩

/-! ### Holdover's entry (R41, R42) -/

/-- The machine in holdover: a holdover that goes on keeps its limit, a new one takes that of the clock page. -/
def holding (s : State) : State :=
  { s with clk := { s.clk with hold := true, timeSub := true
                               holdLimit := if s.clk.hold then s.clk.holdLimit else (pg s 0xE402).toNat } }

theorem enterHold_enabled {s : State} (h : pgb s 0xE400 0 = true) : enterHold s = holding s :=
  if_pos (.inr h)

/-- R45: with HOLD_EN 0 the expiry reaction starts in place of a holdover. -/
theorem enterHold_disabled {s : State} (hhold : s.clk.hold = false) (h : pgb s 0xE400 0 = false) :
    enterHold s = expiryBegins (holding s) :=
  if_neg (not_or.mpr ⟨by simp [hhold], fun hen => absurd (hen.symm.trans h) (by decide)⟩)

/-! ### The commands by mode -/

theorem active_iff (s : State) :
    active s = true ↔ s.pw.mode = .standby ∨ s.pw.mode = .run ∨ s.pw.mode = .corkEntry := by
  simp [active, or_assoc]

/-- R41: the machine whose root is lost: the lock goes with it, and the crystal counts as stopped. -/
def rootGone (s : State) (pllToo : Bool) : State :=
  { s with clk := { s.clk with rootOk := false, rootLoss := true, unlock := s.clk.unlock || (pllToo && s.clk.pllLock)
                               pllLock := false, xtalRuns := false } }

/-- R41: the machine whose PLL lost lock. -/
def lockGone (s : State) : State := { s with clk := { s.clk with unlock := true, pllLock := false } }

theorem exec_rootLoss_active {s : State} (u : Bool) (ha : active s = true) (hk : s.clk.rootOk = true) :
    exec (.rootLoss u) s = .next (enterHold (rootGone s u)) := by
  show Host.Outcome.next (rootLost s u) = _
  rcases (active_iff s).mp ha with hm | hm | hm
  all_goals simp [rootLost, rootGone, hk, hm]

theorem exec_rootLoss_boot {s : State} (u : Bool) (hm : s.pw.mode = .boot) (hk : s.clk.rootOk = true) :
    exec (.rootLoss u) s = .next (newAttempt (bootAgain { s with clk := { s.clk with
      rootOk := false, timeSub := s.clk.timeSub || warmRunning s, rootLoss := s.clk.rootLoss || warmRunning s
      unlock := s.clk.unlock || (u && warmRunning s), xtalRuns := false } } 2)) := by
  show Host.Outcome.next (rootLost s u) = _
  simp [rootLost, hk, hm]

/-- R47, R48: in SLEEP a root loss is recorded, with UNLOCK where the PLL runs for the exit. -/
theorem exec_rootLoss_sleep {s : State} (u : Bool) (hm : s.pw.mode = .sleep) (hk : s.clk.rootOk = true) :
    exec (.rootLoss u) s = .next { s with
      clk := { s.clk with rootOk := false, rootLoss := true, timeSub := true, sleepLost := true, xtalRuns := false
                          unlock := s.clk.unlock || (u && decide (s.pw.trans = .wake)) }
      aon := { s.aon with sleepSub := true } } := by
  show Host.Outcome.next (rootLost s u) = _
  simp [rootLost, hk, hm, beq_eq_decide]

theorem exec_pllUnlock_active {s : State} (ha : active s = true) (hk : s.clk.rootOk = true)
    (hl : s.clk.pllLock = true) : exec .pllUnlock s = .next (enterHold (lockGone s)) := by
  show Host.Outcome.next (pllLost s) = _
  rcases (active_iff s).mp ha with hm | hm | hm
  all_goals simp [pllLost, lockGone, hk, hm, hl]

theorem exec_pllUnlock_boot {s : State} (hm : s.pw.mode = .boot) (hk : s.clk.rootOk = true) :
    exec .pllUnlock s = .next (bootAgain (if warmRunning s then lockGone s else s) 3) := by
  show Host.Outcome.next (pllLost s) = _
  simp [pllLost, lockGone, hk, hm]

theorem exec_pllUnlock_sleep {s : State} (hm : s.pw.mode = .sleep) (hk : s.clk.rootOk = true) :
    exec .pllUnlock s = .next (if s.pw.trans = .wake then lockGone s else s) := by
  show Host.Outcome.next (pllLost s) = _
  simp [pllLost, lockGone, hk, hm]

theorem exec_holdoverExpiry_active {s : State} (ha : active s = true) (hhold : s.clk.hold = true)
    (he : s.clk.expiring = false) : exec .holdoverExpiry s = .next (expiryBegins s) := by
  have hm : s.pw.mode ≠ .sleep := fun hm => by simp [active, hm] at ha
  show Host.Outcome.next (holdExpires s) = _
  simp [holdExpires, hm, ha, hhold, he]

theorem exec_holdoverExpiry_sleep {s : State} (hm : s.pw.mode = .sleep) (hl : s.clk.sleepLost = true)
    (hk : s.clk.rootOk = false) : exec .holdoverExpiry s = .next (clockFailure s) := by
  show Host.Outcome.next (holdExpires s) = _
  simp [holdExpires, hm, hl, hk]

/-! ### Losses in BOOT (R46, R48) -/

/-- R46: the boot goes back to the root; nothing of a holdover begins. -/
theorem rootLoss_inBoot {s : State} (u : Bool) (hm : s.pw.mode = .boot) (hk : s.clk.rootOk = true) :
    ∃ t, exec (.rootLoss u) s = .next t ∧ t.pw = { s.pw with bstep := 2 } ∧ t.clk.rootOk = false ∧
      t.clk.pllLock = false ∧ t.clk.released = false ∧ t.clk.hold = s.clk.hold ∧ t.clk.expiring = s.clk.expiring ∧
      t.clk.attempting = (!s.clk.src) ∧ t.clk.unlock = (s.clk.unlock || (u && warmRunning s)) ∧ t.mem = s.mem ∧
      t.lamps = s.lamps :=
  ⟨_, exec_rootLoss_boot u hm hk, rfl, rfl, rfl, rfl, rfl, rfl, rfl, rfl, rfl, rfl⟩

/-- R46, R48: the boot goes back to the PLL's start; in a warm one UNLOCK is set. -/
theorem pllUnlock_inBoot {s : State} (hm : s.pw.mode = .boot) (hk : s.clk.rootOk = true) :
    ∃ t, exec .pllUnlock s = .next t ∧ t.pw = { s.pw with bstep := 3 } ∧ t.clk.rootOk = true ∧
      t.clk.pllLock = false ∧ t.clk.released = false ∧ t.clk.hold = s.clk.hold ∧
      t.clk.unlock = (s.clk.unlock || warmRunning s) ∧ t.mem = s.mem ∧ t.lamps = s.lamps := by
  refine ⟨_, exec_pllUnlock_boot hm hk, ?_⟩
  cases warmRunning s
  · exact ⟨rfl, hk, rfl, rfl, rfl, (Bool.or_false _).symm, rfl, rfl⟩
  · exact ⟨rfl, hk, rfl, rfl, rfl, (Bool.or_true _).symm, rfl, rfl⟩

/-! ### The statement -/

/-- Settles O15: an active machine enters holdover, or with HOLD_EN 0 the expiry reaction, which ends where the banks are
down; BOOT and SLEEP take each loss by rules of their own. -/
theorem rootLossHoldoverAndExpiry : Obligations.RootLossHoldoverAndExpiry := by
  unfold Obligations.RootLossHoldoverAndExpiry
  refine ⟨⟨?rootHeld, ?sleep, ?lockHeld, ?disabled, ?boot, ?holdEnd⟩, ?expiry, ?sleepExpiry⟩
  case rootHeld =>
    intro u s ha hk hen
    rw [exec_rootLoss_active u ha hk, enterHold_enabled (s := rootGone s u) hen]
    rfl
  case sleep => exact fun u s hm hk => ⟨exec_rootLoss_sleep u hm hk, exec_pllUnlock_sleep hm hk⟩
  case lockHeld =>
    intro s ha hk hl hen
    rw [exec_pllUnlock_active ha hk hl, enterHold_enabled (s := lockGone s) hen]
    rfl
  case disabled =>
    intro u s ha hk hhold hen
    have hroot : exec (.rootLoss u) s = .next (expiryBegins (holding (rootGone s u))) := by
      rw [exec_rootLoss_active u ha hk, enterHold_disabled (s := rootGone s u) hhold hen]
    refine ⟨fun hq hacc hrst => ?_, fun hsta => ?_, fun hl hsta => ?_⟩
    · obtain ⟨hmode, hcause, -, hmem, -⟩ := expiryBegins_quiet (s := holding (rootGone s u)) hq hacc hrst
      exact ⟨_, hroot, hmode, hcause, hmem⟩
    · obtain ⟨hclk, hpw, hdown⟩ := expiryBegins_content (s := holding (rootGone s u)) hsta
      refine ⟨_, hroot, ?_, ?_, ?_, ?_, hdown⟩
      · rw [hclk]
      · rw [hclk]; rfl
      · rw [hclk]; rfl
      · rw [hpw]; rfl
    · have hlock : exec .pllUnlock s = .next (expiryBegins (holding (lockGone s))) := by
        rw [exec_pllUnlock_active ha hk hl, enterHold_disabled (s := lockGone s) hhold hen]
      obtain ⟨hclk, -, hpend, -, hoff⟩ := expiryBegins_content (s := holding (lockGone s)) hsta
      refine ⟨_, hlock, ?_, ?_, ?_, hpend, hoff⟩
      · rw [hclk]
      · rw [hclk]; rfl
      · rw [hclk]; exact hk
  case boot => exact fun u s hm hk => ⟨rootLoss_inBoot u hm hk, pllUnlock_inBoot hm hk⟩
  case holdEnd =>
    exact fun r s ha hhold he => congrArg Host.Outcome.next (if_pos ⟨ha, hhold, by rw [he]; rfl⟩)
  case expiry =>
    intro s ha hhold he
    have hexec := exec_holdoverExpiry_active ha hhold he
    refine ⟨fun hq hacc hrst => ⟨_, hexec, expiryBegins_quiet hq hacc hrst⟩, fun hsta => ?_⟩
    obtain ⟨hclk, hpw, hdown⟩ := expiryBegins_content hsta
    exact ⟨_, hexec, by rw [hclk], by rw [hpw], hdown⟩
  case sleepExpiry =>
    intro s hm hl hk
    obtain ⟨hmode, hcause, -, hmem, -⟩ := clockFailure_boots s
    exact ⟨_, exec_holdoverExpiry_sleep hm hl hk, hmode, hcause, hmem⟩

end Sys2Proof.Machine
end

section
/-! Power-on reset, loss of supply and the exit of Cork mode (R33, R34, R60, R65, R67, R81): the boot that each start of
the supply begins, what outlives it, and O8. -/

namespace Sys2Proof.Machine

open Sys2Proof

/-! ### The commands in the modes that they act in -/

/-- R60, R65: from OFF the cold boot begins, in reduced function. -/
theorem exec_powerOnReset {s : State} (x : Straps) (h : s.pw.mode = .off) :
    exec (.powerOnReset x) s = .next (let u := backupBoot (coldBoot (sampleStraps s x) 0 s.clk.xtalRuns)
      { u with pw := { u.pw with reduced := true } }) :=
  congrArg Host.Outcome.next (if_pos h)

/-- R81: from Cork mode the cold boot begins, in reduced function and with the backup count lost. -/
theorem exec_corkExit {s : State} (x : Straps) (h : s.pw.mode = .cork) :
    exec (.corkExit x) s = .next (let u := coldBoot (sampleStraps s x) 4 false
      { u with pw := { u.pw with reduced := true }, bak := { u.bak with bkv := false, sec := 0, follow := false } }) :=
  congrArg Host.Outcome.next (if_pos h)

/-- Table PWR-3: what a loss of supply leaves besides OTP, the counter and the backup count. -/
theorem powerLoss_off {s : State} (h : s.pw.mode ≠ .off) :
    (powerLoss s).pw.mode = .off ∧ (powerLoss s).pw.face = .dead ∧ (powerLoss s).pw.shipG = false ∧
      (powerLoss s).clk.rootOk = false ∧ (powerLoss s).mem = [] ∧ (powerLoss s).lamps = Lamps.ready ∧
      (powerLoss s).nv = (tornCounter s).nv ∧ (powerLoss s).bak.sec = s.bak.sec := by
  rw [powerLoss, if_neg h]
  exact ⟨rfl, rfl, rfl, rfl, rfl, rfl, rfl, rfl⟩

/-! ### The statement -/

/-- Settles O8: each command acts in its mode by a reinitialisation, of which R490's cut counter write keeps the keys and
the UID. -/
theorem powerOnPowerLossAndCorkExit : Obligations.PowerOnPowerLossAndCorkExit := by
  unfold Obligations.PowerOnPowerLossAndCorkExit
  refine ⟨?powerOn, ?corkExit, ?powerLoss⟩
  case powerOn =>
    intro x s hmode
    exact ⟨_, exec_powerOnReset x hmode, rfl, rfl, rfl, rfl, rfl, rfl, rfl, rfl, rfl, rfl, rfl, rfl,
      tornCounter_keys (sampleStraps s x)⟩
  case corkExit =>
    intro x s hmode
    exact ⟨_, exec_corkExit x hmode, rfl, rfl, rfl, rfl, rfl, rfl, rfl, rfl, rfl, tornCounter_keys (sampleStraps s x)⟩
  case powerLoss =>
    intro s hmode
    obtain ⟨hoff, hface, hship, hroot, hmem, hlamps, hnv, hsec⟩ := powerLoss_off hmode
    obtain ⟨hkApp, hkSup, huid⟩ := tornCounter_keys s
    rw [← hnv] at hkApp hkSup huid
    exact ⟨_, rfl, hoff, hface, hship, hroot, hmem, hlamps, hkApp, hkSup, huid, hsec⟩

end Sys2Proof.Machine
end

section
/-! The boot face (R69, R71, R101, R105): a write that it discards, the host wake that it lets through, and O10. -/

namespace Sys2Proof.Machine

open Sys2Proof

/-! ### The Gen1 latches at the boot face (R101, R105) -/

/-- The latches of a strobe are Port P's. -/
theorem gen1Spent_pw (s : State) (p : Port) (a : Fin 64) : (gen1Spent s p a).pw = s.pw := by
  unfold gen1Spent gen1Ale; dsimp only; split_ifs <;> rfl

/-- They do not change what a port has discarded. -/
theorem getPort_gen1Spent_disc (s : State) (p : Port) (a : Fin 64) :
    (getPort (gen1Spent s p a) p).disc = (getPort s p).disc := by
  unfold gen1Spent gen1Ale
  cases p
  · dsimp only
    split_ifs <;> rfl
  · rfl

/-- Outside Gen1 and on Port S a strobe has no latch. -/
theorem gen1Spent_unlatched {s : State} {p : Port} (h : p = .portP → s.pw.gen ≠ .gen1) (a : Fin 64) :
    gen1Spent s p a = s := by
  have hgen : ¬(p = .portP ∧ s.pw.gen = .gen1) := fun ⟨hp, hg⟩ => h hp hg
  have hspent : ¬(p = .portP ∧ s.pw.gen = .gen1 ∧ latchHolds s a) := fun ⟨hp, hg, _⟩ => h hp hg
  simp only [gen1Spent, gen1Ale, if_neg hgen, if_neg hspent]

/-- R105: a high-byte strobe that meets its low byte empties the write latch. -/
theorem gen1Spent_completed {s : State} {a : Fin 64} {lo : Byte} (hg : s.pw.gen = .gen1)
    (hlatch : s.portP.g1wr = some (a, lo)) : gen1Spent s .portP a =
      { s with portP := { s.portP with g1wr := none, ale := hiAddr a } } := by
  simp [gen1Spent, gen1Ale, latchHolds, hg, hlatch]

/-! ### What the boot face does with a write (R71) -/

/-- R71: a write that is no host wake is discarded and counted. -/
theorem bootFace_discards {s : State} {p : Port} {a : Fin 64} {v : Word} (h : isHostWake s p a v = false) :
    bootFace s p a v =
      setPort (gen1Spent s p a) p { getPort (gen1Spent s p a) p with disc := (getPort s p).disc + 1 } := by
  simp only [bootFace, h, getPort_gen1Spent_disc]
  rfl

/-- R71, R79: a host wake in SLEEP begins the wake, and is not counted. -/
theorem bootFace_wakes {s : State} {p : Port} {a : Fin 64} {v : Word} (h : isHostWake s p a v = true)
    (hm : s.pw.mode = .sleep) (ht : s.pw.trans = .idle) :
    bootFace s p a v = { gen1Spent s p a with pw := { s.pw with trans := .wake } } := by
  rw [← gen1Spent_pw s p a] at hm ht ⊢
  exact (if_pos h).trans (if_pos ⟨hm, ht⟩)

/-- R71: a whole SYSCTL word with MREQ 1 and RSTKEY 0 is a host wake where HOSTWAKE is 1. -/
theorem isHostWake_word {s : State} {p : Port} {v : Word} (hm : s.pw.mode = .sleep) (hen : pgb s 0xE406 1 = true)
    (hg : p = .portP → s.pw.gen ≠ .gen1) (hreq : fld v 0 3 = 1) (hkey : fld v 8 8 = 0) :
    isHostWake s p 3 v = true := by
  have hword : (p == .portP && s.pw.gen == .gen1) = false := by
    cases p
    · simpa using hg rfl
    · rfl
  simp [isHostWake, hword, hm, hen, hreq, hkey, offOf]

/-- R107: in Gen1 the low byte of that word is the one that the write latch holds. -/
theorem isHostWake_latched {s : State} {v : Word} {lo : Byte} (hm : s.pw.mode = .sleep) (hen : pgb s 0xE406 1 = true)
    (hg : s.pw.gen = .gen1) (hlatch : s.portP.g1wr = some (3, lo)) (hreq : lo.toNat % 8 = 1) (hkey : fld v 8 8 = 0) :
    isHostWake s .portP 3 v = true := by
  simp [isHostWake, hg, hlatch, hm, hen, hreq, hkey, offOf]

/-! ### The commands -/

theorem exec_bootFaceWrite {s : State} {p : Port} (a : Fin 64) (v : Word) (hlive : portLive s p = true)
    (hface : s.pw.face = .bootFace) : exec (.bootFaceWrite p a v) s = .next (bootFace s p a v) :=
  congrArg Host.Outcome.next (if_pos ⟨hlive, hface⟩)

theorem exec_hostWake {s : State} {p : Port} (v : Word) (hlive : portLive s p = true)
    (hface : s.pw.face = .bootFace) : exec (.hostWake p v) s = .next (bootFace s p 3 v) :=
  congrArg Host.Outcome.next (if_pos ⟨hlive, hface⟩)

/-- Settles O10: the boot face discards what is no host wake; a host wake, by a whole word or by Gen1's pair of bytes,
begins the wake. -/
theorem bootFaceDiscardsOrWakes : Obligations.BootFaceDiscardsOrWakes := by
  unfold Obligations.BootFaceDiscardsOrWakes
  refine ⟨?discarded, ?word, ?pair⟩
  case discarded =>
    intro p a v s hlive hface hwake
    rw [exec_bootFaceWrite a v hlive hface, bootFace_discards hwake]
  case word =>
    intro p v s hlive hface hm ht hen hg hreq hkey
    rw [exec_hostWake v hlive hface, bootFace_wakes (isHostWake_word hm hen hg hreq hkey) hm ht,
      gen1Spent_unlatched hg]
  case pair =>
    intro lo v s hlive hface hm ht hen hg hlatch hreq hkey
    rw [exec_hostWake v hlive hface, bootFace_wakes (isHostWake_latched hm hen hg hlatch hreq hkey) hm ht,
      gen1Spent_completed hg hlatch]
    rfl

end Sys2Proof.Machine
end

section
/-! Refused SYSCTL writes and the merge window of two mode requests (R57, R58, R66, R83, R85, R137, R578): the rule of
SYSCTL case by case, what Port S is answered, and O12. -/

namespace Sys2Proof.Machine

open Sys2Proof

/-! ### The rule of SYSCTL in the order of R578 -/

section
variable {s : State} {p : Port} {w : Word}

/-- R66: a software reset that the role may not ask for is refused first. -/
theorem sysctlWrite_unowned (hk : fld w 8 8 = 0xC3) (hmay : mayReset s p = false) :
    sysctlWrite s p w = refuse s p eOWNER 0x06 :=
  if_pos ⟨hk, by simp [hmay]⟩

/-- R83: an undefined MREQ or RSTKEY, and both requests in one word, are out of range. -/
theorem sysctlWrite_undefined (hown : fld w 8 8 ≠ 0xC3 ∨ mayReset s p = true)
    (hr : 3 < fld w 0 3 ∨ (fld w 8 8 ≠ 0 ∧ fld w 8 8 ≠ 0xC3) ∨ (fld w 0 3 ≠ 0 ∧ fld w 8 8 ≠ 0)) :
    sysctlWrite s p w = refuse s p eRANGE 0x06 := by
  have howner : ¬(fld w 8 8 = 0xC3 ∧ !mayReset s p) := by
    rintro ⟨hk, hmay⟩
    rcases hown with hne | hyes
    · exact hne hk
    · simp [hyes] at hmay
  rw [sysctlWrite, if_neg howner, if_pos hr]

/-- R57: a defined request that its mode does not allow. -/
theorem sysctlWrite_disallowed (h0 : fld w 0 3 ≠ 0) (h3 : fld w 0 3 ≤ 3) (hk : fld w 8 8 = 0)
    (hno : modeAllowed s (fld w 0 3) = false) : sysctlWrite s p w = refuse s p eSTATE 0x06 := by
  simp [sysctlWrite, hk, h0, hno, show ¬3 < fld w 0 3 by omega]

/-- R66: a permitted software reset is judged by the transition and the forced display. -/
theorem sysctlWrite_reset (h0 : fld w 0 3 = 0) (hk : fld w 8 8 = 0xC3) (hmay : mayReset s p = true) :
    sysctlWrite s p w =
      if s.pw.trans ≠ .idle ∨ (s.roles.fdon ∧ s.pw.mode = .run) then refuse s p eSTATE 0x06
      else banksDown (lampsSettle { s with pw := { (setExpert s w).pw with rst := .soft } }) := by
  simp [sysctlWrite, h0, hk, hmay]

end

/-- R55: during a transition no mode request is allowed. -/
theorem modeAllowed_inTransition {s : State} (h : s.pw.trans ≠ .idle) (m : Nat) : modeAllowed s m = false := by
  simp [modeAllowed, h]

theorem mayReset_gen1Empty (s : State) (p : Port) (a : Fin 64) : mayReset (gen1Empty s p a) p = mayReset s p := by
  unfold gen1Empty; split <;> rfl

/-- A SYSCTL write that reaches its rule ends in what the rule gives. -/
theorem registerWrite_sysctl {s t : State} {p : Port} {v w : Word} (h : reachesRule s p 3 v w)
    (hrule : sysctlWrite (gen1Empty s p 3) p w = t) : exec (.registerWrite p 3 v .alone) s = .next t :=
  registerWrite_reach h hrule

theorem exec_softwareReset (p : Port) (e : Bool) (s : State) :
    exec (.softwareReset p e) s = .next (gate s p 3 (sysctlWord 0 0xC3 e) (fun s w => sysctlWrite s p w)) := rfl

/-! ### The response to a write of Port S (R137) -/

/-- The machine while a write of Port S is performed, with the mark that shows a refusal of it. -/
def probed (s : State) : State := { s with err := { s.err with src := probeSrc } }

/-- R137: a write that makes no record is answered as done, with its own word. -/
theorem answered_done {s t : State} {act : State → State} (a : Fin 64) (v : Word) (hlive : portLive s .portS = true)
    (hface : s.pw.face = .full) (hact : act (probed s) = t) (herr : t.err = (probed s).err) :
    answered s a v act = { t with err := s.err, spi := .answer 0 (BitVec.ofNat 6 a.val) v } := by
  dsimp only [probed] at hact herr
  simp only [answered, hlive, hface, hact]
  simp [herr, probeSrc, srcCode, answerOf]

/-- R137: a refusal of Port S is answered with its code. -/
theorem answered_refused {s : State} {act : State → State} (a : Fin 64) (v : Word) {code : Byte} {off : Nat}
    (hlive : portLive s .portS = true) (hface : s.pw.face = .full) (hcode : code ≠ 0)
    (hact : act (probed s) = refuse (probed s) .portS code off) :
    answered s a v act = { refuse s .portS code off with
      spi := .answer 2 (BitVec.ofNat 6 a.val) (code.zeroExtend 16) } := by
  dsimp only [probed] at hact
  simp only [answered, hlive, hface, hact]
  simp [show code ≠ 0#8 from hcode, refuse, recordInfo, record, setIrq, probeSrc, srcCode, answerOf]

/-! ### Writes that reach SYSCTL in one merge window -/

/-- Where the whole word comes in one access, any other word would have reached the register too. -/
theorem reachesRule_anyWord {s : State} {p : Port} {a : Fin 64} {v w : Word} (h : reachesRule s p a v w)
    (hg : p = .portP → s.pw.gen ≠ .gen1) (x : Word) : reachesRule s p a x x := by
  obtain ⟨hlive, hface, hoff, -, hcork⟩ := h
  exact ⟨hlive, hface, hoff, if_neg fun ⟨hp, hgen⟩ => hg hp hgen, hcork⟩

/-- R577: SYSCTL is not written in CORK-ENTRY. -/
theorem mode_ne_corkEntry_of_reachesSysctl {s : State} {p : Port} {v w : Word} (h : reachesRule s p 3 v w) :
    s.pw.mode ≠ .corkEntry := by
  obtain ⟨-, -, -, -, hcork⟩ := h
  exact fun hm => absurd (hcork hm) (by decide)

/-- R85: a write that reaches SYSCTL's rule takes part in a merge window with its word. -/
theorem reaches_of_reachesRule {s : State} {p : Port} {v w : Word} (h : reachesRule s p 3 v w) :
    reaches s p 3 v = some w := by
  have hmode := mode_ne_corkEntry_of_reachesSysctl h
  obtain ⟨hlive, hface, -, hword, -⟩ := h
  rw [reaches, if_neg (by simp [hlive, hface, hmode]), hword]

/-- A change that leaves Port P's face, generation and latches leaves its write's way to the register. -/
theorem reachesRule_portP_congr {s t : State} {a : Fin 64} {v w : Word} (h : reachesRule s .portP a v w)
    (hvio : t.pw.vio = s.pw.vio) (hgen : t.pw.gen = s.pw.gen) (hface : t.pw.face = s.pw.face)
    (hport : t.portP = s.portP) (hmode : t.pw.mode ≠ .corkEntry) : reachesRule t .portP a v w := by
  obtain ⟨hlive, hfull, hoff, hword, -⟩ := h
  refine ⟨?_, hface.trans hfull, hoff, ?_, fun hm => absurd hm hmode⟩
  · simpa only [portLive, getPort, hvio, hgen, hface, hport] using hlive
  · simpa only [gen1Word, hgen, hport] using hword

/-- R85: Port S's half of a merge window, which is judged first. -/
def portSJudged (s : State) (v : Word) : State :=
  answered s 3 v (fun s => gate s .portS 3 v (fun s w => sysctlWrite s .portS w))

/-- A RUN request of Port S that is allowed is executed, makes no record and is answered as done. -/
theorem portSJudged_run {s : State} (h : reachesRule s .portS 3 2 2) (hallow : modeAllowed s 2 = true) :
    ∃ l, portSJudged s 2 =
      { s with pw := { s.pw with mode := .run, expert := false }, lamps := l, spi := .answer 0 3 2 } := by
  have hprobed : reachesRule (probed s) .portS 3 2 2 := h
  have hact := sysctlGate_allowed (m := 2) hprobed (by decide) (by decide) (by decide) (by decide) hallow
  have hbegun := modeBegin_run (setExpert (probed s) 2)
  change gate (probed s) .portS 3 2 _ = modeBegin (setExpert (probed s) 2) 2 at hact
  generalize modeBegin (setExpert (probed s) 2) 2 = t at hact hbegun
  obtain ⟨hlive, hface, -⟩ := h
  refine ⟨t.lamps, ?_⟩
  rw [portSJudged, answered_done 3 2 hlive hface hact (by rw [hbegun]; rfl), hbegun]
  rfl

/-- A STANDBY request of Port S out of RUN is refused with STATE, and is answered so. -/
theorem portSJudged_standby {s : State} (h : reachesRule s .portS 3 1 1) (hno : modeAllowed s 1 = false) :
    portSJudged s 1 = { refuse s .portS eSTATE 0x06 with spi := .answer 2 3 0x0001 } := by
  have hprobed : reachesRule (probed s) .portS 3 1 1 := h
  have hact : gate (probed s) .portS 3 1 (fun s w => sysctlWrite s .portS w) = refuse (probed s) .portS eSTATE 0x06 := by
    rw [gate_reach hprobed]
    exact sysctlWrite_disallowed (by decide) (by decide) (by decide) hno
  obtain ⟨hlive, hface, -⟩ := h
  exact answered_refused 3 1 hlive hface (by decide) hact

/-- R85: Port P's half, where both writes reach SYSCTL and Port P's carries the whole word: it is merged with a request
of Port S that is allowed, and judged alone otherwise. -/
theorem modeMerge_reached {s : State} {vS vP : Word} (hS : reachesRule s .portS 3 vS vS)
    (hP : reachesRule s .portP 3 vP vP) (hg : s.pw.gen ≠ .gen1)
    (hjudged : reachesRule (portSJudged s vS) .portP 3 vP vP) (hgen : (portSJudged s vS).pw.gen = s.pw.gen) :
    modeMerge s vS vP =
      if 0 < modeReq vS ∧ 0 < modeReq vP ∧ modeAllowed s (modeReq vS) then
        if modeReq vS = modeReq vP then setExpert (portSJudged s vS) vP
        else refuse (portSJudged s vS) .portP eSTATE 0x06
      else sysctlWrite (portSJudged s vS) .portP vP := by
  have hwhole : gen1Empty (portSJudged s vS) .portP 3 = portSJudged s vS := if_neg fun ⟨_, h⟩ => hg (hgen ▸ h)
  have hmS := reaches_of_reachesRule hS
  have hmP := reaches_of_reachesRule hP
  unfold modeMerge
  simp only [hmS, hmP, Option.map_some, Option.getD_some, Option.some.injEq]
  rw [← portSJudged, gate_reach hjudged, hwhole]

/-- R85: where Port S's RUN request is executed, an identical one of Port P is executed with it and a different one is
refused. -/
theorem modeMerge_afterRun {s : State} {v : Word} (hS : reachesRule s .portS 3 2 2) (hP : reachesRule s .portP 3 v v)
    (hg : s.pw.gen ≠ .gen1) (hrun : modeAllowed s 2 = true) (hreq : 0 < modeReq v) :
    modeMerge s 2 v =
      if modeReq 2 = modeReq v then setExpert (portSJudged s 2) v else refuse (portSJudged s 2) .portP eSTATE 0x06 := by
  obtain ⟨l, hran⟩ := portSJudged_run hS hrun
  have hjudged : reachesRule (portSJudged s 2) .portP 3 v v := by
    rw [hran]
    exact reachesRule_portP_congr hP rfl rfl rfl rfl (by simp)
  rw [modeMerge_reached hS hP hg hjudged (by rw [hran]), if_pos ⟨by decide, hreq, hrun⟩]

/-- R85: where Port S's STANDBY request is refused, Port P's write is judged alone. -/
theorem modeMerge_afterRefusal {s : State} {v : Word} (hS : reachesRule s .portS 3 1 1)
    (hP : reachesRule s .portP 3 v v) (hg : s.pw.gen ≠ .gen1) (hno : modeAllowed s 1 = false) :
    modeMerge s 1 v = sysctlWrite (portSJudged s 1) .portP v := by
  have hrefused := portSJudged_standby hS hno
  have hmode := mode_ne_corkEntry_of_reachesSysctl hS
  have hjudged : reachesRule (portSJudged s 1) .portP 3 v v := by
    rw [hrefused]
    exact reachesRule_portP_congr hP rfl rfl rfl rfl hmode
  rw [modeMerge_reached hS hP hg hjudged (by rw [hrefused]; rfl),
    if_neg fun ⟨_, _, hallow⟩ => absurd (hno.symm.trans hallow) (by decide)]

/-! ### The statement -/

/-- Settles O12: the refusals are the rule's cases in their order; in a merge window Port S is judged first and Port P
by what became of it. -/
theorem sysctlRefusalsAndMergedModeRequests : Obligations.SysctlRefusalsAndMergedModeRequests := by
  unfold Obligations.SysctlRefusalsAndMergedModeRequests
  refine ⟨fun p v w s h => ⟨?unowned, ?undefined, ?disallowed, ?reset⟩, ?merged⟩
  case unowned =>
    intro hk hmay
    exact registerWrite_sysctl h (sysctlWrite_unowned hk (by rw [mayReset_gen1Empty, hmay]))
  case undefined =>
    intro hown hr
    exact registerWrite_sysctl h (sysctlWrite_undefined (by rwa [mayReset_gen1Empty]) hr)
  case disallowed =>
    intro h0 h3 hk hno
    have hrefused : modeAllowed s (fld w 0 3) = false := hno.elim (fun ht => modeAllowed_inTransition ht _) id
    exact registerWrite_sysctl h (sysctlWrite_disallowed h0 h3 hk (by rw [modeAllowed_gen1Empty, hrefused]))
  case reset =>
    intro h0 hk hmay hno
    have hrule : sysctlWrite (gen1Empty s p 3) p w = refuse (gen1Empty s p 3) p eSTATE 0x06 := by
      rw [sysctlWrite_reset h0 hk (by rw [mayReset_gen1Empty, hmay]), gen1Empty_pw, gen1Empty_roles, if_pos hno]
    refine ⟨registerWrite_sysctl h hrule, fun e hv => ?_⟩
    subst hv
    rw [exec_softwareReset, gate_reach h, hrule]
  case merged =>
    intro s hS hP hg hm ht he htap
    have hrun : modeAllowed s 2 = true := by simp [modeAllowed, hm, ht, he, htap]
    have hstandby : modeAllowed s 1 = false := by simp [modeAllowed, hm]
    have hwholeS : reachesRule s .portS 3 1 1 := reachesRule_anyWord hS (fun h => by cases h) 1
    have hwholeP (x : Word) : reachesRule s .portP 3 x x := reachesRule_anyWord hP (fun _ => hg) x
    obtain ⟨l, hran⟩ := portSJudged_run hS hrun
    have hrefused := portSJudged_standby hwholeS hstandby
    refine ⟨⟨_, rfl, ?_⟩, ⟨_, rfl, ?_⟩, ⟨_, rfl, ?_⟩, ⟨_, rfl, ?_⟩⟩
    · rw [modeMerge_afterRun hS (hwholeP 2) hg hrun (by decide), if_pos rfl, hran]
      exact ⟨rfl, rfl, rfl⟩
    · rw [modeMerge_afterRun hS (hwholeP 3) hg hrun (by decide), if_neg (by decide), hran]
      exact ⟨rfl, rfl, rfl, rfl⟩
    · have hallow : modeAllowed (portSJudged s 1) 2 = true := by rw [hrefused]; exact hrun
      rw [modeMerge_afterRefusal hwholeS (hwholeP 2) hg hstandby,
        sysctlWrite_allowed (m := 2) (by decide) (by decide) (by decide) (by decide) hallow, modeBegin_run, hrefused]
      exact ⟨rfl, rfl, rfl, rfl⟩
    · have hdenied : modeAllowed (portSJudged s 1) 1 = false := by rw [hrefused]; exact hstandby
      rw [modeMerge_afterRefusal hwholeS (hwholeP 1) hg hstandby,
        sysctlWrite_disallowed (by decide) (by decide) (by decide) hdenied, hrefused]
      exact ⟨rfl, rfl, rfl, by simp [refuse, recordInfo, record, setIrq], rfl⟩

end Sys2Proof.Machine
end

section
/-! The supplies (R60 to R63, R535, R555): what an operation on one bank leaves of the machine, the glass at a collapse
and at the exit from reduced function, the latches of WAKESTAT, and O16. -/

namespace Sys2Proof.Machine

open Sys2Proof

/-! ### Work on one bank -/

/-- The state t is s but for one bank and the Trellis, whose key slot a bank's entry to state 1 or 6 ends (R344). -/
def OnBank (s : State) (b : Bank) (t : State) : Prop := t = { setBank s b (getBank t b) with keys := t.keys }

namespace OnBank

variable {s t u : State} {b : Bank}

theorem refl (s : State) (b : Bank) : OnBank s b s := by cases b <;> rfl

theorem trans (h : OnBank s b t) (k : OnBank t b u) : OnBank s b u := by
  unfold OnBank at h k
  rw [k, h]
  cases b <;> rfl

theorem pw (h : OnBank s b t) : t.pw = s.pw := by rw [h]; cases b <;> rfl

theorem clk (h : OnBank s b t) : t.clk = s.clk := by rw [h]; cases b <;> rfl

theorem aon (h : OnBank s b t) : t.aon = s.aon := by rw [h]; cases b <;> rfl

theorem lamps (h : OnBank s b t) : t.lamps = s.lamps := by rw [h]; cases b <;> rfl

theorem other (h : OnBank s b t) {c : Bank} (hc : c ≠ b) : getBank t c = getBank s c := by
  rw [h]
  exact (by cases c <;> rfl : _ = getBank (setBank s b (getBank t b)) c).trans (getBank_setBank_ne s b c _ hc)

/-- Work on bank A and then on bank B is work on the banks and the Trellis alone. -/
theorem both_keeps {op : State → Bank → State} (hop : ∀ s b, OnBank s b (op s b)) (s : State) :
    (op (op s .bankA) .bankB).pw = s.pw ∧ (op (op s .bankA) .bankB).aon = s.aon ∧
      (op (op s .bankA) .bankB).lamps = s.lamps := by
  have hA := hop s .bankA
  have hB := hop (op s .bankA) .bankB
  exact ⟨hB.pw.trans hA.pw, hB.aon.trans hA.aon, hB.lamps.trans hA.lamps⟩

/-- Of work on both banks, each bank ends as its own part leaves it, from a machine that has this bank, the modes and the
clocks as they were. -/
theorem both_getBank {op : State → Bank → State} (hop : ∀ s b, OnBank s b (op s b)) (s : State) (b : Bank) :
    ∃ u, getBank u b = getBank s b ∧ u.pw = s.pw ∧ u.clk = s.clk ∧
      getBank (op (op s .bankA) .bankB) b = getBank (op u b) b := by
  cases b with
  | bankA => exact ⟨s, rfl, rfl, rfl, (hop (op s .bankA) .bankB).other (by decide)⟩
  | bankB =>
    have hA := hop s .bankA
    exact ⟨op s .bankA, hA.other (by decide), hA.pw, hA.clk, rfl⟩

end OnBank

theorem onBank_setBank (s : State) (b : Bank) (x : BankSt) : OnBank s b (setBank s b x) := by cases b <;> rfl

theorem onBank_setDrv (s : State) (b : Bank) (d : Drive) : OnBank s b (setDrv s b d) := onBank_setBank s b _

theorem onBank_setLed (s : State) (b : Bank) (l : Ledger) : OnBank s b (setLed s b l) := onBank_setBank s b _

theorem onBank_setTrim (s : State) (b : Bank) (x : Trim) : OnBank s b (setTrim s b x) := onBank_setBank s b _

theorem onBank_keySlotGone (s : State) (b : Bank) : OnBank s b (keySlotGone s b) := by
  unfold keySlotGone
  split
  · cases b <;> rfl
  · exact OnBank.refl s b

/-! ### Table DRV-5's operations on one bank -/

theorem onBank_bankUp (s : State) (b : Bank) : OnBank s b (bankUp s b) := by
  have hup (d : Drive) : OnBank s b (setDrv (keySlotGone (setTrim s b
      { (getBank s b).trim with now := trimEff (getBank s b).trim }) b) b d) :=
    ((onBank_setTrim s b _).trans (onBank_keySlotGone _ b)).trans (onBank_setDrv _ b d)
  unfold bankUp
  dsimp only
  split
  · exact (hup _).trans (onBank_setDrv _ b _)
  · exact hup _

theorem onBank_enterOff (s : State) (b : Bank) : OnBank s b (enterOff s b) := by
  unfold enterOff
  dsimp only
  split
  · exact (onBank_setDrv s b _).trans (onBank_bankUp _ b)
  · exact onBank_setDrv s b _

theorem onBank_enterRelease (s : State) (b : Bank) : OnBank s b (enterRelease s b) := by
  have hskip : OnBank s b (settleSkipped s b) := by
    unfold settleSkipped
    dsimp only
    split
    · exact onBank_setLed s b _
    · exact OnBank.refl s b
  have hrel (y : Trim) (d : Drive) : OnBank s b (setDrv (setTrim (settleSkipped s b) b y) b d) :=
    (hskip.trans (onBank_setTrim _ b y)).trans (onBank_setDrv _ b d)
  unfold enterRelease
  dsimp only
  split
  · exact hrel _ _
  · exact (hrel _ _).trans (onBank_enterOff _ b)

theorem onBank_enterGround (s : State) (b : Bank) (cut skip cap : Bool) : OnBank s b (enterGround s b cut skip cap) := by
  have hpass (u : State) (h : OnBank s b u) (c : Prop) [Decidable c] :
      OnBank s b (if c then u else passBegins u b false) := by
    split
    · exact h
    · exact h.trans (onBank_setLed u b _)
  unfold enterGround
  exact ((hpass _ (onBank_setLed s b _) _).trans (onBank_keySlotGone _ b)).trans (onBank_setDrv _ b _)

/-- R261: the drive part of a bank that is grounded. -/
theorem enterGround_drv (s : State) (b : Bank) (cut skip cap : Bool) :
    (getBank (enterGround s b cut skip cap) b).drv =
      { (getBank s b).drv with sta := .grounding, pend := .none, vlossRun := false, setSlots := 0 } := by
  unfold enterGround
  simp only [setDrv, getBank_setBank]

theorem onBank_bankEmergency (s : State) (b : Bank) : OnBank s b (bankEmergency s b) := by
  unfold bankEmergency
  dsimp only
  split_ifs
  · exact onBank_enterGround s b _ _ _
  · exact onBank_enterRelease s b
  · exact OnBank.refl s b

/-- R62, R89: a driven bank is grounded at once. -/
theorem bankEmergency_driven {s : State} {b : Bank} (h : driven (getBank s b).drv = true) :
    (getBank (bankEmergency s b) b).drv.sta = .grounding := by
  rw [bankEmergency, if_pos h, enterGround_drv]

/-! ### The exit from reduced function (R61, R63) -/

/-- Table DRV-5: a powering bank waits for VLCD-good, or goes on where it is there. -/
theorem bankUp_sta (s : State) (b : Bank) :
    (getBank (bankUp s b) b).drv.sta = if (getBank s b).drv.vgood then .biasSettle else .waitVlcd := by
  unfold bankUp
  dsimp only
  split
  · simp only [enterBias, setDrv, getBank_setBank]
  · simp only [setDrv, getBank_setBank]

theorem onBank_bankReturns (s : State) (b : Bank) : OnBank s b (bankReturns s b) := by
  unfold bankReturns
  dsimp only
  split
  · exact onBank_bankUp s b
  · exact OnBank.refl s b

theorem mayPowerUp_congr {s t : State} (hpw : t.pw = s.pw) (hclk : t.clk = s.clk) : mayPowerUp t = mayPowerUp s := by
  rw [mayPowerUp, hpw, hclk, mayPowerUp]

/-- A bank that is off and holds a request or a latch powers up; one that is not off takes no part in the exit. -/
theorem bankReturns_getBank (s : State) (b : Bank) (hmay : mayPowerUp s = true) :
    ((getBank s b).drv.sta = .off → (getBank s b).drv.req = true ∨ (getBank s b).drv.latch = true →
      (getBank (bankReturns s b) b).drv.sta = if (getBank s b).drv.vgood then .biasSettle else .waitVlcd) ∧
    ((getBank s b).drv.sta ≠ .off → getBank (bankReturns s b) b = getBank s b) := by
  constructor
  · intro hoff hreq
    rw [bankReturns, if_pos ⟨hoff, hreq, hmay⟩, bankUp_sta]
  · intro hon
    rw [bankReturns, if_neg fun ⟨hoff, _⟩ => hon hoff]

/-! ### WAKESTAT (R61, R62) -/

/-- A latched WAKESTAT bit reads 1. -/
theorem latchWake_latched (s : State) {i : Nat} (h : i < 8) : (latchWake s i).aon.latch.getLsbD i = true := by
  rw [latchWake_frame]
  change (s.aon.latch ||| BitVec.ofNat 8 (2 ^ i)).getLsbD i = true
  rw [BitVec.getLsbD_or, BitVec.getLsbD_ofNat, Nat.testBit_two_pow_self, decide_eq_true h]
  exact Bool.or_true _

theorem latchWake_pw (s : State) (i : Nat) : (latchWake s i).pw = s.pw := by rw [latchWake_frame]

theorem getBank_latchWake (s : State) (i : Nat) (b : Bank) : getBank (latchWake s i) b = getBank s b := by
  rw [latchWake_frame]; cases b <;> rfl

/-! ### Reduced function (R61) -/

/-- R61: the entry switches the lamps off, latches WAKESTAT.RED and leaves the glass and the Cellar. -/
theorem reducedEntry_enters {s : State} (hon : islandOn s = true) (hred : s.pw.reduced = false) :
    reducedEntry s = latchWake (lampsSettle { s with pw := { s.pw with reduced := true } }) wkRED :=
  if_pos ⟨hon, by rw [hred]; rfl⟩

/-- The entry leaves the banks, and of the modes changes the one of reduced function alone. -/
theorem reducedEntry_keeps (s : State) : (reducedEntry s).pw = { s.pw with reduced := (reducedEntry s).pw.reduced } ∧
    ∀ b : Bank, getBank (reducedEntry s) b = getBank s b := by
  unfold reducedEntry
  split
  · rw [latchWake_frame, lampsSettle_frame]
    exact ⟨rfl, fun b => by cases b <;> rfl⟩
  · exact ⟨rfl, fun b => rfl⟩

/-! ### Collapse (R62) -/

/-- A collapse of a bank may clear its request before it is grounded. -/
theorem onBank_bankCollapses (s : State) (b : Bank) : OnBank s b (bankCollapses s b) := by
  have hreq : OnBank s b (if pgb s 0xE406 0 then s else setDrv s b (noRequest (getBank s b).drv)) := by
    split
    · exact OnBank.refl s b
    · exact onBank_setDrv s b _
  exact hreq.trans (onBank_bankEmergency _ b)

theorem bankCollapses_driven {s : State} {b : Bank} (h : driven (getBank s b).drv = true) :
    (getBank (bankCollapses s b) b).drv.sta = .grounding := by
  have hreq : driven (getBank (if pgb s 0xE406 0 then s else setDrv s b (noRequest (getBank s b).drv)) b).drv = true := by
    split
    · exact h
    · rw [setDrv, getBank_setBank]
      exact h
  exact bankEmergency_driven hreq

/-- R62: the machine with a collapse recorded, before the glass is grounded. -/
def collapseNoted (s : State) : State :=
  latchWake { reducedEntry s with pw := { (reducedEntry s).pw with collapse := true } } wkCOL

theorem collapses_active {s : State} (h : s.pw.mode = .run ∨ s.pw.mode = .corkEntry) :
    collapses s = bankCollapses (bankCollapses (collapseNoted s) .bankA) .bankB := by
  have hmode : (reducedEntry s).pw.mode = s.pw.mode := by rw [(reducedEntry_keeps s).1]
  unfold collapses
  rcases h with hm | hm
  all_goals simp only [hmode, hm, collapseNoted]

theorem collapses_sleep {s : State} (h : s.pw.mode = .sleep) :
    collapses s = latchWake { reducedEntry s with pw := { (reducedEntry s).pw with colSleep := true } } wkCOL := by
  have hmode : (reducedEntry s).pw.mode = s.pw.mode := by rw [(reducedEntry_keeps s).1]
  unfold collapses
  simp only [hmode, h]

/-! ### VIO (R535) -/

/-- R535: without VIO no port is live. -/
theorem portLive_withoutVio {s : State} (h : s.pw.vio = false) (p : Port) : portLive s p = false := by
  simp [portLive, h]

theorem regWrite_notLive {s : State} {p : Port} (h : portLive s p = false) (a : Fin 64) (v : Word) :
    regWrite s p a v = s :=
  if_pos (by rw [h]; rfl)

theorem regRead_notLive {s : State} {p : Port} (h : portLive s p = false) (a : Fin 64) : regRead s p a = s := by
  simp [regRead, readGate, h]

/-! ### The statement -/

/-- Settles O16: the lamps may not be on in reduced function; at its exit and at a collapse each bank's work leaves the
other bank; without VIO neither port is live. -/
theorem suppliesComeAndGo : Obligations.SuppliesComeAndGo := by
  unfold Obligations.SuppliesComeAndGo
  refine ⟨⟨?entry, ?exit, ?collapse, ?sleepCollapse⟩, fun s => rfl, fun s => rfl, ?withoutVio⟩
  case entry =>
    intro s hon hred
    have hoff := lampsSettle_unpowered (s := { s with pw := { s.pw with reduced := true } }) (by simp [lampsAllowed])
    have hframe := lampsSettle_frame { s with pw := { s.pw with reduced := true } }
    refine ⟨_, congrArg Host.Outcome.next (reducedEntry_enters hon hred), ?_⟩
    generalize lampsSettle _ = u at hoff hframe ⊢
    refine ⟨?_, fun n => ?_, ?_, ?_, latchWake_latched u (by decide), ?_⟩
    · rw [latchWake_pw, hframe]
    · rw [getLamp_congr (s := u) (by rw [latchWake_frame]), hoff]
    all_goals rw [latchWake_frame, hframe]
  case exit =>
    intro s hon hred hexp
    have hframe := lampsSettle_frame { s with pw := { s.pw with reduced := false } }
    refine ⟨_, congrArg Host.Outcome.next (if_pos ⟨hon, hred⟩), ?_⟩
    generalize lampsSettle _ = u at hframe ⊢
    have hbanks (b : Bank) : getBank u b = getBank s b := by rw [hframe]; cases b <;> rfl
    have hmay : mayPowerUp u = true := by rw [hframe]; simp [mayPowerUp, hexp]
    obtain ⟨hpw, -⟩ := OnBank.both_keeps onBank_bankReturns u
    refine ⟨by rw [hpw, hframe], fun b => ?_⟩
    obtain ⟨v, hbank, hvpw, hvclk, hboth⟩ := OnBank.both_getBank onBank_bankReturns u b
    rw [hboth, ← hbanks b, ← hbank]
    exact bankReturns_getBank v b (by rw [mayPowerUp_congr hvpw hvclk, hmay])
  case collapse =>
    intro s hm
    obtain ⟨hentry, hbanks⟩ := reducedEntry_keeps s
    obtain ⟨hpw, haon, -⟩ := OnBank.both_keeps onBank_bankCollapses (collapseNoted s)
    refine ⟨_, congrArg Host.Outcome.next (collapses_active hm), ?_, ?_, ?_, fun b hdriven => ?_⟩
    · rw [hpw, collapseNoted, latchWake_pw]
    · rw [hpw, collapseNoted, latchWake_pw, hentry]
    · rw [haon]
      exact latchWake_latched _ (by decide)
    · obtain ⟨v, hbank, -, -, hboth⟩ := OnBank.both_getBank onBank_bankCollapses (collapseNoted s) b
      have hnoted : getBank (collapseNoted s) b = getBank s b := by
        rw [← hbanks b, collapseNoted, getBank_latchWake]
        cases b <;> rfl
      rw [hboth]
      exact bankCollapses_driven (by rw [hbank, hnoted, hdriven])
  case sleepCollapse =>
    intro s hm
    obtain ⟨hentry, hbanks⟩ := reducedEntry_keeps s
    refine ⟨_, congrArg Host.Outcome.next (collapses_sleep hm), ?_, ?_, latchWake_latched _ (by decide), ?_⟩
    · rw [latchWake_pw]
    · rw [latchWake_pw, hentry]
    · exact (getBank_latchWake _ _ .bankA).trans (hbanks .bankA)
  case withoutVio =>
    intro p a v s hvio
    have hdead := portLive_withoutVio hvio p
    exact ⟨by rw [registerWrite_alone, regWrite_notLive hdead], congrArg Host.Outcome.next (regRead_notLive hdead 0x0B)⟩

end Sys2Proof.Machine
end

section
/-! Software reset, RESET# and the warm boot (R65, R66, R69, R76, R89, R294, R490): what becomes of a bank's request
under RESET#, what a kept ledger reads, what the warm boot leaves, and O13. -/

namespace Sys2Proof.Machine

open Sys2Proof

/-! ### RESET# (R65, R69, R89) -/

/-- R89: the grounding or release of a bank that holds no request makes none. -/
theorem bankEmergency_requestless {s : State} {b : Bank} (hreq : (getBank s b).drv.req = false)
    (hlatch : (getBank s b).drv.latch = false) (hnext : (getBank s b).drv.reqNext = none) :
    (getBank (bankEmergency s b) b).drv.req = false := by
  have hclear : RequestsCleared s b s := ⟨(setBank_getBank s b).symm, hreq, hlatch, hnext⟩
  unfold bankEmergency
  dsimp only
  split_ifs
  · rw [enterGround_drv]
    exact hreq
  · exact hclear.enterRelease.req
  · exact hreq

/-- The machine that recognises RESET#, with the banks' requests cleared. -/
def resetRecognised (s : State) : State :=
  { s with pw := { s.pw with rst := .pin, trans := .idle, face := .bootFace }
           bankA := { s.bankA with drv := noRequest s.bankA.drv }
           bankB := { s.bankB with drv := noRequest s.bankB.drv } }

/-- The machine under RESET# with its lamps settled, before the glass is grounded. -/
def resetSettled (s : State) : State := lampsSettle (faceTakesHeld (resetRecognised s))

theorem exec_resetPin {s : State} (hoff : s.pw.mode ≠ .off) (hcork : s.pw.mode ≠ .cork) :
    exec .resetPin s = .next (bankEmergency (bankEmergency (resetSettled s) .bankA) .bankB) :=
  congrArg Host.Outcome.next (if_neg fun h => h.elim hoff hcork)

/-- R69: the recognition settles the lamps and takes an access that WAIT# holds. -/
theorem resetSettled_frame (s : State) : resetSettled s =
    { resetRecognised s with portP := (resetSettled s).portP, lamps := (resetSettled s).lamps } := by
  have hface := faceTakesHeld_frame (resetRecognised s)
  unfold resetSettled
  generalize faceTakesHeld (resetRecognised s) = u at hface ⊢
  have hlamps := lampsSettle_frame u
  generalize lampsSettle u = v at hlamps ⊢
  rw [hlamps, hface]

/-- R65: no lamp is on under RESET#. -/
theorem resetSettled_unpowered (s : State) (n : Fin 8) : powered (getLamp (resetSettled s) n) = false := by
  refine lampsSettle_unpowered ?_ n
  rw [faceTakesHeld_frame]
  simp [lampsAllowed, lampsHeld, resetRecognised]

/-- R65, R89: with the glass grounded, the modes and the lamps are those of the recognition; neither bank has a request,
and each that was driven is in state 6. -/
theorem bankEmergency_both {s t : State} (ht : bankEmergency (bankEmergency s .bankA) .bankB = t)
    (hreq : ∀ b : Bank, (getBank s b).drv.req = false ∧ (getBank s b).drv.latch = false ∧
      (getBank s b).drv.reqNext = none) :
    t.pw = s.pw ∧ t.lamps = s.lamps ∧ ∀ b : Bank, (getBank t b).drv.req = false ∧
      (driven (getBank s b).drv = true → (getBank t b).drv.sta = .grounding) := by
  subst ht
  obtain ⟨hpw, -, hlamps⟩ := OnBank.both_keeps onBank_bankEmergency s
  refine ⟨hpw, hlamps, fun b => ?_⟩
  obtain ⟨v, hbank, -, -, hboth⟩ := OnBank.both_getBank onBank_bankEmergency s b
  obtain ⟨hr, hl, hn⟩ := hreq b
  rw [← hbank] at hr hl hn ⊢
  rw [hboth]
  exact ⟨bankEmergency_requestless hr hl hn, bankEmergency_driven⟩

/-! ### The note of a skipped settle while passes run to their end (R294, Table BAL-7) -/

/-- SKIPPED of each bank's latest settle. -/
def skips (s : State) (b : Bank) : Bool := (getBank s b).led.skipped

theorem skips_congr {s t : State} (h : ∀ b, getBank t b = getBank s b) : skips t = skips s :=
  funext fun b => congrArg (fun x : BankSt => x.led.skipped) (h b)

theorem skips_setLed {s : State} {b : Bank} {l : Ledger} (h : l.skipped = skips s b) : skips (setLed s b l) = skips s := by
  funext c
  by_cases hc : c = b
  · subst hc
    rw [skips, setLed, getBank_setBank, h]
  · rw [skips, setLed, getBank_setBank_ne s b c _ hc, skips]

theorem skips_foldl {α : Type} {f : State → α → State} (hf : ∀ s a, skips (f s a) = skips s) (l : List α) (s : State) :
    skips (l.foldl f s) = skips s := by
  induction l generalizing s with
  | nil => rfl
  | cons a l ih => rw [List.foldl_cons, ih, hf]

theorem skips_mem (s : State) (m : List Host.Cell) : skips { s with mem := m } = skips s :=
  skips_congr fun b => by cases b <;> rfl

theorem skips_arb (s : State) (a : Arb) : skips { s with arb := a } = skips s :=
  skips_congr fun b => by cases b <;> rfl

theorem skips_grantLow (s : State) (l n : Nat) : skips (grantLow s l n) = skips s := skips_arb s _

theorem skips_grantWork (s : State) (l n : Nat) (first : Bool) : skips (grantWork s l n first) = skips s := by
  rw [grantWork_frame, skips_arb]

theorem skips_eccRewrite (s : State) (a : Nat) : skips (eccWritten (eccRead s a) a) = skips s := by
  rw [eccRead_frame]
  exact skips_congr fun b => by cases b <;> rfl

/-- The booking of two accumulators counts RST and SAT words in the ledger, and no settle. -/
theorem skips_rmwPair (s : State) (b : Bank) (c x : Nat) (f : Nat → BitVec 32 → BitVec 32) :
    skips (rmwPair s b c x f) = skips s := by
  unfold rmwPair
  dsimp only
  rw [skips_mem, skips_setLed, skips_eccRewrite]
  rfl

theorem skips_rmwLine (s : State) (b : Bank) (c : Nat) (f : Nat → BitVec 32 → BitVec 32) :
    skips (rmwLine s b c f) = skips s :=
  skips_foldl (fun s i => skips_rmwPair s b c (2 * i) f) _ s

theorem skips_rmwLinesIf (c : Prop) [Decidable c] (l : List Nat) (s : State) (b : Bank) (line : Nat → Nat)
    (f : Nat → Nat → BitVec 32 → BitVec 32) :
    skips (if c then l.foldl (fun s i => rmwLine s b (line i) (f i)) s else s) = skips s := by
  split
  · exact skips_foldl (fun s i => skips_rmwLine s b (line i) (f i)) l s
  · rfl

theorem skips_passBegins (s : State) (b : Bank) (boundary : Bool) : skips (passBegins s b boundary) = skips s :=
  skips_setLed rfl

theorem skips_setPeak (s : State) (b : Bank) : skips (setPeak s b) = skips s := skips_setLed rfl

theorem skips_clearWords (s : State) (b : Bank) : skips (clearWords s b) = skips s := by
  unfold clearWords
  dsimp only
  rw [skips_setLed, skips_foldl fun s c => skips_rmwLine s b c _, skips_grantLow]
  rfl

theorem skips_clearWordsIf (c : Prop) [Decidable c] (s : State) (b : Bank) :
    skips (if c then clearWords s b else s) = skips s := by
  split
  · exact skips_clearWords s b
  · rfl

/-- R283: the end of a pass leaves how the latest settle went. -/
theorem skips_passEnds (s : State) (b : Bank) : skips (passEnds s b) = skips s := by
  unfold passEnds
  dsimp only
  split
  · rfl
  · rw [skips_clearWordsIf, skips_setPeak, skips_grantWork, skips_setLed, skips_rmwLinesIf,
      skips_foldl fun s c => skips_rmwLine s b c _, skips_setLed]
    · rfl
    · rfl

theorem skips_markUnused (s : State) (b : Bank) (old new : Nat) : skips (markUnused s b old new) = skips s := by
  unfold markUnused
  dsimp only
  rw [skips_foldl (fun s i => skips_rmwLine s b _ _), skips_grantLow]

theorem skips_ledgerBooked (s : State) (b : Bank) : skips (ledgerBooked s b) = skips s := by
  unfold ledgerBooked
  dsimp only
  rw [skips_markUnused, skips_foldl fun s _ => skips_passEnds s b]
  split
  · rfl
  · exact skips_passBegins s b false

/-! ### The warm boot (R76, R294) -/

/-- The machine reinitialised by a warm boot, with the ledger that it may keep. -/
def warmWiped (s : State) : State :=
  if Config.ledgerOutlives then ledgerKept s (wiped (faceTakesHeld s)) else wiped (faceTakesHeld s)

/-- R294: a kept ledger concerns the Cellar, its ECC state and the banks alone. -/
theorem ledgerKept_frame (s w : State) : ledgerKept s w = { w with
    mem := (ledgerKept s w).mem, arb := (ledgerKept s w).arb, bankA := (ledgerKept s w).bankA
    bankB := (ledgerKept s w).bankB } := by
  unfold ledgerKept
  generalize ledgerBooked (ledgerBooked s .bankA) .bankB = u
  rfl

theorem ledgerKept_get (s w : State) (x : Nat) : Cellar.get (ledgerKept s w).mem x =
    if inBalance x then Cellar.get (ledgerBooked (ledgerBooked s .bankA) .bankB).mem x else Cellar.get [] x := by
  unfold ledgerKept
  generalize ledgerBooked (ledgerBooked s .bankA) .bankB = u
  exact Cellar.get_filter u.mem inBalance x

theorem ledgerKept_skipped (s w : State) (b : Bank) : (getBank (ledgerKept s w) b).led.skipped = skips s b := by
  have hbooked : skips (ledgerBooked (ledgerBooked s .bankA) .bankB) = skips s := by
    rw [skips_ledgerBooked, skips_ledgerBooked]
  rw [← hbooked]
  unfold ledgerKept
  generalize ledgerBooked (ledgerBooked s .bankA) .bankB = u
  cases b <;> rfl

/-- Whether or not the ledger is kept, the rest of the machine is reinitialised. -/
theorem warmWiped_frame (s : State) : warmWiped s = { wiped (faceTakesHeld s) with
    mem := (warmWiped s).mem, arb := (warmWiped s).arb, bankA := (warmWiped s).bankA, bankB := (warmWiped s).bankB } := by
  have hkept := ledgerKept_frame s (wiped (faceTakesHeld s))
  unfold warmWiped
  split
  · exact hkept
  · rfl

/-- R216, R294: the Cellar is zeroed, but for the Balance cask where the ledger outlives the warm boot. -/
theorem warmWiped_get (s : State) (x : Nat) : Cellar.get (warmWiped s).mem x =
    if Config.ledgerOutlives && inBalance x then Cellar.get (ledgerBooked (ledgerBooked s .bankA) .bankB).mem x
    else Cellar.get [] x := by
  unfold warmWiped
  cases Config.ledgerOutlives
  · rw [if_neg (by simp), Bool.false_and, if_neg (by simp)]
    rfl
  · rw [if_pos rfl, Bool.true_and, ledgerKept_get]

/-- R294: how the latest settle went is known of a kept ledger alone. -/
theorem warmWiped_skipped (s : State) (b : Bank) :
    (getBank (warmWiped s) b).led.skipped = (Config.ledgerOutlives && (getBank s b).led.skipped) := by
  unfold warmWiped
  cases Config.ledgerOutlives
  · rw [if_neg (by simp), Bool.false_and]
    cases b <;> rfl
  · rw [if_pos rfl, Bool.true_and, ledgerKept_skipped, skips]

theorem tornCounter_bak (s : State) : (tornCounter s).bak = s.bak := by
  unfold tornCounter
  split
  · split <;> rfl
  · rfl

/-- R490: a warm boot cuts a counter write, and keeps the rest of the non-volatile state. -/
theorem warmWiped_nv (s : State) : (warmWiped s).nv.kApp = s.nv.kApp ∧ (warmWiped s).nv.kSup = s.nv.kSup ∧
    (warmWiped s).nv.uid = s.nv.uid ∧ (s.auth.accepted = none → (warmWiped s).nv = s.nv) := by
  have htorn : (warmWiped s).nv = (tornCounter (faceTakesHeld s)).nv := by rw [warmWiped_frame]; rfl
  have hface : (faceTakesHeld s).nv = s.nv := by rw [faceTakesHeld_frame]
  have hauth : (faceTakesHeld s).auth = s.auth := by rw [faceTakesHeld_frame]
  obtain ⟨hkApp, hkSup, huid⟩ := tornCounter_keys (faceTakesHeld s)
  rw [htorn, ← hface]
  exact ⟨hkApp, hkSup, huid, fun h => tornCounter_nv (by rw [hauth, h])⟩

/-- R511: the backup domain is not reinitialised. -/
theorem warmWiped_bak (s : State) : (warmWiped s).bak = s.bak := by
  have htorn : (warmWiped s).bak = (tornCounter (faceTakesHeld s)).bak := by rw [warmWiped_frame]; rfl
  rw [htorn, tornCounter_bak, faceTakesHeld_frame]

/-- R76: the glass is down, and a reset waits that no expiry reaction holds up. -/
theorem exec_warmBootStart {s : State} (hq : banksQuiet s = true)
    (h : s.pw.rst = .pin ∨ (s.pw.rst = .soft ∧ s.clk.expiring = false)) :
    exec .warmBootStart s = .next (warmBoot s (if s.pw.rst = .pin then 1 else 2)) := by
  show Host.Outcome.next (warmStarts s) = _
  rcases h with hr | ⟨hr, he⟩
  · simp [warmStarts, hq, hr]
  · simp [warmStarts, hq, hr, he]

/-- R65, R67, R76, R168, R404, R493: the warm boot sets the modes, the clocks, the island's parts, the pack's presence
and the lockout; the rest is the reinitialised machine's. -/
theorem warmBoot_frame (s : State) (cause : Nat) : warmBoot s cause = { warmWiped s with
    pw := (warmBoot s cause).pw, clk := (warmBoot s cause).clk, aon := (warmBoot s cause).aon
    batB := (warmBoot s cause).batB, pack := (warmBoot s cause).pack, auth := (warmBoot s cause).auth } := rfl

/-- R89: an accepted CORK that meets RESET# is discarded. -/
theorem exec_cork_underReset {s : State} {a : Accepted} (ha : s.auth.accepted = some a) (hv : s.auth.verify = none)
    (hr : s.pw.rst = .pin) : exec .cork s = .next s := by
  show Host.Outcome.next (effect s .cork _) = _
  simp [effect, authVerdict, ha, hv, hr]

/-! ### The statement -/

/-- Settles O13: a reset clears the requests and holds the lamps off, and the warm boot leaves what the reinitialised
machine with the always-on island holds. -/
theorem resetsLeadToAWarmBoot : Obligations.ResetsLeadToAWarmBoot := by
  unfold Obligations.ResetsLeadToAWarmBoot
  refine ⟨?soft, ?pin, fun a s => exec_cork_underReset, ?warm⟩
  case soft =>
    intro p e w s h h0 hk hmay ht hfd
    have hallow : ¬((gen1Empty s p 3).pw.trans ≠ .idle ∨
        ((gen1Empty s p 3).roles.fdon ∧ (gen1Empty s p 3).pw.mode = .run)) := by
      rw [gen1Empty_pw, gen1Empty_roles]
      exact fun hno => hno.elim (fun hne => hne ht) fun ⟨hfdon, hrun⟩ => hfd hfdon hrun
    rw [exec_softwareReset, gate_reach h, sysctlWrite_reset h0 hk (by rw [mayReset_gen1Empty, hmay]), if_neg hallow]
    have hoff := lampsSettle_unpowered
      (s := { gen1Empty s p 3 with pw := { (setExpert (gen1Empty s p 3) w).pw with rst := .soft } })
      (by simp [lampsAllowed, lampsHeld])
    have hframe := lampsSettle_frame
      { gen1Empty s p 3 with pw := { (setExpert (gen1Empty s p 3) w).pw with rst := .soft } }
    refine ⟨_, rfl, ?_⟩
    generalize lampsSettle _ = u at hoff hframe ⊢
    obtain ⟨x, y, hdown, hxr, -, hyr, -⟩ := banksDown_requestless u
    rw [hdown]
    refine ⟨?_, hoff, hxr, hyr⟩
    rw [hframe]
    simp [setExpert]
  case pin =>
    intro s hoff hcork
    have hframe := resetSettled_frame s
    have hlamps := resetSettled_unpowered s
    have hcleared (b : Bank) : (getBank (resetSettled s) b).drv = noRequest (getBank s b).drv := by
      rw [hframe]; cases b <;> rfl
    rw [exec_resetPin hoff hcork]
    generalize ht : bankEmergency (bankEmergency (resetSettled s) .bankA) .bankB = t
    obtain ⟨hpw, hlamp, hbanks⟩ := bankEmergency_both ht fun b => by rw [hcleared b]; exact ⟨rfl, rfl, rfl⟩
    simp only [hcleared] at hbanks
    obtain ⟨hreqA, hgroundA⟩ := hbanks .bankA
    obtain ⟨hreqB, hgroundB⟩ := hbanks .bankB
    refine ⟨t, rfl, ?_, fun n => ?_, hreqA, hreqB, hgroundA, hgroundB⟩
    · rw [hpw, hframe]; rfl
    · rw [getLamp_congr hlamp, hlamps]
  case warm =>
    intro s hq hrst
    obtain ⟨hkApp, hkSup, huid, hnv⟩ := warmWiped_nv s
    have hframe := warmBoot_frame s (if s.pw.rst = .pin then 1 else 2)
    have hirq : (warmWiped s).irqStat = 0 := by rw [warmWiped_frame]; rfl
    have hskip (b : Bank) : (getBank (warmBoot s (if s.pw.rst = .pin then 1 else 2)) b).led.skipped =
        (Config.ledgerOutlives && (getBank s b).led.skipped) := by
      rw [← warmWiped_skipped, hframe]
      cases b <;> rfl
    exact ⟨_, exec_warmBootStart hq hrst, rfl, rfl, rfl, rfl, warmWiped_get s, hskip, rfl, hirq, rfl, warmWiped_bak s,
      rfl, hkApp, hkSup, huid, hnv, rfl, rfl, rfl, rfl, rfl, rfl, rfl, rfl⟩

end Sys2Proof.Machine
end

section
/-! What the units leave alone of the ports' traffic (R108, R115, R219, R350): the write buffers, the write-back
queue, the key FIFO and Port S's window as one value, and the operations that keep it. A read of the Cellar may queue a
write-back, but only into a free place, so it keeps whether that queue is within its four entries. -/

namespace Sys2Proof.Machine

open Sys2Proof

/-! ### The traffic as one value -/

/-- The queues that the spec gives a depth, and where Port S's window stands: the write buffers of both ports, whether
the write-back queue is within its four entries, the key FIFO, and Port S's window address with its AINC. -/
structure Traffic where
  bufP : List BufEntry
  bufS : List BufEntry
  wbFits : Bool
  fifo : List Word
  waddrS : CAddr
  aincS : Bool

/-- The traffic of a machine. -/
def traffic (s : State) : Traffic :=
  ⟨s.portP.buf, s.portS.buf, decide (s.arb.wbQ.length ≤ 4), s.keys.fifo, s.portS.waddr, s.portS.ainc⟩

/-- Queues within their depths (R115, R219, R350). -/
def Traffic.fit (q : Traffic) : Prop :=
  q.bufP.length ≤ 32 ∧ q.bufS.length ≤ 32 ∧ q.wbFits = true ∧
    (q.fifo.length ≤ 15 ∨ (q.fifo.length = 16 ∧ hasMarker q.fifo = true))

theorem queueBounds_iff (s : State) : queueBounds s ↔ (traffic s).fit := by simp [queueBounds, Traffic.fit, traffic]

/-! `traffic_mk` reads the traffic off a state written out, and `traffic_fold` reads it back as that of the state from
which its parts come; they are no `rfl` lemmas to `simp`, which can then use them below `Traffic.fit`. -/

@[simp] theorem traffic_mk (now freeCtr : Nat) (pw : Power) (clk : Clock) (irqStat : Word) (err : ErrRec)
    (portP portS : PortSt) (spi : SpiResp) (roles : Roles) (scratch : Word) (bankA bankB : BankSt) (disp : Display)
    (keys : Keys) (lamps : Lamps) (batA : BatA) (batB : BatB) (estA estB : Est) (pack : Pack) (auth : Auth) (nv : Nv)
    (aon : Aon) (bak : Backup) (arb : Arb) (tap : Tap) (mem : List Host.Cell) (pending : List Instr) :
    traffic ⟨now, freeCtr, pw, clk, irqStat, err, portP, portS, spi, roles, scratch, bankA, bankB, disp, keys, lamps,
      batA, batB, estA, estB, pack, auth, nv, aon, bak, arb, tap, mem, pending⟩ =
      ⟨portP.buf, portS.buf, decide (arb.wbQ.length ≤ 4), keys.fifo, portS.waddr, portS.ainc⟩ := (rfl)

@[simp] theorem traffic_fold (s : State) :
    Traffic.mk s.portP.buf s.portS.buf (decide (s.arb.wbQ.length ≤ 4)) s.keys.fifo s.portS.waddr s.portS.ainc =
      traffic s := (rfl)

@[simp] theorem traffic_ite (c : Prop) [Decidable c] (s t : State) :
    traffic (if c then s else t) = if c then traffic s else traffic t := apply_ite traffic c s t

@[simp] theorem traffic_foldl {α : Type} {f : State → α → State} (hf : ∀ s a, traffic (f s a) = traffic s) (l : List α)
    (s : State) : traffic (l.foldl f s) = traffic s := by
  induction l generalizing s with
  | nil => rfl
  | cons a l ih => exact (ih _).trans (hf s a)

/-- A change of a port that leaves its write buffer and its window leaves the traffic. -/
@[simp] theorem traffic_setPort {s : State} {p : Port} {x : PortSt} (hbuf : x.buf = (getPort s p).buf)
    (hwaddr : x.waddr = (getPort s p).waddr) (hainc : x.ainc = (getPort s p).ainc) :
    traffic (setPort s p x) = traffic s := by
  cases p <;> simp only [getPort] at hbuf hwaddr hainc <;> simp [setPort, hbuf, hwaddr, hainc]

@[simp] theorem traffic_setBank (s : State) (b : Bank) (x : BankSt) : traffic (setBank s b x) = traffic s := by
  cases b <;> rfl

/-! ### Flags and records -/

@[simp] theorem traffic_setIrq (s : State) (i : Nat) : traffic (setIrq s i) = traffic s := by simp [setIrq]

@[simp] theorem traffic_setIrqIf (c : Bool) (s : State) (i : Nat) : traffic (setIrqIf c s i) = traffic s := by
  simp [setIrqIf]

@[simp] theorem traffic_record (s : State) (code : Byte) (src : Option Port) (ahi : BitVec 4) (cell : Bool)
    (info : Word) :
    traffic (record s code src ahi cell info) = traffic s := by simp [record]

@[simp] theorem traffic_recordInfo (s : State) (code : Byte) (src : Option Port) (info : Nat) :
    traffic (recordInfo s code src info) = traffic s := by simp [recordInfo]

@[simp] theorem traffic_recordCell (s : State) (code : Byte) (src : Option Port) (a : Nat) :
    traffic (recordCell s code src a) = traffic s := by simp [recordCell]

@[simp] theorem traffic_clearIrq (s : State) (v : Word) : traffic (clearIrq s v) = traffic s := by simp [clearIrq]

/-! ### Ports and the gate -/

@[simp] theorem traffic_setDrv (s : State) (b : Bank) (d : Drive) : traffic (setDrv s b d) = traffic s := by
  simp [setDrv]

@[simp] theorem traffic_setLed (s : State) (b : Bank) (l : Ledger) : traffic (setLed s b l) = traffic s := by
  simp [setLed]

@[simp] theorem traffic_setTrim (s : State) (b : Bank) (t : Trim) : traffic (setTrim s b t) = traffic s := by
  simp [setTrim]

@[simp] theorem traffic_setThr (s : State) (b : Bank) (t : Thread) : traffic (setThr s b t) = traffic s := by
  simp [setThr]

@[simp] theorem traffic_setCrack (s : State) (b : Bank) (c : Crack) : traffic (setCrack s b c) = traffic s := by
  simp [setCrack]

@[simp] theorem traffic_refuse (s : State) (p : Port) (code : Byte) (off : Nat) :
    traffic (refuse s p code off) = traffic s := by simp [refuse]

@[simp] theorem traffic_refuseCell (s : State) (p : Port) (code : Byte) (a : Nat) :
    traffic (refuseCell s p code a) = traffic s := by simp [refuseCell]

@[simp] theorem traffic_startWake (s : State) : traffic (startWake s) = traffic s := by simp [startWake]

@[simp] theorem traffic_gen1Ale (s : State) (p : Port) (ad : Byte) : traffic (gen1Ale s p ad) = traffic s := by
  simp [gen1Ale]

@[simp] theorem traffic_gen1Spent (s : State) (p : Port) (a : Fin 64) : traffic (gen1Spent s p a) = traffic s := by
  simp [gen1Spent]

@[simp] theorem traffic_bootFace (s : State) (p : Port) (a : Fin 64) (v : Word) :
    traffic (bootFace s p a v) = traffic s := by simp [bootFace]

@[simp] theorem traffic_gen1Empty (s : State) (p : Port) (a : Fin 64) : traffic (gen1Empty s p a) = traffic s := by
  simp [gen1Empty]

/-- A register write keeps of the traffic what its register's rule keeps of them. -/
theorem gate_keeps {P : Traffic → Prop} {s : State} {body : State → Word → State} (p : Port) (a : Fin 64) (v : Word)
    (hs : P (traffic s)) (hbody : ∀ t w, P (traffic t) → P (traffic (body t w))) : P (traffic (gate s p a v body)) := by
  unfold gate
  split_ifs
  · exact hs
  · rwa [traffic_bootFace]
  · rwa [traffic_gen1Spent]
  · split
    · rwa [traffic_refuse, traffic_gen1Ale]
    · dsimp only
      split_ifs
      · rwa [traffic_refuse, traffic_gen1Empty]
      · exact hbody _ _ (by rwa [traffic_gen1Empty])

@[simp] theorem traffic_gate {body : State → Word → State} (hbody : ∀ t w, traffic (body t w) = traffic t) (s : State)
    (p : Port) (a : Fin 64) (v : Word) : traffic (gate s p a v body) = traffic s :=
  gate_keeps (P := (· = traffic s)) p a v rfl fun t w ht => (hbody t w).trans ht

@[simp] theorem traffic_readDone (s : State) (p : Port) (a : Fin 64) (v : Word) :
    traffic (readDone s p a v) = traffic s := by simp [readDone]

@[simp] theorem traffic_faceTakesHeld (s : State) : traffic (faceTakesHeld s) = traffic s := by
  unfold faceTakesHeld
  dsimp only
  split <;> simp

/-- A register read keeps of the traffic what its register's rule keeps of them. -/
theorem readGate_keeps {P : Traffic → Prop} {s : State} {body : State → Word × State} (p : Port) (a : Fin 64)
    (hs : P (traffic s)) (hbody : P (traffic (body s).2)) : P (traffic (readGate s p a body)) := by
  unfold readGate
  split_ifs
  · exact hs
  · rwa [traffic_readDone]
  · rwa [traffic_readDone]

@[simp] theorem traffic_readGate {body : State → Word × State} (hbody : ∀ t, traffic (body t).2 = traffic t) (s : State)
    (p : Port) (a : Fin 64) : traffic (readGate s p a body) = traffic s :=
  readGate_keeps (P := (· = traffic s)) p a rfl (hbody s)

/-- A write of Port S keeps of the traffic what the write itself keeps of them. -/
theorem answered_keeps {P : Traffic → Prop} {s : State} {act : State → State} (a : Fin 64) (v : Word)
    (hs : P (traffic s)) (hact : ∀ t, P (traffic t) → P (traffic (act t))) : P (traffic (answered s a v act)) := by
  unfold answered
  split
  · exact hact s hs
  · exact hact { s with err := { s.err with src := probeSrc } } hs

@[simp] theorem traffic_answered {act : State → State} (hact : ∀ t, traffic (act t) = traffic t) (s : State)
    (a : Fin 64) (v : Word) : traffic (answered s a v act) = traffic s :=
  answered_keeps (P := (· = traffic s)) a v rfl fun t ht => (hact t).trans ht

/-! ### The Cellar and its arbiter -/

@[simp] theorem traffic_eccWritten (s : State) (w : Nat) : traffic (eccWritten s w) = traffic s := by simp [eccWritten]

@[simp] theorem traffic_upset (s : State) (y : Upset) : traffic (upset s y) = traffic s := by
  unfold upset
  split <;> simp [eccPut]

@[simp] theorem traffic_upsets (s : State) (l : List Upset) : traffic (upsets s l) = traffic s := by simp [upsets]

/-- R219: a write-back is queued only where there is a place for it. -/
@[simp] theorem traffic_detectCe (s : State) (w : Nat) : traffic (detectCe s w) = traffic s := by
  have hplace (c : CAddr) :
      (if s.arb.wbQ.contains c || decide (4 ≤ s.arb.wbQ.length) then s.arb.wbQ else s.arb.wbQ ++ [c]).length ≤ 4 ↔
        s.arb.wbQ.length ≤ 4 := by
    split
    · rfl
    · next h =>
      simp only [Bool.or_eq_true, decide_eq_true_eq, not_or] at h
      simp only [List.length_append, List.length_singleton]
      omega
  exact congrArg (fun b => Traffic.mk s.portP.buf s.portS.buf b s.keys.fifo s.portS.waddr s.portS.ainc)
    (decide_eq_decide.mpr (hplace _))

@[simp] theorem traffic_detectUe (s : State) (w : Nat) : traffic (detectUe s w) = traffic s := by simp [detectUe]

@[simp] theorem traffic_eccRead (s : State) (w : Nat) : traffic (eccRead s w) = traffic s := by
  unfold eccRead
  split <;> simp

@[simp] theorem traffic_eccReadN (s : State) (w n : Nat) : traffic (eccReadN s w n) = traffic s := by
  induction n generalizing s w with
  | zero => rfl
  | succ n ih => simp [eccReadN, ih]

@[simp] theorem traffic_storeWord (s : State) (a : Nat) (v : Word) : traffic (storeWord s a v) = traffic s := by
  simp [storeWord]

@[simp] theorem traffic_storeEcc (s : State) (w n v : Nat) : traffic (storeEcc s w n v) = traffic s := by
  induction n generalizing s w v with
  | zero => rfl
  | succ n ih => exact (ih _ _ _).trans (traffic_eccWritten s w)

@[simp] theorem traffic_storeLine (s : State) (a : Nat) (v : BitVec 128) : traffic (storeLine s a v) = traffic s := by
  simp [storeLine]

@[simp] theorem traffic_grantL1 (s : State) (p : Port) : traffic (grantL1 s p) = traffic s := by
  unfold grantL1
  split <;> simp

@[simp] theorem traffic_grantLow (s : State) (lvl n : Nat) : traffic (grantLow s lvl n) = traffic s := by
  simp [grantLow]

@[simp] theorem traffic_grantAhead (s : State) (lvl : Nat) : traffic (grantAhead s lvl) = traffic s := by
  simp [grantAhead]

@[simp] theorem traffic_grantWork (s : State) (lvl n : Nat) (first : Bool) :
    traffic (grantWork s lvl n first) = traffic s := by simp [grantWork, grantRest]

@[simp] theorem traffic_burstsFirst (own : Grant) (n : Nat) (s : State) :
    traffic (burstsFirst own n s) = traffic s := by
  induction n generalizing s with
  | zero => rfl
  | succ n ih =>
    unfold burstsFirst
    split
    · split
      · simp [ih]
      · rfl
    · rfl

theorem traffic_arbServe {s t : State} {own : Grant} (h : arbServe s own = some t) : traffic t = traffic s := by
  unfold arbServe at h
  dsimp only at h
  split at h
  · cases h
    exact traffic_burstsFirst own 32 s
  · cases h

/-- A row that the arbiter serves keeps of the traffic what its work keeps of them. -/
theorem granted_keeps {P : Traffic → Prop} {s : State} {act : State → State} (own : Grant) (hs : P (traffic s))
    (hact : ∀ t, P (traffic t) → P (traffic (act t))) : P (traffic (granted s own act)) := by
  cases h : arbServe s own with
  | none => rwa [granted_not h]
  | some t =>
    rw [granted_of h]
    exact hact t (by rwa [traffic_arbServe h])

@[simp] theorem traffic_granted {act : State → State} (hact : ∀ t, traffic (act t) = traffic t) (s : State)
    (own : Grant) : traffic (granted s own act) = traffic s :=
  granted_keeps (P := (· = traffic s)) own rfl fun t ht => (hact t).trans ht

/-! ### Lamps -/

@[simp] theorem traffic_setLamp (s : State) (n : Fin 8) (c : Lamp) : traffic (setLamp s n c) = traffic s := by
  simp [setLamp]

@[simp] theorem traffic_setCluster (s : State) (c : Fin 2) (x : Cluster) : traffic (setCluster s c x) = traffic s := by
  simp [setCluster]

@[simp] theorem traffic_switchOn (s : State) (n : Fin 8) : traffic (switchOn s n) = traffic s := by simp [switchOn]

@[simp] theorem traffic_followReq (s : State) (n : Fin 8) : traffic (followReq s n) = traffic s := by
  unfold followReq
  split <;> simp [switchOff]

@[simp] theorem traffic_lampsSettle (s : State) : traffic (lampsSettle s) = traffic s := by
  simp [lampsSettle, flasherFollow]

@[simp] theorem traffic_latchCause (s : State) (n : Fin 8) (i : Nat) : traffic (latchCause s n i) = traffic s := by
  simp [latchCause]

@[simp] theorem traffic_lampTrip (s : State) (n : Fin 8) (cause : Nat) : traffic (lampTrip s n cause) = traffic s := by
  simp [lampTrip]

@[simp] theorem traffic_secondTrip (s : State) (n : Fin 8) (cause : Nat) :
    traffic (secondTrip s n cause) = traffic s := by simp [secondTrip]

@[simp] theorem traffic_tryRetry (s : State) (n : Fin 8) : traffic (tryRetry s n) = traffic s := by simp [tryRetry]

@[simp] theorem traffic_periodStart (s : State) (n : Fin 8) : traffic (periodStart s n) = traffic s := by
  simp [periodStart]

@[simp] theorem traffic_takeGrid (s : State) (n : Fin 8) : traffic (takeGrid s n) = traffic s := by simp [takeGrid]

@[simp] theorem traffic_pwmBoundary (s : State) (n : Fin 8) : traffic (pwmBoundary s n) = traffic s := by
  simp [pwmBoundary]

@[simp] theorem traffic_pwmOnEnd (s : State) (n : Fin 8) (ion : Word) : traffic (pwmOnEnd s n ion) = traffic s := by
  simp [pwmOnEnd]

@[simp] theorem traffic_inrushEnds (s : State) (n : Fin 8) : traffic (inrushEnds s n) = traffic s := by
  simp [inrushEnds, eachMate]

@[simp] theorem traffic_shortArises (s : State) (n : Fin 8) (e : Nat) (applies : LampMode → Bool) :
    traffic (shortArises s n e applies) = traffic s := by
  unfold shortArises
  split <;> simp [shortEnergy]

@[simp] theorem traffic_absoluteShort (s : State) (n : Fin 8) (e : Nat) :
    traffic (absoluteShort s n e) = traffic s := by simp [absoluteShort]

@[simp] theorem traffic_desaturation (s : State) (n : Fin 8) (e : Nat) : traffic (desaturation s n e) = traffic s := by
  simp [desaturation]

@[simp] theorem traffic_overload (s : State) (n : Fin 8) (e : Nat) : traffic (overload s n e) = traffic s := by
  simp [overload]

@[simp] theorem traffic_overtemp (s : State) (n : Fin 8) : traffic (overtemp s n) = traffic s := by simp [overtemp]

@[simp] theorem traffic_overtempRelease (s : State) (n : Fin 8) : traffic (overtempRelease s n) = traffic s := by
  simp [overtempRelease]

@[simp] theorem traffic_retryDueAt (s : State) (n : Fin 8) : traffic (retryDueAt s n) = traffic s := by
  simp [retryDueAt]

@[simp] theorem traffic_retryReloads (s : State) (n : Fin 8) : traffic (retryReloads s n) = traffic s := by
  simp [retryReloads]

@[simp] theorem traffic_openOn (s : State) (n : Fin 8) : traffic (openOn s n) = traffic s := by simp [openOn]

@[simp] theorem traffic_openOff (s : State) (n : Fin 8) : traffic (openOff s n) = traffic s := by simp [openOff]

@[simp] theorem traffic_stuckHigh (s : State) (n : Fin 8) : traffic (stuckHigh s n) = traffic s := by simp [stuckHigh]

@[simp] theorem traffic_senseBad (s : State) (n : Fin 8) : traffic (senseBad s n) = traffic s := by simp [senseBad]

@[simp] theorem traffic_gangDerate (s : State) (k : Fin 4) (odd : Bool) (onMa : Nat) :
    traffic (gangDerate s k odd onMa) = traffic s := by simp [gangDerate]

@[simp] theorem traffic_derateStep (s : State) (k : Fin 2) : traffic (derateStep s k) = traffic s := by
  unfold derateStep
  dsimp only
  split <;> simp

@[simp] theorem traffic_clusterTick (s : State) (k : Fin 2) (e : Vector Nat 8) (t : Word) :
    traffic (clusterTick s k e t) = traffic s := by simp [clusterTick]

@[simp] theorem traffic_budgetTick (s : State) (e : Vector Nat 8) (t0 t1 : Word) (ion : Vector Word 8) :
    traffic (budgetTick s e t0 t1 ion) = traffic s := by simp [budgetTick, inrushMarks]

@[simp] theorem traffic_flasherOn (s : State) : traffic (flasherOn s) = traffic s := by simp [flasherOn]

@[simp] theorem traffic_flasherOff (s : State) (low : Byte) : traffic (flasherOff s low) = traffic s := by
  simp [flasherOff]

@[simp] theorem traffic_fullyOn (s : State) : traffic (fullyOn s) = traffic s := by simp [fullyOn]

@[simp] theorem traffic_lctlWrite (s : State) (p : Port) (v : Word) : traffic (lctlWrite s p v) = traffic s := by
  simp [lctlWrite]

@[simp] theorem traffic_lselWrite (s : State) (p : Port) (v : Word) : traffic (lselWrite s p v) = traffic s := by
  simp [lselWrite]

@[simp] theorem traffic_lparamWrite (s : State) (p : Port) (v : Word) : traffic (lparamWrite s p v) = traffic s := by
  unfold lparamWrite
  dsimp only
  (repeat' split) <;> simp

@[simp] theorem traffic_lfaultWrite (s : State) (v : Word) (kept : List (Fin 8)) :
    traffic (lfaultWrite s v kept) = traffic s := by simp [lfaultWrite, clearFault]

@[simp] theorem traffic_causeArises (s : State) (c : LampCause) : traffic (causeArises s c) = traffic s := by
  unfold causeArises
  split <;> simp

/-! ### The ledger -/

@[simp] theorem traffic_rmwLine (s : State) (b : Bank) (c : Nat) (f : Nat → BitVec 32 → BitVec 32) :
    traffic (rmwLine s b c f) = traffic s := by simp [rmwLine, rmwPair]

@[simp] theorem traffic_clearWords (s : State) (b : Bank) : traffic (clearWords s b) = traffic s := by simp [clearWords]

@[simp] theorem traffic_passEnds (s : State) (b : Bank) : traffic (passEnds s b) = traffic s := by
  unfold passEnds
  dsimp only
  split <;> simp [setPeak]

@[simp] theorem traffic_markUnused (s : State) (b : Bank) (old new : Nat) :
    traffic (markUnused s b old new) = traffic s := by simp [markUnused]

@[simp] theorem traffic_passBegins (s : State) (b : Bank) (boundary : Bool) :
    traffic (passBegins s b boundary) = traffic s := by simp [passBegins]

@[simp] theorem traffic_planSettle (s : State) (b : Bank) (k : Nat) (rs : List SlotRec) :
    traffic (planSettle s b k rs) = traffic s := by simp [planSettle]

/-! ### Layers -/

@[simp] theorem traffic_commitPlaced (s : State) (b : Bank) (v : Word) : traffic (commitPlaced s b v) = traffic s := by
  simp [commitPlaced]

@[simp] theorem traffic_heldPlaced (s : State) (b : Bank) : traffic (heldPlaced s b) = traffic s := by simp [heldPlaced]

@[simp] theorem traffic_commitEffect (s : State) (v : Word) : traffic (commitEffect s v) = traffic s := by
  simp [commitEffect, commitBank]

@[simp] theorem traffic_intoIdle (s : State) (b : Bank) (l i : Nat) (v : BitVec 128) :
    traffic (intoIdle s b l i v) = traffic s := by simp [intoIdle]

@[simp] theorem traffic_dlayerWrite (s : State) (p : Port) (v : Word) : traffic (dlayerWrite s p v) = traffic s := by
  simp [dlayerWrite]

@[simp] theorem traffic_dblinkWrite (s : State) (v : Word) : traffic (dblinkWrite s v) = traffic s := by
  simp [dblinkWrite]

/-! ### The animation engine -/

@[simp] theorem traffic_animRead (s : State) (o n : Nat) : traffic (animRead s o n).2 = traffic s := by simp [animRead]

@[simp] theorem traffic_animPut (s : State) (b : Bank) (c : Nat) (anew : Bool) (m v : BitVec 128) :
    traffic (animPut s b c anew m v) = traffic s := by simp [animPut]

@[simp] theorem traffic_animFault (s : State) (b : Bank) (code : Nat) : traffic (animFault s b code) = traffic s := by
  simp [animFault]

@[simp] theorem traffic_barRender (s : State) (b : Bank) (i : Nat) : traffic (barRender s b i) = traffic s := by
  unfold barRender
  split <;> simp [barDraw]

@[simp] theorem traffic_animResume (s : State) (b : Bank) (old : Vector BlinkSt 4) :
    traffic (animResume s b old) = traffic s := by
  unfold animResume
  dsimp only
  (repeat' split) <;> simp

@[simp] theorem traffic_animOne {body : State → BitVec 64 → State} (hbody : ∀ t w, traffic (body t w) = traffic t)
    (s : State) (b : Bank) (lo n : Nat) : traffic (animOne s b lo n body) = traffic s := by
  simp [animOne, hbody]

@[simp] theorem traffic_animGo (s : State) (b : Bank) (pc : BitVec 17) : traffic (animGo s b pc) = traffic s := by
  simp [animGo]

@[simp] theorem traffic_animNext (s : State) (b : Bank) : traffic (animNext s b) = traffic s := by simp [animNext]

@[simp] theorem traffic_animTarget (s : State) (b : Bank) (w : BitVec 64) : traffic (animTarget s b w) = traffic s := by
  simp [animTarget]

@[simp] theorem traffic_animLimit (s : State) (b : Bank) : traffic (animLimit s b) = traffic s := by simp [animLimit]

@[simp] theorem traffic_animInstr (s : State) (b : Bank) (y : Nat) : traffic (animInstr s b y) = traffic s := by
  unfold animInstr
  split <;> simp [doEnd, doCopy, doFill, doWait, doLoop, doSync, doBar]

@[simp] theorem traffic_animRun (s : State) (b : Bank) (ups : List Upset) (op : Nat) :
    traffic (animRun s b ups op) = traffic s := by simp [animRun]

/-! ### Time and wake -/

@[simp] theorem traffic_latchWake (s : State) (i : Nat) : traffic (latchWake s i) = traffic s := by simp [latchWake]

@[simp] theorem traffic_declareMiss (s : State) : traffic (declareMiss s) = traffic s := by simp [declareMiss]

@[simp] theorem traffic_wakeEvent (s : State) (i : Nat) : traffic (wakeEvent s i) = traffic s := by
  simp [wakeEvent, abandonSleep]

@[simp] theorem traffic_setWakeLevel (s : State) (i : WakeIn) (l : Bool) :
    traffic (setWakeLevel s i l) = traffic s := by
  unfold setWakeLevel
  split <;> simp

@[simp] theorem traffic_wakeInput (s : State) (i : WakeIn) (l : Bool) : traffic (wakeInput s i l) = traffic s := by
  simp [wakeInput]

@[simp] theorem traffic_wakeEdge (s : State) (i : WakeIn) : traffic (wakeEdge s i) = traffic s := by simp [wakeEdge]

@[simp] theorem traffic_startSecond (s : State) (sec : BitVec 32) (cal : Bool) :
    traffic (startSecond s sec cal) = traffic s := by simp [startSecond]

@[simp] theorem traffic_backupFollow (s : State) : traffic (backupFollow s) = traffic s := by simp [backupFollow]

@[simp] theorem traffic_substituted (s : State) : traffic (substituted s) = traffic s := by simp [substituted]

@[simp] theorem traffic_rtcSecond (s : State) : traffic (rtcSecond s) = traffic s := by simp [rtcSecond]

@[simp] theorem traffic_aonEdge (s : State) : traffic (aonEdge s) = traffic s := by simp [aonEdge]

@[simp] theorem traffic_alarmFires (s : State) : traffic (alarmFires s) = traffic s := by simp [alarmFires]

@[simp] theorem traffic_backupSecond (s : State) : traffic (backupSecond s) = traffic s := by simp [backupSecond]

@[simp] theorem traffic_vbkupLoss (s : State) : traffic (vbkupLoss s) = traffic s := by simp [vbkupLoss]

@[simp] theorem traffic_vbkupReturn (s : State) : traffic (vbkupReturn s) = traffic s := by simp [vbkupReturn]

@[simp] theorem traffic_vlowTrips (s : State) : traffic (vlowTrips s) = traffic s := by simp [vlowTrips]

@[simp] theorem traffic_vlowReleases (s : State) : traffic (vlowReleases s) = traffic s := by simp [vlowReleases]

@[simp] theorem traffic_vlowLatches (s : State) : traffic (vlowLatches s) = traffic s := by simp [vlowLatches]

@[simp] theorem traffic_aonPush (s : State) (w : AonWrite) : traffic (aonPush s w) = traffic s := by simp [aonPush]

@[simp] theorem traffic_rtcLWrite (s : State) (p : Port) (v : Word) : traffic (rtcLWrite s p v) = traffic s := by
  simp [rtcLWrite]

@[simp] theorem traffic_rtcHWrite (s : State) (p : Port) (v : Word) : traffic (rtcHWrite s p v) = traffic s := by
  unfold rtcHWrite
  split <;> simp

@[simp] theorem traffic_rtcAlmWrite (s : State) (v : Word) : traffic (rtcAlmWrite s v) = traffic s := by
  simp [rtcAlmWrite]

@[simp] theorem traffic_wakectlWrite (s : State) (v : Word) : traffic (wakectlWrite s v) = traffic s := by
  simp [wakectlWrite]

@[simp] theorem traffic_wakestatWrite (s : State) (v : Word) : traffic (wakestatWrite s v) = traffic s := by
  simp [wakestatWrite]

@[simp] theorem traffic_aonArrive (s : State) : traffic (aonArrive s) = traffic s := by
  unfold aonArrive
  (repeat' split) <;> simp

@[simp] theorem traffic_rtcLReadOp (s : State) (p : Port) : traffic (rtcLReadOp s p).2 = traffic s := by
  simp [rtcLReadOp]

@[simp] theorem traffic_tempUpdate (s : State) (t : Word) : traffic (tempUpdate s t) = traffic s := by simp [tempUpdate]

/-! ### Segment drive -/

@[simp] theorem traffic_trimArrived (s : State) (b : Bank) : traffic (trimArrived s b) = traffic s := by
  simp [trimArrived]

@[simp] theorem traffic_trimRetarget (s : State) (b : Bank) : traffic (trimRetarget s b) = traffic s := by
  simp [trimRetarget]

@[simp] theorem traffic_trimStep (s : State) (b : Bank) : traffic (trimStep s b) = traffic s := by simp [trimStep]

@[simp] theorem traffic_tcBank (s : State) (b : Bank) : traffic (tcBank s b) = traffic s := by simp [tcBank]

@[simp] theorem traffic_dvlcdShow (s : State) (v : Word) : traffic (dvlcdShow s v) = traffic s := by simp [dvlcdShow]

@[simp] theorem traffic_trimTakes (s : State) (b : Bank) (w : ℤ × Nat × Bool) (arms : Bool) :
    traffic (trimTakes s b w arms) = traffic s := by simp [trimTakes]

@[simp] theorem traffic_dvlcdWrite (s : State) (v : Word) : traffic (dvlcdWrite s v) = traffic s := by
  simp [dvlcdWrite, dvlcdFields]

@[simp] theorem traffic_crackLearn (s : State) (b : Bank) : traffic (crackLearn s b) = traffic s := by simp [crackLearn]

@[simp] theorem traffic_l0Burst (s : State) (b : Bank) (q : Burst) : traffic (l0Burst s b q) = traffic s := by
  simp [l0Burst, burstWork, fetchReads, rackLayer]

@[simp] theorem traffic_burstRuns (s : State) (b : Bank) : traffic (burstRuns s b) = traffic s := by
  unfold burstRuns
  dsimp only
  split <;> simp

@[simp] theorem traffic_burstSettled (s : State) (b : Bank) : traffic (burstSettled s b) = traffic s := by
  unfold burstSettled
  dsimp only
  split <;> simp [linesReturned]

@[simp] theorem traffic_burstEdge (s : State) : traffic (burstEdge s) = traffic s := by simp [burstEdge]

@[simp] theorem traffic_keySlotGone (s : State) (b : Bank) : traffic (keySlotGone s b) = traffic s := by
  simp [keySlotGone]

@[simp] theorem traffic_enterGround (s : State) (b : Bank) (cut skip cap : Bool) :
    traffic (enterGround s b cut skip cap) = traffic s := by simp [enterGround]

@[simp] theorem traffic_enterBias (s : State) (b : Bank) : traffic (enterBias s b) = traffic s := by simp [enterBias]

@[simp] theorem traffic_bankUp (s : State) (b : Bank) : traffic (bankUp s b) = traffic s := by simp [bankUp]

@[simp] theorem traffic_enterOff (s : State) (b : Bank) : traffic (enterOff s b) = traffic s := by simp [enterOff]

@[simp] theorem traffic_enterRelease (s : State) (b : Bank) : traffic (enterRelease s b) = traffic s := by
  simp [enterRelease, settleSkipped]

@[simp] theorem traffic_noVlcd (s : State) (b : Bank) : traffic (noVlcd s b) = traffic s := by simp [noVlcd]

@[simp] theorem traffic_downAct (s : State) (b : Bank) (k : PendDown) : traffic (downAct s b k) = traffic s := by
  unfold downAct
  dsimp only
  split <;> simp

@[simp] theorem traffic_downEdge (s : State) (b : Bank) : traffic (downEdge s b) = traffic s := by simp [downEdge]

@[simp] theorem traffic_bankDown (s : State) (b : Bank) : traffic (bankDown s b) = traffic s := by simp [bankDown]

@[simp] theorem traffic_banksDown (s : State) : traffic (banksDown s) = traffic s := by simp [banksDown]

@[simp] theorem traffic_bankEmergency (s : State) (b : Bank) : traffic (bankEmergency s b) = traffic s := by
  simp [bankEmergency]

@[simp] theorem traffic_powerSet (s : State) (b : Bank) : traffic (powerSet s b) = traffic s := by
  unfold powerSet
  dsimp only
  split <;> simp

@[simp] theorem traffic_powerBit (s : State) (b : Bank) (v : Bool) : traffic (powerBit s b v) = traffic s := by
  simp [powerBit, powerClear]

@[simp] theorem traffic_dpwrWrite (s : State) (p : Port) (v : Word) : traffic (dpwrWrite s p v) = traffic s := by
  unfold dpwrWrite
  split <;> simp

@[simp] theorem traffic_dctlShow (s : State) (v : Word) : traffic (dctlShow s v) = traffic s := by simp [dctlShow]

@[simp] theorem traffic_dctlWrite (s : State) (p : Port) (v : Word) : traffic (dctlWrite s p v) = traffic s := by
  unfold dctlWrite
  split <;> simp [dctlFields]

@[simp] theorem traffic_crackMeasure (s : State) (b : Bank) (m : Nat) : traffic (crackMeasure s b m) = traffic s := by
  simp [crackMeasure]

@[simp] theorem traffic_dcrackWrite (s : State) (p : Port) (v : Word) : traffic (dcrackWrite s p v) = traffic s := by
  simp [dcrackWrite, crackEnable]

@[simp] theorem traffic_slotsStop (s : State) (b : Bank) (ckFrame : Bool) :
    traffic (slotsStop s b ckFrame) = traffic s := by simp [slotsStop]

@[simp] theorem traffic_waitsTaken (s : State) (b : Bank) : traffic (waitsTaken s b) = traffic s := by
  unfold waitsTaken
  dsimp only
  split <;> simp

@[simp] theorem traffic_reqTaken (s : State) (b : Bank) : traffic (reqTaken s b) = traffic s := by
  unfold reqTaken
  dsimp only
  split <;> simp

@[simp] theorem traffic_frameWork (s : State) (b : Bank) (first : Bool) (cut : Option Nat) :
    traffic (frameWork s b first cut) = traffic s := by
  simp [frameWork, lampFrame, lampLocked, layersBoundary, masksInForce, blinkBoundary, animBoundary, animCarry,
    planFrame, fallbackBoundary]

@[simp] theorem traffic_frameBoundary (s : State) (b : Bank) : traffic (frameBoundary s b) = traffic s := by
  simp [frameBoundary]

@[simp] theorem traffic_besideAfter (before : State) (bs : List Bank) (s : State) (w : Fin 64 × Word) :
    traffic (besideAfter before bs s w) = traffic s := by
  simp only [besideAfter]
  split <;> simp

@[simp] theorem traffic_powerOthers (s : State) (bs : List Bank) (v : Word) :
    traffic (powerOthers s bs v) = traffic s := by simp [powerOthers]

@[simp] theorem traffic_dpwrJudged (s : State) (wS wP : Word) : traffic (dpwrJudged s wS wP).1 = traffic s := by
  unfold dpwrJudged
  dsimp only
  (repeat' split) <;> simp

@[simp] theorem traffic_dpwrBoth (s : State) (wS wP : Word) : traffic (dpwrBoth s wS wP) = traffic s := by
  have h := traffic_dpwrJudged s wS wP
  unfold dpwrBoth
  split <;> next t _ heq => rw [heq] at h; simpa using h

@[simp] theorem traffic_dpwrBothWait (s : State) (bs : List Bank) (wS wP : Word) :
    traffic (dpwrBothWait s bs wS wP).1 = traffic s := by
  have h := traffic_dpwrJudged s wS wP
  unfold dpwrBothWait
  split <;> next t _ heq => rw [heq] at h; simpa using h

@[simp] theorem traffic_slotDrive (s : State) (b : Bank) : traffic (slotDrive s b) = traffic s := by
  unfold slotDrive
  dsimp only
  split <;> simp

@[simp] theorem traffic_slotBoundary (s : State) (b : Bank) (ups : List Upset) :
    traffic (slotBoundary s b ups) = traffic s := by simp [slotBoundary, linesTaken, burstDue, slotState, keySlotDue]

@[simp] theorem traffic_biasEnds (s : State) (b : Bank) : traffic (biasEnds s b) = traffic s := by
  simp [biasEnds, crackEntry]

@[simp] theorem traffic_flushEdge (s : State) : traffic (flushEdge s) = traffic s := by
  simp [flushEdge, flushBurst, recordFlushed]

@[simp] theorem traffic_dutyFlushEnds (s : State) (b : Bank) : traffic (dutyFlushEnds s b) = traffic s := by
  simp [dutyFlushEnds]

@[simp] theorem traffic_edgeWork (s : State) (y : BesideEdge) : traffic (edgeWork s y) = traffic s := by
  unfold edgeWork
  split <;> simp

@[simp] theorem traffic_besideBoundary (s : State) (es : List BesideEdge) (l : List (Fin 64 × Word)) :
    traffic (besideBoundary s es l) = traffic s := by
  simp [besideBoundary]

@[simp] theorem traffic_vgoodRise (s : State) (b : Bank) : traffic (vgoodRise s b) = traffic s := by simp [vgoodRise]

@[simp] theorem traffic_vgoodFall (s : State) (b : Bank) : traffic (vgoodFall s b) = traffic s := by
  unfold vgoodFall
  dsimp only
  (repeat' split) <;> simp

@[simp] theorem traffic_novlcdTimer (s : State) (b : Bank) : traffic (novlcdTimer s b) = traffic s := by
  unfold novlcdTimer
  dsimp only
  split <;> simp

@[simp] theorem traffic_vlcdLost (s : State) (b : Bank) : traffic (vlcdLost s b) = traffic s := by simp [vlcdLost]

@[simp] theorem traffic_groundingEnds (s : State) (b : Bank) : traffic (groundingEnds s b) = traffic s := by
  simp [groundingEnds]

@[simp] theorem traffic_releaseEnds (s : State) (b : Bank) : traffic (releaseEnds s b) = traffic s := by
  simp [releaseEnds]

/-! ### Battery channels -/

@[simp] theorem traffic_clearEstimate (s : State) : traffic (clearEstimate s) = traffic s := by simp [clearEstimate]

@[simp] theorem traffic_dropAccepted (s : State) : traffic (dropAccepted s) = traffic s := by
  unfold dropAccepted
  split <;> simp

@[simp] theorem traffic_packClear (s : State) : traffic (packClear s) = traffic s := by simp [packClear]

@[simp] theorem traffic_dropRecord (s : State) : traffic (dropRecord s) = traffic s := by simp [dropRecord]

@[simp] theorem traffic_stopA (s : State) : traffic (stopA s) = traffic s := by simp [stopA, enaClear]

@[simp] theorem traffic_startA (s : State) : traffic (startA s) = traffic s := by simp [startA]

@[simp] theorem traffic_harvOff (s : State) : traffic (harvOff s) = traffic s := by simp [harvOff]

@[simp] theorem traffic_trigger (s : State) (i : Nat) : traffic (trigger s i) = traffic s := by simp [trigger]

@[simp] theorem traffic_recordWritten (s : State) (r : HRec) (rest : List HRec) :
    traffic (recordWritten s r rest) = traffic s := by simp [recordWritten]

@[simp] theorem traffic_harvestWrite (s : State) : traffic (harvestWrite s) = traffic s := by
  unfold harvestWrite
  split <;> simp

@[simp] theorem traffic_conversion (s : State) (m : Sample) : traffic (conversion s m) = traffic s := by
  simp [conversion, harvestConv, setOra, intervalConv, endConversion]

@[simp] theorem traffic_bstatWrite (s : State) (v : Word) : traffic (bstatWrite s v) = traffic s := by simp [bstatWrite]

@[simp] theorem traffic_crankTrack (s : State) (v : Nat) : traffic (crankTrack s v) = traffic s := by
  unfold crankTrack
  dsimp only
  split <;> simp

@[simp] theorem traffic_crankStop (s : State) : traffic (crankStop s) = traffic s := by simp [crankStop]

@[simp] theorem traffic_sampleB (s : State) (raw : BitVec 12) : traffic (sampleB s raw) = traffic s := by simp [sampleB]

@[simp] theorem traffic_crankDip (s : State) : traffic (crankDip s) = traffic s := by simp [crankDip]

@[simp] theorem traffic_crankEnd (s : State) : traffic (crankEnd s) = traffic s := by simp [crankEnd]

/-! ### The pack -/

@[simp] theorem traffic_packSignal (old s : State) : traffic (packSignal old s) = traffic s := by simp [packSignal]

@[simp] theorem traffic_packTrigger (old s : State) : traffic (packTrigger old s) = traffic s := by simp [packTrigger]

@[simp] theorem traffic_beginSession (s : State) : traffic (beginSession s) = traffic s := by simp [beginSession]

@[simp] theorem traffic_presenceWake (s : State) : traffic (presenceWake s) = traffic s := by simp [presenceWake]

@[simp] theorem traffic_pilIdle (s : State) : traffic (pilIdle s) = traffic s := by simp [pilIdle]

@[simp] theorem traffic_packAbsent (s : State) (x : Nat) : traffic (packAbsent s x) = traffic s := by
  simp [packAbsent, removal]

@[simp] theorem traffic_restartInit (s : State) : traffic (restartInit s) = traffic s := by simp [restartInit]

@[simp] theorem traffic_packPresent (s : State) (x : Nat) : traffic (packPresent s x) = traffic s := by
  simp [packPresent]

@[simp] theorem traffic_bctlWrite (s : State) (p : Port) (v : Word) : traffic (bctlWrite s p v) = traffic s := by
  simp [bctlWrite, bctlFields, idmChange]

@[simp] theorem traffic_judgeFrame (s : State) (bits : List Bool) (len : Nat) :
    traffic (judgeFrame s bits len) = traffic s := by
  unfold judgeFrame
  split <;> simp [badFrame, goodFrame, digestSeen, verifyPack]

@[simp] theorem traffic_setPil (s : State) (d : Pil) : traffic (setPil s d) = traffic s := by simp [setPil]

@[simp] theorem traffic_frameEnds (s : State) : traffic (frameEnds s) = traffic s := by simp [frameEnds]

@[simp] theorem traffic_pulseEnds (s : State) (n : Nat) : traffic (pulseEnds s n) = traffic s := by
  unfold pulseEnds
  (repeat' split) <;> simp

@[simp] theorem traffic_pilRun (s : State) (level : Bool) (n : Nat) : traffic (pilRun s level n) = traffic s := by
  unfold pilRun
  dsimp only
  (repeat' split) <;> simp [pilHigh]

@[simp] theorem traffic_pilFrame (s : State) (wave : List (Bool × Nat)) : traffic (pilFrame s wave) = traffic s := by
  simp [pilFrame]

@[simp] theorem traffic_identityTimeout (s : State) : traffic (identityTimeout s) = traffic s := by
  simp [identityTimeout]

@[simp] theorem traffic_bpackWrite (s : State) (v : Word) : traffic (bpackWrite s v) = traffic s := by simp [bpackWrite]

/-! ### Models and estimators -/

@[simp] theorem traffic_setMstat (s : State) (c : BatCh) (v : Nat) : traffic (setMstat s c v) = traffic s := by
  unfold setMstat
  split <;> simp

@[simp] theorem traffic_modelFetch (s : State) (c : BatCh) (n : Nat) (first : Bool) :
    traffic (modelFetch s c n first).2 = traffic s := by simp [modelFetch]

@[simp] theorem traffic_modelRead (s : State) (c : BatCh) (first : Bool) :
    traffic (modelRead s c first).2 = traffic s := by
  unfold modelRead
  dsimp only
  (repeat' split) <;> simp

@[simp] theorem traffic_modelLoads (s : State) (c : BatCh) : traffic (modelLoads s c) = traffic s := by
  unfold modelLoads
  split <;> simp

@[simp] theorem traffic_validate (s : State) (c : BatCh) : traffic (validate s c).2 = traffic s := by
  unfold validate
  dsimp only
  (repeat' split) <;> simp

@[simp] theorem traffic_validated (s : State) (c : BatCh) : traffic (validated s c) = traffic s := by
  unfold validated
  split <;> simp

@[simp] theorem traffic_validationDone (s : State) (c : BatCh) (ups : List Upset) :
    traffic (validationDone s c ups) = traffic s := by simp [validationDone]

@[simp] theorem traffic_updateA (s : State) (ups : List Upset) : traffic (updateA s ups) = traffic s := by
  unfold updateA
  dsimp only
  split <;> simp

@[simp] theorem traffic_estWake (s : State) (t : Nat) (sub : Bool) : traffic (estWake s t sub) = traffic s := by
  simp [estWake]

@[simp] theorem traffic_updateOf (s : State) (c : BatCh) (ups : List Upset) :
    traffic (updateOf s c ups) = traffic s := by
  unfold updateOf
  split <;> simp [updateB]

/-! ### Boot and clocks -/

@[simp] theorem traffic_strapsConnect (s : State) : traffic (strapsConnect s) = traffic s := by simp [strapsConnect]

@[simp] theorem traffic_strapsRelease (s : State) : traffic (strapsRelease s) = traffic s := by simp [strapsRelease]

@[simp] theorem traffic_backupBoot (s : State) : traffic (backupBoot s) = traffic s := by simp [backupBoot]

@[simp] theorem traffic_faceLive (s : State) : traffic (faceLive s) = traffic s := by simp [faceLive]

@[simp] theorem traffic_rootConfirmed (s : State) (restarted : Bool) :
    traffic (rootConfirmed s restarted) = traffic s := by simp [rootConfirmed]

@[simp] theorem traffic_attemptTimeout (s : State) : traffic (attemptTimeout s) = traffic s := by simp [attemptTimeout]

@[simp] theorem traffic_newAttempt (s : State) : traffic (newAttempt s) = traffic s := by simp [newAttempt]

@[simp] theorem traffic_crystalRests (s : State) : traffic (crystalRests s) = traffic s := by simp [crystalRests]

@[simp] theorem traffic_dividersRelease (s : State) : traffic (dividersRelease s) = traffic s := by
  simp [dividersRelease]

@[simp] theorem traffic_zeroFill (s : State) : traffic (zeroFill s) = traffic s := by simp [zeroFill]

@[simp] theorem traffic_bootWrites (s : State) : traffic (bootWrites s) = traffic s := by simp [bootWrites]

@[simp] theorem traffic_readyNow (s : State) : traffic (readyNow s) = traffic s := by simp [readyNow, presenceKnown]

@[simp] theorem traffic_bootAgain (s : State) (step : Nat) : traffic (bootAgain s step) = traffic s := by
  simp [bootAgain]

@[simp] theorem traffic_holdEnds (s : State) (restarted : Bool) : traffic (holdEnds s restarted) = traffic s := by
  simp [holdEnds]

@[simp] theorem traffic_resetPin (s : State) : traffic (resetPin s) = traffic s := by simp [resetPin]

/-! ### Modes and supply -/

@[simp] theorem traffic_quietOutputs (s : State) : traffic (quietOutputs s) = traffic s := by simp [quietOutputs]

@[simp] theorem traffic_slotsResume (s : State) (b : Bank) : traffic (slotsResume s b) = traffic s := by
  simp [slotsResume]

@[simp] theorem traffic_restartA (s : State) : traffic (restartA s) = traffic s := by simp [restartA]

@[simp] theorem traffic_modeBegin (s : State) (m : Nat) : traffic (modeBegin s m) = traffic s := by
  unfold modeBegin
  split <;> simp

@[simp] theorem traffic_setExpert (s : State) (v : Word) : traffic (setExpert s v) = traffic s := by simp [setExpert]

@[simp] theorem traffic_sysctlWrite (s : State) (p : Port) (v : Word) : traffic (sysctlWrite s p v) = traffic s := by
  simp [sysctlWrite]

@[simp] theorem traffic_sysstatWrite (s : State) (v : Word) : traffic (sysstatWrite s v) = traffic s := by
  simp [sysstatWrite]

@[simp] theorem traffic_modeMerge (s : State) (vS vP : Word) : traffic (modeMerge s vS vP) = traffic s := by
  simp [modeMerge]

@[simp] theorem traffic_standbyReached (s : State) : traffic (standbyReached s) = traffic s := by simp [standbyReached]

@[simp] theorem traffic_sleepEntered (s : State) : traffic (sleepEntered s) = traffic s := by simp [sleepEntered]

@[simp] theorem traffic_wakeCompletes (s : State) : traffic (wakeCompletes s) = traffic s := by simp [wakeCompletes]

@[simp] theorem traffic_reducedEntry (s : State) : traffic (reducedEntry s) = traffic s := by simp [reducedEntry]

@[simp] theorem traffic_reducedExit (s : State) : traffic (reducedExit s) = traffic s := by
  simp [reducedExit, bankReturns]

@[simp] theorem traffic_bankCollapses (s : State) (b : Bank) : traffic (bankCollapses s b) = traffic s := by
  simp [bankCollapses]

@[simp] theorem traffic_collapses (s : State) : traffic (collapses s) = traffic s := by
  unfold collapses
  dsimp only
  split <;> simp

@[simp] theorem traffic_corkBegins (s : State) (p : Port) : traffic (corkBegins s p) = traffic s := by simp [corkBegins]

@[simp] theorem traffic_vioLost (s : State) : traffic (vioLost s) = traffic s := by simp [vioLost]

@[simp] theorem traffic_vioBack (s : State) : traffic (vioBack s) = traffic s := by simp [vioBack]

/-! ### Authenticated commands -/

@[simp] theorem traffic_astatWrite (s : State) (v : Word) : traffic (astatWrite s v) = traffic s := by simp [astatWrite]

@[simp] theorem traffic_authDone (s : State) (result : Byte) : traffic (authDone s result) = traffic s := by
  simp [authDone]

@[simp] theorem traffic_authRefuse (s : State) (p : Port) (code : Byte) :
    traffic (authRefuse s p code) = traffic s := by simp [authRefuse]

@[simp] theorem traffic_authRefuseCell (s : State) (p : Port) (code : Byte) (a : Nat) :
    traffic (authRefuseCell s p code a) = traffic s := by simp [authRefuseCell]

@[simp] theorem traffic_authClaim (s : State) (p : Port) : traffic (authClaim s p) = traffic s := by simp [authClaim]

@[simp] theorem traffic_dropTag (s : State) : traffic (dropTag s) = traffic s := by simp [dropTag]

@[simp] theorem traffic_acmdWrite (s : State) (p : Port) (v : Word) : traffic (acmdWrite s p v) = traffic s := by
  unfold acmdWrite
  split <;> simp

@[simp] theorem traffic_acntWrite (s : State) (p : Port) (high : Bool) (v : Word) :
    traffic (acntWrite s p high v) = traffic s := by
  unfold acntWrite
  split <;> simp

@[simp] theorem traffic_wipeMailbox (s : State) : traffic (wipeMailbox s) = traffic s := by simp [wipeMailbox]

@[simp] theorem traffic_wipeAsked (s : State) : traffic (wipeAsked s) = traffic s := by simp [wipeAsked]

@[simp] theorem traffic_mailboxWiped (s : State) : traffic (mailboxWiped s) = traffic s := by simp [mailboxWiped]

@[simp] theorem traffic_accept (s : State) (c : AuthCmd) (p : Port) (m : AuthMsg) :
    traffic (accept s c p m) = traffic s := by simp [accept]

@[simp] theorem traffic_lastChecks (s : State) (c : AuthCmd) (p : Port) (m : AuthMsg) :
    traffic (lastChecks s c p m) = traffic s := by
  unfold lastChecks
  (repeat' split) <;> simp

@[simp] theorem traffic_authChecks (s : State) (p : Port) (m : AuthMsg) (tag : List Word) :
    traffic (authChecks s p m tag) = traffic s := by
  unfold authChecks
  split <;> simp [tagChecks, badTag, provisionChecks]

@[simp] theorem traffic_authVerdict (s : State) : traffic (authVerdict s) = traffic s := by
  unfold authVerdict
  (repeat' split) <;> simp

@[simp] theorem traffic_tagWord (s : State) (p : Port) (v : Word) : traffic (tagWord s p v) = traffic s := by
  unfold tagWord
  dsimp only
  (repeat' split) <;> simp [beginMessage]

@[simp] theorem traffic_lockoutEnds (s : State) : traffic (lockoutEnds s) = traffic s := by simp [lockoutEnds]

@[simp] theorem traffic_lockoutTick (s : State) : traffic (lockoutTick s) = traffic s := by simp [lockoutTick]

@[simp] theorem traffic_claimTimeout (s : State) : traffic (claimTimeout s) = traffic s := by simp [claimTimeout]

@[simp] theorem traffic_effect {body : State → Accepted → State} (hbody : ∀ t a, traffic (body t a) = traffic t)
    (s : State) (c : AuthCmd) : traffic (effect s c body) = traffic s := by
  unfold effect
  dsimp only
  split <;> simp [hbody]

@[simp] theorem traffic_ttPolicy (s : State) (a : List Word) : traffic (ttPolicy s a) = traffic s := by
  simp [ttPolicy, storeMask]

@[simp] theorem traffic_regionUnlock (s : State) (v : Word) : traffic (regionUnlock s v) = traffic s := by
  simp [regionUnlock]

@[simp] theorem traffic_lampPolicy (s : State) (a : List Word) : traffic (lampPolicy s a) = traffic s := by
  simp [lampPolicy]

@[simp] theorem traffic_provisionEffect (s : State) (a : Accepted) (ok : Bool) :
    traffic (provisionEffect s a ok) = traffic s := by simp [provisionEffect]

@[simp] theorem traffic_queueRestoreA (s : State) (a : Accepted) : traffic (queueRestoreA s a) = traffic s := by
  simp [queueRestoreA]

/-! ### Arbiter, scrub and TAP -/

@[simp] theorem traffic_windowStarts (s : State) (waits : Vector Nat 7) :
    traffic (windowStarts s waits) = traffic s := by simp [windowStarts]

@[simp] theorem traffic_arbstatWrite (s : State) (p : Port) (v : Word) : traffic (arbstatWrite s p v) = traffic s := by
  simp [arbstatWrite]

@[simp] theorem traffic_scrubUe (s : State) (w : Nat) : traffic (scrubUe s w) = traffic s := by simp [scrubUe]

@[simp] theorem traffic_scrubWord (s : State) (w : Nat) : traffic (scrubWord s w) = traffic s := by
  unfold scrubWord
  split <;> simp

@[simp] theorem traffic_scrubWords (s : State) (w n : Nat) : traffic (scrubWords s w n) = traffic s := by
  induction n generalizing s w with
  | zero => rfl
  | succ n ih => simp [scrubWords, ih]

@[simp] theorem traffic_scrubEight (s : State) (ups : List Upset) : traffic (scrubEight s ups) = traffic s := by
  simp [scrubEight]

@[simp] theorem traffic_scrubBurst (s : State) (ups : List Upset) : traffic (scrubBurst s ups) = traffic s := by
  simp [scrubBurst]

@[simp] theorem traffic_tapSelect (s : State) (ir : BitVec 5) : traffic (tapSelect s ir) = traffic s := by
  simp [tapSelect]

@[simp] theorem traffic_vendorSelect (s : State) (code : BitVec 5) : traffic (vendorSelect s code) = traffic s := by
  simp [vendorSelect]

/-! ### Roles -/

@[simp] theorem traffic_heartbeat (s : State) : traffic (heartbeat s) = traffic s := by
  unfold heartbeat
  dsimp only
  (repeat' split) <;> simp

@[simp] theorem traffic_swapRoles (s : State) : traffic (swapRoles s) = traffic s := by simp [swapRoles]

@[simp] theorem traffic_portctlCore (s : State) (p : Port) (v : Word) (merged : Bool) :
    traffic (portctlCore s p v merged).1 = traffic s := by
  unfold portctlCore
  dsimp only
  (repeat' split) <;> simp

@[simp] theorem traffic_portctlWrite (s : State) (p : Port) (v : Word) : traffic (portctlWrite s p v) = traffic s := by
  simp [portctlWrite]

@[simp] theorem traffic_swapMerge (s : State) (vS vP : Word) : traffic (swapMerge s vS vP) = traffic s := by
  simp [swapMerge]

@[simp] theorem traffic_swapLapse (s : State) : traffic (swapLapse s) = traffic s := by
  unfold swapLapse
  split <;> simp

@[simp] theorem traffic_flasherEdge {edge : State → State} (hedge : ∀ t, traffic (edge t) = traffic t) (s : State)
    (fb : FallbackChange) : traffic (flasherEdge s edge fb) = traffic s := by
  cases fb <;> simp [flasherEdge, hedge]

/-! ### The Trellis -/

@[simp] theorem countersZero_fifo (k : Keys) : (countersZero k).fifo = k.fifo := rfl

@[simp] theorem takeSettings_fifo (k : Keys) (set : KeySet) : (takeSettings k set).fifo = k.fifo := rfl

@[simp] theorem bootScanEnds_fifo (k : Keys) (set : KeySet) : (bootScanEnds k set).fifo = k.fifo := by
  simp [bootScanEnds, apply_ite Keys.fifo]

@[simp] theorem keysEnable_fifo (k : Keys) (en : Bool) : (keysEnable k en).fifo = k.fifo := rfl

@[simp] theorem traffic_scanStep (s : State) : traffic (scanStep s) = traffic s := by
  simp [scanStep, apply_ite Keys.fifo]

@[simp] theorem traffic_keepSettings (s : State) : traffic (keepSettings s) = traffic s := by simp [keepSettings]

@[simp] theorem traffic_keysCapture (s : State) (a : Nat) (v : Word) : traffic (keysCapture s a v) = traffic s := by
  simp [keysCapture]

@[simp] theorem traffic_keyCountersClear (s : State) : traffic (keyCountersClear s) = traffic s := by
  simp [keyCountersClear, apply_ite Keys.fifo]

@[simp] theorem traffic_waitsEnd (s : State) : traffic (waitsEnd s) = traffic s := by
  simp [waitsEnd, apply_ite Keys.fifo]

@[simp] theorem traffic_slotMeets (s : State) : traffic (slotMeets s) = traffic s := by simp [slotMeets, writesWait]

@[simp] theorem traffic_loadScan (s : State) : traffic (loadScan s) = traffic s := by
  simp [loadScan]

@[simp] theorem traffic_bookKey (s : State) (K cycles : Nat) : traffic (bookKey s K cycles) = traffic s := by
  simp [bookKey]

@[simp] theorem traffic_keySlotOver (s : State) : traffic (keySlotOver s) = traffic s := by simp [keySlotOver]

@[simp] theorem traffic_slotBegun (s : State) : traffic (slotBegun s) = traffic s := by simp [slotBegun]

@[simp] theorem traffic_logServed (s : State) (e : KeyLog) (rest : List KeyLog) :
    traffic (logServed s e rest) = traffic s := by simp [logServed]

@[simp] theorem traffic_keyLogWrites (s : State) : traffic (keyLogWrites s) = traffic s := by
  unfold keyLogWrites
  split <;> simp

@[simp] theorem traffic_kctlWrite (s : State) (p : Port) (v : Word) : traffic (kctlWrite s p v) = traffic s := by
  simp [kctlWrite]

@[simp] theorem traffic_scanEdge (s : State) : traffic (scanEdge s) = traffic s := by simp [scanEdge]

@[simp] theorem traffic_kstatWrite (s : State) (v : Word) : traffic (kstatWrite s v) = traffic s := by simp [kstatWrite]

/-! ### The Parameter cask -/

@[simp] theorem traffic_winRead (s : State) (p : Port) (a : Nat) : traffic (winRead s p a).2 = traffic s := by
  unfold winRead
  (repeat' split) <;> simp [takeRaw, takeSoc]

@[simp] theorem traffic_regionWritten (s : State) (r o : Nat) (v : Word) :
    traffic (regionWritten s r o v) = traffic s := by
  unfold regionWritten
  split <;> simp [lockRegion]

@[simp] theorem traffic_pageAction (s : State) (a : Nat) (v : Word) : traffic (pageAction s a v) = traffic s := by
  unfold pageAction
  split <;> simp [harvestRestart, packCountersClear, eccCountersClear, ledgerClear, threadEn, bvbMinClear]

@[simp] theorem traffic_winStore (s : State) (a : Nat) (v : Word) : traffic (winStore s a v) = traffic s := by
  simp [winStore, modelHeld, modelTouched, mailboxTouched, keysStore]

/-! ### The window and the registers -/

@[simp] theorem traffic_issueLoad (s : State) (p : Port) : traffic (issueLoad s p) = traffic s := by simp [issueLoad]

@[simp] theorem traffic_refuseRead (s : State) (p : Port) : traffic (refuseRead s p).2 = traffic s := by
  simp [refuseRead]

@[simp] theorem traffic_dropWrite (s : State) (p : Port) (off : Nat) : traffic (dropWrite s p off) = traffic s := by
  simp [dropWrite]

@[simp] theorem traffic_pageLost (s : State) (p : Port) : traffic (pageLost s p) = traffic s := by simp [pageLost]

@[simp] theorem traffic_loadWords (s : State) (p : Port) (a n : Nat) : traffic (loadWords s p a n).2 = traffic s := by
  induction n generalizing s a with
  | zero => rfl
  | succ n ih => simp [loadWords, ih]

@[simp] theorem traffic_loadPage (s : State) (p : Port) (a n : Nat) : traffic (loadPage s p a n).2 = traffic s := by
  unfold loadPage
  split <;> simp

@[simp] theorem traffic_loadServed (s : State) (p : Port) (l : Load) (ups : List Upset) :
    traffic (loadServed s p l ups) = traffic s := by
  unfold loadServed
  dsimp only
  (repeat' split) <;> simp

@[simp] theorem traffic_workEnds (s : State) (y : LongWork) : traffic (workEnds s y) = traffic s := by
  unfold workEnds
  split <;> simp

@[simp] theorem traffic_longServed (s : State) (lvl : Nat) : traffic (longServed s lvl) = traffic s := by
  unfold longServed
  split <;> simp

@[simp] theorem traffic_waitTimeout (s : State) : traffic (waitTimeout s) = traffic s := by simp [waitTimeout]

@[simp] theorem traffic_clkstatWrite (s : State) (v : Word) : traffic (clkstatWrite s v) = traffic s := by
  simp [clkstatWrite]

@[simp] theorem traffic_errstatWrite (s : State) (v : Word) : traffic (errstatWrite s v) = traffic s := by
  simp [errstatWrite, clearErr]

@[simp] theorem traffic_irqenWrite (s : State) (p : Port) (v : Word) : traffic (irqenWrite s p v) = traffic s := by
  simp [irqenWrite]

@[simp] theorem traffic_gen1LowWrite (s : State) (a : Fin 64) (b : Byte) :
    traffic (gen1LowWrite s a b) = traffic s := by simp [gen1LowWrite]

/-! ### TAP rows -/

@[simp] theorem traffic_tapExtest (s : State) (scan : Option (BitVec 373 × BitVec 373)) :
    traffic (tapExtest s scan) = traffic s := by
  cases scan <;> simp [tapExtest]

@[simp] theorem traffic_tapSample (s : State) (board preload : BitVec 373) :
    traffic (tapSample s board preload) = traffic s := by
  simp [tapSample]

end Sys2Proof.Machine
end

section
/-! O6: the operations that move the queues keep each within its depth (R115, R219, R350), and so does every step. -/

namespace Sys2Proof.Machine

open Sys2Proof

@[simp] theorem Traffic.fit_ite (c : Prop) [Decidable c] (q r : Traffic) :
    (if c then q else r).fit ↔ if c then q.fit else r.fit := by split <;> rfl

/-! ### Resets empty the queues -/

/-- The traffic of a machine that has been reinitialised. -/
def Traffic.empty : Traffic := ⟨[], [], true, [], 0, true⟩

@[simp] theorem Traffic.fit_empty : Traffic.empty.fit := by simp [Traffic.empty, Traffic.fit]

theorem traffic_wiped (s : State) : traffic (wiped s) = .empty := rfl

theorem traffic_ledgerKept (s w : State) : traffic (ledgerKept s w) = traffic w := by simp [ledgerKept]

@[simp] theorem traffic_coldBoot (s : State) (cause : Nat) (running : Bool) :
    traffic (coldBoot s cause running) = .empty := rfl

@[simp] theorem traffic_corkMode (s : State) : traffic (corkMode s) = .empty := rfl

@[simp] theorem traffic_warmBoot (s : State) (cause : Nat) : traffic (warmBoot s cause) = .empty := by
  have h : traffic (warmBoot s cause) = traffic (if Config.ledgerOutlives then
      ledgerKept s (wiped (faceTakesHeld s)) else wiped (faceTakesHeld s)) := rfl
  rw [h, traffic_ite, traffic_ledgerKept, ite_self, traffic_wiped]

section
variable {s : State} (hs : (traffic s).fit)
include hs

theorem fit_powerOn (straps : Straps) : (traffic (powerOn s straps)).fit := by
  unfold powerOn
  split
  · simp
  · exact hs

theorem fit_corkExits (straps : Straps) : (traffic (corkExits s straps)).fit := by
  unfold corkExits
  split
  · exact Traffic.fit_empty
  · exact hs

theorem fit_powerLoss : (traffic (powerLoss s)).fit := by
  unfold powerLoss
  split
  · exact hs
  · exact Traffic.fit_empty

@[simp] theorem fit_expiryDone : (traffic (expiryDone s)).fit := by simp [expiryDone, clockFailure, hs]

@[simp] theorem fit_enterHold : (traffic (enterHold s)).fit := by simp [enterHold, expiryBegins, hs]

theorem fit_rootLost (pllToo : Bool) : (traffic (rootLost s pllToo)).fit := by
  unfold rootLost
  split
  · exact hs
  · dsimp only
    split <;> simp [hs]

theorem fit_pllLost : (traffic (pllLost s)).fit := by
  unfold pllLost
  split
  · exact hs
  · dsimp only
    split <;> simp [hs]

theorem fit_holdExpires : (traffic (holdExpires s)).fit := by simp [holdExpires, clockFailure, expiryBegins, hs]

theorem fit_warmStarts : (traffic (warmStarts s)).fit := by
  unfold warmStarts
  split
  · split <;> simp [hs]
  · exact hs

theorem fit_corkShip : (traffic (corkShip s)).fit := by simp [corkShip, hs]

theorem fit_counterWritten : (traffic (counterWritten s)).fit := by
  unfold counterWritten
  dsimp only
  split <;> simp [hs]

end

/-! ### The write-back queue (R219) -/

/-- A shorter write-back queue is within its entries too. -/
theorem fit_wbQ {s : State} (hs : (traffic s).fit) {c : CAddr} {rest : List CAddr} (hq : s.arb.wbQ = c :: rest) :
    (traffic { s with arb := { s.arb with wbQ := rest } }).fit := by
  obtain ⟨hbufP, hbufS, hwb, hfifo⟩ := hs
  refine ⟨hbufP, hbufS, ?_, hfifo⟩
  simp only [traffic, hq, List.length_cons, decide_eq_true_eq] at hwb ⊢
  omega

theorem upset_wbQ (s : State) (u : Upset) : (upset s u).arb.wbQ = s.arb.wbQ := by
  cases u with
  | single w =>
    unfold upset
    dsimp only
    split <;> rfl
  | double w d => rfl

/-- An upset queues no write-back. -/
theorem upsets_wbQ (s : State) (ups : List Upset) : (upsets s ups).arb.wbQ = s.arb.wbQ := by
  induction ups generalizing s with
  | nil => rfl
  | cons u ups ih => exact (ih _).trans (upset_wbQ s u)

theorem fit_writebackServed {s : State} (hs : (traffic s).fit) (ups : List Upset) :
    (traffic (writebackServed s ups)).fit := by
  unfold writebackServed
  split
  · exact hs
  · next c rest hq =>
    have hrest := fit_wbQ (s := upsets s ups) (by simpa using hs) ((upsets_wbQ s ups).trans hq)
    dsimp only
    split <;> simpa using hrest

theorem fit_scrubWriteback {s : State} (hs : (traffic s).fit) (ups : List Upset) :
    (traffic (scrubWriteback s ups)).fit := by
  unfold scrubWriteback
  split
  · exact granted_keeps _ hs fun t ht => fit_writebackServed ht ups
  · exact hs

/-! ### The key FIFO (R349, R350) -/

/-- R350: the marker's event word is of type MARKER. -/
theorem keyType_marker (scan : Word) : keyType (keyEvent tMARKER 0 0 scan) = tMARKER := by
  simp only [keyType, keyEvent, fld, wordOf, tMARKER, BitVec.toNat_ofNat]
  omega

theorem hasMarker_append_marker (f : List Word) (scan : Word) :
    hasMarker (f ++ [keyEvent tMARKER 0 0 scan]) = true := by
  simp [hasMarker, keyType_marker]

/-- The FIFO after an event e, with the marker's event word m (R350). -/
def fifoPushed (f : List Word) (e m : Word) : List Word :=
  if hasMarker f then f else if f.length < 15 then f ++ [e] else f ++ [m]

theorem traffic_keyPush (s : State) (e : Word) : traffic (keyPush s e) =
    { traffic s with fifo := fifoPushed s.keys.fifo e (keyEvent tMARKER 0 0 s.keys.scanCnt) } := by
  unfold keyPush fifoPushed
  dsimp only
  split_ifs <;> rfl

/-- R350: an event enters the FIFO while that holds fewer than 15, the marker behind 15 events, and nothing while the
marker is in it. -/
@[simp] theorem fit_keyPush {s : State} (hs : (traffic s).fit) (e : Word) : (traffic (keyPush s e)).fit := by
  obtain ⟨hbufP, hbufS, hwb, hfifo⟩ := hs
  rw [traffic_keyPush]
  refine ⟨hbufP, hbufS, hwb, ?_⟩
  change s.keys.fifo.length ≤ 15 ∨ (s.keys.fifo.length = 16 ∧ hasMarker s.keys.fifo = true) at hfifo
  dsimp only [fifoPushed]
  split_ifs with hmark hroom
  · exact hfifo
  · left
    simp only [List.length_append, List.length_singleton]
    omega
  · right
    refine ⟨?_, hasMarker_append_marker _ _⟩
    simp only [List.length_append, List.length_singleton]
    rcases hfifo with h | ⟨_, h⟩
    · omega
    · exact absurd h hmark

@[simp] theorem fit_reportKey {s : State} (hs : (traffic s).fit) (old : BitVec 128) (l r : Nat) :
    (traffic (reportKey s old l r)).fit := by simp [reportKey, hs]

theorem sampleLine_fifo (k : Keys) (l : Nat) (ret : Byte) : (sampleLine k l ret).fifo = k.fifo := by
  unfold sampleLine
  generalize List.range (k.cur.kins + 1) = rs
  induction rs generalizing k with
  | nil => rfl
  | cons r rs ih => exact ih _

theorem fit_foldl {α : Type} {f : State → α → State} (hf : ∀ s a, (traffic s).fit → (traffic (f s a)).fit)
    (l : List α) {s : State} (hs : (traffic s).fit) : (traffic (l.foldl f s)).fit := by
  induction l generalizing s with
  | nil => exact hs
  | cons a l ih => exact ih (hf s a hs)

@[simp] theorem fit_scanLine {s : State} (hs : (traffic s).fit) (ret : Byte) : (traffic (scanLine s ret)).fit := by
  unfold scanLine
  refine fit_foldl (fun t r ht => fit_reportKey ht _ _ _) _ ?_
  simpa [sampleLine_fifo] using hs

theorem fit_keySlotRuns {s : State} (hs : (traffic s).fit) (ret : Byte) (cut : Option Nat) :
    (traffic (keySlotRuns s ret cut)).fit := by
  cases cut <;> simp [keySlotRuns, hs]

theorem fit_keySlotRun {s : State} (hs : (traffic s).fit) (ret : Byte) (cut : Option Nat) :
    (traffic (keySlotRun s ret cut)).fit := by
  unfold keySlotRun
  split_ifs
  · exact fit_keySlotRuns (by simpa using hs) ret cut
  · simpa using hs
  · exact hs

/-- R187, R350: a read of KEVT takes the oldest event, after which at most 15 are left. -/
@[simp] theorem fit_kevtReadOp {s : State} (hs : (traffic s).fit) : (traffic (kevtReadOp s).2).fit := by
  unfold kevtReadOp
  split
  · exact hs
  · next e rest hq =>
    obtain ⟨hbufP, hbufS, hwb, hfifo⟩ := hs
    refine ⟨hbufP, hbufS, hwb, Or.inl ?_⟩
    simp only [traffic, hq, List.length_cons] at hfifo ⊢
    omega

/-! ### The write buffer (R115 to R119) -/

/-- A change of a port that leaves its write buffer leaves the queues within their depths. -/
@[simp] theorem fit_setPort {s : State} (hs : (traffic s).fit) {p : Port} {x : PortSt}
    (hbuf : x.buf = (getPort s p).buf) : (traffic (setPort s p x)).fit := by
  obtain ⟨hbufP, hbufS, hwb, hfifo⟩ := hs
  cases p
  · exact ⟨by rw [show (traffic (setPort s .portP x)).bufP = x.buf from rfl, hbuf]; exact hbufP, hbufS, hwb, hfifo⟩
  · exact ⟨hbufP, by rw [show (traffic (setPort s .portS x)).bufS = x.buf from rfl, hbuf]; exact hbufS, hwb, hfifo⟩

/-- R115: an entry joins a buffer that has room for it. -/
theorem fit_pushEntry {s : State} (hs : (traffic s).fit) {p : Port} (e : BufEntry) (h : (getPort s p).buf.length < 32) :
    (traffic (pushEntry s p e)).fit := by
  obtain ⟨hbufP, hbufS, hwb, hfifo⟩ := hs
  have hroom : ((getPort s p).buf ++ [e]).length ≤ 32 := by
    rw [List.length_append, List.length_singleton]
    omega
  cases p
  · exact ⟨hroom, hbufS, hwb, hfifo⟩
  · exact ⟨hbufP, hroom, hwb, hfifo⟩

/-- R115: an entry that leaves shortens its buffer. -/
theorem fit_popEntry {s : State} (hs : (traffic s).fit) {p : Port} {rest : List BufEntry}
    (h : rest.length ≤ (getPort s p).buf.length) : (traffic (popEntry s p rest)).fit := by
  obtain ⟨hbufP, hbufS, hwb, hfifo⟩ := hs
  cases p
  · exact ⟨h.trans hbufP, hbufS, hwb, hfifo⟩
  · exact ⟨hbufP, h.trans hbufS, hwb, hfifo⟩

/-- R115, R117: only a buffer with fewer than 32 entries has room. -/
theorem length_lt_of_roomFor {s : State} {p : Port} (h : roomFor s p = .free) : (getPort s p).buf.length < 32 := by
  unfold roomFor at h
  split at h
  · assumption
  · split at h <;> cases h

theorem keepSettings_frame (s : State) : keepSettings s = { s with keys := (keepSettings s).keys } := by
  unfold keepSettings
  split <;> rfl

/-- R359: the capture of a keys-page word changes the Trellis alone. -/
theorem keysCapture_frame (s : State) (a : Nat) (v : Word) :
    keysCapture s a v = { s with keys := (keysCapture s a v).keys } := by
  unfold keysCapture
  split
  · rw [keepSettings_frame]
  · rfl

@[simp] theorem getPort_keysCapture (s : State) (a : Nat) (v : Word) (p : Port) :
    getPort (keysCapture s a v) p = getPort s p := by
  rw [keysCapture_frame]
  cases p <;> rfl

section
variable {s : State} (hs : (traffic s).fit) (p : Port)
include hs

@[simp] theorem fit_afterWrite : (traffic (afterWrite s p)).fit := by simp [afterWrite, hs]

@[simp] theorem fit_serveRead (w : Word) (rest : List Word) : (traffic (serveRead s p w rest).2).fit := by
  unfold serveRead
  dsimp only
  split
  · split <;> simp [hs, apply_ite PortSt.buf]
  · simp [hs]

@[simp] theorem fit_wdataReadOp : (traffic (wdataReadOp s p).2).fit := by
  unfold wdataReadOp
  split
  · exact fit_serveRead hs p _ _
  · split <;> simp [hs]

@[simp] theorem fit_waddrWriteOp (high : Bool) (v : Word) : (traffic (waddrWriteOp s p high v)).fit := by
  simp [waddrWriteOp, hs]

@[simp] theorem fit_wctlWriteOp (v : Word) : (traffic (wctlWriteOp s p v)).fit := by
  simp [wctlWriteOp, hs]

@[simp] theorem fit_wdataWriteOp (v : Word) : (traffic (wdataWriteOp s p v)).fit := by
  unfold wdataWriteOp
  dsimp only
  split
  · simp [hs]
  · split
    · next hroom =>
      exact fit_afterWrite (fit_pushEntry (by simpa using hs) _ (by simpa using length_lt_of_roomFor hroom)) p
    · simpa using hs
    · simp [hs]

@[simp] theorem fit_dcommitWrite (v : Word) : (traffic (dcommitWrite s p v)).fit := by
  unfold dcommitWrite
  split
  · simpa using hs
  · split
    · next hroom =>
      rw [traffic_pageLost]
      exact fit_pushEntry hs _ (length_lt_of_roomFor hroom)
    · simpa using hs
    · simpa using hs

@[simp] theorem fit_atagWrite (v : Word) : (traffic (atagWrite s p v)).fit := by
  unfold atagWrite
  split
  · simpa using hs
  · split
    · next hroom =>
      rw [traffic_pageLost]
      exact fit_pushEntry (by simpa using hs) _ (by cases p <;> exact length_lt_of_roomFor hroom)
    · simpa using hs
    · simpa using hs

@[simp] theorem fit_pagePost (a : CAddr) (v : Word) : (traffic (pagePost s p a v)).fit := by
  unfold pagePost
  split
  · next hroom => exact fit_pushEntry (by simpa using hs) _ (by simpa using length_lt_of_roomFor hroom)
  · simpa using hs
  · simpa using hs

end

/-- R118, R119: the access that WAIT# held is performed as it would have been. -/
@[simp] theorem fit_resumeHeld {s : State} (hs : (traffic s).fit) : (traffic (resumeHeld s)).fit := by
  have hfree : (traffic { s with portP := { s.portP with held := .none } }).fit := hs
  unfold resumeHeld
  dsimp only
  split
  · exact hs
  · have h := fit_wdataReadOp hfree .portP
    split <;> next heq => simpa [heq] using h
  · exact fit_wdataWriteOp hfree _ _
  · split
    · simpa using hs
    · exact fit_pagePost hfree _ _ _
  · exact fit_dcommitWrite hfree _ _
  · exact fit_atagWrite hfree _ _

/-! ### Entries that leave (R115, R100, R131) -/

section
variable {s : State} (hs : (traffic s).fit) (p : Port)
include hs

@[simp] theorem fit_entryServed (ups : List Upset) : (traffic (entryServed s p ups)).fit := by
  unfold entryServed
  split
  · next hbuf => simpa using fit_popEntry hs (by simp [hbuf])
  · exact hs

@[simp] theorem fit_entryLeaves (ups : List Upset) : (traffic (entryLeaves s p ups)).fit := by
  unfold entryLeaves
  split
  · split
    · exact granted_keeps _ hs fun t ht => fit_resumeHeld (fit_entryServed ht p ups)
    · exact hs
  · exact hs

@[simp] theorem fit_commitServed : (traffic (commitServed s p)).fit := by
  unfold commitServed
  split
  · next hbuf => simpa using fit_popEntry hs (by simp [hbuf])
  · exact hs

@[simp] theorem fit_frontFreed : (traffic (frontFreed s p)).fit :=
  fit_resumeHeld (fit_popEntry hs (by simp))

@[simp] theorem fit_commitLeaves : (traffic (commitLeaves s p)).fit := by
  unfold commitLeaves
  split <;> simp [hs]

@[simp] theorem fit_tagServed (ups : List Upset) : (traffic (tagServed s p ups)).fit := by
  unfold tagServed
  split
  · next hbuf => simpa using fit_popEntry hs (by simp [hbuf])
  · exact hs

@[simp] theorem fit_tagLeaves (ups : List Upset) : (traffic (tagLeaves s p ups)).fit := by
  have hact (t : State) (ht : (traffic t).fit) := fit_resumeHeld (fit_tagServed ht p ups)
  unfold tagLeaves
  dsimp only
  split
  · split_ifs
    · exact hs
    · exact granted_keeps _ hs hact
    · exact hact s hs
  · exact hs

@[simp] theorem fit_loadDone (ups : List Upset) : (traffic (loadDone s p ups)).fit := by
  unfold loadDone
  split
  · exact hs
  · split
    · exact granted_keeps _ hs fun t ht => fit_resumeHeld (by simpa using ht)
    · exact hs

@[simp] theorem fit_frontLeaves (ups : List Upset) : (traffic (frontLeaves s p ups)).fit := by
  unfold frontLeaves
  split <;> simp [hs]

/-! ### What the arbiter grants before an access (R140, R224) -/

@[simp] theorem fit_windowServed : (traffic (windowServed s p)).fit := by
  unfold windowServed
  split <;> simp [hs]

omit p in
@[simp] theorem fit_lowServed (lvl : Nat) : (traffic (lowServed s lvl)).fit := by
  unfold lowServed
  split
  · split
    · simpa using hs
    · exact fit_resumeHeld (fit_tagServed hs _ _)
  · simpa using hs
  · simpa using hs
  · simpa using hs
  · split
    · simpa using hs
    · exact fit_writebackServed hs _
  · simpa using hs

end

@[simp] theorem fit_servedFirst (own : Grant) (n : Nat) {s : State} (hs : (traffic s).fit) :
    (traffic (servedFirst own n s)).fit := by
  induction n generalizing s with
  | zero => exact hs
  | succ n ih =>
    unfold servedFirst
    split
    · split
      · exact hs
      · exact ih (fit_windowServed hs _)
    · split
      · exact hs
      · exact ih (fit_lowServed hs _)
    · exact hs

@[simp] theorem fit_arbWaits {s : State} (hs : (traffic s).fit) (own : Grant) : (traffic (arbWaits s own)).fit :=
  fit_servedFirst own 32 hs

@[simp] theorem fit_portSReady (n : Nat) {s : State} (hs : (traffic s).fit) : (traffic (portSReady n s)).fit := by
  induction n generalizing s with
  | zero => exact hs
  | succ n ih =>
    unfold portSReady
    split
    · exact ih (fit_entryServed (fit_arbWaits hs _) _ _)
    · exact ih (fit_commitServed hs _)
    · exact ih (fit_tagServed (by split <;> simp [hs]) _ _)
    · split
      · exact ih (by simp [hs])
      · exact hs

@[simp] theorem fit_captured {s : State} (hs : (traffic s).fit) (p : Port) : (traffic (captured s p)).fit := by
  simp [captured, hs]

@[simp] theorem fit_pageRow {s : State} (hs : (traffic s).fit) (p : Port) (a : Nat) (set : Word → Word) :
    (traffic (pageRow s p a set)).fit := by
  have hcap : (traffic (captured (gen1Ale s p (hiAddr 0x0B)) p)).fit := fit_captured (by simpa using hs) p
  unfold pageRow
  split_ifs
  · exact hs
  · simpa using hs
  · dsimp only
    split
    · simpa using hcap
    · split
      · next hserve => simpa [traffic_arbServe hserve] using hcap
      · exact fit_pagePost hcap _ _ _

/-! ### Registers -/

@[simp] theorem fit_regWriteBody {s : State} (hs : (traffic s).fit) (p : Port) (off : Nat) (v : Word) :
    (traffic (regWriteBody p off s v)).fit := by
  unfold regWriteBody
  split <;> simp [hs]

@[simp] theorem fit_regWrite {s : State} (hs : (traffic s).fit) (p : Port) (a : Fin 64) (v : Word) :
    (traffic (regWrite s p a v)).fit :=
  gate_keeps p a v hs fun _ w ht => fit_regWriteBody ht p _ w

@[simp] theorem fit_regReadBody {s : State} (hs : (traffic s).fit) (p : Port) (off : Nat) :
    (traffic (regReadBody p off s).2).fit := by
  unfold regReadBody
  split <;> simp [hs]

@[simp] theorem fit_regRead {s : State} (hs : (traffic s).fit) (p : Port) (a : Fin 64) :
    (traffic (regRead s p a)).fit := by
  unfold regRead
  split
  · have h := fit_wdataReadOp (fit_captured hs p) p
    split <;> next heq => simpa [heq] using h
  · exact readGate_keeps p a hs (fit_regReadBody hs p _)

@[simp] theorem fit_gen1Strobe {s : State} (hs : (traffic s).fit) {act : State → Byte → State}
    (hact : ∀ t ad, (traffic t).fit → (traffic (act t ad)).fit) (ale : Option Byte) (cs : Bool) :
    (traffic (gen1Strobe s ale cs act)).fit := by
  unfold gen1Strobe
  dsimp only
  split_ifs
  · exact hact _ _ hs
  · exact hs
  · exact hs

@[simp] theorem fit_gen1Read {s : State} (hs : (traffic s).fit) (ad : Byte) : (traffic (gen1Read s ad)).fit := by
  simp [gen1Read, hs]

@[simp] theorem fit_gen1Write {s : State} (hs : (traffic s).fit) (ad b : Byte) : (traffic (gen1Write s ad b)).fit := by
  simp [gen1Write, hs]

/-! ### What falls together with a register write (R131, R159, R208) -/

@[simp] theorem fit_frameCaptured {s : State} (hs : (traffic s).fit) (a : Fin 64) :
    (traffic (frameCaptured s a)).fit := by
  simp [frameCaptured, hs]

@[simp] theorem fit_frameWrite {s : State} (hs : (traffic s).fit) (a : Fin 64) (v : Word) :
    (traffic (frameWrite s a v)).fit :=
  answered_keeps a v (fit_frameCaptured hs a) fun _ ht => fit_regWrite ht .portS a v

@[simp] theorem fit_writePair {s : State} (hs : (traffic s).fit) (aS : Fin 64) (vS : Word) (aP : Fin 64) (vP : Word) :
    (traffic (writePair s aS vS aP vP)).fit := by
  have hboth := fit_regWrite (fit_frameWrite hs aS vS) .portP aP vP
  unfold writePair
  split_ifs
  · simpa using hs
  · simpa using hs
  · unfold dpwrPair
    split
    · simpa using hs
    · simp [hs]
  · exact hboth

@[simp] theorem fit_besideWait {s : State} (hs : (traffic s).fit) {act : State → State}
    (hact : ∀ t, (traffic t).fit → (traffic (act t)).fit) (p : Port) (bs : List Bank) (a : Fin 64) (v : Word) :
    (traffic (besideWait s p bs a v act).1).fit := by
  have hdone := hact s hs
  unfold besideWait
  dsimp only
  split
  · split
    · exact hdone
    · split <;> simpa using hs
  · split
    · simpa using hs
    · exact hdone
  · exact hs
  · split <;> simpa using hs
  · exact hdone

@[simp] theorem fit_writeWait {s : State} (hs : (traffic s).fit) (p : Port) (bs : List Bank) (a : Fin 64) (v : Word) :
    (traffic (writeWait s p bs a v).1).fit := by
  unfold writeWait
  split
  · split
    · exact fit_besideWait (by simpa using hs) (fun t ht => fit_regWriteBody ht _ _ _) _ _ _ _
    · exact fit_regWrite hs p a v
  · exact fit_regWrite hs p a v

@[simp] theorem fit_frameWait {s : State} (hs : (traffic s).fit) (bs : List Bank) (a : Fin 64) (v : Word) :
    (traffic (frameWait s bs a v).1).fit :=
  answered_keeps a v (fit_frameCaptured hs a) fun _ ht => fit_writeWait ht .portS bs a v

@[simp] theorem fit_pairWait {s : State} (hs : (traffic s).fit) (bs : List Bank) (aS : Fin 64) (vS : Word) (aP : Fin 64)
    (vP : Word) : (traffic (pairWait s bs aS vS aP vP).1).fit := by
  unfold pairWait
  split
  · simpa using hs
  · split
    · exact fit_writePair hs aS vS aP vP
    · exact fit_writeWait (fit_frameWait hs bs aS vS) .portP bs aP vP

@[simp] theorem fit_bothWrite {s : State} (hs : (traffic s).fit) (S P : Option (Fin 64 × Word)) :
    (traffic (bothWrite s S P)).fit := by
  cases S <;> cases P <;> simp [bothWrite, hs]

@[simp] theorem fit_bothWait {s : State} (hs : (traffic s).fit) (bs : List Bank) (S P : Option (Fin 64 × Word)) :
    (traffic (bothWait s bs S P).1).fit := by
  cases S <;> cases P <;> simp [bothWait, hs]

theorem fit_deviceLast {s : State} (hs : (traffic s).fit) {act rest : State → State}
    (hact : ∀ t, (traffic t).fit → (traffic (act t)).fit)
    (hrest : ∀ t, (traffic t).fit → (traffic (rest t)).fit) :
    (traffic (deviceLast s act rest)).fit := by
  have h : (traffic (rest { act { s with err := ErrRec.none } with err := s.err })).fit := hrest _ (hact _ hs)
  unfold deviceLast
  dsimp only
  split
  · exact h
  · exact h

theorem fit_writesBeside {s : State} (hs : (traffic s).fit) (p : Port) (a : Fin 64) (v : Word) (w : Beside) :
    (traffic (writesBeside s p a v w)).fit := by
  unfold writesBeside
  dsimp only
  refine fit_deviceLast (fit_bothWrite hs _ _) (fun t ht => ?leave) fun t ht => ?writes
  case leave =>
    split <;> simp [ht]
  case writes =>
    split
    · exact fit_bothWrite ht _ _
    · split <;> simp [ht]

@[simp] theorem fit_writeBeside {s : State} (hs : (traffic s).fit) (p : Port) (a : Fin 64) (v : Word) (w : Beside) :
    (traffic (writeBeside s p a v w)).fit := by
  unfold writeBeside
  split
  · exact fit_regWrite hs p a v
  · exact fit_writesBeside hs p a v w

@[simp] theorem fit_portSFrame {s : State} (hs : (traffic s).fit) (bits : List Bool) :
    (traffic (portSFrame s bits)).fit := by
  simp [portSFrame, readAnswer, hs]

/-! ### The commands and the step -/

@[simp] theorem traffic_tick (s : State) : traffic (tick s) = traffic s := by
  simp [tick, aonTick, frameEdge]

/-- The traffic that a command leaves are within their depths: the rows named here move a queue, every other row leaves
the queues alone. -/
theorem fit_exec {c : Instr} {s t : State} (h : exec c s = .next t) (hs : (traffic s).fit) : (traffic t).fit := by
  cases c with
  | powerOnReset straps => cases h; exact fit_powerOn hs straps
  | corkExit straps => cases h; exact fit_corkExits hs straps
  | powerOnResetAssertion => cases h; exact fit_powerLoss hs
  | warmBootStart => cases h; exact fit_warmStarts hs
  | rootLoss pllToo => cases h; exact fit_rootLost hs pllToo
  | pllUnlock => cases h; exact fit_pllLost hs
  | holdoverExpiry => cases h; exact fit_holdExpires hs
  | corkShipStep => cases h; exact fit_corkShip hs
  | counterWriteDone => cases h; exact fit_counterWritten hs
  | scrubWriteback ups => cases h; exact fit_scrubWriteback hs ups
  | keySlot returns cut => cases h; exact fit_keySlotRun hs returns cut
  | kevtRead p => cases h; exact readGate_keeps p 0x17 hs (fit_kevtReadOp hs)
  | gen1LowByteWrite ale cs b => cases h; exact fit_gen1Strobe hs (fun t ad ht => fit_gen1Write ht ad b) ale cs
  | gen1LowByteRead ale cs => cases h; exact fit_gen1Strobe hs (fun t ad ht => fit_gen1Read ht ad) ale cs
  | waddrWrite p high v => cases h; exact gate_keeps p _ v hs fun t w ht => fit_waddrWriteOp ht p high w
  | wctlWrite p v => cases h; exact gate_keeps p 0x0C v hs fun t w ht => fit_wctlWriteOp ht p w
  | wdataWrite p v =>
    cases h
    exact gate_keeps p 0x0B v hs fun t w ht => fit_wdataWriteOp (fit_captured ht p) p w
  | dcommit p v =>
    cases h
    exact gate_keeps p 0x10 v hs fun t w ht => fit_dcommitWrite (fit_captured ht p) p w
  | atagWrite p v =>
    cases h
    exact gate_keeps p 0x28 v hs fun t w ht => fit_atagWrite (fit_captured ht p) p w
  | _ => cases h; simp [hs]

/-- Settles O6: of a state whose queues are within their depths, an idle cycle leaves the queues alone and a command
leaves them within their depths. -/
theorem queuesKeepTheirDepth : Obligations.QueuesKeepTheirDepth := by
  unfold Obligations.QueuesKeepTheirDepth
  intro s t hs hstep
  rw [queueBounds_iff] at hs ⊢
  unfold step at hstep
  split at hstep
  · cases hstep
    simpa using hs
  · exact fit_exec hstep (by simpa using hs)

end Sys2Proof.Machine
end

section
/-! Gen1 strobes and Port S frames (R101 to R107, R132 to R139): the lane that a latched byte address selects, what a
strobe and a frame come to, O21 and O22. -/

namespace Sys2Proof.Machine

open Sys2Proof

/-! ### The lane of a byte address (R101) -/

/-- AD0 selects the lane. -/
theorem bit_lane (ad : Byte) : bit (ad.zeroExtend 16) 0 = decide (ad.toNat % 2 = 1) := by
  simp [bit, BitVec.getLsbD, Nat.testBit_zero]

theorem gen1None_eq_false {ad : Byte} (h : ad.toNat < 0x80) : gen1None ad = false := by
  simpa [gen1None] using h

theorem gen1None_eq_true {ad : Byte} (h : 0x80 ≤ ad.toNat) : gen1None ad = true := by
  simpa [gen1None] using h

/-- The byte addresses of a register select it. -/
theorem gen1Reg_eq {ad : Byte} {a : Fin 64} (h : ad.toNat / 2 = a.val) : gen1Reg ad = a :=
  Fin.ext (by simp only [gen1Reg, h, Nat.mod_eq_of_lt a.isLt])

theorem loAddr_eq {ad : Byte} {a : Fin 64} (h : ad.toNat = 2 * a.val) : loAddr a = ad := by
  rw [loAddr, ← h, BitVec.ofNat_toNat, BitVec.setWidth_eq]

/-! ### A strobe (R101) -/

/-- The machine with a byte address latched on Port P. -/
def aleLatched (s : State) (ad : Byte) : State := { s with portP := { s.portP with ale := ad } }

theorem portLive_aleLatched (s : State) (ad : Byte) (p : Port) : portLive (aleLatched s ad) p = portLive s p := by
  cases p <;> rfl

/-- R101: with CS# low the strobe acts on the latched address. -/
theorem gen1Strobe_selected {s : State} (hlive : portLive s .portP = true) (hgen : s.pw.gen = .gen1) (ale : Option Byte)
    (act : State → Byte → State) :
    gen1Strobe s ale true act = act (aleLatched s (ale.getD s.portP.ale)) (ale.getD s.portP.ale) :=
  if_pos ⟨hlive, hgen⟩

/-- R101: with CS# high only the address is latched. -/
theorem gen1Strobe_unselected {s : State} (hlive : portLive s .portP = true) (hgen : s.pw.gen = .gen1)
    (ale : Option Byte) (act : State → Byte → State) :
    gen1Strobe s ale false act = aleLatched s (ale.getD s.portP.ale) :=
  if_pos ⟨hlive, hgen⟩

section
variable {s : State} {ad : Byte}

/-- R104: a byte on the low lane goes to the write latch. -/
theorem gen1Write_low (b : Byte) (hlow : ad.toNat < 0x80) (heven : ad.toNat % 2 = 0) :
    gen1Write s ad b = gen1LowWrite s (gen1Reg ad) b := by
  simp [gen1Write, gen1None_eq_false hlow, bit_lane, heven]

/-- R105: a byte on the high lane is the register's write. -/
theorem gen1Write_high (b : Byte) (hlow : ad.toNat < 0x80) (hodd : ad.toNat % 2 = 1) :
    gen1Write s ad b = regWrite s .portP (gen1Reg ad) (wordOfBytes 0 b) := by
  simp [gen1Write, gen1None_eq_false hlow, bit_lane, hodd]

/-- R101, R107: a byte for no register is discarded, and counted by the boot face. -/
theorem gen1Write_none (b : Byte) (hhigh : 0x80 ≤ ad.toNat) : gen1Write s ad b = { s with portP := { s.portP with
    disc := if s.pw.face = .bootFace then s.portP.disc + 1 else s.portP.disc } } := by
  rw [gen1Write, gen1None_eq_true hhigh, if_pos rfl]
  split <;> rfl

theorem gen1Read_low (hlow : ad.toNat < 0x80) (heven : ad.toNat % 2 = 0) :
    gen1Read s ad = regRead s .portP (gen1Reg ad) := by
  simp [gen1Read, gen1None_eq_false hlow, bit_lane, heven]

theorem gen1Read_high (hlow : ad.toNat < 0x80) (hodd : ad.toNat % 2 = 1) : gen1Read s ad =
    { s with portP := { s.portP with rdata := (gen1HighByte s (gen1Reg ad)).zeroExtend 16 } } := by
  simp [gen1Read, gen1None_eq_false hlow, bit_lane, hodd]

theorem gen1Read_none (hhigh : 0x80 ≤ ad.toNat) :
    gen1Read s ad = { s with portP := { s.portP with rdata := 0 } } := by
  simp [gen1Read, gen1None_eq_true hhigh]

/-- R103: a high-byte read answers the byte that its register's low-byte read has latched. -/
theorem gen1HighByte_latched {a : Fin 64} {hi : Byte} (h : s.portP.g1rd = some (a, hi)) : gen1HighByte s a = hi := by
  simp [gen1HighByte, h]

end

/-- R104, R107: what a low-byte write leaves. -/
theorem gen1LowWrite_live {s : State} (hlive : portLive s .portP = true) (hgen : s.pw.gen = .gen1) (a : Fin 64)
    (b : Byte) : gen1LowWrite s a b = { s with portP := { s.portP with
      g1wr := some (a, b), disc := if s.pw.face = .bootFace then s.portP.disc + 1 else s.portP.disc } } :=
  if_pos ⟨hlive, hgen⟩

/-- R105: the word of a high-byte write that meets its held low byte. -/
theorem gen1Word_latched {s : State} {a : Fin 64} {lo : Byte} (hgen : s.pw.gen = .gen1)
    (hlatch : s.portP.g1wr = some (a, lo)) (v : Word) :
    gen1Word s .portP a v = some (wordOfBytes lo (hiByte v)) := by
  simp [gen1Word, hgen, hlatch]

/-! ### Reads without a side effect (R166) -/

/-- No register reads back the address latch. -/
theorem regValue_aleLatched (s : State) (ad : Byte) (p : Port) (off : Nat) :
    regValue (aleLatched s ad) p off = regValue s p off := by
  unfold regValue
  cases p <;> split <;> rfl

/-- R166: a register but WDATA, KEVT and RTC_L answers its value. -/
theorem regRead_value {s : State} {p : Port} {a : Fin 64} (h : readable s p) (hwdata : offOf a ≠ 0x16)
    (hkevt : offOf a ≠ 0x2E) (hrtc : offOf a ≠ 0x54) : regRead s p a = readDone s p a (regValue s p (offOf a)) := by
  have hbody : regReadBody p (offOf a) s = (regValue s p (offOf a), s) := by
    unfold regReadBody
    split
    · exact absurd (by assumption) hkevt
    · exact absurd (by assumption) hrtc
    · rfl
  rw [regRead, if_neg (by simp [hwdata]), readGate_read h, hbody]

/-! ### Port S frames (R133, R136 to R139) -/

/-- Port S forms its word in one access. -/
theorem reachesRule_portS {s : State} {a : Fin 64} (v : Word) (h : readable s .portS) (hoff : offOf a < 0x68)
    (hcork : s.pw.mode = .corkEntry → offOf a = 0x16) : reachesRule s .portS a v v :=
  ⟨h.1, h.2, hoff, by simp [gen1Word], hcork⟩

/-- R140: an access that needs no room in the buffer does not wait for it. -/
theorem frameCaptured_of_ne {s : State} {a : Fin 64} (h : offOf a ≠ 0x16 ∧ offOf a ≠ 0x20 ∧ offOf a ≠ 0x50) :
    frameCaptured s a = s := by
  obtain ⟨hwdata, hdcommit, hatag⟩ := h
  exact if_neg fun ⟨_, hoff⟩ => hoff.elim hwdata fun hoff => hoff.elim hdcommit hatag

/-- R137: a write frame that reaches its rule, which makes no record, is performed and answered as done. -/
theorem frameWrite_done {s t : State} {a : Fin 64} {v : Word} (h : reachesRule s .portS a v v)
    (hbuf : offOf a ≠ 0x16 ∧ offOf a ≠ 0x20 ∧ offOf a ≠ 0x50)
    (hrule : regWriteBody .portS (offOf a) (probed s) v = t) (herr : t.err = (probed s).err) :
    frameWrite s a v = { t with err := s.err, spi := .answer 0 (BitVec.ofNat 6 a.val) v } := by
  have hreach : reachesRule (probed s) .portS a v v := h
  obtain ⟨hlive, hface, -, -, -⟩ := h
  rw [frameWrite, frameCaptured_of_ne hbuf]
  refine answered_done a v hlive hface ?_ herr
  rw [regWrite, gate_reach hreach, gen1Empty_portS_eq, hrule]

section
variable {s : State} {l : List Bool} (h : readable s .portS)
include h

/-- R136, R137: a bad frame changes the next response alone. -/
theorem portSFrame_bad (hbad : frameGood l = false) :
    portSFrame s l = { s with spi := .answer 1 (BitVec.ofNat 6 (rxField l 30 6)) 0 } := by
  simp [portSFrame, h.1, h.2, hbad]

theorem portSFrame_write {a : Fin 64} (hgood : frameGood l = true) (hwrite : rxBit l 31 = true)
    (ha : rxField l 30 6 = a.val) : portSFrame s l = frameWrite s a (wordOf (rxField l 23 16)) := by
  have haddr : (⟨rxField l 30 6 % 64, Nat.mod_lt _ (by decide)⟩ : Fin 64) = a :=
    Fin.ext (by simp only [ha, Nat.mod_eq_of_lt a.isLt])
  simp [portSFrame, h.1, hgood, hwrite, haddr]

theorem portSFrame_read {a : Fin 64} (hgood : frameGood l = true) (hread : rxBit l 31 = false)
    (ha : rxField l 30 6 = a.val) : portSFrame s l = readAnswer false (regRead s .portS a) a := by
  have haddr : (⟨rxField l 30 6 % 64, Nat.mod_lt _ (by decide)⟩ : Fin 64) = a :=
    Fin.ext (by simp only [ha, Nat.mod_eq_of_lt a.isLt])
  simp only [portSFrame, h.1, h.2, hgood, hread, haddr]
  rfl

end

/-! ### The statements -/

/-- Settles O21: the strobe latches its address, and a byte on the low lane goes to the write latch. -/
theorem gen1LowByteWritesAreHeld : Obligations.Gen1LowByteWritesAreHeld := by
  unfold Obligations.Gen1LowByteWritesAreHeld
  rintro ale _ b s hlive hgen rfl hlow heven
  have hlive' : portLive (aleLatched s (ale.getD s.portP.ale)) .portP = true := by rwa [portLive_aleLatched]
  show Host.Outcome.next (gen1Strobe s ale true fun s ad => gen1Write s ad b) = _
  rw [gen1Strobe_selected hlive hgen, gen1Write_low b hlow heven, gen1LowWrite_live hlive' hgen]
  rfl

/-- Settles O22: the high byte that meets its low byte reaches the register's rule; a strobe acts by its lane; a frame
is judged, performed and answered. -/
theorem gen1WordsAndPortSFrames : Obligations.Gen1WordsAndPortSFrames := by
  unfold Obligations.Gen1WordsAndPortSFrames
  refine ⟨⟨?word, ?lowRead, ?highRead⟩, ⟨?unselected, ?none, ?highWrite⟩, ?bad, ?write, ?read⟩
  case word =>
    intro b v s hlive hgen hface hcork hlatch
    have hreach := gen1Word_latched hgen hlatch v
    rw [registerWrite_reach ⟨hlive, hface, by decide, hreach, fun hm => absurd hm hcork⟩ rfl]
    simp [gen1Empty, hgen, regWriteBody, offOf, hiAddr]
  case lowRead =>
    intro a ad s hread hgen ha hwdata hkevt hrtc
    have hread' : readable (aleLatched s ad) .portP := hread
    have hlow := a.isLt
    show Host.Outcome.next (gen1Strobe s (some ad) true gen1Read) = _
    rw [gen1Strobe_selected hread.1 hgen, Option.getD_some, gen1Read_low (by omega) (by omega),
      gen1Reg_eq (a := a) (by omega), regRead_value hread' hwdata hkevt hrtc, regValue_aleLatched, readDone,
      if_pos ⟨rfl, hgen⟩, loAddr_eq ha]
    rfl
  case highRead =>
    intro a ad hi s hlive hgen ha hlatch
    have hlow := a.isLt
    show Host.Outcome.next (gen1Strobe s (some ad) true gen1Read) = _
    rw [gen1Strobe_selected hlive hgen, Option.getD_some, gen1Read_high (by omega) (by omega),
      gen1Reg_eq (a := a) (by omega), gen1HighByte_latched (s := aleLatched s ad) hlatch]
    rfl
  case unselected =>
    intro ale b s hlive hgen
    exact ⟨congrArg Host.Outcome.next (gen1Strobe_unselected hlive hgen ale _),
      congrArg Host.Outcome.next (gen1Strobe_unselected hlive hgen ale _)⟩
  case none =>
    intro ad b s hlive hgen hhigh
    constructor
    · show Host.Outcome.next (gen1Strobe s (some ad) true fun s ad => gen1Write s ad b) = _
      rw [gen1Strobe_selected hlive hgen, Option.getD_some, gen1Write_none b hhigh]
      rfl
    · show Host.Outcome.next (gen1Strobe s (some ad) true gen1Read) = _
      rw [gen1Strobe_selected hlive hgen, Option.getD_some, gen1Read_none hhigh]
      rfl
  case highWrite =>
    intro ad b s hlive hgen hlow hodd
    rw [registerWrite_alone]
    show Host.Outcome.next (gen1Strobe s (some ad) true fun s ad => gen1Write s ad b) = _
    rw [gen1Strobe_selected hlive hgen, Option.getD_some, gen1Write_high b hlow hodd]
    rfl
  case bad => exact fun l s h hbad => congrArg Host.Outcome.next (portSFrame_bad h hbad)
  case write =>
    intro l s h hcork hgood hwrite ha
    show Host.Outcome.next (portSFrame s l) = _
    rw [portSFrame_write (a := 0x33) h hgood hwrite ha,
      frameWrite_done (reachesRule_portS _ h (by decide) fun hm => absurd hm hcork) (by decide) rfl rfl]
    rfl
  case read =>
    intro l n s h hgood hread ha hwdata hkevt hrtc
    show Host.Outcome.next (portSFrame s l) = _
    rw [portSFrame_read h hgood hread ha, regRead_value h hwdata hkevt hrtc]
    rfl

end Sys2Proof.Machine
end

section
/-! Accesses of the window (R108 to R127, R140): what an access leaves of its port, what Port S's buffer and window
keep of all that the arbiter grants before an access, O23 and O24. -/

namespace Sys2Proof.Machine

open Sys2Proof

/-! ### A port's window (R108, R109, R111) -/

/-- The Gen1 latches leave the window, the buffer and the prefetch of their port. -/
@[simp] theorem getPort_gen1Empty_window (s : State) (p : Port) (a : Fin 64) :
    (getPort (gen1Empty s p a) p).waddr = (getPort s p).waddr ∧
      (getPort (gen1Empty s p a) p).ainc = (getPort s p).ainc ∧
      (getPort (gen1Empty s p a) p).page = (getPort s p).page ∧ (getPort (gen1Empty s p a) p).pre = (getPort s p).pre ∧
      (getPort (gen1Empty s p a) p).buf = (getPort s p).buf ∧ (getPort (gen1Empty s p a) p).load = (getPort s p).load ∧
      (getPort (gen1Empty s p a) p).wdrop = (getPort s p).wdrop ∧
      (getPort (gen1Empty s p a) p).dropCnt = (getPort s p).dropCnt := by
  unfold gen1Empty
  split
  · next h => cases h.1; exact ⟨rfl, rfl, rfl, rfl, rfl, rfl, rfl, rfl⟩
  · exact ⟨rfl, rfl, rfl, rfl, rfl, rfl, rfl, rfl⟩

/-- Only Gen1 has latches to empty (R105). -/
theorem gen1Empty_gen3 {s : State} (h : s.pw.gen = .gen3) (p : Port) (a : Fin 64) : gen1Empty s p a = s :=
  if_neg (by simp [h])

theorem pageMode_eq (s : State) (p : Port) :
    pageMode s p = (p == .portP && s.pw.gen == .gen3 && (getPort s p).page && (getPort s p).ainc) := by
  cases p <;> rfl

/-- R121: page loading depends on the generation, PAGE and AINC. -/
theorem pageMode_congr {s t : State} {p : Port} (hgen : t.pw.gen = s.pw.gen)
    (hpage : (getPort t p).page = (getPort s p).page) (hainc : (getPort t p).ainc = (getPort s p).ainc) :
    pageMode t p = pageMode s p := by
  rw [pageMode_eq, pageMode_eq, hgen, hpage, hainc]

/-- R111: what issuing a load leaves of the port. -/
@[simp] theorem getPort_issueLoad (s : State) (p : Port) : getPort (issueLoad s p) p = { getPort s p with
    pre := [], follow := none, fresh := true
    load := some { addr := (getPort s p).waddr, behind := (getPort s p).buf.length, page := pageMode s p
                   follow := false } } := getPort_setPort s p _

theorem issueLoad_frame (s : State) (p : Port) : issueLoad s p = setPort s p (getPort (issueLoad s p) p) := by
  rw [getPort_issueLoad]
  rfl

/-- A window that has moved loads the word at its new address. -/
theorem getPort_windowMoved (s : State) (p : Port) (a : CAddr) :
    getPort (issueLoad (setPort s p { getPort s p with waddr := a }) p) p = { getPort s p with
      waddr := a, pre := [], follow := none, fresh := true
      load := some { addr := a, behind := (getPort s p).buf.length, page := pageMode s p, follow := false } } := by
  rw [getPort_issueLoad, getPort_setPort,
    pageMode_congr (s := s) (by rw [setPort_pw]) (by rw [getPort_setPort]) (by rw [getPort_setPort])]

@[simp] theorem getPort_afterWrite (s : State) (p : Port) : getPort (afterWrite s p) p = { getPort s p with
    waddr := advanced (getPort s p), pre := [], follow := none, fresh := true
    load := some { addr := advanced (getPort s p), behind := (getPort s p).buf.length, page := pageMode s p
                   follow := false } } := getPort_windowMoved s p _

/-- A WDATA write that has been dealt with changes its port alone. -/
theorem afterWrite_frame (s : State) (p : Port) : afterWrite s p = setPort s p (getPort (afterWrite s p) p) := by
  rw [afterWrite, issueLoad_frame, setPort_setPort, getPort_setPort]

/-! ### Writes of WADDR and WCTL (R108, R125, R127) -/

theorem toNat_and_clearBit0 (w : Word) : (w &&& 0xFFFE#16).toNat = w.toNat / 2 * 2 := by
  have h : w &&& 0xFFFE#16 = (w >>> 1) <<< 1 := by
    ext i hi
    interval_cases i <;> simp
  have hlt := w.isLt
  rw [h, BitVec.toNat_shiftLeft, BitVec.toNat_ushiftRight, Nat.shiftLeft_eq, Nat.shiftRight_eq_div_pow]
  omega

theorem append_eq_ofNat (x : BitVec 4) (y : Word) : x ++ y = BitVec.ofNat 20 (x.toNat * 0x10000 + y.toNat) := by
  have hx := x.isLt
  have hy := y.isLt
  apply BitVec.eq_of_toNat_eq
  rw [BitVec.toNat_append, ← Nat.shiftLeft_add_eq_or_of_lt y.isLt, Nat.shiftLeft_eq, BitVec.toNat_ofNat]
  omega

/-- R108: WADDR_L gives bits 15:1. -/
theorem waddr_low (x : CAddr) (w : Word) : x.extractLsb' 16 4 ++ (w &&& 0xFFFE#16) =
    BitVec.ofNat 20 (x.toNat / 0x10000 * 0x10000 + w.toNat / 2 * 2) := by
  have hx := x.isLt
  have hhigh : (x.extractLsb' 16 4).toNat = x.toNat / 0x10000 := by
    rw [BitVec.extractLsb'_toNat, Nat.shiftRight_eq_div_pow]
    omega
  rw [append_eq_ofNat, toNat_and_clearBit0, hhigh]

/-- R108: WADDR_H gives bits 19:16. -/
theorem waddr_high (x : CAddr) (w : Word) : (w.truncate 4 : BitVec 4) ++ (x.truncate 16 : BitVec 16) =
    BitVec.ofNat 20 (w.toNat % 16 * 0x10000 + x.toNat % 0x10000) := by
  rw [append_eq_ofNat, BitVec.toNat_setWidth, BitVec.toNat_setWidth]

/-- The window address that a WADDR write gives. -/
def waddrWritten (x : CAddr) (high : Bool) (w : Word) : CAddr :=
  if high then BitVec.ofNat 20 (w.toNat % 16 * 0x10000 + x.toNat % 0x10000)
  else BitVec.ofNat 20 (x.toNat / 0x10000 * 0x10000 + w.toNat / 2 * 2)

/-- R108: a WADDR write gives the address and issues its load. -/
theorem waddrWriteOp_eq (s : State) (p : Port) (high : Bool) (w : Word) : waddrWriteOp s p high w =
    issueLoad (setPort s p { getPort s p with waddr := waddrWritten (getPort s p).waddr high w }) p := by
  cases high
  · exact congrArg (fun x => issueLoad (setPort s p { getPort s p with waddr := x }) p) (waddr_low _ w)
  · exact congrArg (fun x => issueLoad (setPort s p { getPort s p with waddr := x }) p) (waddr_high _ w)

theorem getPort_waddrWriteOp (s : State) (p : Port) (high : Bool) (w : Word) :
    getPort (waddrWriteOp s p high w) p = { getPort s p with
      waddr := waddrWritten (getPort s p).waddr high w, pre := [], follow := none, fresh := true
      load := some { addr := waddrWritten (getPort s p).waddr high w, behind := (getPort s p).buf.length
                     page := pageMode s p, follow := false } } := by
  rw [waddrWriteOp_eq, getPort_windowMoved]

theorem waddrWriteOp_frame (s : State) (p : Port) (high : Bool) (w : Word) :
    waddrWriteOp s p high w = setPort s p (getPort (waddrWriteOp s p high w) p) := by
  rw [waddrWriteOp_eq, issueLoad_frame, setPort_setPort, getPort_setPort]

theorem exec_waddrWrite {s : State} {p : Port} {high : Bool} {v w : Word}
    (h : reachesRule s p (if high then 0x0A else 0x09) v w) : exec (.waddrWrite p high v) s =
      .next (waddrWriteOp (gen1Empty s p (if high then 0x0A else 0x09)) p high w) :=
  congrArg Host.Outcome.next (gate_reach h)

/-- R125, R127: a port after its WCTL was written. -/
def wctlWritten (x : PortSt) (w : Word) : PortSt :=
  { x with ainc := bit w 0, page := bit w 1, wdrop := x.wdrop && !bit w 3
           dropCnt := if bit w 3 then 0 else x.dropCnt }

/-- R122: WCTL issues a load where page loading was in force or becomes so. -/
theorem wctlWriteOp_eq (s : State) (p : Port) (w : Word) : wctlWriteOp s p w =
    if pageMode s p || pageMode (setPort s p (wctlWritten (getPort s p) w)) p then
      issueLoad (setPort s p (wctlWritten (getPort s p) w)) p
    else setPort s p (wctlWritten (getPort s p) w) := rfl

theorem wctlWriteOp_frame (s : State) (p : Port) (w : Word) :
    wctlWriteOp s p w = setPort s p (getPort (wctlWriteOp s p w) p) := by
  rw [wctlWriteOp_eq]
  split
  · rw [issueLoad_frame, setPort_setPort, getPort_setPort]
  · rw [getPort_setPort]

theorem exec_wctlWrite {s : State} {p : Port} {v w : Word} (h : reachesRule s p 0x0C v w) :
    exec (.wctlWrite p v) s = .next (wctlWriteOp (gen1Empty s p 0x0C) p w) :=
  congrArg Host.Outcome.next (gate_reach h)

/-! ### Reads of WDATA (R109, R111, R114, R119 to R121) -/

/-- A finished read leaves all of its port but its data and Gen1's latches. -/
theorem getPort_readDone (s : State) (p : Port) (a : Fin 64) (v : Word) : getPort (readDone s p a v) p =
    { getPort s p with
      rdata := (getPort (readDone s p a v) p).rdata, g1rd := (getPort (readDone s p a v) p).g1rd
      ale := (getPort (readDone s p a v) p).ale } := by
  unfold readDone
  split
  · next h => cases h.1; rfl
  · rw [getPort_setPort]

/-- The end of a WDATA read: its word is answered, or WAIT# holds it. -/
def wdataAnswered (p : Port) (r : Option Word × State) : State :=
  match r.1 with
  | some w => readDone r.2 p 0x0B w
  | none => r.2

/-- A WDATA read reaches the prefetch of the captured state. -/
theorem exec_wdataRead {s : State} {p : Port} (h : readable s p) :
    exec (.wdataRead p) s = .next (wdataAnswered p (wdataReadOp (captured s p) p)) := by
  have hreach : (portLive s p && s.pw.face != .bootFace && offOf 0x0B == 0x16) = true := by
    rw [h.1, h.2]
    rfl
  exact congrArg Host.Outcome.next ((if_pos hreach).trans (by
    rcases wdataReadOp (captured s p) p with ⟨_ | w, t⟩ <;> rfl))

theorem exec_wdataRead_some {s t : State} {p : Port} {w : Word} (h : readable s p)
    (hop : wdataReadOp (captured s p) p = (some w, t)) : exec (.wdataRead p) s = .next (readDone t p 0x0B w) := by
  rw [exec_wdataRead h, hop]
  rfl

theorem wdataReadOp_word {s : State} {p : Port} {w : Word} {rest : List Word} (h : (getPort s p).pre = w :: rest) :
    wdataReadOp s p = (some (serveRead s p w rest).1, (serveRead s p w rest).2) := by
  simp [wdataReadOp, h]

/-- R114, R120: where WAIT# cannot hold it, a read without a valid word is refused. -/
theorem wdataReadOp_refused {s : State} {p : Port} (h : (getPort s p).pre = []) (hw : waits s p = false) :
    wdataReadOp s p = (some 0, refuse s p eSTATE 0x16) := by
  simp [wdataReadOp, h, hw, refuseRead]

/-- R119: in Gen3 WAIT# holds a read of Port P without a valid word. -/
theorem wdataReadOp_held {s : State} {p : Port} (h : (getPort s p).pre = []) (hw : waits s p = true) :
    wdataReadOp s p = (none, setPort s p { getPort s p with held := .read }) := by
  simp [wdataReadOp, h, hw]

/-- R109, R111: a read outside page mode advances the window and issues the next load. -/
theorem serveRead_word {s : State} {p : Port} (h : pageMode s p = false) (w : Word) (rest : List Word) :
    serveRead s p w rest = (w, issueLoad (setPort s p { getPort s p with waddr := advanced (getPort s p) }) p) := by
  simp [serveRead, h]

/-! ### What Port S keeps while it waits for the arbiter (R140, R224) -/

/-- Port S's part of the traffic: its write buffer, its window address and AINC. -/
def Traffic.portS (q : Traffic) : List BufEntry × CAddr × Bool := (q.bufS, q.waddrS, q.aincS)

@[simp] theorem Traffic.portS_ite (c : Prop) [Decidable c] (q r : Traffic) :
    (if c then q else r).portS = if c then q.portS else r.portS := apply_ite Traffic.portS c q r

@[simp] theorem portS_fold (s : State) (buf : List BufEntry) (fits : Bool) (fifo : List Word) :
    (Traffic.mk buf s.portS.buf fits fifo s.portS.waddr s.portS.ainc).portS = (traffic s).portS := (rfl)

@[simp] theorem portS_setPortP (s : State) (x : PortSt) :
    (traffic (setPort s .portP x)).portS = (traffic s).portS := (rfl)

@[simp] theorem portS_afterWrite (s : State) : (traffic (afterWrite s .portP)).portS = (traffic s).portS := by
  rw [afterWrite_frame, portS_setPortP]

@[simp] theorem portS_pushEntry (s : State) (e : BufEntry) :
    (traffic (pushEntry s .portP e)).portS = (traffic s).portS := (rfl)

@[simp] theorem portS_popEntryP (s : State) (rest : List BufEntry) :
    (traffic (popEntry s .portP rest)).portS = (traffic s).portS := (rfl)

@[simp] theorem portS_serveRead (s : State) (w : Word) (rest : List Word) :
    (traffic (serveRead s .portP w rest).2).portS = (traffic s).portS := by
  unfold serveRead
  dsimp only
  split
  · split <;> simp
  · simp

@[simp] theorem portS_wdataReadOp (s : State) : (traffic (wdataReadOp s .portP).2).portS = (traffic s).portS := by
  unfold wdataReadOp
  split
  · exact portS_serveRead s _ _
  · split <;> simp

@[simp] theorem portS_wdataWriteOp (s : State) (v : Word) :
    (traffic (wdataWriteOp s .portP v)).portS = (traffic s).portS := by
  unfold wdataWriteOp
  dsimp only
  split
  · simp
  · split <;> simp

@[simp] theorem portS_dcommitWrite (s : State) (v : Word) :
    (traffic (dcommitWrite s .portP v)).portS = (traffic s).portS := by
  unfold dcommitWrite
  split
  · simp
  · split <;> simp

@[simp] theorem portS_atagWrite (s : State) (v : Word) :
    (traffic (atagWrite s .portP v)).portS = (traffic s).portS := by
  unfold atagWrite
  split
  · simp
  · split <;> simp

@[simp] theorem portS_pagePost (s : State) (a : CAddr) (v : Word) :
    (traffic (pagePost s .portP a v)).portS = (traffic s).portS := by
  unfold pagePost
  split <;> simp

/-- R118: the access that WAIT# holds is Port P's. -/
@[simp] theorem portS_resumeHeld (s : State) : (traffic (resumeHeld s)).portS = (traffic s).portS := by
  unfold resumeHeld
  dsimp only
  split
  · rfl
  · split <;> next heq => simpa [heq] using portS_wdataReadOp { s with portP := { s.portP with held := .none } }
  · simp
  · split <;> simp
  · simp
  · simp

@[simp] theorem portS_entryServedP (s : State) (ups : List Upset) :
    (traffic (entryServed s .portP ups)).portS = (traffic s).portS := by
  unfold entryServed
  split <;> simp

@[simp] theorem portS_tagServedP (s : State) (ups : List Upset) :
    (traffic (tagServed s .portP ups)).portS = (traffic s).portS := by
  unfold tagServed
  split <;> simp

@[simp] theorem portS_writebackServed (s : State) (ups : List Upset) :
    (traffic (writebackServed s ups)).portS = (traffic s).portS := by
  unfold writebackServed
  split
  · rfl
  · dsimp only
    split <;> simp

/-- Whom the arbiter must grant so that the front of a buffer of Port S leaves it: a window write leaves at the window's
access, a message word at the mailbox's (R224). -/
def frontOwner (own : Grant) : List BufEntry → Prop
  | .wdata _ _ :: _ => own = .window .portS
  | .atag _ :: _ => own = .low 3
  | _ => True

theorem messageReq_of_atag {s : State} {p : Port} (h : messageReq s p = true) :
    ∃ v rest, (getPort s p).buf = .atag v :: rest := by
  unfold messageReq at h
  split at h
  · next v rest hbuf => exact ⟨v, rest, hbuf⟩
  · cases h

section
variable {s : State} {own : Grant} (hfront : frontOwner own s.portS.buf)
include hfront

theorem portS_windowServed {p : Port} (hown : own ≠ .window p) :
    (traffic (windowServed s p)).portS = (traffic s).portS := by
  unfold windowServed
  split
  · next a v rest hbuf =>
    cases p
    · simp
    · rw [show s.portS.buf = .wdata a v :: rest from hbuf] at hfront
      exact absurd hfront hown
  · simp
  · rfl

theorem portS_lowServed {lvl : Nat} (hown : own ≠ .low lvl) :
    (traffic (lowServed s lvl)).portS = (traffic s).portS := by
  unfold lowServed
  split
  · have hmsg : messageReq s .portS = false := by
      refine Bool.eq_false_iff.mpr fun hmsg => hown ?_
      obtain ⟨v, rest, hbuf⟩ := messageReq_of_atag hmsg
      rwa [show s.portS.buf = .atag v :: rest from hbuf] at hfront
    simp only [hmsg]
    split <;> simp
  · simp
  · simp
  · simp
  · split <;> simp
  · simp

end

theorem portS_buf {s t : State} (h : (traffic t).portS = (traffic s).portS) : t.portS.buf = s.portS.buf :=
  congrArg Prod.fst h

/-- What goes before an access of Port S leaves Port S's window. -/
theorem portS_servedFirst {own : Grant} (n : Nat) {s : State} (hfront : frontOwner own s.portS.buf) :
    (traffic (servedFirst own n s)).portS = (traffic s).portS := by
  induction n generalizing s with
  | zero => rfl
  | succ n ih =>
    have hstep {t : State} (ht : (traffic t).portS = (traffic s).portS) :
        (traffic (servedFirst own n t)).portS = (traffic s).portS :=
      (ih (by rwa [portS_buf ht])).trans ht
    unfold servedFirst
    split
    · split
      · rfl
      · next hown => exact hstep (portS_windowServed hfront hown)
    · split
      · rfl
      · next hown => exact hstep (portS_lowServed hfront hown)
    · rfl

theorem portS_arbWaits {s : State} {own : Grant} (hfront : frontOwner own s.portS.buf) :
    (traffic (arbWaits s own)).portS = (traffic s).portS := portS_servedFirst 32 hfront

/-- The state in which the message word of Port S is taken. -/
theorem portS_messageWaits {s : State} (hfront : frontOwner (.low 3) s.portS.buf) :
    (traffic (if messageReq s .portS then arbWaits s (.low 3) else s)).portS = (traffic s).portS := by
  split
  · exact portS_arbWaits hfront
  · rfl

/-- An entry that leaves Port S's buffer leaves the rest of it and the window. -/
theorem portS_popped {s : State} {e : BufEntry} {rest : List BufEntry} {w : CAddr} {i : Bool}
    (hs : (traffic s).portS = (e :: rest, w, i)) :
    s.portS.buf = e :: rest ∧ (traffic (popEntry s .portS rest)).portS = (rest, w, i) :=
  ⟨congrArg Prod.fst hs, congrArg (fun q => (rest, q.2)) hs⟩

theorem portS_entryServed {s : State} {a : CAddr} {v : Word} {rest : List BufEntry} {w : CAddr} {i : Bool}
    (hs : (traffic s).portS = (.wdata a v :: rest, w, i)) (ups : List Upset) :
    (traffic (entryServed s .portS ups)).portS = (rest, w, i) := by
  obtain ⟨hbuf, hpop⟩ := portS_popped hs
  rw [entryServed, show (getPort s .portS).buf = _ from hbuf]
  simp [hpop]

theorem portS_commitServed {s : State} {v : Word} {rest : List BufEntry} {w : CAddr} {i : Bool}
    (hs : (traffic s).portS = (.dcommit v :: rest, w, i)) :
    (traffic (commitServed s .portS)).portS = (rest, w, i) := by
  obtain ⟨hbuf, hpop⟩ := portS_popped hs
  rw [commitServed, show (getPort s .portS).buf = _ from hbuf]
  simp [hpop]

theorem portS_tagServed {s : State} {v : Word} {rest : List BufEntry} {w : CAddr} {i : Bool}
    (hs : (traffic s).portS = (.atag v :: rest, w, i)) (ups : List Upset) :
    (traffic (tagServed s .portS ups)).portS = (rest, w, i) := by
  obtain ⟨hbuf, hpop⟩ := portS_popped hs
  rw [tagServed, show (getPort s .portS).buf = _ from hbuf]
  simp [hpop]

/-- R140: the entries before a frame leave one after another, and the window stays where it is. -/
theorem portS_portSReady (n : Nat) {s : State} {buf : List BufEntry} {w : CAddr} {i : Bool}
    (hs : (traffic s).portS = (buf, w, i)) : (traffic (portSReady n s)).portS = (buf.drop n, w, i) := by
  induction n generalizing s buf with
  | zero => exact hs
  | succ n ih =>
    obtain rfl : s.portS.buf = buf := congrArg Prod.fst hs
    unfold portSReady
    split
    · next hbuf =>
      have hwait := portS_arbWaits (s := s) (own := .window .portS) (by simp [frontOwner, hbuf])
      rw [hbuf] at hs ⊢
      exact ih (portS_entryServed (hwait.trans hs) [])
    · next hbuf =>
      rw [hbuf] at hs ⊢
      exact ih (portS_commitServed hs)
    · next hbuf =>
      have hwait := portS_messageWaits (s := s) (by simp [frontOwner, hbuf])
      rw [hbuf] at hs ⊢
      exact ih (portS_tagServed (hwait.trans hs) [])
    · next hbuf =>
      have hwait := portS_arbWaits (s := s) (own := .window .portS) (by simp [frontOwner, hbuf])
      rw [hbuf] at hs ⊢
      split
      · simpa using ih ((congrArg Traffic.portS (traffic_loadServed _ _ _ _)).trans (hwait.trans hs))
      · exact hs

/-- A load that was done is no longer to do (R111). -/
theorem load_loadServed (s : State) (p : Port) (l : Load) (ups : List Upset) :
    (getPort (loadServed s p l ups) p).load = none := by
  rw [loadServed, getPort_setPort, apply_ite PortSt.load]
  exact ite_self _

/-- With nothing before a frame nothing waits. -/
theorem portSReady_ready (n : Nat) {s : State} (hbuf : s.portS.buf = []) (hload : s.portS.load = none) :
    portSReady n s = s := by
  cases n with
  | zero => rfl
  | succ n => simp [portSReady, hbuf, hload]

/-- R140: before a frame the load behind the entries is done too. -/
theorem load_portSReady (n : Nat) {s : State} {buf : List BufEntry} {w : CAddr} {i : Bool}
    (hs : (traffic s).portS = (buf, w, i)) (hn : buf.length < n) : (portSReady n s).portS.load = none := by
  induction n generalizing s buf with
  | zero => omega
  | succ n ih =>
    obtain rfl : s.portS.buf = buf := congrArg Prod.fst hs
    unfold portSReady
    split
    · next hbuf =>
      have hwait := portS_arbWaits (s := s) (own := .window .portS) (by simp [frontOwner, hbuf])
      rw [hbuf] at hs hn
      exact ih (portS_entryServed (hwait.trans hs) []) (Nat.lt_of_succ_lt_succ hn)
    · next hbuf =>
      rw [hbuf] at hs hn
      exact ih (portS_commitServed hs) (Nat.lt_of_succ_lt_succ hn)
    · next hbuf =>
      have hwait := portS_messageWaits (s := s) (by simp [frontOwner, hbuf])
      rw [hbuf] at hs hn
      exact ih (portS_tagServed (hwait.trans hs) []) (Nat.lt_of_succ_lt_succ hn)
    · next hbuf =>
      have hwait := portS_arbWaits (s := s) (own := .window .portS) (by simp [frontOwner, hbuf])
      split
      · next l _ =>
        have hload := load_loadServed (arbWaits s (.window .portS)) .portS l []
        have hempty : (loadServed (arbWaits s (.window .portS)) .portS l []).portS.buf = [] := by
          rw [portS_buf ((congrArg Traffic.portS (traffic_loadServed _ _ _ _)).trans hwait), hbuf]
        rw [portSReady_ready n hempty hload]
        exact hload
      · next hload => exact hload

/-! ### The state that a capture finds (R140) -/

/-- Port P's accesses find the state as it stands. -/
@[simp] theorem captured_portP (s : State) : captured s .portP = s := if_neg (fun h => nomatch h.1)

/-- R140: a capture finds the window of its port where it is. -/
theorem captured_window (s : State) (p : Port) : (getPort (captured s p) p).waddr = (getPort s p).waddr ∧
    (getPort (captured s p) p).ainc = (getPort s p).ainc := by
  cases p with
  | portP => simp
  | portS =>
    have h := portS_portSReady 34 (rfl : (traffic s).portS = _)
    unfold captured
    split
    · exact ⟨congrArg (·.2.1) h, congrArg (·.2.2) h⟩
    · exact ⟨rfl, rfl⟩

/-- R140: a frame finds Port S's buffer empty and its load done. -/
theorem captured_portS_empty {s : State} (hact : active s = true) (hq : queueBounds s) :
    (captured s .portS).portS.buf = [] ∧ (captured s .portS).portS.load = none := by
  have hlen : s.portS.buf.length ≤ 32 := ((queueBounds_iff s).mp hq).2.1
  have hbuf := congrArg Prod.fst (portS_portSReady 34 (rfl : (traffic s).portS = _))
  have hload := load_portSReady 34 (rfl : (traffic s).portS = _) (show s.portS.buf.length < 34 by omega)
  rw [captured, if_pos ⟨rfl, hact⟩]
  exact ⟨hbuf.trans (List.drop_eq_nil_of_le (show s.portS.buf.length ≤ 34 by omega)), hload⟩

/-! ### Loads of the prefetch (R111, R121) -/

/-- The words that a load brings from the SRAM. -/
def loadedWords (mem : List Host.Cell) (l : Load) : List Word :=
  if l.page then (List.range ((8 - l.addr.toNat % 8) / 2)).map fun k => Cellar.getWord mem (l.addr.toNat + 2 * k)
  else [Cellar.getWord mem l.addr.toNat]

@[simp] theorem getPort_grantL1 (s : State) (p q : Port) : getPort (grantL1 s p) q = getPort s q := by
  cases p <;> cases q <;> rfl

@[simp] theorem mem_grantL1 (s : State) (p : Port) : (grantL1 s p).mem = s.mem := by
  cases p <;> rfl

@[simp] theorem getPort_upsets (s : State) (ups : List Upset) (p : Port) : getPort (upsets s ups) p = getPort s p := by
  rw [upsets_frame]
  cases p <;> rfl

@[simp] theorem getPort_eccRead (s : State) (w : Nat) (p : Port) : getPort (eccRead s w) p = getPort s p := by
  rw [eccRead_frame]
  cases p <;> rfl

@[simp] theorem mem_eccRead (s : State) (w : Nat) : (eccRead s w).mem = s.mem := by
  rw [eccRead_frame]

theorem loadServed_sram (s : State) (p : Port) (l : Load) (ups : List Upset) (hfollow : l.follow = false)
    (hpage : isPage l.addr.toNat = false) (hsram : noSram l.addr.toNat = false) :
    loadServed s p l ups = setPort (eccRead (grantL1 (upsets s ups) p) (eccWord l.addr.toNat)) p { getPort s p with
      load := none, pre := loadedWords (upsets s ups).mem l, fresh := true } := by
  have hwords : (if l.page then loadPage (grantL1 (upsets s ups) p) p l.addr.toNat ((8 - l.addr.toNat % 8) / 2)
      else loadWords (grantL1 (upsets s ups) p) p l.addr.toNat 1) = (loadedWords (upsets s ups).mem l,
        eccRead (grantL1 (upsets s ups) p) (eccWord l.addr.toNat)) := by
    cases hl : l.page <;> simp [loadedWords, hl, loadPage, loadWords, winRead, readWord, hpage, hsram]
  rw [loadServed]
  simp only [hwords, hfollow]
  simp

theorem getPort_arbServe {s u : State} {own : Grant} (h : arbServe s own = some u) (p : Port) :
    getPort u p = getPort s p := by
  rw [arbServe_frame h]
  cases p <;> rfl

theorem mem_arbServe {s u : State} {own : Grant} (h : arbServe s own = some u) : u.mem = s.mem := by
  rw [arbServe_frame h]

/-- With nothing held by WAIT# there is nothing to resume. -/
theorem resumeHeld_none {s : State} (h : s.portP.held = .none) : resumeHeld s = s := by simp [resumeHeld, h]

theorem held_setPort {s : State} {p : Port} {x : PortSt} (h : x.held = (getPort s p).held) :
    (setPort s p x).portP.held = s.portP.held := by
  cases p
  · exact h
  · rfl

/-- R111: a granted load is done in the state in which the arbiter grants it. -/
theorem loadDone_sram {s u : State} {p : Port} {l : Load} (ups : List Upset) (hload : (getPort s p).load = some l)
    (hbehind : l.behind = 0) (hdom : domains s = true) (hserve : arbServe s (.window p) = some u)
    (hheld : s.portP.held = .none) (hfollow : l.follow = false) (hpage : isPage l.addr.toNat = false)
    (hsram : noSram l.addr.toNat = false) :
    loadDone s p ups = setPort (eccRead (grantL1 (upsets u ups) p) (eccWord l.addr.toNat)) p { getPort s p with
      load := none, pre := loadedWords (upsets u ups).mem l, fresh := true } := by
  have hserved := loadServed_sram u p l ups hfollow hpage hsram
  have hports : getPort (eccRead (grantL1 (upsets u ups) p) (eccWord l.addr.toNat)) .portP = getPort s .portP := by
    rw [getPort_eccRead, getPort_grantL1, getPort_upsets, getPort_arbServe hserve]
  have hkeep : (loadServed u p l ups).portP.held = .none := by
    rw [hserved, held_setPort (by simp)]
    exact (congrArg PortSt.held hports).trans hheld
  have hdone : loadDone s p ups = loadServed u p l ups := by
    simp [loadDone, hload, hbehind, hdom, granted_of hserve, resumeHeld_none hkeep]
  rw [hdone, hserved, getPort_arbServe hserve]

/-! ### What a WCTL write leaves (R122, R125, R127) -/

theorem pageMode_issueLoad (s : State) (p : Port) : pageMode (issueLoad s p) p = pageMode s p :=
  pageMode_congr (by cases p <;> rfl) (by rw [getPort_issueLoad]) (by rw [getPort_issueLoad])

theorem pageMode_wctlWriteOp (s : State) (p : Port) (w : Word) :
    pageMode (wctlWriteOp s p w) p = pageMode (setPort s p (wctlWritten (getPort s p) w)) p := by
  rw [wctlWriteOp_eq]
  split
  · exact pageMode_issueLoad _ p
  · rfl

/-- R122: where page loading was in force or becomes so, what the window's address holds is loaded anew. -/
theorem getPort_wctlWriteOp_anew {s : State} {p : Port} {w : Word}
    (h : pageMode s p = true ∨ pageMode (wctlWriteOp s p w) p = true) : getPort (wctlWriteOp s p w) p =
      { wctlWritten (getPort s p) w with
        pre := [], follow := none, fresh := true
        load := some { addr := (getPort s p).waddr, behind := (getPort s p).buf.length
                       page := pageMode (wctlWriteOp s p w) p, follow := false } } := by
  rw [pageMode_wctlWriteOp] at h ⊢
  rw [wctlWriteOp_eq, if_pos (by simpa using h), getPort_issueLoad, getPort_setPort]
  rfl

theorem getPort_wctlWriteOp_kept {s : State} {p : Port} {w : Word} (hwas : pageMode s p = false)
    (hnow : pageMode (wctlWriteOp s p w) p = false) :
    getPort (wctlWriteOp s p w) p = wctlWritten (getPort s p) w := by
  rw [pageMode_wctlWriteOp] at hnow
  rw [wctlWriteOp_eq, if_neg (by simp [hwas, hnow]), getPort_setPort]

/-- R108: the two registers of WADDR read the window address. -/
theorem regValue_waddr (s : State) (p : Port) : regValue s p 0x12 = wordOf (getPort s p).waddr.toNat ∧
    regValue s p 0x14 = wordOf ((getPort s p).waddr.toNat / 0x10000) := by
  have hlt := (getPort s p).waddr.isLt
  constructor
  · apply BitVec.eq_of_toNat_eq
    simp [regValue, wordOf]
  · apply BitVec.eq_of_toNat_eq
    have hmod : (getPort s p).waddr.toNat / 65536 % 16 = (getPort s p).waddr.toNat / 65536 := by omega
    simp [regValue, wordOf, Nat.shiftRight_eq_div_pow, hmod]

/-- R109, R111: a WDATA read outside page mode, of the state that its capture finds. -/
theorem wdataRead_word {s : State} {p : Port} {w : Word} {rest : List Word} (hpre : (getPort s p).pre = w :: rest)
    (hpage : pageMode s p = false) : wdataReadOp s p =
      (some w, issueLoad (setPort s p { getPort s p with waddr := advanced (getPort s p) }) p) := by
  rw [wdataReadOp_word hpre, serveRead_word hpage]

/-- R102: what a finished read answers on its port. -/
theorem rdata_readDone {s t : State} {p : Port} {a : Fin 64} {v : Word} (h : p = .portP → t.pw.gen = s.pw.gen) :
    (getPort (readDone t p a v) p).rdata = onPortBus s p v := by
  rw [readDone_rdata]
  cases p
  · rw [h rfl]; rfl
  · rfl

/-- R114, R120: the answer of a refused read is 0; beside it the read leaves the window, the record of the refusal, the
flags and the Cellar. -/
theorem readDone_refused (t : State) (p : Port) (a : Fin 64) : (getPort (readDone t p a 0) p).rdata = 0 ∧
    (getPort (readDone t p a 0) p).waddr = (getPort t p).waddr ∧
    (getPort (readDone t p a 0) p).held = (getPort t p).held ∧ (readDone t p a 0).err = t.err ∧
    (readDone t p a 0).irqStat = t.irqStat ∧ (readDone t p a 0).mem = t.mem := by
  unfold readDone
  split
  · next h => cases h.1; exact ⟨rfl, rfl, rfl, rfl, rfl, rfl⟩
  · simp

theorem getPort_refuse (s : State) (p q : Port) (code : Byte) (off : Nat) :
    getPort (refuse s p code off) q = getPort s q := by
  cases q <;> rfl

/-- R121: page loading is Gen3's, with PAGE and AINC. -/
theorem pageMode_portP {s : State} (h : pageMode s .portP = true) :
    s.pw.gen = .gen3 ∧ s.portP.page = true ∧ s.portP.ainc = true := by
  simpa [pageMode, and_assoc] using h

theorem readDone_gen3 {s : State} (h : s.pw.gen = .gen3) (a : Fin 64) (v : Word) :
    readDone s .portP a v = { s with portP := { s.portP with rdata := v } } :=
  if_neg (by simp [h])

/-- R121: Port P with its window moved by a WDATA read in page mode: the first one of a page issues the load of the page
behind it. -/
def pageAdvanced (x : PortSt) : PortSt :=
  let next : Load := { addr := nextBlock x.waddr, behind := x.buf.length, page := true, follow := true }
  { x with waddr := x.waddr + 2, fresh := false, load := if x.fresh then some next else x.load }

/-- R121: the last word of a page hands over to the page that follows, where that is loaded. -/
def pageServed (x : PortSt) (rest : List Word) : PortSt :=
  match rest, x.follow with
  | [], some q => { pageAdvanced x with pre := q, follow := none, fresh := true }
  | _, _ => { pageAdvanced x with pre := rest }

theorem pageServed_window (x : PortSt) (rest : List Word) : (pageServed x rest).waddr = x.waddr + 2 ∧
    (pageServed x rest).buf = x.buf ∧ (pageServed x rest).load = if x.fresh then
      some { addr := nextBlock x.waddr, behind := x.buf.length, page := true, follow := true } else x.load := by
  unfold pageServed
  split <;> exact ⟨rfl, rfl, rfl⟩

theorem pageServed_more {x : PortSt} {rest : List Word} (h : rest ≠ []) : (pageServed x rest).pre = rest ∧
    (pageServed x rest).follow = x.follow ∧ (pageServed x rest).fresh = false := by
  unfold pageServed
  split
  · exact absurd rfl h
  · exact ⟨rfl, rfl, rfl⟩

theorem pageServed_last {x : PortSt} {q : List Word} (h : x.follow = some q) : (pageServed x []).pre = q ∧
    (pageServed x []).follow = none ∧ (pageServed x []).fresh = true := by
  simp [pageServed, h]

theorem serveRead_page {s : State} (h : pageMode s .portP = true) (w : Word) (rest : List Word) :
    serveRead s .portP w rest = (w, setPort s .portP (pageServed s.portP rest)) := by
  obtain ⟨-, -, hainc⟩ := pageMode_portP h
  unfold serveRead pageServed pageAdvanced advanced
  rw [if_pos h]
  cases hfresh : s.portP.fresh <;> cases rest <;> cases hfollow : s.portP.follow <;>
    simp [getPort, hfresh, hfollow, hainc]

@[simp] theorem pageMode_gen1Empty (s : State) (p : Port) (a : Fin 64) : pageMode (gen1Empty s p a) p = pageMode s p :=
  pageMode_congr (by simp) (by simp) (by simp)

/-- Settles O23: a WADDR or WCTL write changes its port as the window's rules say; a WDATA read answers the prefetch
that its capture finds, and moves the window; a capture leaves the window where it is. -/
theorem windowControlWritesAndReads : Obligations.WindowControlWritesAndReads := by
  unfold Obligations.WindowControlWritesAndReads
  refine ⟨⟨?value, ?waddr, ?wctl⟩, ?word, ?page, ?pageWaddr, ?pageLoad, ?refused, ?held, ?timeout, ?capture⟩
  case value => exact fun p s => regValue_waddr s p
  case waddr =>
    intro p high v w s h
    refine ⟨_, exec_waddrWrite h, waddrWriteOp_frame _ _ _ _, ?_⟩
    rw [getPort_waddrWriteOp]
    simp [waddrWritten]
  case wctl =>
    intro p v w s h
    generalize hu : wctlWriteOp (gen1Empty s p 0x0C) p w = u
    have hanew := getPort_wctlWriteOp_anew (s := gen1Empty s p 0x0C) (p := p) (w := w)
    have hkept := getPort_wctlWriteOp_kept (s := gen1Empty s p 0x0C) (p := p) (w := w)
    rw [hu, pageMode_gen1Empty] at hanew hkept
    refine ⟨u, hu ▸ exec_wctlWrite h, hu ▸ wctlWriteOp_frame _ _ _, ?_⟩
    by_cases hpage : pageMode s p = true ∨ pageMode u p = true
    · simp only [hanew hpage, wctlWritten, getPort_gen1Empty_window, true_and, implies_true]
      exact fun hs hp => absurd hpage (by simp [hs, hp])
    · obtain ⟨hwas, hnow⟩ := not_or.mp hpage
      simp [hkept (by simpa using hwas) (by simpa using hnow), wctlWritten, hpage]
  case word =>
    rintro p w rest s _ h rfl hpre hpage
    obtain ⟨hwaddr, hainc⟩ := captured_window s p
    have hpage' : pageMode (captured s p) p = false := by
      cases p
      · rwa [captured_portP]
      · rfl
    refine ⟨_, exec_wdataRead_some h (wdataRead_word hpre hpage'), ?_, ?_, ?_⟩
    · rw [readDone_frame, issueLoad_frame]; simp
    · exact rdata_readDone fun hp => by subst hp; rw [captured_portP, issueLoad_frame]; simp
    · rw [getPort_readDone, getPort_windowMoved, hpage']
      simp [advanced, hwaddr, hainc]
  case page =>
    intro w rest s h hpage hpre
    obtain ⟨hgen, -, -⟩ := pageMode_portP hpage
    have hop : wdataReadOp (captured s .portP) .portP = (some w, setPort s .portP (pageServed s.portP rest)) := by
      rw [captured_portP, wdataReadOp_word (p := .portP) hpre, serveRead_page hpage]
    refine ⟨_, exec_wdataRead_some h hop, ?_⟩
    rw [readDone_gen3 (s := setPort s .portP (pageServed s.portP rest)) hgen]
    obtain ⟨hwaddr, hbuf, hload⟩ := pageServed_window s.portP rest
    refine ⟨rfl, rfl, hwaddr, hbuf, fun hf => ?_, fun hf => ?_, pageServed_more, ?_⟩
    · exact hload.trans (if_pos hf)
    · exact hload.trans (if_neg (by simp [hf]))
    · rintro rfl q hfollow
      exact pageServed_last hfollow
  case pageWaddr =>
    intro v w s h hpage
    have hport := getPort_waddrWriteOp s .portP false w
    rw [hpage] at hport
    refine ⟨waddrWriteOp s .portP false w, ?_, ?_⟩
    · rw [exec_waddrWrite (high := false) h, gen1Empty_gen3 (pageMode_portP hpage).1]
    · have hwaddr : (waddrWriteOp s .portP false w).portP.waddr = waddrWritten s.portP.waddr false w :=
        congrArg PortSt.waddr hport
      rw [hwaddr]
      exact ⟨congrArg PortSt.pre hport, congrArg PortSt.follow hport, congrArg PortSt.load hport⟩
  case pageLoad =>
    intro l s u hload hbehind hpage hfollow hdom hserve hheld hcask hsram
    refine ⟨_, congrArg Host.Outcome.next (loadDone_sram [] hload hbehind hdom hserve hheld hfollow hcask hsram), ?_⟩
    have hmem : (upsets u []).mem = s.mem := mem_arbServe hserve
    simp [loadedWords, hpage, setPort, hmem]
  case refused =>
    rintro p s _ h rfl hpre hgen
    have hwait : waits (captured s p) p = false := by
      cases p
      · simpa [waits] using hgen rfl
      · rfl
    refine ⟨_, exec_wdataRead_some h (wdataReadOp_refused hpre hwait), ?_⟩
    obtain ⟨hdata, hkept, -, herr, hirq, hmem⟩ := readDone_refused (refuse (captured s p) p eSTATE 0x16) p 0x0B
    exact ⟨hdata, by rw [hkept, getPort_refuse, (captured_window s p).1], herr, hirq, hmem⟩
  case held =>
    intro s h hpre hgen
    rw [exec_wdataRead h, captured_portP, wdataReadOp_held (p := .portP) hpre (by simp [waits, hgen])]
    rfl
  case timeout =>
    intro s hheld
    refine ⟨_, congrArg Host.Outcome.next (if_pos hheld), ?_⟩
    obtain ⟨hdata, hkept, hfree, herr, -, hmem⟩ := readDone_refused
      (refuse { s with portP := { s.portP with held := .none } } .portP eSTATE 0x16) .portP 0x0B
    exact ⟨hfree, hdata, hkept, herr, hmem⟩
  case capture => exact fun s => ⟨captured_portP s, captured_portS_empty⟩

/-! ### A window write (R109, R110, R115, R117, R118) -/

@[simp] theorem afterWrite_keys (s : State) (p : Port) : (afterWrite s p).keys = s.keys := by
  rw [afterWrite_frame, setPort_keys]

@[simp] theorem afterWrite_err (s : State) (p : Port) : (afterWrite s p).err = s.err := by
  rw [afterWrite_frame, setPort_err]

@[simp] theorem afterWrite_mem (s : State) (p : Port) : (afterWrite s p).mem = s.mem := by
  rw [afterWrite_frame, setPort_mem]

/-- The latch that a write empties and the capture leave the window where it is. -/
theorem captured_gen1Empty_window (s : State) (p : Port) (a : Fin 64) :
    (getPort (captured (gen1Empty s p a) p) p).waddr = (getPort s p).waddr ∧
      (getPort (captured (gen1Empty s p a) p) p).ainc = (getPort s p).ainc := by
  obtain ⟨hwaddr, hainc⟩ := captured_window (gen1Empty s p a) p
  simp [hwaddr, hainc]

/-- A WDATA write reaches its rule in the state that its capture finds. -/
theorem exec_wdataWrite {s c : State} {p : Port} {v w : Word} (h : reachesRule s p 0x0B v w)
    (hc : captured (gen1Empty s p 0x0B) p = c) : exec (.wdataWrite p v) s = .next (wdataWriteOp c p w) := by
  subst hc
  exact congrArg Host.Outcome.next (gate_reach h)

section
variable {c : State} {p : Port} {w : Word}

/-- R115: a write that passes its checks and finds room takes an entry. -/
theorem wdataWriteOp_posted (hok : winError c p (getPort c p).waddr.toNat w = none) (hroom : roomFor c p = .free) :
    wdataWriteOp c p w = afterWrite (pushEntry (keysCapture c (getPort c p).waddr.toNat w) p
      (.wdata (getPort c p).waddr w)) p := by
  simp [wdataWriteOp, hok, hroom]

theorem wdataWriteOp_refused {e : Byte} (hbad : winError c p (getPort c p).waddr.toNat w = some e) :
    wdataWriteOp c p w = afterWrite (refuseCell c p e (getPort c p).waddr.toNat) p := by
  simp [wdataWriteOp, hbad]

/-- R117: without WAIT# a write that finds the buffer full is dropped. -/
theorem wdataWriteOp_dropped (hok : winError c p (getPort c p).waddr.toNat w = none) (hroom : roomFor c p = .full) :
    wdataWriteOp c p w = afterWrite (dropWrite c p 0x16) p := by
  simp [wdataWriteOp, hok, hroom]

/-- R118: in Gen3 WAIT# holds it. -/
theorem wdataWriteOp_held (hok : winError c p (getPort c p).waddr.toNat w = none) (hroom : roomFor c p = .hold) :
    wdataWriteOp c p w = setPort c p { getPort c p with held := .wdata w } := by
  simp [wdataWriteOp, hok, hroom]

theorem roomFor_free (h : (getPort c p).buf.length < 32) : roomFor c p = .free := if_pos h

theorem roomFor_full (h : 32 ≤ (getPort c p).buf.length) (hwait : waits c p = false) : roomFor c p = .full := by
  rw [roomFor, if_neg (by omega), hwait]
  rfl

theorem roomFor_hold (h : 32 ≤ (getPort c p).buf.length) (hwait : waits c p = true) : roomFor c p = .hold := by
  rw [roomFor, if_neg (by omega), hwait]
  rfl

/-- R359: what the capture of a word keeps of the Trellis. -/
theorem keysCapture_keys (a : Nat) (hkeys : keysWord a = true) : (keysCapture c a w).keys = { c.keys with
    regAt := some c.now, was := if c.keys.regAt = some c.now then c.keys.was else keysStand c
    capt := c.keys.capt.filter (fun e => e.1 = c.now ∨ c.keys.scanAt = some e.1) ++ [(c.now, a, w)] } := by
  unfold keysCapture keepSettings
  rw [if_pos hkeys]
  split
  · next h => simp [← h]
  · rfl

theorem keysCapture_none {a : Nat} (hkeys : keysWord a = false) : keysCapture c a w = c :=
  if_neg (by simp [hkeys])

/-- R176: the record of a refused Cellar access names its address. -/
theorem refuseCell_err (e : Byte) (x : CAddr) : (refuseCell c p e x.toNat).err.code = e ∧
    (refuseCell c p e x.toNat).err.cell = true ∧ (refuseCell c p e x.toNat).err.info = x.truncate 16 ∧
    (refuseCell c p e x.toNat).err.ahi = x.extractLsb' 16 4 := by
  refine ⟨rfl, rfl, ?_, ?_⟩
  · apply BitVec.eq_of_toNat_eq
    simp [refuseCell, recordCell, record, setIrq, wordOf]
  · apply BitVec.eq_of_toNat_eq
    simp [refuseCell, recordCell, record, setIrq, Nat.shiftRight_eq_div_pow]

theorem getPort_refuseCell (e : Byte) (a : Nat) (q : Port) : getPort (refuseCell c p e a) q = getPort c q := by
  cases q <;> rfl

/-- R117: a dropped write is counted, and recorded where WDROP was clear. -/
theorem getPort_dropWrite (off : Nat) : getPort (dropWrite c p off) p =
    { getPort c p with wdrop := true, dropCnt := min 63 ((getPort c p).dropCnt + 1) } := by
  unfold dropWrite
  dsimp only
  split <;> cases p <;> rfl

theorem dropWrite_mem (off : Nat) : (dropWrite c p off).mem = c.mem := by
  unfold dropWrite
  dsimp only
  split <;> cases p <;> rfl

theorem dropWrite_again {off : Nat} (h : (getPort c p).wdrop = true) : (dropWrite c p off).err = c.err := by
  rw [dropWrite, if_pos h, setPort_err]

theorem dropWrite_first {off : Nat} (h : (getPort c p).wdrop = false) :
    (dropWrite c p off).err.code = eWDROP ∧ (dropWrite c p off).err.info = wordOf off := by
  rw [dropWrite, if_neg (by simp [h])]
  exact ⟨rfl, rfl⟩

end

/-! ### An entry that leaves (R115, R126, R221) -/

theorem upset_setPort (s : State) (p : Port) (x : PortSt) (u : Upset) :
    upset (setPort s p x) u = setPort (upset s u) p x := by
  cases u with
  | single w =>
    have hecc : eccAt (setPort s p x) (eccWord w) = eccAt s (eccWord w) := by cases p <;> rfl
    simp only [upset, hecc]
    split
    · rfl
    · cases p <;> rfl
  | double w d => cases p <;> rfl

/-- Upsets are alike whatever the ports hold. -/
theorem upsets_setPort (s : State) (p : Port) (x : PortSt) (ups : List Upset) :
    upsets (setPort s p x) ups = setPort (upsets s ups) p x := by
  induction ups generalizing s with
  | nil => rfl
  | cons u ups ih =>
    show upsets (upset (setPort s p x) u) ups = setPort (upsets (upset s u) ups) p x
    rw [upset_setPort, ih]

/-- A store outside the Parameter cask touches no port. -/
theorem getPort_storeWord (s : State) (a : Nat) (v : Word) (q : Port) : getPort (storeWord s a v) q = getPort s q := by
  rw [storeWord_frame]
  cases q <;> rfl

theorem mem_storeWord (s : State) (a : Nat) (v : Word) : (storeWord s a v).mem = Cellar.setWord s.mem a v := by
  rw [storeWord_frame]

/-- A block that is being read keeps what it held (log 44); no port and no byte of the Cellar changes. -/
theorem modelHeld_keeps (s : State) (a : Nat) :
    (modelHeld s a).mem = s.mem ∧ ∀ q, getPort (modelHeld s a) q = getPort s q := by
  unfold modelHeld
  split
  · exact ⟨rfl, fun q => by cases q <;> rfl⟩
  · exact ⟨rfl, fun _ => rfl⟩

theorem modelTouched_keeps (s : State) (a : Nat) :
    (modelTouched s a).mem = s.mem ∧ ∀ q, getPort (modelTouched s a) q = getPort s q := by
  unfold modelTouched
  split_ifs
  · exact ⟨rfl, fun q => by cases q <;> rfl⟩
  · exact ⟨rfl, fun q => by cases q <;> rfl⟩
  · exact ⟨rfl, fun _ => rfl⟩

theorem mailboxTouched_keeps (s : State) (a : Nat) :
    (mailboxTouched s a).mem = s.mem ∧ ∀ q, getPort (mailboxTouched s a) q = getPort s q := by
  unfold mailboxTouched
  split
  · exact ⟨rfl, fun q => by cases q <;> rfl⟩
  · exact ⟨rfl, fun _ => rfl⟩

/-- R221: a window write outside the Parameter cask stores its two bytes and leaves the ports. -/
theorem winStore_sram (s : State) {a : Nat} (v : Word) (h : isPage a = false) :
    (winStore s a v).mem = Cellar.setWord s.mem a v ∧ ∀ q, getPort (winStore s a v) q = getPort s q := by
  have hstore : winStore s a v = mailboxTouched (modelTouched (storeWord (modelHeld s a) a v) a) a :=
    if_neg (by simp [h])
  rw [hstore]
  constructor
  · rw [(mailboxTouched_keeps _ a).1, (modelTouched_keeps _ a).1, mem_storeWord, (modelHeld_keeps s a).1]
  · intro q
    rw [(mailboxTouched_keeps _ a).2, (modelTouched_keeps _ a).2, getPort_storeWord, (modelHeld_keeps s a).2]

section
variable {s : State} {p : Port} {a : CAddr} {v : Word} {rest : List BufEntry}
  (hbuf : (getPort s p).buf = .wdata a v :: rest) (ups : List Upset)
include hbuf

theorem entryServed_front : entryServed s p ups =
    winStore (grantL1 (upsets (popEntry s p rest) ups) p) a.toNat v := by
  rw [entryServed, hbuf]

/-- R115, R126: the front entry stores its word, and its port has one entry less. -/
theorem entryServed_sram (hpage : isPage a.toNat = false) :
    (entryServed s p ups).mem = Cellar.setWord (upsets s ups).mem a.toNat v ∧
      ∀ q, getPort (entryServed s p ups) q = getPort (popEntry s p rest) q := by
  obtain ⟨hmem, hports⟩ := winStore_sram (grantL1 (upsets (popEntry s p rest) ups) p) v hpage
  rw [entryServed_front hbuf]
  constructor
  · rw [hmem, mem_grantL1, popEntry, upsets_setPort, setPort_mem]
  · intro q
    rw [hports, getPort_grantL1, getPort_upsets]

end

/-- R221: a granted entry leaves in the state in which the arbiter grants it. -/
theorem entryLeaves_sram {s u : State} {p : Port} {a : CAddr} {v : Word} {rest : List BufEntry} (ups : List Upset)
    (hbuf : (getPort s p).buf = .wdata a v :: rest) (hdom : domains s = true)
    (hserve : arbServe s (.window p) = some u) (hheld : s.portP.held = .none) (hpage : isPage a.toNat = false) :
    entryLeaves s p ups = entryServed u p ups := by
  have hbuf' : (getPort u p).buf = .wdata a v :: rest := by rw [getPort_arbServe hserve, hbuf]
  have hkeep : (entryServed u p ups).portP.held = .none := by
    have hport := (entryServed_sram hbuf' ups hpage).2 .portP
    calc (entryServed u p ups).portP.held
      _ = (popEntry u p rest).portP.held := congrArg PortSt.held hport
      _ = u.portP.held := held_setPort rfl
      _ = s.portP.held := congrArg PortSt.held (getPort_arbServe hserve .portP)
      _ = .none := hheld
  rw [entryLeaves, hbuf]
  simp [hdom, granted_of hserve, resumeHeld_none hkeep]

/-! ### The statements -/

/-- Settles O24: what a WDATA write comes to by its checks and by the room in its buffer, and what a granted entry and a
granted load bring. -/
theorem windowWritesReachTheCellar : Obligations.WindowWritesReachTheCellar := by
  unfold Obligations.WindowWritesReachTheCellar
  refine ⟨?capture, ?leave, ?load⟩
  case capture =>
    intro p v w s c h hc
    have hexec := exec_wdataWrite h hc
    obtain ⟨hwaddr, hainc⟩ := captured_gen1Empty_window s p 0x0B
    rw [hc] at hwaddr hainc
    have hwait : waits c p = waits s p := by
      cases p
      · rw [← hc, captured_portP]; simp [waits]
      · rfl
    rw [← hwaddr]
    have hadv : advanced (getPort s p) = advanced (getPort c p) := by simp [advanced, hwaddr, hainc]
    rw [hadv]
    refine ⟨fun hok hroom => ?posted, fun e hbad => ?refused, fun hok hroom hgen => ?dropped,
      fun hok hroom hp hgen => ?held⟩
    case posted =>
      refine ⟨_, hexec.trans (congrArg _ (wdataWriteOp_posted hok (roomFor_free hroom))), ?_, ?_, ?_, ?_, ?_⟩
      · rw [afterWrite_frame, pushEntry, setPort_setPort, keysCapture_frame]
        cases p <;> rfl
      · intro hkeys
        rw [afterWrite_keys, pushEntry, setPort_keys, keysCapture_none hkeys]
      · intro hkeys
        rw [afterWrite_keys, pushEntry, setPort_keys, keysCapture_keys _ hkeys]
      · simp [pushEntry]
      · simp [pushEntry, advanced]
    case refused =>
      obtain ⟨hcode, hcell, hinfo, hahi⟩ := refuseCell_err (c := c) (p := p) e (getPort c p).waddr
      refine ⟨_, hexec.trans (congrArg _ (wdataWriteOp_refused hbad)), ?_⟩
      simp only [getPort_afterWrite, afterWrite_mem, afterWrite_err, getPort_refuseCell, hcode, hcell, hinfo, hahi,
        true_and, and_true]
      rfl
    case dropped =>
      have hnowait : waits c p = false := by
        rw [hwait]
        cases p
        · simpa [waits] using hgen rfl
        · rfl
      have hfull := roomFor_full hroom hnowait
      refine ⟨_, hexec.trans (congrArg _ (wdataWriteOp_dropped hok hfull)), ?_⟩
      simp only [getPort_afterWrite, afterWrite_mem, afterWrite_err, getPort_dropWrite, dropWrite_mem, true_and]
      exact ⟨rfl, dropWrite_again, dropWrite_first⟩
    case held =>
      subst hp
      obtain rfl : s = c := by rw [← hc, captured_portP, gen1Empty_gen3 hgen]
      rw [hexec, wdataWriteOp_held hok (roomFor_hold hroom (by simp [waits, hgen]))]
      rfl
  case leave =>
    intro p ups a v rest s u hbuf hdom hserve hheld hpage hwf
    have hbuf' : (getPort u p).buf = .wdata a v :: rest := by rw [getPort_arbServe hserve, hbuf]
    obtain ⟨hmem, hports⟩ := entryServed_sram hbuf' ups hpage
    refine ⟨_, congrArg Host.Outcome.next (entryLeaves_sram ups hbuf hdom hserve hheld hpage), ?_, fun x => ?_⟩
    · rw [hports p, popEntry, getPort_setPort]
    · rw [hmem, Cellar.get_setWord (upsets_wf (by rw [mem_arbServe hserve]; exact hwf) ups)]
  case load =>
    intro p ups l s u hload hbehind hword hfollow hdom hserve hheld hpage hsram
    refine ⟨_, congrArg Host.Outcome.next (loadDone_sram ups hload hbehind hdom hserve hheld hfollow hpage hsram), ?_⟩
    simp [loadedWords, hword]

end Sys2Proof.Machine
end

section
/-! O17 fails in its last clause, on a DCOMMIT that leaves in the cycle of a write to SCRATCH and of a frame boundary.
The clause says that the bank is as the boundary would leave it without the write. The boundary draws the bank's bars, a bar
may show SCRATCH (R329, Table LAY-3, source 7), and the write takes effect before the boundary's work: a bar then shows
the word that was written. -/

namespace Sys2Proof.Machine

open Sys2Proof

/-- A bar of one entry that shows SCRATCH between the LO and the HI at the start of the Animation cask. -/
def scratchBar : BarSt := { src := 7, mode := 0, count := 1, list := 0, shown := [false] }

/-- The machine as reset, with that bar in slot 0 of bank A, LO 0 and HI 1 (SCRATCH 0 lights nothing, SCRATCH 1 lights
its entry), and a DCOMMIT of bank A in Port P's buffer. -/
def scratchShown : State := { State.reset with
  portP := { State.reset.portP with buf := [.dcommit 0x0020] }
  bankA := { State.reset.bankA with thr := { State.reset.bankA.thr with
    bars := vset State.reset.bankA.thr.bars 0 (some scratchBar) } }
  mem := Cellar.setWord State.reset.mem (animAddr 2) 1 }

/-- The same with the DCOMMIT gone. -/
def commitGone : State := { scratchShown with portP := { scratchShown.portP with buf := [] } }

/-- A write of 1 to SCRATCH in the cycle of bank A's frame boundary and of the DCOMMIT's leaving. -/
def besideCommit : Beside := { Beside.alone with leaves := some [], boundaries := [.frame .bankA] }

set_option maxRecDepth 20000 in
/-- Without the write the boundary finds SCRATCH at LO: k is 0. -/
theorem barK_frameBoundary : vget (getBank (frameBoundary commitGone .bankA) .bankA).thr.barK 0 = 0 := by decide

set_option maxRecDepth 20000 in
/-- With it the boundary finds SCRATCH at HI: k is 1. -/
theorem barK_writeBeside :
    vget (getBank (writeBeside scratchShown .portP 0x33 1 besideCommit) .bankA).thr.barK 0 = 1 := by decide

/-- Refutes O17: a bar that shows SCRATCH takes the word written in the cycle of the boundary, not the one before it. -/
theorem not_registerWriteGateAndRefusals : ¬ Obligations.RegisterWriteGateAndRefusals := by
  unfold Obligations.RegisterWriteGateAndRefusals
  rintro ⟨-, -, -, -, -, -, -, -, -, -, -, -, hcommit⟩
  have hreach : reachesRule scratchShown .portP 0x33 1 1 := by unfold reachesRule; decide
  obtain ⟨t, hexec, hbank, -, -⟩ := hcommit 1 0x0020 1 [] [] .bankA scratchShown (frameBoundary commitGone .bankA)
    hreach rfl rfl rfl (by decide) rfl rfl rfl (by decide)
  have ht : writeBeside scratchShown .portP 0x33 1 besideCommit = t :=
    Host.Outcome.next.inj hexec
  have hthr : (getBank t .bankA).thr = (getBank (frameBoundary commitGone .bankA) .bankA).thr := by rw [hbank]
  have hk := barK_writeBeside
  rw [ht, hthr, barK_frameBoundary] at hk
  exact absurd hk (by decide)

end Sys2Proof.Machine
end

section
/-! PORTCTL (R142 to R163): what refuses a write, what an accepted one comes to, the two writes of a merge window and the
heartbeat miss; O25 and O26. -/

namespace Sys2Proof.Machine

open Sys2Proof

/-! ### What the Gen1 latches leave -/

@[simp] theorem pg_gen1Empty (s : State) (p : Port) (a : Fin 64) (x : Nat) : pg (gen1Empty s p a) x = pg s x := by
  simp [pg]

@[simp] theorem pgb_gen1Empty (s : State) (p : Port) (a : Fin 64) (x i : Nat) :
    pgb (gen1Empty s p a) x i = pgb s x i := by
  simp [pgb]

theorem portctlError_gen1Empty (s : State) (p q : Port) (a : Fin 64) (w : Word) :
    portctlError (gen1Empty s p a) q w = portctlError s q w := by
  unfold gen1Empty; split <;> rfl

/-! ### The refusals of a PORTCTL write in the order of R578 -/

/-- R146: neither key is the 0 of a write without a heartbeat. -/
theorem hbKey_ne_zero (s : State) : hbKey s ≠ 0 := by unfold hbKey; split <;> decide

/-- What a PORTCTL write has to meet: the Supervisor's role (R144), the expected key not too early (R146, R147), RUN for
forced display on (R145), and a swap that can be requested (R152). -/
structure PortctlAccepted (s : State) (p : Port) (w : Word) : Prop where
  owned : bit w 7 = true → isSup s p = true
  keyed : bit w 7 = true → fld w 8 8 = 0 ∨ (fld w 8 8 = hbKey s ∧ hbEarly s = false)
  forced : bit w 7 = true → bit w 4 = true → s.pw.mode = .run ∧ s.pw.trans = .idle
  swappable : bit w 2 = true → swapRefused s p = false

section
variable {s : State} {p : Port} {w : Word}

theorem portctlError_accepted (h : PortctlAccepted s p w) : portctlError s p w = none := by
  obtain ⟨howned, hkeyed, hforced, hswap⟩ := h
  have hswaps : (bit w 2 && swapRefused s p) = false := by
    cases h2 : bit w 2
    · rfl
    · rw [hswap h2]; rfl
  cases h7 : bit w 7 with
  | false => simp [portctlError, h7, hswaps]
  | true =>
    have hfdon : bit w 4 = true → s.pw.mode = .run ∧ s.pw.trans = .idle := hforced h7
    rcases hkeyed h7 with hkey | ⟨hkey, hearly⟩
    · simpa [portctlError, h7, howned h7, hkey, hswaps] using hfdon
    · simpa [portctlError, h7, howned h7, hkey, hearly, hswaps] using hfdon

/-- R144. -/
theorem portctlError_unowned (h7 : bit w 7 = true) (hsup : isSup s p = false) : portctlError s p w = some eOWNER := by
  simp [portctlError, h7, hsup]

/-- R146. -/
theorem portctlError_wrongKey (h7 : bit w 7 = true) (hsup : isSup s p = true) (h0 : fld w 8 8 ≠ 0)
    (hkey : fld w 8 8 ≠ hbKey s) : portctlError s p w = some eRANGE := by
  simp [portctlError, h7, hsup, h0, hkey]

/-- R145, R147: forced display on outside RUN, or a heartbeat that comes too early. -/
theorem portctlError_supState (h7 : bit w 7 = true) (hsup : isSup s p = true)
    (hkey : fld w 8 8 = 0 ∨ fld w 8 8 = hbKey s)
    (hno : (bit w 4 = true ∧ (s.pw.mode ≠ .run ∨ s.pw.trans ≠ .idle)) ∨ (fld w 8 8 ≠ 0 ∧ hbEarly s = true)) :
    portctlError s p w = some eSTATE := by
  have hkeyed : fld w 8 8 ≠ 0 → fld w 8 8 = hbKey s := hkey.resolve_left
  rcases hno with ⟨h4, hmode⟩ | ⟨h0, hearly⟩
  · have hrun : (s.pw.mode == .run && s.pw.trans == .idle) = false := by simpa [imp_iff_not_or] using hmode
    simpa [portctlError, h7, hsup, h4, hrun] using hkeyed
  · simpa [portctlError, h7, hsup, h0, hearly] using hkeyed h0

/-- R152. -/
theorem portctlError_swapRefused (h7 : bit w 7 = false) (h2 : bit w 2 = true) (hno : swapRefused s p = true) :
    portctlError s p w = some eSTATE := by
  simp [portctlError, h7, h2, hno]

/-- R152: a port whose request is pending cannot request again. -/
theorem swpnd_ne_of_swapRefused (h : swapRefused s p = false) : s.roles.swpnd ≠ some p := by
  rintro hp
  simp [swapRefused, hp] at h

end

/-! ### A heartbeat (R146 to R150) -/

section
variable {s : State}

theorem heartbeat_mem : (heartbeat s).mem = s.mem := by
  unfold heartbeat; dsimp only; (repeat' split) <;> rfl

theorem heartbeat_swpnd : (heartbeat s).roles.swpnd = s.roles.swpnd := by
  unfold heartbeat; dsimp only; (repeat' split) <;> rfl

/-- R146, R148: outside the fallback a heartbeat changes the key, the time and the episode alone. -/
theorem heartbeat_noFallback (h : s.roles.fallbk = false) : heartbeat s = { s with
    roles := { s.roles with hbNext := !s.roles.hbNext, hbLast := some s.now, hbRef := s.now, hbMissed := false } } := by
  simp [heartbeat, h]

/-- R150: the second heartbeat within HB_PERIOD begins the end of the fallback. -/
theorem heartbeat_second {b : Nat} (hf : s.roles.fallbk = true) (he : s.roles.fbEnding = false)
    (hb : s.roles.fbBeat = some b) (hin : s.now ≤ b + (pg s 0xEC02).toNat * msCycles) : heartbeat s = { s with
    roles := { s.roles with hbNext := !s.roles.hbNext, hbLast := some s.now, hbRef := s.now, hbMissed := false
                            fbBeat := none, fbEnding := true }
    bankA := { s.bankA with fbWait := true }, bankB := { s.bankB with fbWait := true } } := by
  simp [heartbeat, hf, he, hb, hin]

/-- R150: one that comes later counts as a first one. -/
theorem heartbeat_later {b : Nat} (hf : s.roles.fallbk = true) (he : s.roles.fbEnding = false)
    (hb : s.roles.fbBeat = some b) (hout : b + (pg s 0xEC02).toNat * msCycles < s.now) : heartbeat s = { s with
    roles := { s.roles with hbNext := !s.roles.hbNext, hbLast := some s.now, hbRef := s.now, hbMissed := false
                            fbBeat := some s.now } } := by
  simp [heartbeat, hf, he, hb, Nat.not_le.mpr hout]

/-- R150: the next heartbeat after a first one begins the end of the fallback or is itself a first one, by the time. -/
theorem heartbeat_fallback {b : Nat} (hf : s.roles.fallbk = true) (he : s.roles.fbEnding = false)
    (hb : s.roles.fbBeat = some b) : (heartbeat s).roles.fallbk = true ∧
    (s.now ≤ b + (pg s 0xEC02).toNat * msCycles → (heartbeat s).roles.fbEnding = true ∧
      (heartbeat s).bankA.fbWait = true ∧ (heartbeat s).bankB.fbWait = true) ∧
    (b + (pg s 0xEC02).toNat * msCycles < s.now → (heartbeat s).roles.fbEnding = false ∧
      (heartbeat s).roles.fbBeat = some s.now) := by
  rcases Nat.lt_or_ge (b + (pg s 0xEC02).toNat * msCycles) s.now with hout | hin
  · rw [heartbeat_later hf he hb hout]
    exact ⟨hf, fun hin => absurd hout (Nat.not_lt.mpr hin), fun _ => ⟨he, rfl⟩⟩
  · rw [heartbeat_second hf he hb hin]
    exact ⟨hf, fun _ => ⟨rfl, rfl, rfl⟩, fun hout => absurd hout (Nat.not_lt.mpr hin)⟩

end

/-! ### The Supervisor's fields of an accepted write -/

/-- The machine after FDON was written. -/
def fdonWritten (s : State) (w : Word) : State := { s with roles := { s.roles with fdon := bit w 4 } }

/-- The machine after the fields that SUPW covers: FDON, and the heartbeat where the key is not 0 (R144 to R146). -/
def supWritten (s : State) (w : Word) : State :=
  if bit w 7 then if fld w 8 8 = 0 then fdonWritten s w else heartbeat (fdonWritten s w) else s

section
variable {s : State} {w : Word}

theorem supWritten_without (h7 : bit w 7 = false) : supWritten s w = s := by simp [supWritten, h7]

theorem supWritten_fdon (h7 : bit w 7 = true) (h0 : fld w 8 8 = 0) : supWritten s w = fdonWritten s w := by
  simp [supWritten, h7, h0]

theorem supWritten_beat (h7 : bit w 7 = true) (hkey : fld w 8 8 ≠ 0) :
    supWritten s w = heartbeat (fdonWritten s w) := by
  simp [supWritten, h7, hkey]

theorem supWritten_mem : (supWritten s w).mem = s.mem := by
  unfold supWritten
  split_ifs
  · rfl
  · exact heartbeat_mem
  · rfl

theorem supWritten_swpnd : (supWritten s w).roles.swpnd = s.roles.swpnd := by
  unfold supWritten
  split_ifs
  · rfl
  · exact heartbeat_swpnd
  · rfl

end

/-! ### The swap (R151 to R155) -/

/-- The machine with the pending swap request of a port, or with none. -/
def swapPending (s : State) (k : Option Port) : State := { s with roles := { s.roles with swpnd := k } }

/-- A swap forgets what was pending. -/
theorem swapRoles_swapPending (s : State) (k : Option Port) : swapRoles (swapPending s k) = swapRoles s := rfl

section
variable {s : State} {p : Port} {w : Word}

/-- An accepted write: the Supervisor's fields, then the swap request, which joins another or stands alone. -/
theorem portctlCore_accepted (h : portctlError s p w = none) (merged : Bool) : portctlCore s p w merged =
    if bit w 2 = false then (supWritten s w, false)
    else if merged = true ∨ s.roles.swpnd = some p.other then (swapPending (supWritten s w) none, true)
    else if pgb s 0xEC00 1 = true then (swapPending (supWritten s w) (some p), false)
    else (supWritten s w, true) := by
  have hsup : (if bit w 7 && fld w 8 8 != 0 then
      heartbeat (if bit w 7 then { s with roles := { s.roles with fdon := bit w 4 } } else s)
      else if bit w 7 then { s with roles := { s.roles with fdon := bit w 4 } } else s) = supWritten s w := by
    cases h7 : bit w 7 <;> by_cases h0 : fld w 8 8 = 0 <;> simp [supWritten, fdonWritten, h7, h0]
  have hpage : pgb (supWritten s w) 0xEC00 1 = pgb s 0xEC00 1 := by rw [pgb, pg, supWritten_mem]; rfl
  unfold portctlCore
  rw [h]
  dsimp only
  rw [hsup, supWritten_swpnd, hpage]
  simp only [Bool.not_eq_true', Bool.or_eq_true, beq_iff_eq]
  rfl

/-- R151, R153: a request that joins another is executed with it. -/
theorem portctlCore_joins {merged : Bool} (h : portctlError s p w = none) (h2 : bit w 2 = true)
    (hjoin : merged = true ∨ s.roles.swpnd = some p.other) :
    portctlCore s p w merged = (swapPending (supWritten s w) none, true) := by
  rw [portctlCore_accepted h, if_neg (by simp [h2]), if_pos hjoin]

/-- R151, R154: a request that stands alone is executed where one is enough, and waits with SWAPCONS. -/
theorem portctlCore_alone (h : portctlError s p w = none) (h2 : bit w 2 = true)
    (hother : s.roles.swpnd ≠ some p.other) : portctlCore s p w false =
      if pgb s 0xEC00 1 = true then (swapPending (supWritten s w) (some p), false) else (supWritten s w, true) := by
  rw [portctlCore_accepted h, if_neg (by simp [h2]), if_neg (by simp [hother])]

/-- A PORTCTL write executes the swap that its rule asks for. -/
theorem portctlWrite_of_core {r : State × Bool} (h : portctlCore s p w false = r) :
    portctlWrite s p w = if r.2 then swapRoles r.1 else r.1 := by
  subst h; rfl

theorem portctlWrite_refused {e : Byte} (h : portctlError s p w = some e) : portctlWrite s p w = refuse s p e 0x10 := by
  simp [portctlWrite, portctlCore, h]

theorem portctlWrite_noSwap (h : portctlError s p w = none) (h2 : bit w 2 = false) :
    portctlWrite s p w = supWritten s w :=
  portctlWrite_of_core ((portctlCore_accepted h false).trans (if_pos h2))

/-- R151: one request is enough, or it meets the other port's. -/
theorem portctlWrite_swap (h : portctlError s p w = none) (h2 : bit w 2 = true)
    (hnow : s.roles.swpnd = some p.other ∨ pgb s 0xEC00 1 = false) :
    portctlWrite s p w = swapRoles (supWritten s w) := by
  by_cases hjoin : s.roles.swpnd = some p.other
  · exact portctlWrite_of_core (portctlCore_joins h h2 (.inr hjoin))
  · exact portctlWrite_of_core ((portctlCore_alone h h2 hjoin).trans (if_neg (by simp [hnow.resolve_left hjoin])))

/-- R154: with SWAPCONS the first request waits. -/
theorem portctlWrite_wait (h : portctlError s p w = none) (h2 : bit w 2 = true) (hnone : s.roles.swpnd = none)
    (hcons : pgb s 0xEC00 1 = true) : portctlWrite s p w = swapPending (supWritten s w) (some p) :=
  portctlWrite_of_core ((portctlCore_alone h h2 (by simp [hnone])).trans (if_pos hcons))

end

/-! ### The rows -/

section
variable {s : State} {p : Port} {v w : Word}

/-- A PORTCTL write that reaches its rule, by the row of a swap request. -/
theorem exec_swapRequest (h : reachesRule s p 8 v w) :
    exec (.swapRequest p v) s = .next (portctlWrite (gen1Empty s p 8) p w) :=
  congrArg Host.Outcome.next (gate_reach h)

/-- The three rows of a PORTCTL write are one write. -/
theorem exec_heartbeat_eq_swapRequest : exec (.heartbeat p v) s = exec (.swapRequest p v) s := rfl

theorem exec_fdonWrite_eq_swapRequest : exec (.fdonWrite p v) s = exec (.swapRequest p v) s := rfl

theorem exec_swapRequest_refused {e : Byte} (h : reachesRule s p 8 v w) (he : portctlError s p w = some e) :
    exec (.swapRequest p v) s = .next (refuse (gen1Empty s p 8) p e 0x10) := by
  rw [exec_swapRequest h, portctlWrite_refused (by rw [portctlError_gen1Empty, he])]

theorem exec_swapRequest_noSwap (h : reachesRule s p 8 v w) (hacc : PortctlAccepted s p w) (h2 : bit w 2 = false) :
    exec (.swapRequest p v) s = .next (supWritten (gen1Empty s p 8) w) := by
  rw [exec_swapRequest h, portctlWrite_noSwap (by rw [portctlError_gen1Empty, portctlError_accepted hacc]) h2]

theorem exec_swapRequest_swap (h : reachesRule s p 8 v w) (hacc : PortctlAccepted s p w) (h2 : bit w 2 = true)
    (hnow : s.roles.swpnd = some p.other ∨ pgb s 0xEC00 1 = false) :
    exec (.swapRequest p v) s = .next (swapRoles (supWritten (gen1Empty s p 8) w)) := by
  rw [exec_swapRequest h, portctlWrite_swap (by rw [portctlError_gen1Empty, portctlError_accepted hacc]) h2
    (by rwa [gen1Empty_roles, pgb_gen1Empty])]

theorem exec_swapRequest_wait (h : reachesRule s p 8 v w) (hacc : PortctlAccepted s p w) (h2 : bit w 2 = true)
    (hnone : s.roles.swpnd = none) (hcons : pgb s 0xEC00 1 = true) :
    exec (.swapRequest p v) s = .next (swapPending (supWritten (gen1Empty s p 8) w) (some p)) := by
  rw [exec_swapRequest h, portctlWrite_wait (by rw [portctlError_gen1Empty, portctlError_accepted hacc]) h2
    (by rwa [gen1Empty_roles]) (by rwa [pgb_gen1Empty])]

/-- A write without SUPW that the swap rule lets through. -/
theorem portctlAccepted_request (h7 : bit w 7 = false) (hok : swapRefused s p = false) : PortctlAccepted s p w :=
  ⟨fun h => absurd (h7.symm.trans h) (by decide), fun h => absurd (h7.symm.trans h) (by decide),
    fun h => absurd (h7.symm.trans h) (by decide), fun _ => hok⟩

/-- The Supervisor's fields of a heartbeat outside the fallback, on the machine that the Gen1 latches left. -/
theorem supWritten_gen1Empty_beat (h7 : bit w 7 = true) (hkey : fld w 8 8 = hbKey s) (hf : s.roles.fallbk = false) :
    supWritten (gen1Empty s p 8) w = { gen1Empty s p 8 with
      roles := { s.roles with fdon := bit w 4, hbNext := !s.roles.hbNext, hbLast := some s.now, hbRef := s.now
                              hbMissed := false } } := by
  rw [supWritten_beat h7 (hkey ▸ hbKey_ne_zero s), heartbeat_noFallback (by simpa [fdonWritten] using hf)]
  simp only [fdonWritten, gen1Empty_roles, gen1Empty_now]

end

/-! ### Both requests in one merge window (R153) -/

section
variable {s : State} {vS vP wS wP : Word}

/-- R577: in CORK-ENTRY no write but that of WDATA reaches its rule. -/
theorem mode_ne_corkEntry_of_reachesRule {p : Port} {a : Fin 64} {v w : Word} (h : reachesRule s p a v w)
    (ha : offOf a ≠ 0x16) : s.pw.mode ≠ .corkEntry := by
  obtain ⟨-, -, -, -, hcork⟩ := h
  exact fun hm => ha (hcork hm)

/-- A PORTCTL write that reaches its rule takes part in a merge window with its word. -/
theorem reaches_portctl {p : Port} {v w : Word} (h : reachesRule s p 8 v w) : reaches s p 8 v = some w := by
  have hmode := mode_ne_corkEntry_of_reachesRule h (by decide)
  obtain ⟨hlive, hface, -, hword, -⟩ := h
  rw [reaches, if_neg (by simp [hlive, hface, hmode]), hword]

/-- R152: what refuses a swap is in the power state, in the verification of a tag and in the port's own request. -/
theorem swapRefused_congr {t : State} {p : Port} (hpw : t.pw = s.pw) (hauth : t.auth = s.auth)
    (hown : t.roles.swpnd ≠ some p) (hok : swapRefused s p = false) : swapRefused t p = false := by
  simp only [swapRefused, solo, hpw, hauth, Bool.or_eq_false_iff] at hok ⊢
  exact ⟨hok.1, by simpa using hown⟩

/-- The machine after Port S's half of the window: its request is pending or will be executed, and is answered as done. -/
def portSRequested (s : State) (v : Word) : State :=
  { swapPending s (if pgb s 0xEC00 1 then some .portS else none) with spi := .answer 0 8 v }

/-- The Gen1 latches do not look at the roles or at the answer to Port S. -/
theorem gen1Empty_portSRequested (s : State) (v : Word) (p : Port) (a : Fin 64) :
    gen1Empty (portSRequested s v) p a =
      { gen1Empty s p a with roles := (portSRequested s v).roles, spi := .answer 0 8 v } := by
  unfold gen1Empty portSRequested swapPending; dsimp only; split <;> rfl

/-- R153: Port S is first; where no request is pending its own waits with SWAPCONS, and swaps without. -/
theorem portctlCore_portSFirst (h2 : bit wS 2 = true) (h7 : bit wS 7 = false) (hok : swapRefused s .portS = false)
    (hnone : s.roles.swpnd = none) : portctlCore s .portS wS false =
      (swapPending s (if pgb s 0xEC00 1 then some .portS else none), !pgb s 0xEC00 1) := by
  rw [portctlCore_alone (portctlError_accepted (portctlAccepted_request h7 hok)) h2 (by simp [hnone]),
    supWritten_without h7]
  cases pgb s 0xEC00 1
  · exact congrArg (·, true) (by simp [swapPending, ← hnone])
  · rfl

/-- R137: Port S's request is no refusal and is answered as done. -/
theorem answered_request (hS : reachesRule s .portS 8 vS wS) (h2 : bit wS 2 = true) (h7 : bit wS 7 = false)
    (hok : swapRefused s .portS = false) (hnone : s.roles.swpnd = none) :
    answered s 8 vS (fun s => gate s .portS 8 vS (fun s w => (portctlCore s .portS w false).1)) =
      portSRequested s vS := by
  have hprobed : reachesRule (probed s) .portS 8 vS wS := hS
  have hcore := portctlCore_portSFirst (s := probed s) h2 h7 hok hnone
  obtain ⟨hlive, hface, -⟩ := hS
  exact answered_done (t := swapPending (probed s) (if pgb s 0xEC00 1 then some .portS else none)) 8 vS hlive hface
    ((gate_reach hprobed).trans (congrArg Prod.fst hcore)) rfl

/-- R153: two requests in one window execute one swap. -/
theorem swapMerge_requests (hS : reachesRule s .portS 8 vS wS) (hP : reachesRule s .portP 8 vP wP)
    (hS2 : bit wS 2 = true) (hP2 : bit wP 2 = true) (hS7 : bit wS 7 = false) (hP7 : bit wP 7 = false)
    (hSok : swapRefused s .portS = false) (hPok : swapRefused s .portP = false) :
    swapMerge s vS vP = swapRoles (gen1Empty (portSRequested s vS) .portP 8) := by
  have hnone : s.roles.swpnd = none := by
    rcases hpend : s.roles.swpnd with - | (_ | _)
    · rfl
    · exact absurd hpend (swpnd_ne_of_swapRefused hPok)
    · exact absurd hpend (swpnd_ne_of_swapRefused hSok)
  have hP1 : reachesRule (portSRequested s vS) .portP 8 vP wP :=
    reachesRule_portP_congr hP rfl rfl rfl rfl (mode_ne_corkEntry_of_reachesRule hS (by decide))
  have hjoin : (!pgb s 0xEC00 1) = true ∨ (portSRequested s vS).roles.swpnd = some .portS := by
    cases hcons : pgb s 0xEC00 1 <;> simp [portSRequested, swapPending, hcons]
  have hown : (portSRequested s vS).roles.swpnd ≠ some .portP := by
    cases hcons : pgb s 0xEC00 1 <;> simp [portSRequested, swapPending, hcons]
  have hP1ok : portctlError (portSRequested s vS) .portP wP = none :=
    portctlError_accepted (portctlAccepted_request hP7 (swapRefused_congr (s := s) rfl rfl hown hPok))
  have hjudged := portctlCore_joins hP1ok hP2 hjoin
  have hserved := portctlCore_joins (s := gen1Empty (portSRequested s vS) .portP 8)
    (by rw [portctlError_gen1Empty, hP1ok]) hP2 (by rw [gen1Empty_roles]; exact hjoin)
  unfold swapMerge
  dsimp only
  simp only [answered_request hS hS2 hS7 hSok hnone, reaches_portctl hS, reaches_portctl hP1, gate_reach hP1,
    portctlCore_portSFirst hS2 hS7 hSok hnone, hjudged, hserved, Bool.or_true, if_true, supWritten_without hP7,
    swapRoles_swapPending]

end

/-! ### Role swaps -/

/-- Settles O25: an accepted request swaps the roles or waits by what is pending and by SWAPCONS, after FDON and the
heartbeat of the same word; in a merge window Port P's request joins Port S's. -/
theorem roleSwapsTakePlaceOnceOrLapse : Obligations.RoleSwapsTakePlaceOnceOrLapse := by
  unfold Obligations.RoleSwapsTakePlaceOnceOrLapse
  refine ⟨?request, ?merged, ?lapse, ?refused, ?beat⟩
  case request =>
    intro p v w s h h2 h7 hok
    have hacc : PortctlAccepted s p w := portctlAccepted_request h7 hok
    refine ⟨fun hnow => ?_, fun hnone hcons => ?_⟩
    · rw [exec_swapRequest_swap h hacc h2 hnow, supWritten_without h7]
      simp only [swapRoles, setIrq, gen1Empty_roles, gen1Empty_now, gen1Empty_irqStat]
      rfl
    · rw [exec_swapRequest_wait h hacc h2 hnone hcons, supWritten_without h7, swapPending, gen1Empty_roles]
  case merged =>
    intro vS vP wS wP s hS hP hS2 hP2 hS7 hP7 hSok hPok
    refine congrArg Host.Outcome.next ((swapMerge_requests hS hP hS2 hP2 hS7 hP7 hSok hPok).trans ?_)
    rw [gen1Empty_portSRequested]
    simp only [swapRoles, setIrq, gen1Empty_now, gen1Empty_irqStat]
    rfl
  case lapse =>
    intro p s hpend
    exact congrArg Host.Outcome.next (by rw [swapLapse, hpend]; rfl)
  case refused =>
    exact fun p v w s h h2 h7 hno => exec_swapRequest_refused h (portctlError_swapRefused h7 h2 hno)
  case beat =>
    intro p v w s h h2 h7 hsup hkey hearly hf hok hrun
    have hacc : PortctlAccepted s p w := ⟨fun _ => hsup, fun _ => .inr ⟨hkey, hearly⟩, fun _ => hrun, fun _ => hok⟩
    refine ⟨exec_heartbeat_eq_swapRequest, fun hnow => ?_, fun hnone hcons => ?_⟩
    · rw [exec_swapRequest_swap h hacc h2 hnow, supWritten_gen1Empty_beat h7 hkey hf]
      simp only [swapRoles, setIrq, gen1Empty_now, gen1Empty_irqStat]
      rfl
    · rw [exec_swapRequest_wait h hacc h2 hnone hcons, supWritten_gen1Empty_beat h7 hkey hf]
      rfl

/-! ### The heartbeat miss (R148, R149, R163) -/

section
variable {s : State}

theorem exec_heartbeatMiss_none (h : hbOverdue s = false) : exec .heartbeatMiss s = .next s :=
  congrArg Host.Outcome.next (if_neg (by simp [h]))

theorem exec_heartbeatMiss_declared (hsup : hbSupervised s = true) (h : hbOverdue s = true) :
    exec .heartbeatMiss s = .next (declareMiss s) :=
  congrArg Host.Outcome.next (if_pos ⟨hsup, h⟩)

/-- R149: a miss sets IRQSTAT.HB and FALLBK and ends what a first heartbeat had begun; the lamps follow. -/
theorem declareMiss_eq (s : State) : declareMiss s = { s with
    roles := { s.roles with fallbk := true, hbMissed := true, fbEnding := false, fbBeat := none }
    irqStat := s.irqStat ||| 0x8000, lamps := (declareMiss s).lamps } :=
  lampsSettle_frame _

/-- R149: within an episode no second miss is declared. -/
theorem hbOverdue_of_missed (h : s.roles.hbMissed = true) : hbOverdue s = false := by
  simp [hbOverdue, hbSupervised, h]

theorem hbOverdue_early (h : s.now ≤ s.roles.hbRef + (pg s 0xEC02).toNat * msCycles) : hbOverdue s = false := by
  simp [hbOverdue, Nat.not_lt.mpr h]

theorem hbOverdue_late (hsup : hbSupervised s = true)
    (h : s.roles.hbRef + (pg s 0xEC02).toNat * msCycles < s.now) : hbOverdue s = true := by
  simp [hbOverdue, hsup, h]

end

/-! ### Heartbeats, forced display and the fallback -/

/-- A word with SUPW and no swap request that the Supervisor's port may write. -/
theorem portctlAccepted_supw {s : State} {p : Port} {w : Word} (hsup : isSup s p = true) (h2 : bit w 2 = false)
    (hrun : bit w 4 = true → s.pw.mode = .run ∧ s.pw.trans = .idle)
    (hkey : fld w 8 8 = 0 ∨ (fld w 8 8 = hbKey s ∧ hbEarly s = false)) : PortctlAccepted s p w :=
  ⟨fun _ => hsup, fun _ => hkey, fun _ => hrun, fun h => absurd (h2.symm.trans h) (by decide)⟩

/-- Settles O26: a word with SUPW is judged by the role, the key, the mode and the time, and where it is accepted carries
FDON and the heartbeat; a miss is declared once HB_PERIOD has passed, and not again in its episode. -/
theorem heartbeatsForcedDisplayAndFallback : Obligations.HeartbeatsForcedDisplayAndFallback := by
  unfold Obligations.HeartbeatsForcedDisplayAndFallback
  simp only [exec_heartbeat_eq_swapRequest, exec_fdonWrite_eq_swapRequest]
  refine ⟨fun p v w s h h7 => ⟨fun hsup h2 hrun => ⟨?fdon, ?beat, ?early⟩, ?notRun, ?wrongKey, ?unowned⟩,
    ?inTime, ?missed, ?fallback⟩
  case fdon =>
    intro h0
    rw [exec_swapRequest_noSwap h (portctlAccepted_supw hsup h2 hrun (.inl h0)) h2, supWritten_fdon h7 h0, fdonWritten,
      gen1Empty_roles]
  case beat =>
    intro hkey hearly hf
    rw [exec_swapRequest_noSwap h (portctlAccepted_supw hsup h2 hrun (.inr ⟨hkey, hearly⟩)) h2,
      supWritten_gen1Empty_beat h7 hkey hf]
  case early =>
    intro hkey hearly
    exact exec_swapRequest_refused h
      (portctlError_supState h7 hsup (.inr hkey) (.inr ⟨hkey ▸ hbKey_ne_zero s, hearly⟩))
  case notRun =>
    intro hsup h4 hmode hkey
    exact and_self_iff.mpr (exec_swapRequest_refused h (portctlError_supState h7 hsup hkey (.inl ⟨h4, hmode⟩)))
  case wrongKey => exact fun hsup h0 hkey => exec_swapRequest_refused h (portctlError_wrongKey h7 hsup h0 hkey)
  case unowned => exact fun hsup => and_self_iff.mpr (exec_swapRequest_refused h (portctlError_unowned h7 hsup))
  case inTime => exact fun s h => exec_heartbeatMiss_none (hbOverdue_early h)
  case missed =>
    intro s hsup hlate
    have heq := declareMiss_eq s
    have hroles := congrArg State.roles heq
    refine ⟨declareMiss s, exec_heartbeatMiss_declared hsup (hbOverdue_late hsup hlate), ?_, hroles, ?_⟩
    · rw [hroles]; exact heq
    · exact exec_heartbeatMiss_none (hbOverdue_of_missed (congrArg Roles.hbMissed hroles))
  case fallback =>
    intro p v w b s h h7 hsup h2 h4 hkey hearly hf hending hb
    have hacc : PortctlAccepted s p w :=
      portctlAccepted_supw hsup h2 (fun h => absurd (h4.symm.trans h) (by decide)) (.inr ⟨hkey, hearly⟩)
    have hrow := exec_swapRequest_noSwap h hacc h2
    rw [supWritten_beat h7 (hkey ▸ hbKey_ne_zero s)] at hrow
    have hroles : (fdonWritten (gen1Empty s p 8) w).roles = { s.roles with fdon := bit w 4 } := by
      rw [fdonWritten, gen1Empty_roles]
    have hpage : pg (fdonWritten (gen1Empty s p 8) w) 0xEC02 = pg s 0xEC02 := pg_gen1Empty s p 8 _
    have hnow : (fdonWritten (gen1Empty s p 8) w).now = s.now := gen1Empty_now s p 8
    have hbeat := heartbeat_fallback (s := fdonWritten (gen1Empty s p 8) w) (b := b)
      (by rw [hroles, hf]) (by rw [hroles, hending]) (by rw [hroles, hb])
    rw [hpage, hnow] at hbeat
    exact ⟨_, hrow, hbeat⟩

end Sys2Proof.Machine
end

section
/-! The rows of register writes that reach their rule (R165), and the error record (R170, R175, Table REG-7, O20): the
fields of ERRSTAT as a number and the clear by OVR. -/

namespace Sys2Proof.Machine

open Sys2Proof

/-! ### The row of a write that reaches its register -/

/-- A row that stands for the gate of its register's rule runs the rule where the write reaches it. -/
theorem exec_reach {i : Instr} {s : State} {p : Port} {a : Fin 64} {v w : Word} {body : State → Word → State}
    (hrow : exec i s = .next (gate s p a v body)) (h : reachesRule s p a v w) :
    exec i s = .next (body (gen1Empty s p a) w) := by
  rw [hrow, gate_reach h]

/-- The same, with the outcome of the rule given. -/
theorem exec_reach_to {i : Instr} {s t : State} {p : Port} {a : Fin 64} {v w : Word} {body : State → Word → State}
    (hrow : exec i s = .next (gate s p a v body)) (h : reachesRule s p a v w) (hrule : body (gen1Empty s p a) w = t) :
    exec i s = .next t := by
  rw [exec_reach hrow h, hrule]

/-- The Gen1 latches leave who holds the Supervisor role. -/
@[simp] theorem isSup_gen1Empty (s : State) (p q : Port) (a : Fin 64) : isSup (gen1Empty s p a) q = isSup s q := by
  simp [isSup, supPort, solo]

/-! ### Fields of a word that is made of fields (Table REG-7) -/

/-- A bit of a word made of a number is that bit of the number. -/
theorem bit_wordOf {i : Nat} (h : i < 16) (n : Nat) : bit (wordOf n) i = n.testBit i := by
  rw [bit, wordOf, BitVec.getLsbD_ofNat, decide_eq_true h, Bool.true_and]

/-- A field of a word made of a number below 2^16 is that field of the number. -/
theorem fld_wordOf {n : Nat} (h : n < 0x10000) (lo k : Nat) : fld (wordOf n) lo k = n / 2 ^ lo % 2 ^ k := by
  simp [fld, wordOf, Nat.mod_eq_of_lt h]

theorem flag_eq (b : Bool) (i : Nat) : flag b i = b.toNat * 2 ^ i := by cases b <;> simp [flag]

/-- ERRSTAT's fields as one number. -/
def errstatNum (e : ErrRec) : Nat :=
  e.code.toNat + 256 * e.ahi.toNat + flag e.cell 12 + 8192 * e.src.toNat + flag e.ovr 15

theorem errstatRead_eq (s : State) : errstatRead s = wordOf (errstatNum s.err) := rfl

/-- ERRSTAT's number is the sum of its fields, each within its width. -/
theorem errstatNum_parts (e : ErrRec) : ∃ c a k r o : Nat, errstatNum e = c + 256 * a + 4096 * k + 8192 * r + 32768 * o ∧
    c = e.code.toNat ∧ c < 256 ∧ a = e.ahi.toNat ∧ a < 16 ∧ k = e.cell.toNat ∧ k < 2 ∧ r = e.src.toNat ∧ r < 4 ∧
    o = e.ovr.toNat ∧ o < 2 := by
  refine ⟨_, _, _, _, _, ?_, rfl, e.code.isLt, rfl, e.ahi.isLt, rfl, Bool.toNat_lt _, rfl, e.src.isLt, rfl, Bool.toNat_lt _⟩
  simp only [errstatNum, flag_eq]
  omega

/-- A bit of a number is the last bit of its quotient. -/
theorem testBit_of_div {n i : Nat} {b : Bool} (h : n / 2 ^ i % 2 = b.toNat) : n.testBit i = b := by
  rw [Nat.testBit_eq_decide_div_mod_eq, h]
  cases b <;> rfl

/-- Table REG-7: each field of ERRSTAT at its place. -/
theorem errstatNum_fields (e : ErrRec) : errstatNum e < 0x10000 ∧ errstatNum e / 2 ^ 0 % 2 ^ 8 = e.code.toNat ∧
    errstatNum e / 2 ^ 8 % 2 ^ 4 = e.ahi.toNat ∧ errstatNum e / 2 ^ 12 % 2 = e.cell.toNat ∧
    errstatNum e / 2 ^ 13 % 2 ^ 2 = e.src.toNat ∧ errstatNum e / 2 ^ 15 % 2 = e.ovr.toNat := by
  obtain ⟨c, a, k, r, o, hsum, hc, _, ha, _, hk, _, hr, _, ho, _⟩ := errstatNum_parts e
  rw [hsum, ← hc, ← ha, ← hk, ← hr, ← ho]
  omega

/-! ### The statement -/

/-- Settles O20: ERRSTAT reads as the sum of its fields, which do not overlap, and its rule clears the record or
nothing. -/
theorem errorRecordReadsAndClears : Obligations.ErrorRecordReadsAndClears := by
  unfold Obligations.ErrorRecordReadsAndClears
  refine ⟨fun p s => ?fields, fun p v w s h hovr => ?clears, fun p v w s h hovr => ?keeps⟩
  case fields =>
    obtain ⟨hlt, hcode, hahi, hcell, hsrc, hovr⟩ := errstatNum_fields s.err
    have hread : regValue s p 0x0C = wordOf (errstatNum s.err) := errstatRead_eq s
    rw [hread]
    refine ⟨(fld_wordOf hlt 0 8).trans hcode, (fld_wordOf hlt 8 4).trans hahi, ?_, (fld_wordOf hlt 13 2).trans hsrc, ?_, rfl⟩
    · rw [bit_wordOf (by decide), testBit_of_div hcell]
    · rw [bit_wordOf (by decide), testBit_of_div hovr]
  case clears => exact exec_reach_to rfl h (if_pos hovr)
  case keeps => exact exec_reach_to rfl h (if_neg (by simp [hovr]))

end Sys2Proof.Machine
end

section
/-! The command registers (R197, R481, R487, O52): the three outcomes of a write of ACMD, ACNT or ATAG, by whether a
command is verified or runs and by who holds the claim. -/

namespace Sys2Proof.Machine

open Sys2Proof

/-! ### Who may write the command registers (R481) -/

section
variable {s c : State} {p : Port} {v w : Word}

/-- R481: while no command runs, a port that the other one's claim does not shut out may write. -/
theorem authPortError_free (hidle : authBusy s = false) (hclaim : s.auth.claim ≠ some p.other) :
    authPortError s p = none := by simp [authPortError, hidle, hclaim]

/-- R197: a command that is verified or runs refuses either port. -/
theorem authPortError_busy (h : authBusy s = true) : authPortError s p = some eBUSY := by simp [authPortError, h]

/-- R481: the other port's claim refuses this one. -/
theorem authPortError_claimed (hidle : authBusy s = false) (hclaim : s.auth.claim = some p.other) :
    authPortError s p = some eSTATE := by simp [authPortError, hidle, hclaim]

@[simp] theorem authPortError_gen1Empty (s : State) (p q : Port) (a : Fin 64) :
    authPortError (gen1Empty s p a) q = authPortError s q := by simp [authPortError, authBusy]

/-! ### The three registers' rules -/

theorem acmdWrite_free (h : authPortError s p = none) : acmdWrite s p w =
    { s with auth := { s.auth with acmd := w, claim := some p, tag := [], msg := none } } := by
  rw [acmdWrite, h]; rfl

theorem acmdWrite_refused {e : Byte} (h : authPortError s p = some e) : acmdWrite s p w = refuse s p e 0x4A := by
  rw [acmdWrite, h]

theorem acntWrite_free {high : Bool} (h : authPortError s p = none) : acntWrite s p high w = { s with
    auth := { s.auth with acntL := if high then s.auth.acntL else w, acntH := if high then w else s.auth.acntH
                          claim := some p, tag := [], msg := none } } := by
  rw [acntWrite, h]; rfl

theorem acntWrite_refused {high : Bool} {e : Byte} (h : authPortError s p = some e) :
    acntWrite s p high w = refuse s p e 0x4A := by rw [acntWrite, h]

/-- Outside a Gen3 page a refused or dropped write costs the port no page (R122). -/
theorem pageLost_noPage (h : pageMode s p = false) : pageLost s p = s := by simp [pageLost, h]

theorem pageMode_refuse (s : State) (p q : Port) (e : Byte) (off : Nat) :
    pageMode (refuse s p e off) q = pageMode s q := rfl

theorem pageMode_pushEntry (s : State) (p : Port) (e : BufEntry) : pageMode (pushEntry s p e) p = pageMode s p := by
  cases p <;> rfl

theorem pageMode_authClaim (s : State) (p q : Port) : pageMode (authClaim s p) q = pageMode s q := rfl

theorem getPort_authClaim (s : State) (p q : Port) : getPort (authClaim s p) q = getPort s q := by cases q <;> rfl

/-- A tag word of a port that may write, with room in its buffer, takes the claim and waits there. -/
theorem atagWrite_free (herr : authPortError c p = none) (hroom : (getPort c p).buf.length < 32)
    (hpage : pageMode c p = false) : atagWrite c p w = pushEntry (authClaim c p) p (.atag w) := by
  rw [atagWrite, herr, roomFor_free hroom]
  exact pageLost_noPage (by rw [pageMode_pushEntry, pageMode_authClaim, hpage])

theorem atagWrite_refused {e : Byte} (herr : authPortError c p = some e) (hpage : pageMode c p = false) :
    atagWrite c p w = refuse c p e 0x4A := by
  rw [atagWrite, herr]
  exact pageLost_noPage (by rw [pageMode_refuse, hpage])

/-- The row of an ATAG word whose capture finds the state c (R140). -/
theorem exec_atagWrite {t : State} (h : reachesRule s p 0x28 v w) (hc : captured (gen1Empty s p 0x28) p = c)
    (hrule : atagWrite c p w = t) : exec (.atagWrite p v) s = .next t :=
  exec_reach_to rfl h (by rw [hc, hrule])

end

/-! ### The statement -/

/-- Settles O52: each register asks who may write first, and acts or refuses by that alone. -/
theorem commandRegistersAreClaimed : Obligations.CommandRegistersAreClaimed := by
  unfold Obligations.CommandRegistersAreClaimed
  refine ⟨?acmd, ?acnt, ?atag, ?acmdRefused, ?acntRefused, ?atagRefused⟩
  case acmd =>
    intro p v w s h hidle hclaim
    rw [exec_reach rfl h, acmdWrite_free (by simp [authPortError_free hidle hclaim]), gen1Empty_auth]
  case acnt =>
    intro p high v w s h hidle hclaim
    rw [exec_reach rfl h, acntWrite_free (by simp [authPortError_free hidle hclaim]), gen1Empty_auth]
  case atag =>
    intro p v w s c h hc hidle hclaim hroom hpage
    refine ⟨_, exec_atagWrite h hc (atagWrite_free (authPortError_free hidle hclaim) hroom hpage), ?_, ?_⟩
    · cases p <;> rfl
    · rw [pushEntry, getPort_setPort, getPort_authClaim]
  case acmdRefused =>
    refine fun p v w s h => ⟨fun hbusy => ?_, fun hidle hclaim => ?_⟩
    · exact exec_reach_to rfl h (acmdWrite_refused (by simp [authPortError_busy hbusy]))
    · exact exec_reach_to rfl h (acmdWrite_refused (by simp [authPortError_claimed hidle hclaim]))
  case acntRefused =>
    rintro p high a v w s rfl h
    refine ⟨fun hbusy => ?_, fun hidle hclaim => ?_⟩
    · exact exec_reach_to rfl h (acntWrite_refused (by simp [authPortError_busy hbusy]))
    · exact exec_reach_to rfl h (acntWrite_refused (by simp [authPortError_claimed hidle hclaim]))
  case atagRefused =>
    refine fun p v w s c h hc hpage => ⟨fun hbusy => ?_, fun hidle hclaim => ?_⟩
    · exact exec_atagWrite h hc (atagWrite_refused (authPortError_busy hbusy) hpage)
    · exact exec_atagWrite h hc (atagWrite_refused (authPortError_claimed hidle hclaim) hpage)

end Sys2Proof.Machine
end

section
/-! What the work of a frame boundary leaves of a bank's drive (R177, R316, R337): the duty written and the one in force,
the flush, the slot counter, the commits that wait, and the other bank, as one value. -/

namespace Sys2Proof.Machine

open Sys2Proof

/-! ### The flush of a bank as one value -/

/-- A bank's duty and flush, its slot counter, the commits that it holds, and the other bank. -/
structure FlushView where
  duty : Nat
  dutyNow : Nat
  flushing : Bool
  slot : Nat
  held : List Word
  other : BankSt

/-- The bank that is not `b`. -/
def otherBank (s : State) : Bank → BankSt
  | .bankA => s.bankB
  | .bankB => s.bankA

/-- What a bank state shows of its flush, beside the other bank. -/
def flushOf (x other : BankSt) : FlushView :=
  ⟨x.drv.duty, x.drv.dutyNow, x.drv.flushing, x.drv.slot, x.held, other⟩

/-- The flush of bank b in a machine. -/
def flushView (b : Bank) (s : State) : FlushView := flushOf (getBank s b) (otherBank s b)

theorem otherBank_eq {s : State} {b b' : Bank} (h : b' ≠ b) : getBank s b' = otherBank s b := by
  cases b with
  | bankA =>
    cases b' with
    | bankA => exact absurd rfl h
    | bankB => rfl
  | bankB =>
    cases b' with
    | bankA => rfl
    | bankB => exact absurd rfl h

/-! `flushView_mk` reads the flush off a state written out and `flushView_fold` reads it back as that of the state from
which its banks come; `flushView_fields` reads a field of a bank as the flush shows it. -/

@[simp] theorem flushView_mk (b : Bank) (now freeCtr : Nat) (pw : Power) (clk : Clock) (irqStat : Word) (err : ErrRec)
    (portP portS : PortSt) (spi : SpiResp) (roles : Roles) (scratch : Word) (bankA bankB : BankSt) (disp : Display)
    (keys : Keys) (lamps : Lamps) (batA : BatA) (batB : BatB) (estA estB : Est) (pack : Pack) (auth : Auth) (nv : Nv)
    (aon : Aon) (bak : Backup) (arb : Arb) (tap : Tap) (mem : List Host.Cell) (pending : List Instr) :
    flushView b ⟨now, freeCtr, pw, clk, irqStat, err, portP, portS, spi, roles, scratch, bankA, bankB, disp, keys, lamps,
      batA, batB, estA, estB, pack, auth, nv, aon, bak, arb, tap, mem, pending⟩ =
      match b with
      | .bankA => flushOf bankA bankB
      | .bankB => flushOf bankB bankA := by
  cases b <;> rfl

@[simp] theorem flushView_fold (b : Bank) (s : State) :
    (match b with
      | .bankA => flushOf s.bankA s.bankB
      | .bankB => flushOf s.bankB s.bankA) = flushView b s := by
  cases b <;> rfl

theorem flushView_fields (b : Bank) (s : State) : (getBank s b).drv.duty = (flushView b s).duty ∧
    (getBank s b).drv.dutyNow = (flushView b s).dutyNow ∧ (getBank s b).drv.flushing = (flushView b s).flushing ∧
    (getBank s b).drv.slot = (flushView b s).slot ∧ (getBank s b).held = (flushView b s).held :=
  ⟨rfl, rfl, rfl, rfl, rfl⟩

@[simp] theorem flushView_setBank (b : Bank) (s : State) (x : BankSt) : flushView b (setBank s b x) =
    ⟨x.drv.duty, x.drv.dutyNow, x.drv.flushing, x.drv.slot, x.held, (flushView b s).other⟩ := by cases b <;> rfl

@[simp] theorem flushView_ite (b : Bank) (c : Prop) [Decidable c] (s t : State) :
    flushView b (if c then s else t) = if c then flushView b s else flushView b t := apply_ite (flushView b) c s t

@[simp] theorem flushView_foldl {α : Type} {b : Bank} {f : State → α → State}
    (hf : ∀ s a, flushView b (f s a) = flushView b s) (l : List α) (s : State) :
    flushView b (l.foldl f s) = flushView b s := by
  induction l generalizing s with
  | nil => rfl
  | cons a l ih => exact (ih _).trans (hf s a)

/-! ### Parts of a bank -/

section
variable (b : Bank) (s : State)

@[simp] theorem flushView_setDrv (d : Drive) : flushView b (setDrv s b d) =
    ⟨d.duty, d.dutyNow, d.flushing, d.slot, (flushView b s).held, (flushView b s).other⟩ := by
  simp [setDrv, flushView_fields]

@[simp] theorem flushView_setLed (l : Ledger) : flushView b (setLed s b l) = flushView b s := by
  simp [setLed, flushView_fields]

@[simp] theorem flushView_setTrim (t : Trim) : flushView b (setTrim s b t) = flushView b s := by
  simp [setTrim, flushView_fields]

@[simp] theorem flushView_setThr (t : Thread) : flushView b (setThr s b t) = flushView b s := by
  simp [setThr, flushView_fields]

@[simp] theorem flushView_setCrack (c : Crack) : flushView b (setCrack s b c) = flushView b s := by
  simp [setCrack, flushView_fields]

/-- Of a bank's state the layers show nothing of its flush. -/
theorem setLayer_flush (x : BankSt) (l : Nat) (y : LayerSt) :
    (setLayer x l y).drv = x.drv ∧ (setLayer x l y).held = x.held := by
  unfold setLayer
  split <;> exact ⟨rfl, rfl⟩

theorem foldl_setLayer_flush (f : BankSt → Nat → LayerSt) (ls : List Nat) (x : BankSt) :
    (ls.foldl (fun x l => setLayer x l (f x l)) x).drv = x.drv ∧
      (ls.foldl (fun x l => setLayer x l (f x l)) x).held = x.held := by
  induction ls generalizing x with
  | nil => exact ⟨rfl, rfl⟩
  | cons l ls ih =>
    obtain ⟨hdrv, hheld⟩ := setLayer_flush x l (f x l)
    exact ⟨(ih _).1.trans hdrv, (ih _).2.trans hheld⟩

/-! ### Flags, the Cellar and the lamps -/

@[simp] theorem flushView_setIrq (i : Nat) : flushView b (setIrq s i) = flushView b s := by simp [setIrq]

@[simp] theorem flushView_setIrqIf (c : Bool) (i : Nat) : flushView b (setIrqIf c s i) = flushView b s := by
  simp [setIrqIf]

@[simp] theorem flushView_eccRead (w : Nat) : flushView b (eccRead s w) = flushView b s := by
  rw [eccRead_frame]
  simp

@[simp] theorem flushView_eccReadN (w n : Nat) : flushView b (eccReadN s w n) = flushView b s := by
  rw [eccReadN_frame]
  simp

@[simp] theorem flushView_storeEcc (w n v : Nat) : flushView b (storeEcc s w n v) = flushView b s := by
  rw [storeEcc_frame]
  simp

@[simp] theorem flushView_storeLine (a : Nat) (v : BitVec 128) : flushView b (storeLine s a v) = flushView b s := by
  simp [storeLine]

@[simp] theorem flushView_grantLow (l n : Nat) : flushView b (grantLow s l n) = flushView b s := by simp [grantLow]

@[simp] theorem flushView_eccWritten (w : Nat) : flushView b (eccWritten s w) = flushView b s := by simp [eccWritten]

@[simp] theorem flushView_setLamp (n : Fin 8) (c : Lamp) : flushView b (setLamp s n c) = flushView b s := by
  simp [setLamp]

@[simp] theorem flushView_lampsSettle : flushView b (lampsSettle s) = flushView b s := by
  rw [lampsSettle_frame]
  simp

@[simp] theorem flushView_lampFrame : flushView b (lampFrame s b) = flushView b s := by
  simp [lampFrame, lampLocked, periodStart, takeGrid]

/-! ### Slot bursts (R226, R312, R314) -/

@[simp] theorem flushView_l0Burst (q : Burst) : flushView b (l0Burst s b q) = flushView b s := by
  simp [l0Burst, burstWork, fetchReads, rackLayer, intoIdle]

@[simp] theorem flushView_burstRuns : flushView b (burstRuns s b) = flushView b s := by
  unfold burstRuns
  dsimp only
  split
  · rfl
  · simp [flushView_fields]

@[simp] theorem flushView_burstSettled : flushView b (burstSettled s b) = flushView b s := by
  unfold burstSettled
  dsimp only
  split
  · rfl
  · simp [linesReturned, foldl_setLayer_flush, flushView_fields]

/-! ### Trim, power requests and the layers at a boundary -/

@[simp] theorem flushView_trimTakes (w : Int × Nat × Bool) (arms : Bool) :
    flushView b (trimTakes s b w arms) = flushView b s := by simp [trimTakes, trimRetarget, trimArrived]

/-- R208: a duty that waited for the boundary starts its flush there; where the duty in force is the one written there
is none. -/
theorem flushView_waitsTaken (h : (flushView b s).duty = (flushView b s).dutyNow) :
    flushView b (waitsTaken s b) = flushView b s := by
  have hkept : (⟨(flushView b s).dutyNow, (flushView b s).dutyNow, (flushView b s).flushing, (flushView b s).slot,
      (flushView b s).held, (flushView b s).other⟩ : FlushView) = flushView b s := by nth_rewrite 1 [← h]; rfl
  unfold waitsTaken
  dsimp only
  split <;> simp [flushView_fields, h, hkept]

@[simp] theorem flushView_keySlotGone : flushView b (keySlotGone s b) = flushView b s := by simp [keySlotGone]

@[simp] theorem flushView_bankUp : flushView b (bankUp s b) = flushView b s := by
  simp [bankUp, enterBias, flushView_fields]

@[simp] theorem flushView_enterOff : flushView b (enterOff s b) = flushView b s := by
  simp [enterOff, flushView_fields]

@[simp] theorem flushView_enterRelease : flushView b (enterRelease s b) = flushView b s := by
  simp [enterRelease, settleSkipped, flushView_fields]

@[simp] theorem flushView_downAct (k : PendDown) : flushView b (downAct s b k) = flushView b s := by
  unfold downAct
  dsimp only
  split <;> simp [flushView_fields]

@[simp] theorem flushView_powerSet : flushView b (powerSet s b) = flushView b s := by
  unfold powerSet
  dsimp only
  split <;> simp [flushView_fields]

@[simp] theorem flushView_powerBit (v : Bool) : flushView b (powerBit s b v) = flushView b s := by
  simp [powerBit, powerClear, flushView_fields]

@[simp] theorem flushView_reqTaken : flushView b (reqTaken s b) = flushView b s := by
  unfold reqTaken
  dsimp only
  split <;> simp [flushView_fields]

@[simp] theorem flushView_passBegins (boundary : Bool) : flushView b (passBegins s b boundary) = flushView b s := by
  simp [passBegins]

@[simp] theorem flushView_layersBoundary : flushView b (layersBoundary s b) = flushView b s := by
  simp [layersBoundary, foldl_setLayer_flush, flushView_fields]

@[simp] theorem flushView_fallbackBoundary : flushView b (fallbackBoundary s b) = flushView b s := by
  simp [fallbackBoundary, flushView_fields]

@[simp] theorem flushView_masksInForce : flushView b (masksInForce s b) = flushView b s := by
  simp [masksInForce, flushView_fields]

@[simp] theorem flushView_blinkBoundary (F : Nat) : flushView b (blinkBoundary s b F) = flushView b s := by
  simp [blinkBoundary, flushView_fields]

/-! ### The animation engine, the plan and the crack loop -/

@[simp] theorem flushView_animRead (o n : Nat) : flushView b (animRead s o n).2 = flushView b s := by simp [animRead]

@[simp] theorem flushView_animPut (c : Nat) (anew : Bool) (m v : BitVec 128) :
    flushView b (animPut s b c anew m v) = flushView b s := by simp [animPut]

@[simp] theorem flushView_barRender (i : Nat) : flushView b (barRender s b i) = flushView b s := by
  unfold barRender
  split <;> simp [barDraw, animFault]

@[simp] theorem flushView_animCarry (c : Nat) : flushView b (animCarry s b c) = flushView b s := by
  simp [animCarry, intoIdle, setLayer_flush, flushView_fields]

@[simp] theorem flushView_animResume (old : Vector BlinkSt 4) : flushView b (animResume s b old) = flushView b s := by
  unfold animResume
  dsimp only
  (repeat' split) <;> simp

@[simp] theorem flushView_animBoundary (old : Vector BlinkSt 4) :
    flushView b (animBoundary s b old) = flushView b s := by simp [animBoundary]

@[simp] theorem flushView_planFrame : flushView b (planFrame s b) = flushView b s := by simp [planFrame, planSettle]

@[simp] theorem flushView_crackLearn : flushView b (crackLearn s b) = flushView b s := by simp [crackLearn]

@[simp] theorem flushView_markUnused (old new : Nat) : flushView b (markUnused s b old new) = flushView b s := by
  simp [markUnused, rmwLine, rmwPair]

end

/-! ### The boundary and the end of a flush -/

/-- The boundary of a frame begins its slots anew, and keeps the rest of the flush where the duty in force is the one
written. -/
theorem flushView_frameWork {b : Bank} {s : State} (first : Bool) (cut : Option Nat)
    (h : (flushView b s).duty = (flushView b s).dutyNow) :
    flushView b (frameWork s b first cut) = { flushView b s with slot := 0 } := by
  simp [frameWork, flushView_waitsTaken, h, flushView_fields]

theorem flushReady_of {s : State} {b : Bank} (hflush : (getBank s b).drv.flushing = true) (hslots : slotsRun s = true)
    (hrecs : catchUps (getBank s b) = []) : flushReady s b = true := by simp [flushReady, hflush, hslots, hrecs]

theorem flushReady_not {s : State} {b : Bank} (h : slotsRun s = false ∨ (getBank s b).drv.flushing = false ∨
    catchUps (getBank s b) ≠ []) : flushReady s b = false := by
  rcases h with h | h | h <;> simp [flushReady, h]

/-- R316: a flush that ends puts the duty written into force, begins a frame, and leaves the held commits and the other
bank. -/
theorem flushView_dutyFlushEnds {s : State} {b : Bank} (h : flushReady s b = true) :
    flushView b (dutyFlushEnds s b) =
      { flushView b s with flushing := false, dutyNow := (flushView b s).duty, slot := 0 } := by
  rw [dutyFlushEnds, if_pos h]
  simp [flushView_frameWork, setLayer_flush, flushView_fields]

end Sys2Proof.Machine
end

section
/-! The boundary of a line slot (R241, R306, R311, R312): its L0 burst changes the Cellar and the arbiter alone, what the
slot takes of its bank, and the commits that it then places. -/

namespace Sys2Proof.Machine

open Sys2Proof

/-! ### Work on the Cellar -/

/-- A machine without what an access of the Cellar can change: the arbiter, the error record, IRQSTAT and the bytes. -/
def offCellar (s : State) : State := { s with arb := Arb.ready, err := ErrRec.none, irqStat := 0, mem := [] }

/-- Work that keeps the machine off the Cellar changes only what an access can change. -/
theorem eq_of_offCellar {s t : State} (h : offCellar t = offCellar s) :
    t = { s with arb := t.arb, err := t.err, irqStat := t.irqStat, mem := t.mem } :=
  (congrArg (fun u : State => { u with arb := t.arb, err := t.err, irqStat := t.irqStat, mem := t.mem }) h :)

theorem getBank_offCellar (s : State) (b : Bank) : getBank (offCellar s) b = getBank s b := by cases b <;> rfl

theorem getBank_of_offCellar {s t : State} (h : offCellar t = offCellar s) (b : Bank) : getBank t b = getBank s b := by
  rw [← getBank_offCellar t, h, getBank_offCellar]

theorem offCellar_ite (c : Prop) [Decidable c] (s t : State) :
    offCellar (if c then s else t) = if c then offCellar s else offCellar t := apply_ite offCellar c s t

theorem offCellar_foldl {α : Type} {f : State → α → State} (hf : ∀ s a, offCellar (f s a) = offCellar s) (l : List α)
    (s : State) : offCellar (l.foldl f s) = offCellar s := by
  induction l generalizing s with
  | nil => rfl
  | cons a l ih => exact (ih _).trans (hf s a)

theorem offCellar_eccReadN (s : State) (w n : Nat) : offCellar (eccReadN s w n) = offCellar s := by
  rw [eccReadN_frame]
  rfl

theorem offCellar_storeLine (s : State) (a : Nat) (v : BitVec 128) : offCellar (storeLine s a v) = offCellar s := by
  rw [storeLine, storeEcc_frame]
  rfl

theorem offCellar_upsets (s : State) (ups : List Upset) : offCellar (upsets s ups) = offCellar s := by
  rw [upsets_frame]
  rfl

/-- R312, R314: a slot's burst works on the Cellar alone. -/
theorem offCellar_l0Burst (s : State) (b : Bank) (q : Burst) : offCellar (l0Burst s b q) = offCellar s := by
  have hrack (s : State) (l : Nat) : offCellar (rackLayer s b q l) = offCellar s := by
    simp only [rackLayer, intoIdle, offCellar_ite, offCellar_storeLine, offCellar_eccReadN, ite_self]
  have hwork : offCellar (burstWork s b q) = offCellar s := by
    simp only [burstWork, fetchReads, offCellar_foldl hrack, offCellar_ite,
      offCellar_foldl (fun s l => offCellar_eccReadN s _ 2), ite_self]
  exact (rfl : offCellar (l0Burst s b q) = offCellar (burstWork s b q)).trans hwork

theorem getBank_l0Burst (s : State) (b b' : Bank) (q : Burst) : getBank (l0Burst s b q) b' = getBank s b' :=
  getBank_of_offCellar (offCellar_l0Burst s b q) b'

theorem getBank_upsets (s : State) (ups : List Upset) (b : Bank) : getBank (upsets s ups) b = getBank s b :=
  getBank_of_offCellar (offCellar_upsets s ups) b

/-! ### Layers of a bank -/

theorem getLayer_setLayer (x : BankSt) {l : Nat} (h : l < 5) (y : LayerSt) : getLayer (setLayer x l y) l = y := by
  simp [getLayer, setLayer, h]

theorem getLayer_setLayer_ne (x : BankSt) {k l : Nat} (hk : k < 5) (h : k ≠ l) (y : LayerSt) :
    getLayer (setLayer x l y) k = getLayer x k := by
  unfold setLayer
  split
  · simp [getLayer, hk, Vector.getElem_set_ne _ _ (Ne.symm h)]
  · rfl

theorem setLayer_frame (x : BankSt) (l : Nat) (y : LayerSt) : setLayer x l y = { x with layers := (setLayer x l y).layers } := by
  unfold setLayer
  split <;> rfl

/-- Work on the layers one after the other changes the layers alone. -/
theorem foldl_setLayer_frame (f : BankSt → Nat → BankSt) (hf : ∀ x l, f x l = { x with layers := (f x l).layers })
    (ls : List Nat) (x : BankSt) : ls.foldl f x = { x with layers := (ls.foldl f x).layers } := by
  induction ls generalizing x with
  | nil => rfl
  | cons l ls ih =>
    have h := ih (f x l)
    rw [List.foldl_cons, h, hf x l]

/-- Work that sets each layer from that layer and the bank's drive alone gives the layer as its own step does. -/
theorem getLayer_foldl_setLayer (g : Drive → LayerSt → Nat → LayerSt) (x : BankSt) (ls : List Nat) (hls : ls.Nodup)
    {l : Nat} (h : l < 5) : getLayer (ls.foldl (fun x k => setLayer x k (g x.drv (getLayer x k) k)) x) l =
      if l ∈ ls then g x.drv (getLayer x l) l else getLayer x l := by
  induction ls generalizing x with
  | nil => rfl
  | cons k ls ih =>
    obtain ⟨hk, hnodup⟩ := List.nodup_cons.mp hls
    rw [List.foldl_cons, ih _ hnodup, (setLayer_flush x k _).1]
    by_cases hl : l = k
    · subst hl
      rw [if_neg hk, if_pos (List.mem_cons_self), getLayer_setLayer x h]
    · rw [getLayer_setLayer_ne x h hl]
      simp [hl]

/-- All five layers, each set from itself. -/
theorem getLayer_eachLayer (g : Drive → LayerSt → Nat → LayerSt) (x : BankSt) {l : Nat} (h : l < 5) :
    getLayer ((List.range 5).foldl (fun x k => setLayer x k (g x.drv (getLayer x k) k)) x) l =
      g x.drv (getLayer x l) l := by
  rw [getLayer_foldl_setLayer g x _ List.nodup_range h, if_pos (List.mem_range.mpr h)]

/-- A layer without a batch has nothing for a slot to rack, and gets none (R312). -/
theorem lineTaken_idle {y : LayerSt} (h : y.cur = none) (i : Nat) :
    (lineTaken y i).cur = none ∧ (lineTaken y i).next = y.next := by
  have hdue : rackDue y i = false := by simp [rackDue, h]
  simp [lineTaken, hdue, h]

/-! ### What a slot takes -/

/-- The part of a slot's boundary after its drive: the lines that its burst takes, the slot counter and the burst. -/
def slotTaken (s : State) (b : Bank) (d : Drive) : State :=
  let q := burstOf s b (slotLine d d.slot) ((getBank s b).drv.sta == .content)
  burstDue (setDrv (linesTaken s b q.line) b { (getBank s b).drv with slot := d.slot + 1, slotAt := s.now }) b q

theorem linesTaken_bank (s : State) (b : Bank) (i : Nat) :
    linesTaken s b i = setBank s b { getBank s b with layers := (getBank (linesTaken s b i) b).layers } := by
  unfold linesTaken
  split
  · rw [getBank_setBank, ← foldl_setLayer_frame _ (fun x l => setLayer_frame x l _)]
  · exact (setBank_getBank s b).symm

theorem burstDue_bank (s : State) (b : Bank) (q : Burst) : ∃ B, getBank (burstDue s b q) b =
      { getBank s b with drv := { (getBank s b).drv with burst := B } } ∧
    (burstDue s b q).now = s.now ∧ (burstDue s b q).pw = s.pw ∧ (burstDue s b q).clk = s.clk := by
  unfold burstDue
  split
  · exact ⟨_, getBank_setBank s b _, setBank_now s b _, setBank_pw s b _, setBank_clk s b _⟩
  · have h := eq_of_offCellar (offCellar_l0Burst s b q)
    refine ⟨_, getBank_l0Burst s b b q, ?_, ?_, ?_⟩
    · exact (congrArg State.now h :)
    · exact (congrArg State.pw h :)
    · exact (congrArg State.clk h :)

/-- What a slot leaves of its bank: the slot counter goes on, the burst may wait, and the layers are those of which the
line is taken. -/
theorem slotTaken_bank (s : State) (b : Bank) (d : Drive) : ∃ B L, getBank (slotTaken s b d) b =
      { getBank s b with layers := L, drv := { (getBank s b).drv with slot := d.slot + 1, slotAt := s.now, burst := B } } ∧
    (slotTaken s b d).now = s.now ∧ (slotTaken s b d).pw = s.pw ∧ (slotTaken s b d).clk = s.clk := by
  unfold slotTaken
  extract_lets q
  generalize hx : ({ (getBank s b).drv with slot := d.slot + 1, slotAt := s.now } : Drive) = x
  obtain ⟨B, hbank, hnow, hpw, hclk⟩ := burstDue_bank (setDrv (linesTaken s b q.line) b x) b q
  have hlines := linesTaken_bank s b q.line
  refine ⟨B, (getBank (linesTaken s b q.line) b).layers, ?_, ?_, ?_, ?_⟩
  · rw [hbank, setDrv, getBank_setBank, ← hx]
    generalize (getBank (linesTaken s b q.line) b).layers = L at hlines
    rw [hlines, getBank_setBank]
  · rw [hnow, setDrv, hlines]; simp
  · rw [hpw, setDrv, hlines]; simp
  · rw [hclk, setDrv, hlines]; simp

/-- R312: a layer without a batch comes out of the slot without one. -/
theorem slotTaken_idle {s : State} {b : Bank} (d : Drive) {l : Nat} (hl : l < 5) (hcur : (getLayer (getBank s b) l).cur = none)
    (hnext : (getLayer (getBank s b) l).next = none) : (getLayer (getBank (slotTaken s b d) b) l).cur = none ∧
      (getLayer (getBank (slotTaken s b d) b) l).next = none := by
  unfold slotTaken
  extract_lets q
  generalize hx : ({ (getBank s b).drv with slot := d.slot + 1, slotAt := s.now } : Drive) = x
  obtain ⟨B, hbank, _⟩ := burstDue_bank (setDrv (linesTaken s b q.line) b x) b q
  have hlayer : getLayer (getBank (burstDue (setDrv (linesTaken s b q.line) b x) b q) b) l =
      getLayer (getBank (linesTaken s b q.line) b) l := by
    rw [hbank, setDrv, getBank_setBank]
    rfl
  rw [hlayer, linesTaken]
  split
  · rw [getBank_setBank, getLayer_eachLayer (fun _ y _ => lineTaken y q.line) _ hl]
    obtain ⟨htaken, hkeeps⟩ := lineTaken_idle hcur q.line
    exact ⟨htaken, hkeeps.trans hnext⟩
  · exact ⟨hcur, hnext⟩

/-- A slot takes the ladder setting of its bank's drive page (R241). -/
def slotLadder (s : State) (b : Bank) : State :=
  setDrv s b { (getBank s b).drv with ladNow := pgf s (drivePage b + 2) 4 4 }

theorem getBank_slotLadder (s : State) (b : Bank) : getBank (slotLadder s b) b =
    { getBank s b with drv := { (getBank s b).drv with ladNow := pgf s (drivePage b + 2) 4 4 } } := getBank_setBank s b _

/-- What the drive of a slot finds: the ladder taken, the sequence state of the slot, and the upsets of the reads. -/
def slotFound (s : State) (b : Bank) (ups : List Upset) : State := upsets (slotState (slotLadder s b) b) ups

/-- The state in which a slot's commits are placed. -/
def slotOpened (s : State) (b : Bank) (ups : List Upset) : State :=
  let u := slotDrive (slotFound s b ups) b
  slotTaken (keySlotDue u b (driven (getBank u b).drv)) b (getBank s b).drv

/-- The record of a slot that shows content: the composed line, driven with the slot's polarity (R306). -/
def contentRec (s : State) (b : Bank) : SlotRec :=
  let d := (getBank s b).drv
  let r := blankRec s b d.slot
  { r with
    cycles := slotLen (frameLen d) (frameSlots d) d.slot, keyCycles := 0, neg := slotNeg (getBank s b) d.slot
    pix := composedLine s b r.line }

theorem slotDrive_content {s : State} {b : Bank} (h : (getBank s b).drv.sta = .content) : slotDrive s b =
    setLed s b { (getBank s b).led with recs := (getBank s b).led.recs ++ [contentRec s b] } := by
  rw [slotDrive]
  simp only [h]
  rfl

theorem slotDrive_off {s : State} {b : Bank} (h : (getBank s b).drv.sta = .off) : slotDrive s b = s := by
  rw [slotDrive]
  simp only [h]

/-- Where no burst waits and no power-down of state 3 does, the boundary of a slot is these steps. -/
theorem slotBoundary_steps {s : State} {b : Bank} (ups : List Upset) (hburst : (getBank s b).drv.burst = none)
    (hdown : (getBank s b).drv.sta ≠ .allOff) (hrun : driven (getBank s b).drv = true ∨ slotsRun s = true)
    (hslot : (getBank s b).drv.slot < frameSlots (getBank s b).drv) :
    slotBoundary s b ups = heldPlaced (slotOpened s b ups) b := by
  have hsettled : burstSettled s b = s := by simp [burstSettled, hburst]
  have hedge : downEdge s b = s := by simp [downEdge, hdown]
  rw [slotBoundary, hsettled, hedge]
  exact if_pos ⟨hrun, hslot⟩

/-- A key slot falls due without a trace in the bank. -/
theorem keySlotDue_keeps (s : State) (b : Bank) (on : Bool) : (∀ b', getBank (keySlotDue s b on) b' = getBank s b') ∧
    (keySlotDue s b on).now = s.now ∧ (keySlotDue s b on).pw = s.pw := by
  unfold keySlotDue
  split
  · exact ⟨fun b' => by cases b' <;> rfl, rfl, rfl⟩
  · exact ⟨fun _ => rfl, rfl, rfl⟩

/-- What a slot's begin leaves of its bank, from what its drive leaves. -/
theorem slotOpened_bank (s : State) (b : Bank) (ups : List Upset) : ∃ B L, getBank (slotOpened s b ups) b =
      { getBank (slotDrive (slotFound s b ups) b) b with
        layers := L
        drv := { (getBank (slotDrive (slotFound s b ups) b) b).drv with
          slot := (getBank s b).drv.slot + 1, slotAt := (slotDrive (slotFound s b ups) b).now, burst := B } } ∧
    (slotOpened s b ups).now = (slotDrive (slotFound s b ups) b).now := by
  unfold slotOpened
  extract_lets u
  obtain ⟨hkbank, hknow, _⟩ := keySlotDue_keeps u b (driven (getBank u b).drv)
  generalize keySlotDue u b (driven (getBank u b).drv) = z at hkbank hknow
  obtain ⟨B, L, hbank, hnow, _⟩ := slotTaken_bank z b (getBank s b).drv
  exact ⟨B, L, by rw [hbank, hkbank, hknow], hnow.trans hknow⟩

/-- R312: a layer that the drive leaves without a batch comes out of the slot's begin without one. -/
theorem slotOpened_idle {s : State} {b : Bank} {ups : List Upset} {l : Nat} (hl : l < 5)
    (hcur : (getLayer (getBank (slotDrive (slotFound s b ups) b) b) l).cur = none)
    (hnext : (getLayer (getBank (slotDrive (slotFound s b ups) b) b) l).next = none) :
    (getLayer (getBank (slotOpened s b ups) b) l).cur = none := by
  unfold slotOpened
  extract_lets u
  obtain ⟨hkbank, _, _⟩ := keySlotDue_keeps u b (driven (getBank u b).drv)
  exact (slotTaken_idle _ hl (by rw [hkbank]; exact hcur) (by rw [hkbank]; exact hnext)).1

/-! ### Commits that waited for the slot (R311) -/

/-- A commit that is placed changes the layers alone. -/
theorem commitPlaced_bank (s : State) (b : Bank) (v : Word) :
    commitPlaced s b v = setBank s b { getBank s b with layers := (getBank (commitPlaced s b v) b).layers } := by
  have hstep (x : BankSt) (l : Nat) (y : LayerSt) : (if bit v l then setLayer x l y else x) =
      { x with layers := (if bit v l then setLayer x l y else x).layers } := by
    split
    · exact setLayer_frame x l y
    · rfl
  unfold commitPlaced
  extract_lets x lines
  rw [getBank_setBank, ← foldl_setLayer_frame _ (fun x l => hstep x l _)]

/-- R310: the layers that a commit names take its lines below the count in force. -/
theorem commitPlaced_layer (s : State) (b : Bank) (v : Word) {l : Nat} (hl : l < 5) :
    getLayer (getBank (commitPlaced s b v) b) l = if bit v l then
      placeCommit (slotsStand s (getBank s b).drv) (getLayer (getBank s b) l)
        (lineSet (fld v 8 4) (fld v 12 4) &&& linesBelow (frameLines (getBank s b).drv))
      else getLayer (getBank s b) l := by
  have hnamed (x : BankSt) (k : Nat) (y : LayerSt) : (if bit v k then setLayer x k y else x) =
      setLayer x k (if bit v k then y else getLayer x k) := by
    split
    · rfl
    · unfold setLayer getLayer
      split <;> simp
  rw [commitPlaced, getBank_setBank]
  simp only [hnamed]
  exact getLayer_eachLayer (fun d y k => if bit v k then placeCommit (slotsStand s d) y
    (lineSet (fld v 8 4) (fld v 12 4) &&& linesBelow (frameLines (getBank s b).drv)) else y) (getBank s b) hl

/-- Commits that wait are placed where nothing holds them; else they stay. Nothing but the layers and the queue of
commits changes. -/
theorem heldPlaced_bank (s : State) (b : Bank) : ∃ L H, heldPlaced s b = setBank s b { getBank s b with
    layers := L, held := H } := by
  have hfold (vs : List Word) (t : State) : ∃ L, vs.foldl (fun s v => commitPlaced s b v) t =
      setBank t b { getBank t b with layers := L } := by
    induction vs generalizing t with
    | nil => exact ⟨_, (setBank_getBank t b).symm⟩
    | cons v vs ih =>
      obtain ⟨L, hL⟩ := ih (commitPlaced t b v)
      refine ⟨L, ?_⟩
      rw [List.foldl_cons, hL, commitPlaced_bank, getBank_setBank, setBank_setBank]
  unfold heldPlaced
  extract_lets x
  split
  · exact ⟨_, _, (setBank_getBank s b).symm⟩
  · obtain ⟨L, hL⟩ := hfold x.held (setBank s b { x with held := [] })
    exact ⟨L, [], by rw [hL, getBank_setBank, setBank_setBank]⟩

/-- One commit that waited, with nothing that holds it any longer, is placed. -/
theorem heldPlaced_one {s : State} {b : Bank} {v : Word} (hwait : commitsWait s b = false) (hheld : (getBank s b).held = [v]) :
    heldPlaced s b = commitPlaced (setBank s b { getBank s b with held := [] }) b v := by
  simp [heldPlaced, hwait, hheld]

/-- A layer without a batch gets one of the commit's lines, none of them racked (R310). -/
theorem placeCommit_idle {y : LayerSt} {lines : BitVec 16} (d : Drive) (hcur : y.cur = none) (hlines : lines ≠ 0) :
    (placeCommit d y lines).cur = some { named := lines, racked := 0, host := lines } := by
  rw [placeCommit, hcur]
  exact if_neg hlines

/-- Behind the begin of a slot with a length, the next one is not due. -/
theorem slotDueNow_begun {s : State} {b : Bank} {k : Nat} (hslot : (getBank s b).drv.slot = k + 1)
    (hat : (getBank s b).drv.slotAt = s.now)
    (hlen : 0 < slotLen (frameLen (getBank s b).drv) (frameSlots (getBank s b).drv) k) : slotDueNow s b = false := by
  simp [slotDueNow, hslot, hat, hlen.ne']

end Sys2Proof.Machine
end

section
/-! DCTL and the duty flush (R177, R208, R316, R337, R311, R315, O27): what a DCTL write does by what it names, the end of
a flush, and the slot behind which the commits that it held take effect. -/

namespace Sys2Proof.Machine

open Sys2Proof

/-! ### The high byte of a word that reaches its register (R104, R105) -/

theorem bit_eq_hiByte (v : Word) {i : Nat} (h : 8 ≤ i) : bit v i = (hiByte v).getLsbD (i - 8) := by
  rw [bit, hiByte, BitVec.truncate, BitVec.getLsbD_setWidth, BitVec.getLsbD_ushiftRight, show 8 + (i - 8) = i by omega]
  by_cases hi : i < 16
  · simp [show i - 8 < 8 by omega]
  · simp [BitVec.getLsbD_of_ge v i (by omega)]

theorem hiByte_wordOfBytes (lo hi : Byte) : hiByte (wordOfBytes lo hi) = hi := by
  apply BitVec.eq_of_toNat_eq
  have hlo := lo.isLt
  have hhi := hi.isLt
  simp only [hiByte, wordOfBytes, BitVec.truncate, BitVec.toNat_setWidth, BitVec.toNat_ushiftRight, BitVec.toNat_ofNat,
    Nat.shiftRight_eq_div_pow]
  omega

/-- Gen1's write latch gives the low byte alone: the high byte is that of the row. -/
theorem hiByte_of_reachesRule {s : State} {p : Port} {a : Fin 64} {v w : Word} (h : reachesRule s p a v w) :
    hiByte w = hiByte v := by
  obtain ⟨_, _, _, hword, _⟩ := h
  unfold gen1Word at hword
  split at hword
  · split at hword
    · split at hword
      · cases hword
        exact hiByte_wordOfBytes _ _
      · cases hword
    · cases hword
  · cases hword
    rfl

theorem bit_of_reachesRule {s : State} {p : Port} {a : Fin 64} {v w : Word} (h : reachesRule s p a v w) {i : Nat}
    (hi : 8 ≤ i) : bit w i = bit v i := by
  rw [bit_eq_hiByte w hi, bit_eq_hiByte v hi, hiByte_of_reachesRule h]

/-- The word of a view row names its bank and carries VIEW. -/
theorem viewWord_bits {s : State} {p : Port} {a : Fin 64} {b : Bank} {w : Word}
    (h : reachesRule s p a (wordOf (0x4000 + 0x8000 * b.num)) w) : bit w 14 = true ∧ Bank.ofBit (bit w 15) = b := by
  rw [bit_of_reachesRule h (by decide), bit_of_reachesRule h (by decide)]
  cases b <;> exact ⟨by decide, by decide⟩

/-! ### What a DCTL write does (R177, R578) -/

theorem getBank_disp (s : State) (x : Display) (b : Bank) : getBank { s with disp := x } b = getBank s b := by
  cases b <;> rfl

theorem setDrv_disp (s : State) (x : Display) (b : Bank) (d : Drive) :
    setDrv { s with disp := x } b d = { setDrv s b d with disp := x } := by cases b <;> rfl

section
variable {s : State} {p : Port} {b : Bank} {w : Word}

theorem dctlWrite_view (h : bit w 14 = true) :
    dctlWrite s p w = { s with disp := { s.disp with dctlView := Bank.ofBit (bit w 15) } } := by
  simp [dctlWrite, dctlError, h, dctlShow]

/-- A DCTL write without VIEW that names a reserved code, or a static field beside a multiplexed one. -/
theorem dctlWrite_range (h14 : bit w 14 = false)
    (h : 4 < fld w 3 3 ∨ 4 < fld w 6 3 ∨ (fld w 0 3 = 0 ∧ fld w 3 3 ≠ 0) ∨ (fld w 0 3 ≠ 0 ∧ fld w 3 3 = 0)) :
    dctlWrite s p w = refuse s p eRANGE 0x1A := by
  have herr : dctlError s w = some eRANGE := by
    unfold dctlError
    dsimp only
    rw [if_neg (by simp [h14]), if_pos (by omega)]
  rw [dctlWrite, herr]

/-- A DCTL write whose codes are defined is refused in a bank that is not in state 0 where it changes duty or bias. -/
theorem dctlError_inRange (h14 : bit w 14 = false) (hb : b = Bank.ofBit (bit w 15)) (hbias : fld w 3 3 ≤ 4)
    (hrate : fld w 6 3 ≤ 4) (hstatic : fld w 0 3 = 0 ↔ fld w 3 3 = 0) : dctlError s w =
      if (fld w 0 3 ≠ (getBank s b).drv.duty ∨ fld w 3 3 ≠ (getBank s b).drv.bias) ∧ (getBank s b).drv.sta ≠ .off
      then some eSTATE else none := by
  subst hb
  unfold dctlError
  dsimp only
  rw [if_neg (by simp [h14]), if_neg (by omega)]

/-- The fields that a DCTL write leaves in its bank's drive. -/
def dctlTaken (d : Drive) (w : Word) : Drive :=
  { d with
    duty := fld w 0 3, bias := fld w 3 3, frate := fld w 6 3, wave := fld w 9 2
    flushing := d.flushing || decide (fld w 0 3 ≠ d.duty ∧ ¬(d.dutyWait = true ∧ fld w 0 3 = d.dutyNow))
    dutyWait := d.dutyWait && decide (fld w 0 3 = d.duty) }

theorem dctlWrite_taken (h14 : bit w 14 = false) (hb : b = Bank.ofBit (bit w 15)) (h : dctlError s w = none) :
    dctlWrite s p w = { setDrv s b (dctlTaken (getBank s b).drv w) with disp := { s.disp with dctlView := b } } := by
  have hshow : dctlShow s w = { s with disp := { s.disp with dctlView := b } } := by rw [dctlShow, hb]
  have hfields (t : State) : dctlFields t w = setDrv t b (dctlTaken (getBank t b).drv w) := by rw [hb]; rfl
  rw [dctlWrite, h]
  simp only [h14, Bool.false_eq_true, if_false, hfields, hshow, setDrv_disp, getBank_disp]

end

/-! ### The slot behind a flush (R311, R337) -/

/-- A bank in state 0, or in state 4 without a power-down, keeps its state at a slot. -/
theorem slotState_shown {s : State} {b : Bank}
    (hsta : (getBank s b).drv.sta = .off ∨ ((getBank s b).drv.sta = .content ∧ (getBank s b).drv.pend = .none)) :
    slotState s b = s := by
  rcases hsta with h | ⟨h, hpend⟩
  · simp [slotState, returning, h]
  · simp [slotState, returning, h, hpend]

/-- The drive of such a slot books its record in the ledger, at most. -/
theorem slotDrive_shown {s : State} {b : Bank} (hsta : (getBank s b).drv.sta = .off ∨ (getBank s b).drv.sta = .content) :
    ∃ L, slotDrive s b = setLed s b L := by
  rcases hsta with h | h
  · exact ⟨(getBank s b).led, (slotDrive_off h).trans (setBank_getBank s b).symm⟩
  · exact ⟨_, slotDrive_content h⟩

/-- The bank of such a slot, as its drive leaves it. -/
theorem slotDriven_shown {s : State} {b : Bank} (ups : List Upset)
    (hsta : (getBank s b).drv.sta = .off ∨ ((getBank s b).drv.sta = .content ∧ (getBank s b).drv.pend = .none)) :
    ∃ L, getBank (slotDrive (slotFound s b ups) b) b = { getBank (slotLadder s b) b with led := L } ∧
      (slotDrive (slotFound s b ups) b).now = s.now := by
  have hstate : slotState (slotLadder s b) b = slotLadder s b := slotState_shown (by rw [getBank_slotLadder]; exact hsta)
  have hfound : getBank (slotFound s b ups) b = getBank (slotLadder s b) b := by
    rw [slotFound, getBank_upsets, hstate]
  have hnow : (slotFound s b ups).now = s.now := by
    rw [slotFound, hstate, upsets_frame]
    exact setBank_now s b _
  obtain ⟨L, hL⟩ := slotDrive_shown (s := slotFound s b ups) (b := b)
    (by rw [hfound, getBank_slotLadder]; exact hsta.imp_right And.left)
  refine ⟨L, ?_, ?_⟩
  · rw [hL, setLed, getBank_setBank, hfound]
  · rw [hL, setLed, setBank_now, hnow]

theorem commitsWait_begun {s : State} {b : Bank} {k : Nat} (hflush : (getBank s b).drv.flushing = false)
    (hslot : (getBank s b).drv.slot = k + 1) (hat : (getBank s b).drv.slotAt = s.now)
    (hlen : 0 < slotLen (frameLen (getBank s b).drv) (frameSlots (getBank s b).drv) k) : commitsWait s b = false := by
  simp [commitsWait, hflush, slotDueNow_begun hslot hat hlen]

/-- R311: the one commit that waited for the slot is placed behind its begin. -/
theorem slotBoundary_places {s : State} {b : Bank} {v : Word} (ups : List Upset) (hslots : slotsRun s = true)
    (hflush : (getBank s b).drv.flushing = false)
    (hsta : (getBank s b).drv.sta = .off ∨ ((getBank s b).drv.sta = .content ∧ (getBank s b).drv.pend = .none))
    (hslot : (getBank s b).drv.slot < frameSlots (getBank s b).drv) (hburst : (getBank s b).drv.burst = none)
    (hlen : 0 < slotLen (frameLen (getBank s b).drv) (frameSlots (getBank s b).drv) (getBank s b).drv.slot)
    (hheld : (getBank s b).held = [v]) :
    (getBank (slotBoundary s b ups) b).held = [] ∧
      ∀ l, l < 5 → bit v l = true → (getLayer (getBank s b) l).cur = none → (getLayer (getBank s b) l).next = none →
        lineSet (fld v 8 4) (fld v 12 4) &&& linesBelow (frameLines (getBank s b).drv) ≠ 0 →
        (getLayer (getBank (slotBoundary s b ups) b) l).cur = some
          { named := lineSet (fld v 8 4) (fld v 12 4) &&& linesBelow (frameLines (getBank s b).drv), racked := 0
            host := lineSet (fld v 8 4) (fld v 12 4) &&& linesBelow (frameLines (getBank s b).drv) } := by
  obtain ⟨E, hdriven, hdrivenNow⟩ := slotDriven_shown ups hsta
  obtain ⟨B, L, hbank, hnow⟩ := slotOpened_bank s b ups
  rw [hdriven, hdrivenNow, getBank_slotLadder] at hbank
  rw [hdrivenNow] at hnow
  have hidle (l : Nat) (hl : l < 5) (hcur : (getLayer (getBank s b) l).cur = none)
      (hnext : (getLayer (getBank s b) l).next = none) : (getLayer (getBank (slotOpened s b ups) b) l).cur = none := by
    have hlayer : getLayer (getBank (slotDrive (slotFound s b ups) b) b) l = getLayer (getBank s b) l := by
      rw [hdriven, getBank_slotLadder]; rfl
    exact slotOpened_idle hl (by rw [hlayer, hcur]) (by rw [hlayer, hnext])
  have hwait : commitsWait (slotOpened s b ups) b = false := by
    refine commitsWait_begun (k := (getBank s b).drv.slot) ?_ ?_ ?_ ?_ <;> rw [hbank]
    · exact hflush
    · exact hnow.symm
    · exact hlen
  have hplaced := heldPlaced_one (v := v) hwait (by rw [hbank]; exact hheld)
  have heq := slotBoundary_steps ups hburst (by rcases hsta with h | ⟨h, _⟩ <;> simp [h]) (.inr hslots) hslot
  generalize slotOpened s b ups = u at hbank hidle hplaced heq
  refine ⟨?_, fun l hl hnamed hcur hnext hlines => ?_⟩
  · rw [heq, hplaced, commitPlaced_bank, getBank_setBank, getBank_setBank]
  · have hlayer : getLayer (getBank (setBank u b { getBank u b with held := [] }) b) l = getLayer (getBank u b) l := by
      rw [getBank_setBank]; rfl
    have hframe : frameLines (getBank (setBank u b { getBank u b with held := [] }) b).drv =
        frameLines (getBank s b).drv := by rw [getBank_setBank, hbank]; rfl
    rw [heq, hplaced, commitPlaced_layer _ _ _ hl, if_pos hnamed, hlayer, hframe]
    exact placeCommit_idle _ (hidle l hl hcur hnext) hlines

/-! ### The statement -/

/-- Settles O27: the cases of R177 in the order of R578, the flush as one value, and the slot behind it. -/
theorem displayControlAndDutyFlush : Obligations.DisplayControlAndDutyFlush := by
  unfold Obligations.DisplayControlAndDutyFlush
  refine ⟨⟨?view, fun p b v w s h h14 hb => ⟨?taken, ?range, ?state⟩⟩, ?ends, ?slot, ?none⟩
  case view =>
    intro p b w s h
    obtain ⟨h14, hb⟩ := viewWord_bits h
    exact exec_reach_to rfl h (by rw [dctlWrite_view h14, hb, gen1Empty_disp])
  case taken =>
    intro hbias hrate hstatic hkeeps
    have hnone : dctlError (gen1Empty s p 0x0D) w = none := by
      rw [dctlError_inRange h14 hb hbias hrate hstatic, getBank_gen1Empty, if_neg]
      rintro ⟨hnew, hsta⟩
      rcases hkeeps with ⟨hd, hb⟩ | hoff
      · exact hnew.elim (absurd hd) (absurd hb)
      · exact hsta hoff
    exact exec_reach_to rfl h (by rw [dctlWrite_taken h14 hb hnone, getBank_gen1Empty, gen1Empty_disp]; rfl)
  case range => exact fun hbad => exec_reach_to rfl h (dctlWrite_range h14 hbad)
  case state =>
    intro hbias hrate hstatic hnew hsta
    have herr : dctlError (gen1Empty s p 0x0D) w = some eSTATE := by
      rw [dctlError_inRange h14 hb hbias hrate hstatic, getBank_gen1Empty, if_pos ⟨hnew, hsta⟩]
    exact exec_reach_to rfl h (by rw [dctlWrite, herr])
  case ends =>
    intro b s hflush hslots hrecs
    have hview := flushView_dutyFlushEnds (flushReady_of hflush hslots hrecs)
    refine ⟨_, rfl, ?_, ?_, ?_, ?_, fun b' hb' => ?_⟩
    · exact congrArg FlushView.flushing hview
    · exact congrArg FlushView.dutyNow hview
    · exact congrArg FlushView.slot hview
    · exact congrArg FlushView.held hview
    · rw [otherBank_eq hb', otherBank_eq hb']
      exact congrArg FlushView.other hview
  case slot =>
    intro b ups v s hslots hflush hsta hslot hburst hlen hheld
    exact ⟨_, rfl, slotBoundary_places ups hslots hflush hsta hslot hburst hlen hheld⟩
  case none =>
    intro b s h
    exact congrArg Host.Outcome.next (if_neg (by simp [flushReady_not h]))

end Sys2Proof.Machine
end

section
/-! DPWR (R178, R208, R269, R275, R300, Table DRV-5, O28): the bit of one bank in each state of its sequence, the
refusals, and the settle that a set ends at the next slot. -/

namespace Sys2Proof.Machine

open Sys2Proof

/-! ### Work on one bank leaves the record and the bytes -/

theorem OnBank.err {s t : State} {b : Bank} (h : OnBank s b t) : t.err = s.err := by rw [h]; cases b <;> rfl

theorem OnBank.mem {s t : State} {b : Bank} (h : OnBank s b t) : t.mem = s.mem := by rw [h]; cases b <;> rfl

theorem onBank_downAct (s : State) (b : Bank) (k : PendDown) : OnBank s b (downAct s b k) := by
  unfold downAct
  dsimp only
  split
  · exact onBank_enterRelease s b
  · exact onBank_enterRelease s b
  · exact onBank_setDrv s b _
  · split
    · exact onBank_setDrv s b _
    · exact onBank_setDrv s b _
  · exact OnBank.refl s b

theorem onBank_powerSet (s : State) (b : Bank) : OnBank s b (powerSet s b) := by
  unfold powerSet
  dsimp only
  split
  · split
    · exact onBank_bankUp s b
    · exact onBank_setDrv s b _
  · exact onBank_setDrv s b _
  · exact onBank_setDrv s b _
  · exact onBank_setDrv s b _

theorem onBank_powerClear (s : State) (b : Bank) : OnBank s b (powerClear s b) :=
  (onBank_setDrv s b _).trans (onBank_downAct _ b .byClear)

theorem onBank_powerBit (s : State) (b : Bank) (v : Bool) : OnBank s b (powerBit s b v) := by
  unfold powerBit
  dsimp only
  split
  · exact OnBank.refl s b
  · split
    · exact onBank_setDrv s b _
    · split
      · exact onBank_powerSet s b
      · exact onBank_powerClear s b

/-! ### A write that changes one bank's bit (R178) -/

section
variable {s : State} {p : Port} {b : Bank} {w : Word}

/-- A bit written as it reads does nothing. -/
theorem powerBit_same {v : Bool} (h : v = reqShown (getBank s b).drv) : powerBit s b v = s := if_pos h

/-- R208: a bit written back to the value in force ends the wait of the change before. -/
theorem powerBit_back {v : Bool} (hshown : (getBank s b).drv.reqNext = some (!v)) (hreq : (getBank s b).drv.req = v) :
    powerBit s b v = setDrv s b { (getBank s b).drv with reqNext := none } := by
  have hne : v ≠ reqShown (getBank s b).drv := by simp [reqShown, hshown]
  rw [powerBit, if_neg hne, if_pos hreq.symm]

theorem powerBit_set (hreq : (getBank s b).drv.req = false) (hnext : (getBank s b).drv.reqNext = none) :
    powerBit s b true = powerSet s b := by
  simp [powerBit, reqShown, hreq, hnext]

theorem powerBit_clear (hreq : (getBank s b).drv.req = true) (hnext : (getBank s b).drv.reqNext = none) :
    powerBit s b false = powerClear s b := by
  simp [powerBit, reqShown, hreq, hnext]

/-- A write that changes the bit of bank b alone acts on that bank alone. -/
theorem dpwrWrite_one (herr : dpwrError s (reqShown s.bankA.drv) (reqShown s.bankB.drv) w = none)
    (hothers : ∀ b', b' ≠ b → bit w b'.num = reqShown (getBank s b').drv) :
    dpwrWrite s p w = powerBit s b (bit w b.num) := by
  rw [dpwrWrite, herr]
  cases b with
  | bankA =>
    have hB : getBank (powerBit s .bankA (bit w 0)) .bankB = getBank s .bankB :=
      (onBank_powerBit s .bankA _).other (by decide)
    exact powerBit_same (by rw [hB]; exact hothers .bankB (by decide))
  | bankB =>
    have hA : powerBit s .bankA (bit w 0) = s := powerBit_same (hothers .bankA (by decide))
    show powerBit (powerBit s .bankA (bit w 0)) .bankB (bit w 1) = _
    rw [hA]
    rfl

/-- R178: what lets such a write pass. -/
theorem dpwrError_one (hidle : s.pw.trans = .idle)
    (hset : bit w b.num = true → reqShown (getBank s b).drv = false → s.pw.mode ≠ .standby ∧ s.pw.reduced = false)
    (hclear : bit w b.num = false → reqShown (getBank s b).drv = true → s.roles.fdon = true → s.pw.mode ≠ .run)
    (hothers : ∀ b', b' ≠ b → bit w b'.num = reqShown (getBank s b').drv) :
    dpwrError s (reqShown s.bankA.drv) (reqShown s.bankB.drv) w = none := by
  have hbits : (reqShown s.bankA.drv = bit w 0 ∨ b = .bankA) ∧ (reqShown s.bankB.drv = bit w 1 ∨ b = .bankB) := by
    cases b
    · exact ⟨.inr rfl, .inl (hothers .bankB (by decide)).symm⟩
    · exact ⟨.inl (hothers .bankA (by decide)).symm, .inr rfl⟩
  obtain ⟨hA, hB⟩ := hbits
  unfold dpwrError
  dsimp only
  refine if_neg ?_
  rintro (htrans | ⟨hsets, hmode⟩ | ⟨hclears, hfdon, hmode⟩)
  · exact htrans hidle
  · have hb : bit w b.num = true ∧ reqShown (getBank s b).drv = false := by
      rcases hA with hA | rfl
      · rcases hB with hB | rfl
        · simp [hA, hB] at hsets
        · simpa [hA, getBank, Bank.num] using hsets
      · have hB := hB.resolve_right (by decide)
        simpa [hB, getBank, Bank.num] using hsets
    obtain ⟨hstandby, hreduced⟩ := hset hb.1 hb.2
    rcases hmode with hmode | hmode
    · exact hstandby hmode
    · simp [hreduced] at hmode
  · have hb : bit w b.num = false ∧ reqShown (getBank s b).drv = true := by
      rcases hA with hA | rfl
      · rcases hB with hB | rfl
        · simp [hA, hB] at hclears
        · simpa [hA, getBank, Bank.num] using hclears
      · have hB := hB.resolve_right (by decide)
        simpa [hB, getBank, Bank.num] using hclears
    exact hclear hb.1 hb.2 hfdon hmode

/-- R178: what has a write refused. -/
theorem dpwrError_refused (h : ((bit w b.num = true ∧ reqShown (getBank s b).drv = false) ∧
      (s.pw.mode = .standby ∨ s.pw.reduced = true)) ∨
    ((bit w b.num = false ∧ reqShown (getBank s b).drv = true) ∧ s.roles.fdon = true ∧ s.pw.mode = .run) ∨
    s.pw.trans ≠ .idle) : dpwrError s (reqShown s.bankA.drv) (reqShown s.bankB.drv) w = some eSTATE := by
  unfold dpwrError
  dsimp only
  refine if_pos ?_
  rcases h with ⟨⟨hbit, hreq⟩, hmode⟩ | ⟨⟨hbit, hreq⟩, hfdon, hmode⟩ | htrans
  · refine .inr (.inl ⟨?_, hmode⟩)
    cases b <;> simp only [getBank, Bank.num] at hbit hreq <;> simp [hbit, hreq]
  · refine .inr (.inr ⟨?_, hfdon, hmode⟩)
    cases b <;> simp only [getBank, Bank.num] at hbit hreq <;> simp [hbit, hreq]
  · exact .inl htrans

@[simp] theorem dpwrError_gen1Empty (s : State) (p : Port) (a : Fin 64) (x y : Bool) (w : Word) :
    dpwrError (gen1Empty s p a) x y w = dpwrError s x y w := by simp [dpwrError]

/-- The row of a write that changes bank b's bit alone. -/
theorem dpwrRow_one {v : Word} (h : reachesRule s p 0x0E v w) (hidle : s.pw.trans = .idle)
    (hset : bit w b.num = true → reqShown (getBank s b).drv = false → s.pw.mode ≠ .standby ∧ s.pw.reduced = false)
    (hclear : bit w b.num = false → reqShown (getBank s b).drv = true → s.roles.fdon = true → s.pw.mode ≠ .run)
    (hothers : ∀ b', b' ≠ b → bit w b'.num = reqShown (getBank s b').drv) :
    gate s p 0x0E v (fun s w => dpwrWrite s p w) = powerBit (gen1Empty s p 0x0E) b (bit w b.num) := by
  rw [gate_reach h]
  refine dpwrWrite_one ?_ (fun b' hb' => by rw [getBank_gen1Empty]; exact hothers b' hb')
  rw [dpwrError_gen1Empty, gen1Empty_bankA, gen1Empty_bankB]
  exact dpwrError_one hidle hset hclear hothers

/-! ### The states of the sequence (Table DRV-5, R269) -/

theorem bankUp_latch (s : State) (b : Bank) :
    (getBank (bankUp s b) b).drv.latch = false ∧ (getBank (bankUp s b) b).drv.req = true := by
  unfold bankUp
  dsimp only
  split <;> simp [enterBias, setDrv]

/-- A set in state 0 powers the bank up, unless the expiry reaction or reduced function keeps it off. -/
theorem powerSet_off (hsta : (getBank s b).drv.sta = .off) :
    powerSet s b = if mayPowerUp s then bankUp s b else setDrv s b { (getBank s b).drv with req := true } := by
  simp only [powerSet, hsta]

/-- A set in state 6 or 7 latches. -/
theorem powerSet_down (hsta : (getBank s b).drv.sta = .grounding ∨ (getBank s b).drv.sta = .release) :
    powerSet s b = setDrv s b { (getBank s b).drv with req := true, latch := true } := by
  rcases hsta with h | h <;> simp only [powerSet, h]

/-- A set in the other states takes back a clear that is pending. -/
theorem powerSet_up (hsta : (getBank s b).drv.sta = .allOff ∨ (getBank s b).drv.sta = .content ∨
      (getBank s b).drv.sta = .settling ∨ (getBank s b).drv.sta = .waitVlcd ∨ (getBank s b).drv.sta = .biasSettle) :
    powerSet s b = setDrv s b { (getBank s b).drv with
      req := true, pend := if (getBank s b).drv.pend = .byClear then .none else (getBank s b).drv.pend } := by
  rcases hsta with h | h | h | h | h <;> simp only [powerSet, h]

/-- R178: a set leaves the bank's DPWR bit set, whatever its state. -/
theorem powerSet_req (s : State) (b : Bank) : (getBank (powerSet s b) b).drv.req = true := by
  rcases hsta : (getBank s b).drv.sta with _ | _ | _ | _ | _ | _ | _ | _
  case off =>
    rw [powerSet_off hsta]
    split
    · exact (bankUp_latch s b).2
    · simp [setDrv]
  all_goals simp [powerSet, hsta, setDrv]

/-- Table DRV-11: a release from state 1 or 2 skips settling from its start. -/
theorem enterRelease_powering (hsta : (getBank s b).drv.sta = .waitVlcd ∨ (getBank s b).drv.sta = .biasSettle)
    (hreq : (getBank s b).drv.req = false) (hlatch : (getBank s b).drv.latch = false) :
    (getBank (enterRelease s b) b).drv = { (getBank s b).drv with
        sta := if (getBank s b).drv.vgood then .release else .off, pend := .none } ∧
      (getBank (enterRelease s b) b).led.skipped = true ∧ (getBank (enterRelease s b) b).led.settleLast = 0 := by
  have hskip : settleSkipped s b = setLed s b { (getBank s b).led with settleLast := 0, capped := false, skipped := true } :=
    if_pos hsta
  unfold enterRelease
  rw [hskip]
  cases hv : (getBank s b).drv.vgood <;> simp [setLed, setTrim, setDrv, enterOff, hv, hreq, hlatch]

/-- A clear leaves the bit and LATCH cleared, and does what its state asks for. -/
theorem powerClear_drv (s : State) (b : Bank) :
    (((getBank s b).drv.sta = .waitVlcd ∨ (getBank s b).drv.sta = .biasSettle) →
      (getBank (powerClear s b) b).drv = { (getBank s b).drv with
          req := false, latch := false, sta := if (getBank s b).drv.vgood then .release else .off, pend := .none } ∧
        (getBank (powerClear s b) b).led.skipped = true ∧ (getBank (powerClear s b) b).led.settleLast = 0) ∧
    ((getBank s b).drv.sta = .allOff → (getBank (powerClear s b) b).drv = { (getBank s b).drv with
      req := false, latch := false, pend := (getBank s b).drv.pend.join .byClear }) ∧
    ((getBank s b).drv.sta = .content → (getBank s b).drv.pend = .none →
      (getBank (powerClear s b) b).drv = { (getBank s b).drv with
        req := false, latch := false, pend := .byClear, setReqAt := s.now, setFrame := frameLen (getBank s b).drv
        setCap := pgf s (drivePage b + 6) 8 4 * frameLen (getBank s b).drv }) := by
  unfold powerClear
  generalize hu : setDrv s b { (getBank s b).drv with req := false, latch := false } = u
  have hbank : getBank u b = { getBank s b with drv := { (getBank s b).drv with req := false, latch := false } } := by
    rw [← hu, setDrv, getBank_setBank]
  refine ⟨fun hsta => ?_, fun hsta => ?_, fun hsta hpend => ?_⟩
  · have hdown : downAct u b .byClear = enterRelease u b := by rcases hsta with h | h <;> simp [downAct, hbank, h]
    rw [hdown]
    obtain ⟨hdrv, hled⟩ := enterRelease_powering (s := u) (b := b) (by rw [hbank]; exact hsta) (by rw [hbank]) (by rw [hbank])
    exact ⟨by rw [hdrv, hbank], hled⟩
  · simp [downAct, hbank, hsta, setDrv]
  · have hnow : u.now = s.now := by rw [← hu, setDrv, setBank_now]
    have hpg (x lo n : Nat) : pgf u x lo n = pgf s x lo n := by rw [← hu]; simp [pgf, pg, setDrv]
    simp [downAct, hbank, hsta, hpend, setDrv, hnow, hpg, frameLen]

/-- R178: a clear leaves the bank's DPWR bit and LATCH cleared, whatever its state. -/
theorem powerClear_req (s : State) (b : Bank) :
    (getBank (powerClear s b) b).drv.req = false ∧ (getBank (powerClear s b) b).drv.latch = false := by
  obtain ⟨hpower, hall, _⟩ := powerClear_drv s b
  rcases hsta : (getBank s b).drv.sta with _ | _ | _ | _ | _ | _ | _ | _
  case waitVlcd => rw [(hpower (.inl hsta)).1]; exact ⟨rfl, rfl⟩
  case biasSettle => rw [(hpower (.inr hsta)).1]; exact ⟨rfl, rfl⟩
  case content => by_cases hpend : (getBank s b).drv.pend = .none <;> simp [powerClear, downAct, hsta, setDrv, hpend]
  all_goals simp [powerClear, downAct, hsta, setDrv]

end

/-! ### A set ends a settle at the next slot (R300) -/

theorem upset_setBank (s : State) (b : Bank) (x : BankSt) (u : Upset) :
    upset (setBank s b x) u = setBank (upset s u) b x := by
  cases u with
  | single w =>
    have hecc : eccAt (setBank s b x) (eccWord w) = eccAt s (eccWord w) := by cases b <;> rfl
    simp only [upset, hecc]
    split
    · rfl
    · cases b <;> rfl
  | double w d => cases b <;> rfl

/-- Upsets are alike whatever the banks hold. -/
theorem upsets_setBank (s : State) (b : Bank) (x : BankSt) (ups : List Upset) :
    upsets (setBank s b x) ups = setBank (upsets s ups) b x := by
  induction ups generalizing s with
  | nil => rfl
  | cons u ups ih =>
    show upsets (upset (setBank s b x) u) ups = setBank (upsets (upset s u) ups) b x
    rw [upset_setBank, ih]

/-- The composed line does not depend on the drive (R306). -/
theorem composedLine_setDrv (s : State) (b : Bank) (d : Drive) (i : Nat) :
    composedLine (setDrv s b d) b i = composedLine s b i := by cases b <;> rfl

/-- The drive of a settling bank whose request stands, with the state that the next slot gives it. -/
def returned (s : State) (b : Bank) : Drive :=
  { (getBank s b).drv with ladNow := pgf s (drivePage b + 2) 4 4, sta := .content, pend := .none }

/-- R300: at a slot of a settling bank whose request stands content shows again. -/
theorem slotFound_returning {s : State} {b : Bank} (ups : List Upset) (hsta : (getBank s b).drv.sta = .settling)
    (hreq : (getBank s b).drv.req = true) (hexp : s.clk.expiring = false) :
    slotFound s b ups = setDrv (upsets s ups) b (returned s b) := by
  have hclk : (slotLadder s b).clk = s.clk := setBank_clk s b _
  have hstate : slotState (slotLadder s b) b = setDrv s b (returned s b) := by
    have hreturning : returning (slotLadder s b) (getBank (slotLadder s b) b).drv = true := by
      rw [getBank_slotLadder, returning, hclk]
      simp [hsta, hreq, hexp]
    refine (if_pos hreturning).trans ?_
    rw [getBank_slotLadder]
    unfold slotLadder setDrv
    rw [setBank_setBank, getBank_setBank]
    rfl
  rw [slotFound, hstate, setDrv, upsets_setBank, setDrv, getBank_upsets]

/-- The boundary of such a slot: its record shows the composed line, and the frame count goes on. -/
theorem slotBoundary_returns {s : State} {b : Bank} (ups : List Upset) (hsta : (getBank s b).drv.sta = .settling)
    (hreq : (getBank s b).drv.req = true) (hexp : s.clk.expiring = false)
    (hslot : (getBank s b).drv.slot < frameSlots (getBank s b).drv) (hburst : (getBank s b).drv.burst = none) :
    ∃ r, (getBank (slotBoundary s b ups) b).led.recs = (getBank s b).led.recs ++ [r] ∧
      (getBank (slotBoundary s b ups) b).drv.sta = .content ∧
      (getBank (slotBoundary s b ups) b).drv.fcnt = (getBank s b).drv.fcnt ∧ r.driven = true ∧
      r.pix = composedLine (upsets s ups) b r.line := by
  have hsteps := slotBoundary_steps ups hburst (by simp [hsta]) (.inl (by simp [driven, hsta])) hslot
  have hfound := slotFound_returning ups hsta hreq hexp
  obtain ⟨B, L, hbank, _⟩ := slotOpened_bank s b ups
  obtain ⟨L', H, hplaced⟩ := heldPlaced_bank (slotOpened s b ups) b
  have hcontent : (getBank (slotFound s b ups) b).drv.sta = .content := by
    rw [hfound, setDrv, getBank_setBank]; rfl
  have hbooks : getBank (slotDrive (slotFound s b ups) b) b = { getBank s b with
      drv := returned s b
      led := { (getBank s b).led with recs := (getBank s b).led.recs ++ [contentRec (slotFound s b ups) b] } } := by
    rw [slotDrive_content hcontent, setLed, getBank_setBank]
    generalize contentRec (slotFound s b ups) b = r
    rw [hfound, setDrv, getBank_setBank, getBank_upsets]
  rw [hbooks] at hbank
  refine ⟨contentRec (slotFound s b ups) b, ?_, ?_, ?_, rfl, ?_⟩
  · rw [hsteps, hplaced, getBank_setBank, hbank]
  · rw [hsteps, hplaced, getBank_setBank, hbank]; rfl
  · rw [hsteps, hplaced, getBank_setBank, hbank]; rfl
  · rw [← composedLine_setDrv (upsets s ups) b (returned s b), ← hfound]; rfl

/-! ### The statement -/

/-- Settles O28: the write acts on the one bank whose bit it changes, by the state of its sequence. -/
theorem displayPowerRequests : Obligations.DisplayPowerRequests := by
  unfold Obligations.DisplayPowerRequests
  refine ⟨?set, ?settling, ?clear, ?back, ?refused⟩
  case set =>
    intro p b v w s h hbit hreq hnext hothers hidle hmode hreduced
    have hshown : reqShown (getBank s b).drv = false := by simp [reqShown, hnext, hreq]
    have hrow := dpwrRow_one h hidle (fun _ _ => ⟨hmode, hreduced⟩) (by simp [hbit]) hothers
    rw [hbit, powerBit_set (by rw [getBank_gen1Empty, hreq]) (by rw [getBank_gen1Empty, hnext])] at hrow
    have hon := onBank_powerSet (gen1Empty s p 0x0E) b
    have hmay : mayPowerUp (gen1Empty s p 0x0E) = !s.clk.expiring := by simp [mayPowerUp, hreduced]
    refine ⟨_, congrArg Host.Outcome.next hrow, fun b' hb' => ?_, powerSet_req _ b, ?_, ?_, ?_, ?_, ?_, ?_, ?_⟩
    · rw [hon.other hb', getBank_gen1Empty]
    · rw [hon.err, gen1Empty_err]
    · rw [hon.mem, gen1Empty_mem]
    · intro hsta hexp
      rw [powerSet_off (by rw [getBank_gen1Empty, hsta]), if_pos (by simp [hmay, hexp])]
      exact ⟨(bankUp_latch _ b).1, by rw [bankUp_sta, getBank_gen1Empty]⟩
    · intro hsta hexp
      rw [powerSet_off (by rw [getBank_gen1Empty, hsta]), if_neg (by simp [hmay, hexp]), setDrv, getBank_setBank,
        getBank_gen1Empty]
      exact hsta
    · intro hsta
      rw [powerSet_down (by rw [getBank_gen1Empty]; exact hsta), setDrv, getBank_setBank, getBank_gen1Empty]
    · intro hsta
      rw [powerSet_up (by rw [getBank_gen1Empty]; exact hsta.imp_right .inl), setDrv, getBank_setBank, getBank_gen1Empty]
    · intro hsta hpend
      rw [powerSet_up (by rw [getBank_gen1Empty]; exact .inr (.inr (.inl hsta))), setDrv, getBank_setBank,
        getBank_gen1Empty, if_neg (by rw [hpend]; decide)]
  case settling =>
    intro b ups s hsta hreq hexp hslot hburst
    obtain ⟨r, hbooks⟩ := slotBoundary_returns ups hsta hreq hexp hslot hburst
    exact ⟨_, r, rfl, hbooks⟩
  case clear =>
    intro p b v w s h hbit hreq hnext hothers hidle hfdon
    have hrow := dpwrRow_one h hidle (by simp [hbit]) (fun _ _ => hfdon) hothers
    rw [hbit, powerBit_clear (by rw [getBank_gen1Empty, hreq]) (by rw [getBank_gen1Empty, hnext])] at hrow
    have hon := onBank_powerClear (gen1Empty s p 0x0E) b
    obtain ⟨hpower, hall, hcontent⟩ := powerClear_drv (gen1Empty s p 0x0E) b
    rw [getBank_gen1Empty] at hpower hall hcontent
    obtain ⟨hreqt, hlatcht⟩ := powerClear_req (gen1Empty s p 0x0E) b
    refine ⟨_, congrArg Host.Outcome.next hrow, fun b' hb' => ?_, hreqt, hlatcht, ?_, ?_, ?_, ?_, ?_⟩
    · rw [hon.other hb', getBank_gen1Empty]
    · rw [hon.err, gen1Empty_err]
    · rw [hon.mem, gen1Empty_mem]
    · intro hsta
      obtain ⟨hdrv, hled⟩ := hpower hsta
      exact ⟨by rw [hdrv], hled⟩
    · intro hsta hpend
      rw [hall hsta, hpend]
      exact ⟨hsta, rfl⟩
    · intro hsta hpend
      rw [hcontent hsta hpend]
      exact ⟨hsta, rfl, gen1Empty_now s p _⟩
  case back =>
    intro p b v w s h hidle hset hclear hnext hreq hothers
    have hrow := dpwrRow_one h hidle (fun hbit _ => hset hbit) (fun hbit _ => hclear hbit) hothers
    rw [powerBit_back (by rw [getBank_gen1Empty, hnext]) (by rw [getBank_gen1Empty, hreq]), getBank_gen1Empty] at hrow
    exact ⟨congrArg Host.Outcome.next hrow, congrArg Host.Outcome.next hrow⟩
  case refused =>
    intro p b v w s h hbad
    have hrow : gate s p 0x0E v (fun s w => dpwrWrite s p w) = refuse (gen1Empty s p 0x0E) p eSTATE 0x1C := by
      rw [gate_reach h, dpwrWrite, dpwrError_gen1Empty, gen1Empty_bankA, gen1Empty_bankB, dpwrError_refused hbad]
    exact ⟨congrArg Host.Outcome.next hrow, congrArg Host.Outcome.next hrow⟩

end Sys2Proof.Machine
end

section
/-! Contrast trim and die temperature (R183, R202, R253 to R257, R521, O32): what follows a change of the target, by VLEN
and by whether the code has arrived, and the updates that make one. -/

namespace Sys2Proof.Machine

open Sys2Proof

/-! ### Arrival at the effective target (R256, R257) -/

section
variable {s : State} {b : Bank}

theorem trimArrived_fires (harmed : (getBank s b).trim.armed = true) (hat : (getBank s b).trim.now = trimEff (getBank s b).trim) :
    trimArrived s b = setIrq (setTrim s b { (getBank s b).trim with armed := false }) irqVLCD := if_pos ⟨harmed, hat⟩

theorem trimArrived_quiet (h : (getBank s b).trim.armed = false ∨ (getBank s b).trim.now ≠ trimEff (getBank s b).trim) :
    trimArrived s b = s := if_neg (by rintro ⟨harmed, hat⟩; rcases h with h | h <;> simp_all)

/-- With VLEN low the present code follows the effective target at once. -/
theorem trimRetarget_low (h : vlen (getBank s b).drv = false) :
    trimRetarget s b = setTrim s b { (getBank s b).trim with now := trimEff (getBank s b).trim } := if_neg (by simp [h])

/-- With VLEN high it waits for the trim steps. -/
theorem trimRetarget_high (h : vlen (getBank s b).drv = true) : trimRetarget s b = trimArrived s b := if_pos h

/-- What follows a change of the target reaches the bank's trim and IRQSTAT alone, and of the trim the code and the arming
alone. -/
theorem trimRetarget_frame (s : State) (b : Bank) : ∃ n a, trimRetarget s b =
    { setTrim s b { (getBank s b).trim with now := n, armed := a } with irqStat := (trimRetarget s b).irqStat } := by
  by_cases hv : vlen (getBank s b).drv = true
  · rw [trimRetarget_high hv]
    by_cases ha : (getBank s b).trim.armed = true ∧ (getBank s b).trim.now = trimEff (getBank s b).trim
    · exact ⟨(getBank s b).trim.now, false, by rw [trimArrived_fires ha.1 ha.2]; rfl⟩
    · refine ⟨(getBank s b).trim.now, (getBank s b).trim.armed, ?_⟩
      rw [trimArrived_quiet (by by_cases h : (getBank s b).trim.armed = true <;> simp_all)]
      cases b <;> rfl
  · refine ⟨trimEff (getBank s b).trim, (getBank s b).trim.armed, ?_⟩
    rw [trimRetarget_low (by simpa using hv)]

theorem getBank_setTrim (s : State) (b : Bank) (t : Trim) : getBank (setTrim s b t) b = { getBank s b with trim := t } :=
  getBank_setBank s b _

theorem setTrim_setTrim (s : State) (b : Bank) (t u : Trim) : setTrim (setTrim s b t) b u = setTrim s b u := by
  cases b <;> rfl

theorem getBank_irqStat (s : State) (v : Word) (b : Bank) : getBank { s with irqStat := v } b = getBank s b := by
  cases b <;> rfl

/-! ### DVLCD (R183) -/

/-- The trim that a DVLCD write leaves before anything follows it. -/
def trimWritten (t : Trim) (w : Word) (arms : Bool) : Trim :=
  { t with target := (loByte w).toInt, slew := fld w 8 2, tcomp := bit w 10, wait := none, waitArm := false, armed := arms }

theorem dvlcdWrite_view {w : Word} (h : bit w 14 = true) :
    dvlcdWrite s w = { s with disp := { s.disp with dvlcdView := Bank.ofBit (bit w 15) } } := by
  simp [dvlcdWrite, h, dvlcdShow]

theorem dvlcdWrite_trim {w : Word} (h14 : bit w 14 = false) (hb : b = Bank.ofBit (bit w 15)) :
    dvlcdWrite s w = trimRetarget (setTrim { s with disp := { s.disp with dvlcdView := b } } b
      (trimWritten (getBank s b).trim w (vlen (getBank s b).drv))) b := by
  subst hb
  rw [dvlcdWrite, if_neg (by simp [h14]), dvlcdFields, dvlcdShow, getBank_disp]
  unfold trimTakes trimWritten
  simp only [getBank_disp]
  rfl

/-- R183, R256, R257: a DVLCD write without VIEW, in the bank that it names. -/
theorem dvlcdWrite_effect {t : State} {w : Word} (h14 : bit w 14 = false) (hb : b = Bank.ofBit (bit w 15))
    (ht : dvlcdWrite s w = t) :
    (∃ n a, getBank t b = { getBank s b with trim :=
        { trimWritten (getBank s b).trim w (vlen (getBank s b).drv) with now := n, armed := a } }) ∧
      t = { setBank s b (getBank t b) with disp := t.disp, irqStat := t.irqStat } ∧
      (vlen (getBank s b).drv = false → (getBank t b).trim.now = trimEff (getBank t b).trim ∧ t.irqStat = s.irqStat) ∧
      (vlen (getBank s b).drv = true → (getBank t b).trim.now = (getBank s b).trim.now ∧
        ((getBank s b).trim.now ≠ trimEff (getBank t b).trim → (getBank t b).trim.armed = true ∧ t.irqStat = s.irqStat) ∧
        ((getBank s b).trim.now = trimEff (getBank t b).trim → (getBank t b).trim.armed = false ∧
          t.irqStat = s.irqStat ||| 0x2000)) := by
  rw [dvlcdWrite_trim h14 hb] at ht
  generalize hu : setTrim { s with disp := { s.disp with dvlcdView := b } } b
    (trimWritten (getBank s b).trim w (vlen (getBank s b).drv)) = u at ht
  have hubank : getBank u b = { getBank s b with trim := trimWritten (getBank s b).trim w (vlen (getBank s b).drv) } := by
    rw [← hu, getBank_setTrim, getBank_disp]
  have huirq : u.irqStat = s.irqStat := by rw [← hu, setTrim, setBank_irqStat]
  have huframe (x : BankSt) (i : Word) : { setBank u b x with irqStat := i } =
      { setBank s b x with disp := u.disp, irqStat := i } := by rw [← hu]; cases b <;> rfl
  obtain ⟨n, a, hframe⟩ := trimRetarget_frame u b
  rw [ht] at hframe
  have htbank : getBank t b = { getBank s b with trim :=
      { trimWritten (getBank s b).trim w (vlen (getBank s b).drv) with now := n, armed := a } } := by
    rw [hframe, getBank_irqStat, getBank_setTrim, hubank]
  have htframe : t = { setBank s b (getBank t b) with disp := t.disp, irqStat := t.irqStat } := by
    rw [htbank]
    have hdisp : t.disp = u.disp := by rw [hframe]; exact setBank_disp u b _
    rw [hdisp, ← huframe]
    rw [setTrim, hubank] at hframe
    exact hframe
  refine ⟨⟨n, a, htbank⟩, htframe, fun hv => ?_, fun hv => ?_⟩
  · have hlow : t = setTrim u b { (getBank u b).trim with now := trimEff (getBank u b).trim } := by
      rw [← ht, trimRetarget_low (by rw [hubank]; exact hv)]
    exact ⟨by rw [hlow, getBank_setTrim]; rfl, by rw [hlow, setTrim, setBank_irqStat, huirq]⟩
  · have hhigh : trimArrived u b = t := by rw [← ht, trimRetarget_high (by rw [hubank]; exact hv)]
    by_cases hat : (getBank u b).trim.now = trimEff (getBank u b).trim
    · rw [trimArrived_fires (by rw [hubank]; exact hv) hat] at hhigh
      have hbank : getBank t b = { getBank u b with trim := { (getBank u b).trim with armed := false } } := by
        rw [← hhigh, setIrq, getBank_irqStat, getBank_setTrim]
      have hnow : (getBank u b).trim.now = (getBank s b).trim.now := by rw [hubank]; rfl
      refine ⟨by rw [hbank]; exact hnow, fun hne => ?_, fun _ => ⟨by rw [hbank], ?_⟩⟩
      · rw [hbank] at hne
        exact absurd (hnow.symm.trans hat) hne
      · rw [← hhigh, setIrq_irqStat, setTrim, setBank_irqStat, huirq]
        rfl
    · rw [trimArrived_quiet (.inr hat)] at hhigh
      subst hhigh
      have hnow : (getBank u b).trim.now = (getBank s b).trim.now := by rw [hubank]; rfl
      refine ⟨hnow, fun _ => ⟨by rw [hubank]; exact hv, huirq⟩, fun h => absurd (hnow.trans h) hat⟩

/-! ### A trim step (R256) -/

/-- The code that a step reaches. -/
def trimStepped (t : Trim) : Int := if t.now < trimEff t then t.now + 1 else t.now - 1

theorem trimStep_effect (hv : vlen (getBank s b).drv = true) (hne : (getBank s b).trim.now ≠ trimEff (getBank s b).trim) :
    ∃ a, trimStep s b = { setTrim s b { (getBank s b).trim with
        now := trimStepped (getBank s b).trim, slewNow := (getBank s b).trim.slew, armed := a } with
      irqStat := if (getBank s b).trim.armed = true ∧ trimStepped (getBank s b).trim = trimEff (getBank s b).trim
        then s.irqStat ||| 0x2000 else s.irqStat } := by
  have hstep : trimStep s b = trimArrived (setTrim s b { (getBank s b).trim with
      now := trimStepped (getBank s b).trim, slewNow := (getBank s b).trim.slew }) b := if_pos ⟨hv, hne⟩
  rw [hstep]
  by_cases ha : (getBank s b).trim.armed = true ∧ trimStepped (getBank s b).trim = trimEff (getBank s b).trim
  · refine ⟨false, ?_⟩
    rw [if_pos ha, trimArrived_fires (by rw [getBank_setTrim]; exact ha.1) (by rw [getBank_setTrim]; exact ha.2),
      getBank_setTrim, setTrim_setTrim]
    cases b <;> rfl
  · refine ⟨(getBank s b).trim.armed, ?_⟩
    rw [if_neg ha, trimArrived_quiet]
    · cases b <;> rfl
    · rw [getBank_setTrim]
      by_cases h : (getBank s b).trim.armed = true
      · exact .inr fun hat => ha ⟨h, hat⟩
      · exact .inl (by simpa using h)

/-! ### The update of every 10 ms (R255) -/

/-- The trim of a bank with the compensation of its table and TCOMP in force. -/
def trimCompensated (s : State) (b : Bank) : Trim :=
  { (getBank s b).trim with tc := tcValue (tcEntry s b) (tcTemp s b), tcompNow := (getBank s b).trim.tcomp }

/-- One bank's update: its compensation and TCOMP in force, and with VLEN low the code at the effective target. -/
theorem tcBank_effect (s : State) (b : Bank) :
    tcBank s b = { setBank s b (getBank (tcBank s b) b) with irqStat := (tcBank s b).irqStat } ∧
      (getBank (tcBank s b) b).trim.tc = tcValue (tcEntry s b) (tcTemp s b) ∧
      (getBank (tcBank s b) b).trim.tcompNow = (getBank s b).trim.tcomp ∧
      (getBank (tcBank s b) b).drv = (getBank s b).drv ∧
      (vlen (getBank s b).drv = false → (getBank (tcBank s b) b).trim.now = trimEff (getBank (tcBank s b) b).trim) := by
  rw [show tcBank s b = trimRetarget (setTrim s b (trimCompensated s b)) b from rfl]
  generalize hy : trimCompensated s b = y
  obtain ⟨n, a, hframe⟩ := trimRetarget_frame (setTrim s b y) b
  have hbank : getBank (trimRetarget (setTrim s b y) b) b = { getBank s b with trim := { y with now := n, armed := a } } := by
    rw [hframe, getBank_irqStat, getBank_setTrim, getBank_setTrim]
  refine ⟨?_, by rw [hbank, ← hy]; rfl, by rw [hbank, ← hy]; rfl, by rw [hbank], fun hv => ?_⟩
  · rw [hbank]
    generalize (trimRetarget (setTrim s b y) b).irqStat = i at hframe
    rw [hframe]
    cases b <;> rfl
  · rw [trimRetarget_low (by rw [getBank_setTrim]; exact hv), getBank_setTrim]
    rfl

/-- The compensation of a bank does not depend on what the banks or IRQSTAT hold. -/
theorem tcOf_setBank (s : State) (c : Bank) (x : BankSt) (i : Word) (b : Bank) :
    tcEntry { setBank s c x with irqStat := i } b = tcEntry s b ∧ tcTemp { setBank s c x with irqStat := i } b = tcTemp s b := by
  cases c <;> exact ⟨rfl, rfl⟩

end

/-! ### The statement -/

/-- Settles O32: every change of the target is followed in one way, by VLEN and by whether the code has arrived. -/
theorem contrastTrimAndTemperature : Obligations.ContrastTrimAndTemperature := by
  unfold Obligations.ContrastTrimAndTemperature
  refine ⟨⟨?view, ?write, ?step⟩, ?temp, ?tc⟩
  case view =>
    intro p b w s h
    obtain ⟨h14, hb⟩ := viewWord_bits h
    exact exec_reach_to rfl h (by rw [dvlcdWrite_view h14, hb, gen1Empty_disp])
  case write =>
    intro p v w s b h h14 hb
    obtain ⟨⟨n, a, hbank⟩, hframe, hlow, hhigh⟩ := dvlcdWrite_effect (s := gen1Empty s p 0x13) h14 hb rfl
    rw [getBank_gen1Empty] at hbank hlow hhigh
    rw [gen1Empty_irqStat] at hlow hhigh
    refine ⟨_, exec_reach rfl h, ?_, ?_, ?_, ?_, hframe, ?_, hlow, hhigh⟩ <;> rw [hbank] <;> rfl
  case step =>
    intro b s hv hne
    obtain ⟨a, heq⟩ := trimStep_effect hv hne
    have hbank : getBank (trimStep s b) b = { getBank s b with trim := { (getBank s b).trim with
        now := trimStepped (getBank s b).trim, slewNow := (getBank s b).trim.slew, armed := a } } := by
      rw [heq, getBank_irqStat, getBank_setTrim]
    refine ⟨_, rfl, by rw [hbank]; rfl, ?_, by rw [hbank], ?_⟩
    · rw [hbank, heq]
    · rw [hbank, heq]
      cases b <;> rfl
  case temp => exact fun x s hact => congrArg Host.Outcome.next (if_pos hact)
  case tc =>
    intro s hdom
    obtain ⟨hframeA, hA⟩ := tcBank_effect s .bankA
    obtain ⟨hframeB, hB⟩ := tcBank_effect (tcBank s .bankA) .bankB
    have hother : getBank (tcBank s .bankA) .bankB = getBank s .bankB := by rw [hframeA]; rfl
    have htc : tcEntry (tcBank s .bankA) .bankB = tcEntry s .bankB ∧ tcTemp (tcBank s .bankA) .bankB = tcTemp s .bankB := by
      rw [hframeA]; exact tcOf_setBank s .bankA _ _ .bankB
    rw [hother, htc.1, htc.2] at hB
    refine ⟨tcBank (tcBank s .bankA) .bankB, congrArg Host.Outcome.next (if_pos hdom), ?_, fun b => ?_⟩
    · generalize hu : tcBank (tcBank s .bankA) .bankB = u at hframeB
      generalize tcBank s .bankA = z at hframeA hframeB
      rw [hframeB, hframeA]
      rfl
    · cases b with
      | bankA =>
        have hkeep : getBank (tcBank (tcBank s .bankA) .bankB) .bankA = getBank (tcBank s .bankA) .bankA := by
          rw [hframeB]; rfl
        rw [hkeep]
        exact hA
      | bankB => exact hB

end Sys2Proof.Machine
end

section
/-! Crack-loop measurements (R184, R260, R269, R517 to R519, R528, R582, O33): the status that a measurement calls for,
what one that raises the status does, and the power-down of a driven bank. -/

namespace Sys2Proof.Machine

open Sys2Proof

/-! ### The power-down of a driven bank (R269, R582) -/

/-- The drive of a driven bank after a power-down request other than the clearing of its DPWR bit: in state 3 from the
next edge, in state 4 from the next common-slot boundary, a settle goes on. -/
def downRequested (s : State) (b : Bank) : Drive :=
  match (getBank s b).drv.sta with
  | .allOff => { (getBank s b).drv with req := false, latch := false, reqNext := none, pend := .other }
  | .content => if (getBank s b).drv.pend = .none
      then { (getBank s b).drv with
        req := false, latch := false, reqNext := none, pend := .other, setReqAt := s.now
        setFrame := frameLen (getBank s b).drv
        setCap := pgf s (drivePage b + 6) 8 4 * frameLen (getBank s b).drv }
      else { (getBank s b).drv with req := false, latch := false, reqNext := none, pend := .other }
  | _ => { (getBank s b).drv with req := false, latch := false, reqNext := none }

theorem join_other (k : PendDown) : k.join .other = .other := by cases k <;> rfl

theorem bankDown_driven {s : State} {b : Bank} (h : driven (getBank s b).drv = true) :
    bankDown s b = setDrv s b (downRequested s b) := by
  have hset (d e : Drive) : setDrv (setDrv s b d) b e = setDrv s b e := by
    unfold setDrv; rw [setBank_setBank, getBank_setBank]
  have hbank (d : Drive) : (getBank (setDrv s b d) b).drv = d := by rw [setDrv, getBank_setBank]
  have hpg (d : Drive) (x lo n : Nat) : pgf (setDrv s b d) x lo n = pgf s x lo n := by simp [pgf, pg, setDrv]
  have hnow (d : Drive) : (setDrv s b d).now = s.now := setBank_now s b _
  rcases hsta : (getBank s b).drv.sta with _ | _ | _ | _ | _ | _ | _ | _
  case allOff => simp [bankDown, downAct, downRequested, hbank, hset, hsta, noRequest, join_other]
  case content =>
    by_cases hpend : (getBank s b).drv.pend = .none
    · simp [bankDown, downAct, downRequested, hbank, hset, hpg, hnow, hsta, hpend, noRequest, frameLen]
    · simp [bankDown, downAct, downRequested, hbank, hset, hsta, hpend, noRequest, join_other]
  case settling => simp [bankDown, downAct, downRequested, hbank, hsta, noRequest]
  all_goals simp [driven, hsta] at h

/-! ### The status that a measurement calls for (Table DIA-3) -/

section
variable {s : State} {b : Bank} {m : Nat}

/-- The crack loop of a bank with a measurement recorded. -/
def crackTaken (s : State) (b : Bank) (m : Nat) : Crack :=
  crackRecord s (getBank s b).crack (getBank s b).drv.fcnt m

/-- The status that stands after a measurement: one of 3 or more gives way to a higher rank alone (R519). -/
def crackNew (s : State) (b : Bank) (m : Nat) : Nat :=
  let c := crackTaken s b m
  let code := crackCode c (pgf s (crackPage b + 8) 8 8)
  if decide (3 ≤ c.sta) ∧ crackRank c.sta ≤ crackRank code then c.sta else code

/-- A measurement is taken of a driven bank whose loop is enabled and not to be learned anew. -/
def crackTakes (s : State) (b : Bank) : Prop :=
  driven (getBank s b).drv ∧ (getBank s b).crack.en ∧ !(getBank s b).crack.startNext

theorem crackMeasure_not (h : driven (getBank s b).drv = false ∨ (getBank s b).crack.en = false) :
    crackMeasure s b m = s := if_neg (by rcases h with h | h <;> simp [h])

/-- The state in which a measurement leaves a machine whose bank is not powered down. -/
def crackNoted (s : State) (b : Bank) (m k e : Nat) (hit : Bool) : State :=
  setIrqIf hit (setCrack s b { crackTaken s b m with sta := k, evt := e }) irqCRACK

/-- A measurement raises the status to one of 3 or more. -/
def crackHit (s : State) (b : Bank) (m : Nat) : Bool :=
  decide (crackNew s b m ≠ (crackTaken s b m).sta ∧ 3 ≤ crackNew s b m)

/-- The count of status events behind a measurement. -/
def crackEvents (s : State) (b : Bank) (m : Nat) : Nat :=
  if crackHit s b m then sat1 (crackTaken s b m).evt else (crackTaken s b m).evt

theorem crackNoted_disp (s : State) (b : Bank) (m k e : Nat) (hit : Bool) :
    (crackNoted s b m k e hit).disp = s.disp := by cases hit <;> cases b <;> rfl

theorem crackNoted_mem (s : State) (b : Bank) (m k e : Nat) (hit : Bool) :
    (crackNoted s b m k e hit).mem = s.mem := by cases hit <;> cases b <;> rfl

/-- The state behind a measurement: recorded, and the bank powered down where the policy grounds it. -/
theorem crackMeasure_taken (h : crackTakes s b) : crackMeasure s b m =
    let u := crackNoted s b m (crackNew s b m) (crackEvents s b m) (crackHit s b m)
    if crackHit s b m = true ∧ u.disp.crackPol = 1 ∧ (crackNew s b m = 4 ∨ crackNew s b m = 5)
    then bankDown u b else u := if_pos h

/-- A measurement that raises the status to 4 or 5 makes the event, and with the policy powers the bank down. -/
theorem crackMeasure_hit (h : crackTakes s b) (hne : crackNew s b m ≠ (crackTaken s b m).sta)
    (hcode : crackNew s b m = 4 ∨ crackNew s b m = 5) : crackMeasure s b m =
      let u := crackNoted s b m (crackNew s b m) (sat1 (crackTaken s b m).evt) true
      if s.disp.crackPol = 1 then bankDown u b else u := by
  have hhit : crackHit s b m = true := decide_eq_true ⟨hne, by omega⟩
  rw [crackMeasure_taken h]
  simp only [crackEvents, hhit, if_true, crackNoted_disp, hcode, true_and, and_true]

theorem getBank_crackNoted (s : State) (b : Bank) (m k e : Nat) (hit : Bool) :
    getBank (crackNoted s b m k e hit) b = { getBank s b with crack := { crackTaken s b m with sta := k, evt := e } } := by
  unfold crackNoted
  cases hit <;> cases b <;> rfl

/-- What any measurement leaves: the record of R517, every byte and the other bank. -/
theorem crackMeasure_keeps (h : crackTakes s b) :
    (∃ k e, (getBank (crackMeasure s b m) b).crack = { crackTaken s b m with sta := k, evt := e }) ∧
      (crackMeasure s b m).mem = s.mem ∧ ∀ b', b' ≠ b → getBank (crackMeasure s b m) b' = getBank s b' := by
  rw [crackMeasure_taken h]
  generalize crackNew s b m = k, crackEvents s b m = e, crackHit s b m = hit
  have hnoted := getBank_crackNoted s b m k e hit
  have hother (b' : Bank) (hb' : b' ≠ b) : getBank (crackNoted s b m k e hit) b' = getBank s b' := by
    have : getBank (crackNoted s b m k e hit) b' =
        getBank (setCrack s b { crackTaken s b m with sta := k, evt := e }) b' := by
      unfold crackNoted; cases hit <;> cases b' <;> rfl
    rw [this, setCrack, getBank_setBank_ne _ _ _ _ hb']
  dsimp only
  split
  · rw [bankDown_driven (by rw [hnoted]; exact h.1)]
    refine ⟨⟨k, e, ?_⟩, ?_, fun b' hb' => ?_⟩
    · rw [setDrv, getBank_setBank, hnoted]
    · rw [setDrv, setBank_mem, crackNoted_mem]
    · rw [setDrv, getBank_setBank_ne _ _ _ _ hb', hother b' hb']
  · exact ⟨⟨k, e, congrArg BankSt.crack hnoted⟩, crackNoted_mem .., hother⟩

/-- What a measurement that raises the status to 4 or 5 leaves (R528, R582). -/
theorem crackMeasure_raised (h : crackTakes s b) {k : Nat} (hk : k = 4 ∨ k = 5) (hnew : crackNew s b m = k)
    (hne : k ≠ (crackTaken s b m).sta) : (getBank (crackMeasure s b m) b).crack.sta = k ∧
      (crackMeasure s b m).irqStat = s.irqStat ||| 0x1000 ∧
      (getBank (crackMeasure s b m) b).crack.evt = sat1 (crackTaken s b m).evt ∧
      (s.disp.crackPol = 1 → (getBank (crackMeasure s b m) b).drv = downRequested s b) ∧
      (s.disp.crackPol ≠ 1 → (getBank (crackMeasure s b m) b).drv = (getBank s b).drv) := by
  subst hnew
  have heq := crackMeasure_hit h hne hk
  have hbank := getBank_crackNoted s b m (crackNew s b m) (sat1 (crackTaken s b m).evt) true
  have hirq : (crackNoted s b m (crackNew s b m) (sat1 (crackTaken s b m).evt) true).irqStat = s.irqStat ||| 0x1000 := by
    cases b <;> rfl
  have hdown : downRequested (crackNoted s b m (crackNew s b m) (sat1 (crackTaken s b m).evt) true) b =
      downRequested s b := by
    have hnow : (crackNoted s b m (crackNew s b m) (sat1 (crackTaken s b m).evt) true).now = s.now := setBank_now s b _
    simp only [downRequested, hbank, hnow, pgf, pg, crackNoted_mem]
  dsimp only at heq
  by_cases hpol : s.disp.crackPol = 1
  · rw [if_pos hpol, bankDown_driven (by rw [hbank]; exact h.1), hdown] at heq
    rw [heq, setDrv, getBank_setBank, setBank_irqStat, hbank, hirq]
    exact ⟨rfl, rfl, rfl, fun _ => rfl, fun hn => absurd hpol hn⟩
  · rw [if_neg hpol] at heq
    rw [heq, hbank, hirq]
    exact ⟨rfl, rfl, rfl, fun h1 => absurd h1 hpol, fun _ => rfl⟩

/-! ### Frames of resistance and of leakage (R517, R518) -/

/-- A frame that is no leakage frame is kept as the loop's resistance. -/
theorem crackTaken_open (h : (getBank s b).drv.fcnt % 16 ≠ 0) : (crackTaken s b m).loopR = min 6000 m ∧
    (crackTaken s b m).sta = (getBank s b).crack.sta ∧ (crackTaken s b m).evt = (getBank s b).crack.evt ∧
    (crackTaken s b m).openRun = if 5000 < m then (getBank s b).crack.openRun + 1 else 0 := by
  rw [crackTaken, crackRecord, if_neg h]
  exact ⟨rfl, rfl, rfl, rfl⟩

theorem crackTaken_leak (h : (getBank s b).drv.fcnt % 16 = 0) : crackTaken s b m = { (getBank s b).crack with
    leakNa := min 0xFFFF m
    leakRun := if (pg s 0xEC12).toNat * 100 < m then (getBank s b).crack.leakRun + 1 else 0 } := by
  rw [crackTaken, crackRecord, if_pos h]

theorem crackRank_top {n : Nat} (h : crackRank n = 0) : n = 4 := by
  unfold crackRank at h
  split at h <;> simp_all

theorem crackRank_second {n : Nat} (h : crackRank n ≤ 1) : n = 4 ∨ n = 5 := by
  unfold crackRank at h
  split at h <;> simp_all

/-- Two open measurements in a row make status 4, whatever other status stands. -/
theorem crackNew_open (hrun : 2 ≤ (crackTaken s b m).openRun) (hsta : (crackTaken s b m).sta ≠ 4) :
    crackNew s b m = 4 := by
  have hcode : crackCode (crackTaken s b m) (pgf s (crackPage b + 8) 8 8) = 4 := by rw [crackCode, if_pos hrun]
  rw [crackNew, hcode]
  exact if_neg fun h => hsta (crackRank_top (Nat.le_zero.mp h.2))

/-- Two leakage measurements in a row above the limit make status 5, but for a status 4 that stands. -/
theorem crackNew_leak (hopen : (crackTaken s b m).openRun < 2) (hrun : 2 ≤ (crackTaken s b m).leakRun)
    (h4 : (crackTaken s b m).sta ≠ 4) (h5 : (crackTaken s b m).sta ≠ 5) : crackNew s b m = 5 := by
  have hcode : crackCode (crackTaken s b m) (pgf s (crackPage b + 8) 8 8) = 5 := by
    rw [crackCode, if_neg (by omega), if_pos hrun]
  rw [crackNew, hcode]
  exact if_neg fun h => (crackRank_second h.2).elim h4 h5

end

/-! ### The statement -/

/-- Settles O33: the status is judged from the runs that the record counts, and a raised one acts as R528 says. -/
theorem crackMeasurementsAreJudged : Obligations.CrackMeasurementsAreJudged := by
  unfold Obligations.CrackMeasurementsAreJudged
  refine ⟨fun b m s h => congrArg Host.Outcome.next (crackMeasure_not h), ?resistance, ?leakage⟩
  case resistance =>
    intro b m s hdriven hen hnext hframe
    have htakes : crackTakes s b := ⟨hdriven, hen, by simp [hnext]⟩
    obtain ⟨hloop, hsta, hevt, hopen⟩ := crackTaken_open (m := m) hframe
    obtain ⟨⟨k, e, hcrack⟩, hmem, hother⟩ := crackMeasure_keeps (m := m) htakes
    refine ⟨_, rfl, by rw [hcrack]; exact hloop, hmem, hother, fun hm hrun h4 => ?_, fun hm => ?_⟩
    · have hnew := crackNew_open (s := s) (b := b) (m := m) (by rw [hopen, if_pos hm, hrun]) (by rw [hsta]; exact h4)
      have hraised := crackMeasure_raised htakes (.inl rfl) hnew (by rw [hsta]; exact h4.symm)
      rwa [hevt] at hraised
    · rw [hcrack]
      exact hopen.trans (if_neg (by omega))
  case leakage =>
    intro b m s hdriven hen hnext hframe
    have htakes : crackTakes s b := ⟨hdriven, hen, by simp [hnext]⟩
    have htaken := crackTaken_leak (m := m) hframe
    obtain ⟨⟨k, e, hcrack⟩, hmem, hother⟩ := crackMeasure_keeps (m := m) htakes
    rw [htaken] at hcrack
    refine ⟨_, rfl, by rw [hcrack], by rw [hcrack], hmem, hother, fun hm => ?_, fun hm hrun hopen h4 h5 => ?_⟩
    · rw [hcrack]
      exact if_neg (by omega)
    · have hnew := crackNew_leak (s := s) (b := b) (m := m) (by rw [htaken]; exact hopen)
        (by rw [htaken]; simp [hm, hrun]) (by rw [htaken]; exact h4) (by rw [htaken]; exact h5)
      have hraised := crackMeasure_raised htakes (.inr rfl) hnew (by rw [htaken]; exact h5.symm)
      rwa [show (crackTaken s b m).evt = (getBank s b).crack.evt by rw [htaken]] at hraised

end Sys2Proof.Machine
end

section
/-! What the units leave alone of the key FIFO, IRQSTAT.KEY, BOOT and the Supervisor role (R149, R173, R349): these as
one value, and the operations that keep it. -/

namespace Sys2Proof.Machine

open Sys2Proof

/-! ### The value -/

/-- The key FIFO with its interrupt bit, whether the machine is in BOOT, and what decides who holds the Supervisor role:
the generation and the primary port. -/
structure KeyView where
  fifo : List Word
  key : Bool
  boot : Bool
  gen : Gen
  ppri : Bool

/-- The key view of a machine. -/
def keyView (s : State) : KeyView :=
  ⟨s.keys.fifo, bit s.irqStat irqKEY, s.pw.mode == .boot, s.pw.gen, s.roles.ppri⟩

/-! `keyView_mk` reads the view off a state written out, and `keyView_fold` reads it back as that of the state from which
its parts come. -/

@[simp] theorem keyView_mk (now freeCtr : Nat) (pw : Power) (clk : Clock) (irqStat : Word) (err : ErrRec)
    (portP portS : PortSt) (spi : SpiResp) (roles : Roles) (scratch : Word) (bankA bankB : BankSt) (disp : Display)
    (keys : Keys) (lamps : Lamps) (batA : BatA) (batB : BatB) (estA estB : Est) (pack : Pack) (auth : Auth) (nv : Nv)
    (aon : Aon) (bak : Backup) (arb : Arb) (tap : Tap) (mem : List Host.Cell) (pending : List Instr) :
    keyView ⟨now, freeCtr, pw, clk, irqStat, err, portP, portS, spi, roles, scratch, bankA, bankB, disp, keys, lamps,
      batA, batB, estA, estB, pack, auth, nv, aon, bak, arb, tap, mem, pending⟩ =
      ⟨keys.fifo, bit irqStat irqKEY, pw.mode == .boot, pw.gen, roles.ppri⟩ := (rfl)

@[simp] theorem keyView_fold (s : State) :
    KeyView.mk s.keys.fifo (bit s.irqStat irqKEY) (s.pw.mode == .boot) s.pw.gen s.roles.ppri = keyView s := (rfl)

@[simp] theorem keyView_ite (c : Prop) [Decidable c] (s t : State) :
    keyView (if c then s else t) = if c then keyView s else keyView t := apply_ite keyView c s t

@[simp] theorem keyView_foldl {α : Type} {f : State → α → State} (hf : ∀ s a, keyView (f s a) = keyView s) (l : List α)
    (s : State) : keyView (l.foldl f s) = keyView s := by
  induction l generalizing s with
  | nil => rfl
  | cons a l ih => exact (ih _).trans (hf s a)

@[simp] theorem keyView_setPort (s : State) (p : Port) (x : PortSt) : keyView (setPort s p x) = keyView s := by
  cases p <;> rfl

/-- Setting another bit leaves a bit. -/
@[simp] theorem bit_setOther (v : Word) {i j : Nat} (h : i ≠ j) : bit (v ||| wordOf (2 ^ i)) j = bit v j := by
  simp only [bit, wordOf, BitVec.getLsbD_or, BitVec.getLsbD_ofNat, Nat.testBit_two_pow, h, decide_false, Bool.and_false,
    Bool.or_false]

@[simp] theorem key_setIrqIf (c : Bool) (s : State) {i : Nat} (h : i ≠ irqKEY) :
    bit (setIrqIf c s i).irqStat irqKEY = bit s.irqStat irqKEY := by
  cases c
  · rfl
  · exact bit_setOther s.irqStat h

@[simp] theorem keyView_setBank (s : State) (b : Bank) (x : BankSt) : keyView (setBank s b x) = keyView s := by
  cases b <;> rfl

/-! ### Flags and records -/

/-- An interrupt bit other than KEY leaves KEY. -/
@[simp] theorem keyView_setIrq (s : State) {i : Nat} (h : i ≠ irqKEY) : keyView (setIrq s i) = keyView s := by
  simp [setIrq, h]

@[simp] theorem keyView_setIrqIf (c : Bool) (s : State) {i : Nat} (h : i ≠ irqKEY) :
    keyView (setIrqIf c s i) = keyView s := by simp [setIrqIf, h]

@[simp] theorem keyView_record (s : State) (code : Byte) (src : Option Port) (ahi : BitVec 4) (cell : Bool)
    (info : Word) :
    keyView (record s code src ahi cell info) = keyView s := by simp [record]

@[simp] theorem keyView_recordInfo (s : State) (code : Byte) (src : Option Port) (info : Nat) :
    keyView (recordInfo s code src info) = keyView s := by simp [recordInfo]

@[simp] theorem keyView_recordCell (s : State) (code : Byte) (src : Option Port) (a : Nat) :
    keyView (recordCell s code src a) = keyView s := by simp [recordCell]

/-! ### Ports and the gate -/

@[simp] theorem keyView_setDrv (s : State) (b : Bank) (d : Drive) : keyView (setDrv s b d) = keyView s := by
  simp [setDrv]

@[simp] theorem keyView_setLed (s : State) (b : Bank) (l : Ledger) : keyView (setLed s b l) = keyView s := by
  simp [setLed]

@[simp] theorem keyView_setTrim (s : State) (b : Bank) (t : Trim) : keyView (setTrim s b t) = keyView s := by
  simp [setTrim]

@[simp] theorem keyView_setThr (s : State) (b : Bank) (t : Thread) : keyView (setThr s b t) = keyView s := by
  simp [setThr]

@[simp] theorem keyView_setCrack (s : State) (b : Bank) (c : Crack) : keyView (setCrack s b c) = keyView s := by
  simp [setCrack]

@[simp] theorem keyView_refuse (s : State) (p : Port) (code : Byte) (off : Nat) :
    keyView (refuse s p code off) = keyView s := by simp [refuse]

@[simp] theorem keyView_refuseCell (s : State) (p : Port) (code : Byte) (a : Nat) :
    keyView (refuseCell s p code a) = keyView s := by simp [refuseCell]

@[simp] theorem keyView_startWake (s : State) : keyView (startWake s) = keyView s := by simp [startWake]

@[simp] theorem keyView_gen1Ale (s : State) (p : Port) (ad : Byte) : keyView (gen1Ale s p ad) = keyView s := by
  simp [gen1Ale]

@[simp] theorem keyView_gen1Spent (s : State) (p : Port) (a : Fin 64) : keyView (gen1Spent s p a) = keyView s := by
  simp [gen1Spent]

@[simp] theorem keyView_bootFace (s : State) (p : Port) (a : Fin 64) (v : Word) :
    keyView (bootFace s p a v) = keyView s := by simp [bootFace]

@[simp] theorem keyView_gen1Empty (s : State) (p : Port) (a : Fin 64) : keyView (gen1Empty s p a) = keyView s := by
  simp [gen1Empty]

/-- A register write keeps of the keyView what its register's rule keeps of them. -/
theorem gate_keepsView {P : KeyView → Prop} {s : State} {body : State → Word → State} (p : Port) (a : Fin 64) (v : Word)
    (hs : P (keyView s)) (hbody : ∀ t w, P (keyView t) → P (keyView (body t w))) : P (keyView (gate s p a v body)) := by
  unfold gate
  split_ifs
  · exact hs
  · rwa [keyView_bootFace]
  · rwa [keyView_gen1Spent]
  · split
    · rwa [keyView_refuse, keyView_gen1Ale]
    · dsimp only
      split_ifs
      · rwa [keyView_refuse, keyView_gen1Empty]
      · exact hbody _ _ (by rwa [keyView_gen1Empty])

@[simp] theorem keyView_gate {body : State → Word → State} (hbody : ∀ t w, keyView (body t w) = keyView t) (s : State)
    (p : Port) (a : Fin 64) (v : Word) : keyView (gate s p a v body) = keyView s :=
  gate_keepsView (P := (· = keyView s)) p a v rfl fun t w ht => (hbody t w).trans ht

@[simp] theorem keyView_readDone (s : State) (p : Port) (a : Fin 64) (v : Word) :
    keyView (readDone s p a v) = keyView s := by simp [readDone]

@[simp] theorem keyView_faceTakesHeld (s : State) : keyView (faceTakesHeld s) = keyView s := by
  unfold faceTakesHeld
  dsimp only
  split <;> simp

/-- A register read keeps of the keyView what its register's rule keeps of them. -/
theorem readGate_keepsView {P : KeyView → Prop} {s : State} {body : State → Word × State} (p : Port) (a : Fin 64)
    (hs : P (keyView s)) (hbody : P (keyView (body s).2)) : P (keyView (readGate s p a body)) := by
  unfold readGate
  split_ifs
  · exact hs
  · rwa [keyView_readDone]
  · rwa [keyView_readDone]

@[simp] theorem keyView_readGate {body : State → Word × State} (hbody : ∀ t, keyView (body t).2 = keyView t) (s : State)
    (p : Port) (a : Fin 64) : keyView (readGate s p a body) = keyView s :=
  readGate_keepsView (P := (· = keyView s)) p a rfl (hbody s)

/-- A write of Port S keeps of the keyView what the write itself keeps of them. -/
theorem answered_keepsView {P : KeyView → Prop} {s : State} {act : State → State} (a : Fin 64) (v : Word)
    (hs : P (keyView s)) (hact : ∀ t, P (keyView t) → P (keyView (act t))) : P (keyView (answered s a v act)) := by
  unfold answered
  split
  · exact hact s hs
  · exact hact { s with err := { s.err with src := probeSrc } } hs

@[simp] theorem keyView_answered {act : State → State} (hact : ∀ t, keyView (act t) = keyView t) (s : State)
    (a : Fin 64) (v : Word) : keyView (answered s a v act) = keyView s :=
  answered_keepsView (P := (· = keyView s)) a v rfl fun t ht => (hact t).trans ht

/-! ### The Cellar and its arbiter -/

@[simp] theorem keyView_eccWritten (s : State) (w : Nat) : keyView (eccWritten s w) = keyView s := by simp [eccWritten]

@[simp] theorem keyView_upset (s : State) (y : Upset) : keyView (upset s y) = keyView s := by
  unfold upset
  split <;> simp [eccPut]

@[simp] theorem keyView_upsets (s : State) (l : List Upset) : keyView (upsets s l) = keyView s := by simp [upsets]

@[simp] theorem keyView_detectCe (s : State) (w : Nat) : keyView (detectCe s w) = keyView s := by simp [detectCe]

@[simp] theorem keyView_detectUe (s : State) (w : Nat) : keyView (detectUe s w) = keyView s := by simp [detectUe]

@[simp] theorem keyView_eccRead (s : State) (w : Nat) : keyView (eccRead s w) = keyView s := by
  unfold eccRead
  split <;> simp

@[simp] theorem keyView_eccReadN (s : State) (w n : Nat) : keyView (eccReadN s w n) = keyView s := by
  induction n generalizing s w with
  | zero => rfl
  | succ n ih => simp [eccReadN, ih]

@[simp] theorem keyView_storeWord (s : State) (a : Nat) (v : Word) : keyView (storeWord s a v) = keyView s := by
  simp [storeWord]

@[simp] theorem keyView_storeEcc (s : State) (w n v : Nat) : keyView (storeEcc s w n v) = keyView s := by
  induction n generalizing s w v with
  | zero => rfl
  | succ n ih => exact (ih _ _ _).trans (keyView_eccWritten s w)

@[simp] theorem keyView_storeLine (s : State) (a : Nat) (v : BitVec 128) : keyView (storeLine s a v) = keyView s := by
  simp [storeLine]

@[simp] theorem keyView_grantL1 (s : State) (p : Port) : keyView (grantL1 s p) = keyView s := by
  unfold grantL1
  split <;> simp

@[simp] theorem keyView_grantLow (s : State) (lvl n : Nat) : keyView (grantLow s lvl n) = keyView s := by
  simp [grantLow]

@[simp] theorem keyView_grantAhead (s : State) (lvl : Nat) : keyView (grantAhead s lvl) = keyView s := by
  simp [grantAhead]

@[simp] theorem keyView_grantWork (s : State) (lvl n : Nat) (first : Bool) :
    keyView (grantWork s lvl n first) = keyView s := by simp [grantWork, grantRest]

@[simp] theorem keyView_burstsFirst (own : Grant) (n : Nat) (s : State) :
    keyView (burstsFirst own n s) = keyView s := by
  induction n generalizing s with
  | zero => rfl
  | succ n ih =>
    unfold burstsFirst
    split
    · split
      · simp [ih]
      · rfl
    · rfl

theorem keyView_arbServe {s t : State} {own : Grant} (h : arbServe s own = some t) : keyView t = keyView s := by
  unfold arbServe at h
  dsimp only at h
  split at h
  · cases h
    exact keyView_burstsFirst own 32 s
  · cases h

/-- A row that the arbiter serves keeps of the keyView what its work keeps of them. -/
theorem granted_keepsView {P : KeyView → Prop} {s : State} {act : State → State} (own : Grant) (hs : P (keyView s))
    (hact : ∀ t, P (keyView t) → P (keyView (act t))) : P (keyView (granted s own act)) := by
  cases h : arbServe s own with
  | none => rwa [granted_not h]
  | some t =>
    rw [granted_of h]
    exact hact t (by rwa [keyView_arbServe h])

@[simp] theorem keyView_granted {act : State → State} (hact : ∀ t, keyView (act t) = keyView t) (s : State)
    (own : Grant) : keyView (granted s own act) = keyView s :=
  granted_keepsView (P := (· = keyView s)) own rfl fun t ht => (hact t).trans ht

/-! ### Lamps -/

@[simp] theorem keyView_setLamp (s : State) (n : Fin 8) (c : Lamp) : keyView (setLamp s n c) = keyView s := by
  simp [setLamp]

@[simp] theorem keyView_setCluster (s : State) (c : Fin 2) (x : Cluster) : keyView (setCluster s c x) = keyView s := by
  simp [setCluster]

@[simp] theorem keyView_switchOn (s : State) (n : Fin 8) : keyView (switchOn s n) = keyView s := by simp [switchOn]

@[simp] theorem keyView_followReq (s : State) (n : Fin 8) : keyView (followReq s n) = keyView s := by
  unfold followReq
  split <;> simp [switchOff]

@[simp] theorem keyView_lampsSettle (s : State) : keyView (lampsSettle s) = keyView s := by
  simp [lampsSettle, flasherFollow]

@[simp] theorem keyView_latchCause (s : State) (n : Fin 8) (i : Nat) : keyView (latchCause s n i) = keyView s := by
  simp [latchCause]

@[simp] theorem keyView_lampTrip (s : State) (n : Fin 8) (cause : Nat) : keyView (lampTrip s n cause) = keyView s := by
  simp [lampTrip]

@[simp] theorem keyView_secondTrip (s : State) (n : Fin 8) (cause : Nat) :
    keyView (secondTrip s n cause) = keyView s := by simp [secondTrip]

@[simp] theorem keyView_tryRetry (s : State) (n : Fin 8) : keyView (tryRetry s n) = keyView s := by simp [tryRetry]

@[simp] theorem keyView_periodStart (s : State) (n : Fin 8) : keyView (periodStart s n) = keyView s := by
  simp [periodStart]

@[simp] theorem keyView_takeGrid (s : State) (n : Fin 8) : keyView (takeGrid s n) = keyView s := by simp [takeGrid]

@[simp] theorem keyView_pwmBoundary (s : State) (n : Fin 8) : keyView (pwmBoundary s n) = keyView s := by
  simp [pwmBoundary]

@[simp] theorem keyView_pwmOnEnd (s : State) (n : Fin 8) (ion : Word) : keyView (pwmOnEnd s n ion) = keyView s := by
  simp [pwmOnEnd]

@[simp] theorem keyView_inrushEnds (s : State) (n : Fin 8) : keyView (inrushEnds s n) = keyView s := by
  simp [inrushEnds, eachMate]

@[simp] theorem keyView_shortArises (s : State) (n : Fin 8) (e : Nat) (applies : LampMode → Bool) :
    keyView (shortArises s n e applies) = keyView s := by
  unfold shortArises
  split <;> simp [shortEnergy]

@[simp] theorem keyView_absoluteShort (s : State) (n : Fin 8) (e : Nat) :
    keyView (absoluteShort s n e) = keyView s := by simp [absoluteShort]

@[simp] theorem keyView_desaturation (s : State) (n : Fin 8) (e : Nat) : keyView (desaturation s n e) = keyView s := by
  simp [desaturation]

@[simp] theorem keyView_overload (s : State) (n : Fin 8) (e : Nat) : keyView (overload s n e) = keyView s := by
  simp [overload]

@[simp] theorem keyView_overtemp (s : State) (n : Fin 8) : keyView (overtemp s n) = keyView s := by simp [overtemp]

@[simp] theorem keyView_overtempRelease (s : State) (n : Fin 8) : keyView (overtempRelease s n) = keyView s := by
  simp [overtempRelease]

@[simp] theorem keyView_retryDueAt (s : State) (n : Fin 8) : keyView (retryDueAt s n) = keyView s := by
  simp [retryDueAt]

@[simp] theorem keyView_retryReloads (s : State) (n : Fin 8) : keyView (retryReloads s n) = keyView s := by
  simp [retryReloads]

@[simp] theorem keyView_openOn (s : State) (n : Fin 8) : keyView (openOn s n) = keyView s := by simp [openOn]

@[simp] theorem keyView_openOff (s : State) (n : Fin 8) : keyView (openOff s n) = keyView s := by simp [openOff]

@[simp] theorem keyView_stuckHigh (s : State) (n : Fin 8) : keyView (stuckHigh s n) = keyView s := by simp [stuckHigh]

@[simp] theorem keyView_senseBad (s : State) (n : Fin 8) : keyView (senseBad s n) = keyView s := by simp [senseBad]

@[simp] theorem keyView_gangDerate (s : State) (k : Fin 4) (odd : Bool) (onMa : Nat) :
    keyView (gangDerate s k odd onMa) = keyView s := by simp [gangDerate]

@[simp] theorem keyView_derateStep (s : State) (k : Fin 2) : keyView (derateStep s k) = keyView s := by
  unfold derateStep
  dsimp only
  split <;> simp

@[simp] theorem keyView_clusterTick (s : State) (k : Fin 2) (e : Vector Nat 8) (t : Word) :
    keyView (clusterTick s k e t) = keyView s := by simp [clusterTick]

@[simp] theorem keyView_budgetTick (s : State) (e : Vector Nat 8) (t0 t1 : Word) (ion : Vector Word 8) :
    keyView (budgetTick s e t0 t1 ion) = keyView s := by simp [budgetTick, inrushMarks]

@[simp] theorem keyView_flasherOn (s : State) : keyView (flasherOn s) = keyView s := by simp [flasherOn]

@[simp] theorem keyView_flasherOff (s : State) (low : Byte) : keyView (flasherOff s low) = keyView s := by
  simp [flasherOff]

@[simp] theorem keyView_fullyOn (s : State) : keyView (fullyOn s) = keyView s := by simp [fullyOn]

@[simp] theorem keyView_lctlWrite (s : State) (p : Port) (v : Word) : keyView (lctlWrite s p v) = keyView s := by
  simp [lctlWrite]

@[simp] theorem keyView_lselWrite (s : State) (p : Port) (v : Word) : keyView (lselWrite s p v) = keyView s := by
  simp [lselWrite]

@[simp] theorem keyView_lparamWrite (s : State) (p : Port) (v : Word) : keyView (lparamWrite s p v) = keyView s := by
  unfold lparamWrite
  dsimp only
  (repeat' split) <;> simp

@[simp] theorem keyView_lfaultWrite (s : State) (v : Word) (kept : List (Fin 8)) :
    keyView (lfaultWrite s v kept) = keyView s := by simp [lfaultWrite, clearFault]

@[simp] theorem keyView_causeArises (s : State) (c : LampCause) : keyView (causeArises s c) = keyView s := by
  unfold causeArises
  split <;> simp

/-! ### The ledger -/

@[simp] theorem keyView_rmwLine (s : State) (b : Bank) (c : Nat) (f : Nat → BitVec 32 → BitVec 32) :
    keyView (rmwLine s b c f) = keyView s := by simp [rmwLine, rmwPair]

@[simp] theorem keyView_clearWords (s : State) (b : Bank) : keyView (clearWords s b) = keyView s := by simp [clearWords]

@[simp] theorem keyView_passEnds (s : State) (b : Bank) : keyView (passEnds s b) = keyView s := by
  unfold passEnds
  dsimp only
  split <;> simp [setPeak]

@[simp] theorem keyView_markUnused (s : State) (b : Bank) (old new : Nat) :
    keyView (markUnused s b old new) = keyView s := by simp [markUnused]

@[simp] theorem keyView_passBegins (s : State) (b : Bank) (boundary : Bool) :
    keyView (passBegins s b boundary) = keyView s := by simp [passBegins]

@[simp] theorem keyView_planSettle (s : State) (b : Bank) (k : Nat) (rs : List SlotRec) :
    keyView (planSettle s b k rs) = keyView s := by simp [planSettle]

/-! ### Layers -/

@[simp] theorem keyView_commitPlaced (s : State) (b : Bank) (v : Word) : keyView (commitPlaced s b v) = keyView s := by
  simp [commitPlaced]

@[simp] theorem keyView_heldPlaced (s : State) (b : Bank) : keyView (heldPlaced s b) = keyView s := by simp [heldPlaced]

@[simp] theorem keyView_commitEffect (s : State) (v : Word) : keyView (commitEffect s v) = keyView s := by
  simp [commitEffect, commitBank]

@[simp] theorem keyView_intoIdle (s : State) (b : Bank) (l i : Nat) (v : BitVec 128) :
    keyView (intoIdle s b l i v) = keyView s := by simp [intoIdle]

@[simp] theorem keyView_dlayerWrite (s : State) (p : Port) (v : Word) : keyView (dlayerWrite s p v) = keyView s := by
  simp [dlayerWrite]

@[simp] theorem keyView_dblinkWrite (s : State) (v : Word) : keyView (dblinkWrite s v) = keyView s := by
  simp [dblinkWrite]

/-! ### The animation engine -/

@[simp] theorem keyView_animRead (s : State) (o n : Nat) : keyView (animRead s o n).2 = keyView s := by simp [animRead]

@[simp] theorem keyView_animPut (s : State) (b : Bank) (c : Nat) (anew : Bool) (m v : BitVec 128) :
    keyView (animPut s b c anew m v) = keyView s := by simp [animPut]

@[simp] theorem keyView_animFault (s : State) (b : Bank) (code : Nat) : keyView (animFault s b code) = keyView s := by
  simp [animFault]

@[simp] theorem keyView_barRender (s : State) (b : Bank) (i : Nat) : keyView (barRender s b i) = keyView s := by
  unfold barRender
  split <;> simp [barDraw]

@[simp] theorem keyView_animResume (s : State) (b : Bank) (old : Vector BlinkSt 4) :
    keyView (animResume s b old) = keyView s := by
  unfold animResume
  dsimp only
  (repeat' split) <;> simp

@[simp] theorem keyView_animOne {body : State → BitVec 64 → State} (hbody : ∀ t w, keyView (body t w) = keyView t)
    (s : State) (b : Bank) (lo n : Nat) : keyView (animOne s b lo n body) = keyView s := by
  simp [animOne, hbody]

@[simp] theorem keyView_animGo (s : State) (b : Bank) (pc : BitVec 17) : keyView (animGo s b pc) = keyView s := by
  simp [animGo]

@[simp] theorem keyView_animNext (s : State) (b : Bank) : keyView (animNext s b) = keyView s := by simp [animNext]

@[simp] theorem keyView_animTarget (s : State) (b : Bank) (w : BitVec 64) : keyView (animTarget s b w) = keyView s := by
  simp [animTarget]

@[simp] theorem keyView_animLimit (s : State) (b : Bank) : keyView (animLimit s b) = keyView s := by simp [animLimit]

@[simp] theorem keyView_animInstr (s : State) (b : Bank) (y : Nat) : keyView (animInstr s b y) = keyView s := by
  unfold animInstr
  split <;> simp [doEnd, doCopy, doFill, doWait, doLoop, doSync, doBar]

@[simp] theorem keyView_animRun (s : State) (b : Bank) (ups : List Upset) (op : Nat) :
    keyView (animRun s b ups op) = keyView s := by simp [animRun]

/-! ### Time and wake -/

@[simp] theorem keyView_latchWake (s : State) (i : Nat) : keyView (latchWake s i) = keyView s := by simp [latchWake]

@[simp] theorem keyView_declareMiss (s : State) : keyView (declareMiss s) = keyView s := by simp [declareMiss]

@[simp] theorem keyView_wakeEvent (s : State) (i : Nat) : keyView (wakeEvent s i) = keyView s := by
  simp [wakeEvent, abandonSleep]

@[simp] theorem keyView_setWakeLevel (s : State) (i : WakeIn) (l : Bool) :
    keyView (setWakeLevel s i l) = keyView s := by
  unfold setWakeLevel
  split <;> simp

@[simp] theorem keyView_wakeInput (s : State) (i : WakeIn) (l : Bool) : keyView (wakeInput s i l) = keyView s := by
  simp [wakeInput]

@[simp] theorem keyView_wakeEdge (s : State) (i : WakeIn) : keyView (wakeEdge s i) = keyView s := by simp [wakeEdge]

@[simp] theorem keyView_startSecond (s : State) (sec : BitVec 32) (cal : Bool) :
    keyView (startSecond s sec cal) = keyView s := by simp [startSecond]

@[simp] theorem keyView_backupFollow (s : State) : keyView (backupFollow s) = keyView s := by simp [backupFollow]

@[simp] theorem keyView_substituted (s : State) : keyView (substituted s) = keyView s := by simp [substituted]

@[simp] theorem keyView_rtcSecond (s : State) : keyView (rtcSecond s) = keyView s := by simp [rtcSecond]

@[simp] theorem keyView_aonEdge (s : State) : keyView (aonEdge s) = keyView s := by simp [aonEdge]

@[simp] theorem keyView_alarmFires (s : State) : keyView (alarmFires s) = keyView s := by simp [alarmFires]

@[simp] theorem keyView_backupSecond (s : State) : keyView (backupSecond s) = keyView s := by simp [backupSecond]

@[simp] theorem keyView_vbkupLoss (s : State) : keyView (vbkupLoss s) = keyView s := by simp [vbkupLoss]

@[simp] theorem keyView_vbkupReturn (s : State) : keyView (vbkupReturn s) = keyView s := by simp [vbkupReturn]

@[simp] theorem keyView_vlowTrips (s : State) : keyView (vlowTrips s) = keyView s := by simp [vlowTrips]

@[simp] theorem keyView_vlowReleases (s : State) : keyView (vlowReleases s) = keyView s := by simp [vlowReleases]

@[simp] theorem keyView_vlowLatches (s : State) : keyView (vlowLatches s) = keyView s := by simp [vlowLatches]

@[simp] theorem keyView_aonPush (s : State) (w : AonWrite) : keyView (aonPush s w) = keyView s := by simp [aonPush]

@[simp] theorem keyView_rtcLWrite (s : State) (p : Port) (v : Word) : keyView (rtcLWrite s p v) = keyView s := by
  simp [rtcLWrite]

@[simp] theorem keyView_rtcHWrite (s : State) (p : Port) (v : Word) : keyView (rtcHWrite s p v) = keyView s := by
  unfold rtcHWrite
  split <;> simp

@[simp] theorem keyView_rtcAlmWrite (s : State) (v : Word) : keyView (rtcAlmWrite s v) = keyView s := by
  simp [rtcAlmWrite]

@[simp] theorem keyView_wakectlWrite (s : State) (v : Word) : keyView (wakectlWrite s v) = keyView s := by
  simp [wakectlWrite]

@[simp] theorem keyView_wakestatWrite (s : State) (v : Word) : keyView (wakestatWrite s v) = keyView s := by
  simp [wakestatWrite]

@[simp] theorem keyView_aonArrive (s : State) : keyView (aonArrive s) = keyView s := by
  unfold aonArrive
  (repeat' split) <;> simp

@[simp] theorem keyView_rtcLReadOp (s : State) (p : Port) : keyView (rtcLReadOp s p).2 = keyView s := by
  simp [rtcLReadOp]

@[simp] theorem keyView_tempUpdate (s : State) (t : Word) : keyView (tempUpdate s t) = keyView s := by simp [tempUpdate]

/-! ### Segment drive -/

@[simp] theorem keyView_trimArrived (s : State) (b : Bank) : keyView (trimArrived s b) = keyView s := by
  simp [trimArrived]

@[simp] theorem keyView_trimRetarget (s : State) (b : Bank) : keyView (trimRetarget s b) = keyView s := by
  simp [trimRetarget]

@[simp] theorem keyView_trimStep (s : State) (b : Bank) : keyView (trimStep s b) = keyView s := by simp [trimStep]

@[simp] theorem keyView_tcBank (s : State) (b : Bank) : keyView (tcBank s b) = keyView s := by simp [tcBank]

@[simp] theorem keyView_dvlcdShow (s : State) (v : Word) : keyView (dvlcdShow s v) = keyView s := by simp [dvlcdShow]

@[simp] theorem keyView_trimTakes (s : State) (b : Bank) (w : ℤ × Nat × Bool) (arms : Bool) :
    keyView (trimTakes s b w arms) = keyView s := by simp [trimTakes]

@[simp] theorem keyView_dvlcdWrite (s : State) (v : Word) : keyView (dvlcdWrite s v) = keyView s := by
  simp [dvlcdWrite, dvlcdFields]

@[simp] theorem keyView_crackLearn (s : State) (b : Bank) : keyView (crackLearn s b) = keyView s := by simp [crackLearn]

@[simp] theorem keyView_l0Burst (s : State) (b : Bank) (q : Burst) : keyView (l0Burst s b q) = keyView s := by
  simp [l0Burst, burstWork, fetchReads, rackLayer]

@[simp] theorem keyView_burstRuns (s : State) (b : Bank) : keyView (burstRuns s b) = keyView s := by
  unfold burstRuns
  dsimp only
  split <;> simp

@[simp] theorem keyView_burstSettled (s : State) (b : Bank) : keyView (burstSettled s b) = keyView s := by
  unfold burstSettled
  dsimp only
  split <;> simp [linesReturned]

@[simp] theorem keyView_burstEdge (s : State) : keyView (burstEdge s) = keyView s := by simp [burstEdge]

@[simp] theorem keyView_keySlotGone (s : State) (b : Bank) : keyView (keySlotGone s b) = keyView s := by
  simp [keySlotGone]

@[simp] theorem keyView_enterGround (s : State) (b : Bank) (cut skip cap : Bool) :
    keyView (enterGround s b cut skip cap) = keyView s := by simp [enterGround]

@[simp] theorem keyView_enterBias (s : State) (b : Bank) : keyView (enterBias s b) = keyView s := by simp [enterBias]

@[simp] theorem keyView_bankUp (s : State) (b : Bank) : keyView (bankUp s b) = keyView s := by simp [bankUp]

@[simp] theorem keyView_enterOff (s : State) (b : Bank) : keyView (enterOff s b) = keyView s := by simp [enterOff]

@[simp] theorem keyView_enterRelease (s : State) (b : Bank) : keyView (enterRelease s b) = keyView s := by
  simp [enterRelease, settleSkipped]

@[simp] theorem keyView_noVlcd (s : State) (b : Bank) : keyView (noVlcd s b) = keyView s := by simp [noVlcd]

@[simp] theorem keyView_downAct (s : State) (b : Bank) (k : PendDown) : keyView (downAct s b k) = keyView s := by
  unfold downAct
  dsimp only
  split <;> simp

@[simp] theorem keyView_downEdge (s : State) (b : Bank) : keyView (downEdge s b) = keyView s := by simp [downEdge]

@[simp] theorem keyView_bankDown (s : State) (b : Bank) : keyView (bankDown s b) = keyView s := by simp [bankDown]

@[simp] theorem keyView_banksDown (s : State) : keyView (banksDown s) = keyView s := by simp [banksDown]

@[simp] theorem keyView_bankEmergency (s : State) (b : Bank) : keyView (bankEmergency s b) = keyView s := by
  simp [bankEmergency]

@[simp] theorem keyView_powerSet (s : State) (b : Bank) : keyView (powerSet s b) = keyView s := by
  unfold powerSet
  dsimp only
  split <;> simp

@[simp] theorem keyView_powerBit (s : State) (b : Bank) (v : Bool) : keyView (powerBit s b v) = keyView s := by
  simp [powerBit, powerClear]

@[simp] theorem keyView_dpwrWrite (s : State) (p : Port) (v : Word) : keyView (dpwrWrite s p v) = keyView s := by
  unfold dpwrWrite
  split <;> simp

@[simp] theorem keyView_dctlShow (s : State) (v : Word) : keyView (dctlShow s v) = keyView s := by simp [dctlShow]

@[simp] theorem keyView_dctlWrite (s : State) (p : Port) (v : Word) : keyView (dctlWrite s p v) = keyView s := by
  unfold dctlWrite
  split <;> simp [dctlFields]

@[simp] theorem keyView_crackMeasure (s : State) (b : Bank) (m : Nat) : keyView (crackMeasure s b m) = keyView s := by
  simp [crackMeasure]

@[simp] theorem keyView_dcrackWrite (s : State) (p : Port) (v : Word) : keyView (dcrackWrite s p v) = keyView s := by
  simp [dcrackWrite, crackEnable]

@[simp] theorem keyView_slotsStop (s : State) (b : Bank) (ckFrame : Bool) :
    keyView (slotsStop s b ckFrame) = keyView s := by simp [slotsStop]

@[simp] theorem keyView_waitsTaken (s : State) (b : Bank) : keyView (waitsTaken s b) = keyView s := by
  unfold waitsTaken
  dsimp only
  split <;> simp

@[simp] theorem keyView_reqTaken (s : State) (b : Bank) : keyView (reqTaken s b) = keyView s := by
  unfold reqTaken
  dsimp only
  split <;> simp

@[simp] theorem keyView_frameWork (s : State) (b : Bank) (first : Bool) (cut : Option Nat) :
    keyView (frameWork s b first cut) = keyView s := by
  simp [frameWork, lampFrame, lampLocked, layersBoundary, masksInForce, blinkBoundary, animBoundary, animCarry,
    planFrame, fallbackBoundary]

@[simp] theorem keyView_frameBoundary (s : State) (b : Bank) : keyView (frameBoundary s b) = keyView s := by
  simp [frameBoundary]

@[simp] theorem keyView_besideAfter (before : State) (bs : List Bank) (s : State) (w : Fin 64 × Word) :
    keyView (besideAfter before bs s w) = keyView s := by
  simp only [besideAfter]
  split <;> simp

@[simp] theorem keyView_powerOthers (s : State) (bs : List Bank) (v : Word) :
    keyView (powerOthers s bs v) = keyView s := by simp [powerOthers]

@[simp] theorem keyView_dpwrJudged (s : State) (wS wP : Word) : keyView (dpwrJudged s wS wP).1 = keyView s := by
  unfold dpwrJudged
  dsimp only
  (repeat' split) <;> simp

@[simp] theorem keyView_dpwrBoth (s : State) (wS wP : Word) : keyView (dpwrBoth s wS wP) = keyView s := by
  have h := keyView_dpwrJudged s wS wP
  unfold dpwrBoth
  split <;> next t _ heq => rw [heq] at h; simpa using h

@[simp] theorem keyView_dpwrBothWait (s : State) (bs : List Bank) (wS wP : Word) :
    keyView (dpwrBothWait s bs wS wP).1 = keyView s := by
  have h := keyView_dpwrJudged s wS wP
  unfold dpwrBothWait
  split <;> next t _ heq => rw [heq] at h; simpa using h

@[simp] theorem keyView_slotDrive (s : State) (b : Bank) : keyView (slotDrive s b) = keyView s := by
  unfold slotDrive
  dsimp only
  split <;> simp

@[simp] theorem keyView_slotBoundary (s : State) (b : Bank) (ups : List Upset) :
    keyView (slotBoundary s b ups) = keyView s := by simp [slotBoundary, linesTaken, burstDue, slotState, keySlotDue]

@[simp] theorem keyView_biasEnds (s : State) (b : Bank) : keyView (biasEnds s b) = keyView s := by
  simp [biasEnds, crackEntry]

@[simp] theorem keyView_flushEdge (s : State) : keyView (flushEdge s) = keyView s := by
  simp [flushEdge, flushBurst, recordFlushed]

@[simp] theorem keyView_dutyFlushEnds (s : State) (b : Bank) : keyView (dutyFlushEnds s b) = keyView s := by
  simp [dutyFlushEnds]

@[simp] theorem keyView_edgeWork (s : State) (y : BesideEdge) : keyView (edgeWork s y) = keyView s := by
  unfold edgeWork
  split <;> simp

@[simp] theorem keyView_besideBoundary (s : State) (es : List BesideEdge) (l : List (Fin 64 × Word)) :
    keyView (besideBoundary s es l) = keyView s := by
  simp [besideBoundary]

@[simp] theorem keyView_vgoodRise (s : State) (b : Bank) : keyView (vgoodRise s b) = keyView s := by simp [vgoodRise]

@[simp] theorem keyView_vgoodFall (s : State) (b : Bank) : keyView (vgoodFall s b) = keyView s := by
  unfold vgoodFall
  dsimp only
  (repeat' split) <;> simp

@[simp] theorem keyView_novlcdTimer (s : State) (b : Bank) : keyView (novlcdTimer s b) = keyView s := by
  unfold novlcdTimer
  dsimp only
  split <;> simp

@[simp] theorem keyView_vlcdLost (s : State) (b : Bank) : keyView (vlcdLost s b) = keyView s := by simp [vlcdLost]

@[simp] theorem keyView_groundingEnds (s : State) (b : Bank) : keyView (groundingEnds s b) = keyView s := by
  simp [groundingEnds]

@[simp] theorem keyView_releaseEnds (s : State) (b : Bank) : keyView (releaseEnds s b) = keyView s := by
  simp [releaseEnds]

/-! ### Battery channels -/

@[simp] theorem keyView_clearEstimate (s : State) : keyView (clearEstimate s) = keyView s := by simp [clearEstimate]

@[simp] theorem keyView_dropAccepted (s : State) : keyView (dropAccepted s) = keyView s := by
  unfold dropAccepted
  split <;> simp

@[simp] theorem keyView_packClear (s : State) : keyView (packClear s) = keyView s := by simp [packClear]

@[simp] theorem keyView_dropRecord (s : State) : keyView (dropRecord s) = keyView s := by simp [dropRecord]

@[simp] theorem keyView_stopA (s : State) : keyView (stopA s) = keyView s := by simp [stopA, enaClear]

@[simp] theorem keyView_startA (s : State) : keyView (startA s) = keyView s := by simp [startA]

@[simp] theorem keyView_harvOff (s : State) : keyView (harvOff s) = keyView s := by simp [harvOff]

@[simp] theorem keyView_trigger (s : State) (i : Nat) : keyView (trigger s i) = keyView s := by simp [trigger]

@[simp] theorem keyView_recordWritten (s : State) (r : HRec) (rest : List HRec) :
    keyView (recordWritten s r rest) = keyView s := by simp [recordWritten]

@[simp] theorem keyView_harvestWrite (s : State) : keyView (harvestWrite s) = keyView s := by
  unfold harvestWrite
  split <;> simp

@[simp] theorem keyView_conversion (s : State) (m : Sample) : keyView (conversion s m) = keyView s := by
  simp [conversion, harvestConv, setOra, intervalConv, endConversion]

@[simp] theorem keyView_bstatWrite (s : State) (v : Word) : keyView (bstatWrite s v) = keyView s := by simp [bstatWrite]

@[simp] theorem keyView_crankTrack (s : State) (v : Nat) : keyView (crankTrack s v) = keyView s := by
  unfold crankTrack
  dsimp only
  split <;> simp

@[simp] theorem keyView_crankStop (s : State) : keyView (crankStop s) = keyView s := by simp [crankStop]

@[simp] theorem keyView_sampleB (s : State) (raw : BitVec 12) : keyView (sampleB s raw) = keyView s := by simp [sampleB]

@[simp] theorem keyView_crankDip (s : State) : keyView (crankDip s) = keyView s := by simp [crankDip]

@[simp] theorem keyView_crankEnd (s : State) : keyView (crankEnd s) = keyView s := by simp [crankEnd]

/-! ### The pack -/

@[simp] theorem keyView_packSignal (old s : State) : keyView (packSignal old s) = keyView s := by simp [packSignal]

@[simp] theorem keyView_packTrigger (old s : State) : keyView (packTrigger old s) = keyView s := by simp [packTrigger]

@[simp] theorem keyView_beginSession (s : State) : keyView (beginSession s) = keyView s := by simp [beginSession]

@[simp] theorem keyView_presenceWake (s : State) : keyView (presenceWake s) = keyView s := by simp [presenceWake]

@[simp] theorem keyView_pilIdle (s : State) : keyView (pilIdle s) = keyView s := by simp [pilIdle]

@[simp] theorem keyView_packAbsent (s : State) (x : Nat) : keyView (packAbsent s x) = keyView s := by
  simp [packAbsent, removal]

@[simp] theorem keyView_restartInit (s : State) : keyView (restartInit s) = keyView s := by simp [restartInit]

@[simp] theorem keyView_packPresent (s : State) (x : Nat) : keyView (packPresent s x) = keyView s := by
  simp [packPresent]

@[simp] theorem keyView_bctlWrite (s : State) (p : Port) (v : Word) : keyView (bctlWrite s p v) = keyView s := by
  simp [bctlWrite, bctlFields, idmChange]

@[simp] theorem keyView_judgeFrame (s : State) (bits : List Bool) (len : Nat) :
    keyView (judgeFrame s bits len) = keyView s := by
  unfold judgeFrame
  split <;> simp [badFrame, goodFrame, digestSeen, verifyPack]

@[simp] theorem keyView_setPil (s : State) (d : Pil) : keyView (setPil s d) = keyView s := by simp [setPil]

@[simp] theorem keyView_frameEnds (s : State) : keyView (frameEnds s) = keyView s := by simp [frameEnds]

@[simp] theorem keyView_pulseEnds (s : State) (n : Nat) : keyView (pulseEnds s n) = keyView s := by
  unfold pulseEnds
  (repeat' split) <;> simp

@[simp] theorem keyView_pilRun (s : State) (level : Bool) (n : Nat) : keyView (pilRun s level n) = keyView s := by
  unfold pilRun
  dsimp only
  (repeat' split) <;> simp [pilHigh]

@[simp] theorem keyView_pilFrame (s : State) (wave : List (Bool × Nat)) : keyView (pilFrame s wave) = keyView s := by
  simp [pilFrame]

@[simp] theorem keyView_identityTimeout (s : State) : keyView (identityTimeout s) = keyView s := by
  simp [identityTimeout]

@[simp] theorem keyView_bpackWrite (s : State) (v : Word) : keyView (bpackWrite s v) = keyView s := by simp [bpackWrite]

/-! ### Models and estimators -/

@[simp] theorem keyView_setMstat (s : State) (c : BatCh) (v : Nat) : keyView (setMstat s c v) = keyView s := by
  unfold setMstat
  split <;> simp

@[simp] theorem keyView_modelFetch (s : State) (c : BatCh) (n : Nat) (first : Bool) :
    keyView (modelFetch s c n first).2 = keyView s := by simp [modelFetch]

@[simp] theorem keyView_modelRead (s : State) (c : BatCh) (first : Bool) :
    keyView (modelRead s c first).2 = keyView s := by
  unfold modelRead
  dsimp only
  (repeat' split) <;> simp

@[simp] theorem keyView_modelLoads (s : State) (c : BatCh) : keyView (modelLoads s c) = keyView s := by
  unfold modelLoads
  split <;> simp

@[simp] theorem keyView_validate (s : State) (c : BatCh) : keyView (validate s c).2 = keyView s := by
  unfold validate
  dsimp only
  (repeat' split) <;> simp

@[simp] theorem keyView_validated (s : State) (c : BatCh) : keyView (validated s c) = keyView s := by
  unfold validated
  split <;> simp

@[simp] theorem keyView_validationDone (s : State) (c : BatCh) (ups : List Upset) :
    keyView (validationDone s c ups) = keyView s := by simp [validationDone]

@[simp] theorem keyView_updateA (s : State) (ups : List Upset) : keyView (updateA s ups) = keyView s := by
  unfold updateA
  dsimp only
  split <;> simp

@[simp] theorem keyView_estWake (s : State) (t : Nat) (sub : Bool) : keyView (estWake s t sub) = keyView s := by
  simp [estWake]

@[simp] theorem keyView_updateOf (s : State) (c : BatCh) (ups : List Upset) :
    keyView (updateOf s c ups) = keyView s := by
  unfold updateOf
  split <;> simp [updateB]

/-! ### Boot and clocks -/

@[simp] theorem keyView_strapsConnect (s : State) : keyView (strapsConnect s) = keyView s := by simp [strapsConnect]

@[simp] theorem keyView_strapsRelease (s : State) : keyView (strapsRelease s) = keyView s := by simp [strapsRelease]

@[simp] theorem keyView_backupBoot (s : State) : keyView (backupBoot s) = keyView s := by simp [backupBoot]

@[simp] theorem keyView_faceLive (s : State) : keyView (faceLive s) = keyView s := by simp [faceLive]

@[simp] theorem keyView_rootConfirmed (s : State) (restarted : Bool) :
    keyView (rootConfirmed s restarted) = keyView s := by simp [rootConfirmed]

@[simp] theorem keyView_attemptTimeout (s : State) : keyView (attemptTimeout s) = keyView s := by simp [attemptTimeout]

@[simp] theorem keyView_newAttempt (s : State) : keyView (newAttempt s) = keyView s := by simp [newAttempt]

@[simp] theorem keyView_crystalRests (s : State) : keyView (crystalRests s) = keyView s := by simp [crystalRests]

@[simp] theorem keyView_dividersRelease (s : State) : keyView (dividersRelease s) = keyView s := by
  simp [dividersRelease]

@[simp] theorem keyView_zeroFill (s : State) : keyView (zeroFill s) = keyView s := by simp [zeroFill]

@[simp] theorem keyView_bootWrites (s : State) : keyView (bootWrites s) = keyView s := by simp [bootWrites]

@[simp] theorem keyView_bootAgain (s : State) (step : Nat) : keyView (bootAgain s step) = keyView s := by
  simp [bootAgain]

@[simp] theorem keyView_holdEnds (s : State) (restarted : Bool) : keyView (holdEnds s restarted) = keyView s := by
  simp [holdEnds]

@[simp] theorem keyView_resetPin (s : State) : keyView (resetPin s) = keyView s := by simp [resetPin]

/-! ### Modes and supply -/

@[simp] theorem keyView_quietOutputs (s : State) : keyView (quietOutputs s) = keyView s := by simp [quietOutputs]

@[simp] theorem keyView_slotsResume (s : State) (b : Bank) : keyView (slotsResume s b) = keyView s := by
  simp [slotsResume]

@[simp] theorem keyView_restartA (s : State) : keyView (restartA s) = keyView s := by simp [restartA]

@[simp] theorem keyView_setExpert (s : State) (v : Word) : keyView (setExpert s v) = keyView s := by simp [setExpert]

@[simp] theorem keyView_sysstatWrite (s : State) (v : Word) : keyView (sysstatWrite s v) = keyView s := by
  simp [sysstatWrite]

@[simp] theorem keyView_reducedEntry (s : State) : keyView (reducedEntry s) = keyView s := by simp [reducedEntry]

@[simp] theorem keyView_reducedExit (s : State) : keyView (reducedExit s) = keyView s := by
  simp [reducedExit, bankReturns]

@[simp] theorem keyView_bankCollapses (s : State) (b : Bank) : keyView (bankCollapses s b) = keyView s := by
  simp [bankCollapses]

@[simp] theorem keyView_collapses (s : State) : keyView (collapses s) = keyView s := by
  unfold collapses
  dsimp only
  split <;> simp

@[simp] theorem keyView_vioLost (s : State) : keyView (vioLost s) = keyView s := by simp [vioLost]

@[simp] theorem keyView_vioBack (s : State) : keyView (vioBack s) = keyView s := by simp [vioBack]

/-! ### Authenticated commands -/

@[simp] theorem keyView_astatWrite (s : State) (v : Word) : keyView (astatWrite s v) = keyView s := by simp [astatWrite]

@[simp] theorem keyView_authDone (s : State) (result : Byte) : keyView (authDone s result) = keyView s := by
  simp [authDone]

@[simp] theorem keyView_authRefuse (s : State) (p : Port) (code : Byte) :
    keyView (authRefuse s p code) = keyView s := by simp [authRefuse]

@[simp] theorem keyView_authRefuseCell (s : State) (p : Port) (code : Byte) (a : Nat) :
    keyView (authRefuseCell s p code a) = keyView s := by simp [authRefuseCell]

@[simp] theorem keyView_authClaim (s : State) (p : Port) : keyView (authClaim s p) = keyView s := by simp [authClaim]

@[simp] theorem keyView_dropTag (s : State) : keyView (dropTag s) = keyView s := by simp [dropTag]

@[simp] theorem keyView_acmdWrite (s : State) (p : Port) (v : Word) : keyView (acmdWrite s p v) = keyView s := by
  unfold acmdWrite
  split <;> simp

@[simp] theorem keyView_acntWrite (s : State) (p : Port) (high : Bool) (v : Word) :
    keyView (acntWrite s p high v) = keyView s := by
  unfold acntWrite
  split <;> simp

@[simp] theorem keyView_wipeMailbox (s : State) : keyView (wipeMailbox s) = keyView s := by simp [wipeMailbox]

@[simp] theorem keyView_wipeAsked (s : State) : keyView (wipeAsked s) = keyView s := by simp [wipeAsked]

@[simp] theorem keyView_mailboxWiped (s : State) : keyView (mailboxWiped s) = keyView s := by simp [mailboxWiped]

@[simp] theorem keyView_accept (s : State) (c : AuthCmd) (p : Port) (m : AuthMsg) :
    keyView (accept s c p m) = keyView s := by simp [accept]

@[simp] theorem keyView_lastChecks (s : State) (c : AuthCmd) (p : Port) (m : AuthMsg) :
    keyView (lastChecks s c p m) = keyView s := by
  unfold lastChecks
  (repeat' split) <;> simp

@[simp] theorem keyView_authChecks (s : State) (p : Port) (m : AuthMsg) (tag : List Word) :
    keyView (authChecks s p m tag) = keyView s := by
  unfold authChecks
  split <;> simp [tagChecks, badTag, provisionChecks]

@[simp] theorem keyView_authVerdict (s : State) : keyView (authVerdict s) = keyView s := by
  unfold authVerdict
  (repeat' split) <;> simp

@[simp] theorem keyView_tagWord (s : State) (p : Port) (v : Word) : keyView (tagWord s p v) = keyView s := by
  unfold tagWord
  dsimp only
  (repeat' split) <;> simp [beginMessage]

@[simp] theorem keyView_lockoutEnds (s : State) : keyView (lockoutEnds s) = keyView s := by simp [lockoutEnds]

@[simp] theorem keyView_lockoutTick (s : State) : keyView (lockoutTick s) = keyView s := by simp [lockoutTick]

@[simp] theorem keyView_claimTimeout (s : State) : keyView (claimTimeout s) = keyView s := by simp [claimTimeout]

@[simp] theorem keyView_effect {body : State → Accepted → State} (hbody : ∀ t a, keyView (body t a) = keyView t)
    (s : State) (c : AuthCmd) : keyView (effect s c body) = keyView s := by
  unfold effect
  dsimp only
  split <;> simp [hbody]

@[simp] theorem keyView_ttPolicy (s : State) (a : List Word) : keyView (ttPolicy s a) = keyView s := by
  simp [ttPolicy, storeMask]

@[simp] theorem keyView_regionUnlock (s : State) (v : Word) : keyView (regionUnlock s v) = keyView s := by
  simp [regionUnlock]

@[simp] theorem keyView_lampPolicy (s : State) (a : List Word) : keyView (lampPolicy s a) = keyView s := by
  simp [lampPolicy]

@[simp] theorem keyView_provisionEffect (s : State) (a : Accepted) (ok : Bool) :
    keyView (provisionEffect s a ok) = keyView s := by simp [provisionEffect]

@[simp] theorem keyView_queueRestoreA (s : State) (a : Accepted) : keyView (queueRestoreA s a) = keyView s := by
  simp [queueRestoreA]

/-! ### Arbiter, scrub and TAP -/

@[simp] theorem keyView_windowStarts (s : State) (waits : Vector Nat 7) :
    keyView (windowStarts s waits) = keyView s := by simp [windowStarts]

@[simp] theorem keyView_arbstatWrite (s : State) (p : Port) (v : Word) : keyView (arbstatWrite s p v) = keyView s := by
  simp [arbstatWrite]

@[simp] theorem keyView_scrubUe (s : State) (w : Nat) : keyView (scrubUe s w) = keyView s := by simp [scrubUe]

@[simp] theorem keyView_scrubWord (s : State) (w : Nat) : keyView (scrubWord s w) = keyView s := by
  unfold scrubWord
  split <;> simp

@[simp] theorem keyView_scrubWords (s : State) (w n : Nat) : keyView (scrubWords s w n) = keyView s := by
  induction n generalizing s w with
  | zero => rfl
  | succ n ih => simp [scrubWords, ih]

@[simp] theorem keyView_scrubEight (s : State) (ups : List Upset) : keyView (scrubEight s ups) = keyView s := by
  simp [scrubEight]

@[simp] theorem keyView_scrubBurst (s : State) (ups : List Upset) : keyView (scrubBurst s ups) = keyView s := by
  simp [scrubBurst]

@[simp] theorem keyView_tapSelect (s : State) (ir : BitVec 5) : keyView (tapSelect s ir) = keyView s := by
  simp [tapSelect]

@[simp] theorem keyView_vendorSelect (s : State) (code : BitVec 5) : keyView (vendorSelect s code) = keyView s := by
  simp [vendorSelect]

/-! ### Roles -/

@[simp] theorem keyView_heartbeat (s : State) : keyView (heartbeat s) = keyView s := by
  unfold heartbeat
  dsimp only
  (repeat' split) <;> simp

@[simp] theorem keyView_portctlCore (s : State) (p : Port) (v : Word) (merged : Bool) :
    keyView (portctlCore s p v merged).1 = keyView s := by
  unfold portctlCore
  dsimp only
  (repeat' split) <;> simp

@[simp] theorem keyView_swapLapse (s : State) : keyView (swapLapse s) = keyView s := by
  unfold swapLapse
  split <;> simp

@[simp] theorem keyView_flasherEdge {edge : State → State} (hedge : ∀ t, keyView (edge t) = keyView t) (s : State)
    (fb : FallbackChange) : keyView (flasherEdge s edge fb) = keyView s := by
  cases fb <;> simp [flasherEdge, hedge]

/-! ### The Trellis -/

@[simp] theorem keyView_scanStep (s : State) : keyView (scanStep s) = keyView s := by
  simp [scanStep, apply_ite Keys.fifo]

@[simp] theorem keyView_keepSettings (s : State) : keyView (keepSettings s) = keyView s := by simp [keepSettings]

@[simp] theorem keyView_keysCapture (s : State) (a : Nat) (v : Word) : keyView (keysCapture s a v) = keyView s := by
  simp [keysCapture]

@[simp] theorem keyView_keyCountersClear (s : State) : keyView (keyCountersClear s) = keyView s := by
  simp [keyCountersClear, apply_ite Keys.fifo]

@[simp] theorem keyView_waitsEnd (s : State) : keyView (waitsEnd s) = keyView s := by
  simp [waitsEnd, apply_ite Keys.fifo]

@[simp] theorem keyView_slotMeets (s : State) : keyView (slotMeets s) = keyView s := by simp [slotMeets, writesWait]

@[simp] theorem keyView_loadScan (s : State) : keyView (loadScan s) = keyView s := by
  simp [loadScan]

@[simp] theorem keyView_bookKey (s : State) (K cycles : Nat) : keyView (bookKey s K cycles) = keyView s := by
  simp [bookKey]

@[simp] theorem keyView_keySlotOver (s : State) : keyView (keySlotOver s) = keyView s := by simp [keySlotOver]

@[simp] theorem keyView_slotBegun (s : State) : keyView (slotBegun s) = keyView s := by simp [slotBegun]

@[simp] theorem keyView_logServed (s : State) (e : KeyLog) (rest : List KeyLog) :
    keyView (logServed s e rest) = keyView s := by simp [logServed]

@[simp] theorem keyView_keyLogWrites (s : State) : keyView (keyLogWrites s) = keyView s := by
  unfold keyLogWrites
  split <;> simp

@[simp] theorem keyView_kctlWrite (s : State) (p : Port) (v : Word) : keyView (kctlWrite s p v) = keyView s := by
  simp [kctlWrite]

@[simp] theorem keyView_scanEdge (s : State) : keyView (scanEdge s) = keyView s := by simp [scanEdge]

@[simp] theorem keyView_kstatWrite (s : State) (v : Word) : keyView (kstatWrite s v) = keyView s := by simp [kstatWrite]

/-! ### The Parameter cask -/

@[simp] theorem keyView_winRead (s : State) (p : Port) (a : Nat) : keyView (winRead s p a).2 = keyView s := by
  unfold winRead
  (repeat' split) <;> simp [takeRaw, takeSoc]

@[simp] theorem keyView_regionWritten (s : State) (r o : Nat) (v : Word) :
    keyView (regionWritten s r o v) = keyView s := by
  unfold regionWritten
  split <;> simp [lockRegion]

@[simp] theorem keyView_pageAction (s : State) (a : Nat) (v : Word) : keyView (pageAction s a v) = keyView s := by
  unfold pageAction
  split <;> simp [harvestRestart, packCountersClear, eccCountersClear, ledgerClear, threadEn, bvbMinClear]

@[simp] theorem keyView_winStore (s : State) (a : Nat) (v : Word) : keyView (winStore s a v) = keyView s := by
  simp [winStore, modelHeld, modelTouched, mailboxTouched, keysStore]

/-! ### The window and the registers -/

@[simp] theorem keyView_issueLoad (s : State) (p : Port) : keyView (issueLoad s p) = keyView s := by simp [issueLoad]

@[simp] theorem keyView_refuseRead (s : State) (p : Port) : keyView (refuseRead s p).2 = keyView s := by
  simp [refuseRead]

@[simp] theorem keyView_dropWrite (s : State) (p : Port) (off : Nat) : keyView (dropWrite s p off) = keyView s := by
  simp [dropWrite]

@[simp] theorem keyView_pageLost (s : State) (p : Port) : keyView (pageLost s p) = keyView s := by simp [pageLost]

@[simp] theorem keyView_loadWords (s : State) (p : Port) (a n : Nat) : keyView (loadWords s p a n).2 = keyView s := by
  induction n generalizing s a with
  | zero => rfl
  | succ n ih => simp [loadWords, ih]

@[simp] theorem keyView_loadPage (s : State) (p : Port) (a n : Nat) : keyView (loadPage s p a n).2 = keyView s := by
  unfold loadPage
  split <;> simp

@[simp] theorem keyView_loadServed (s : State) (p : Port) (l : Load) (ups : List Upset) :
    keyView (loadServed s p l ups) = keyView s := by
  unfold loadServed
  dsimp only
  (repeat' split) <;> simp

@[simp] theorem keyView_workEnds (s : State) (y : LongWork) : keyView (workEnds s y) = keyView s := by
  unfold workEnds
  split <;> simp

@[simp] theorem keyView_longServed (s : State) (lvl : Nat) : keyView (longServed s lvl) = keyView s := by
  unfold longServed
  split <;> simp

@[simp] theorem keyView_waitTimeout (s : State) : keyView (waitTimeout s) = keyView s := by simp [waitTimeout]

@[simp] theorem keyView_clkstatWrite (s : State) (v : Word) : keyView (clkstatWrite s v) = keyView s := by
  simp [clkstatWrite]

@[simp] theorem keyView_errstatWrite (s : State) (v : Word) : keyView (errstatWrite s v) = keyView s := by
  simp [errstatWrite, clearErr]

@[simp] theorem keyView_irqenWrite (s : State) (p : Port) (v : Word) : keyView (irqenWrite s p v) = keyView s := by
  simp [irqenWrite]

@[simp] theorem keyView_gen1LowWrite (s : State) (a : Fin 64) (b : Byte) :
    keyView (gen1LowWrite s a b) = keyView s := by simp [gen1LowWrite]

/-! ### TAP rows -/

@[simp] theorem keyView_tapExtest (s : State) (scan : Option (BitVec 373 × BitVec 373)) :
    keyView (tapExtest s scan) = keyView s := by
  cases scan <;> simp [tapExtest]

@[simp] theorem keyView_tapSample (s : State) (board preload : BitVec 373) :
    keyView (tapSample s board preload) = keyView s := by
  simp [tapSample]

/-! ### The write-back queue and the write buffers (R115 to R119, R140, R219) -/

@[simp] theorem keyView_writebackServed (s : State) (ups : List Upset) :
    keyView (writebackServed s ups) = keyView s := by
  unfold writebackServed
  split
  · rfl
  · dsimp only
    split <;> simp

@[simp] theorem keyView_scrubWriteback (s : State) (ups : List Upset) :
    keyView (scrubWriteback s ups) = keyView s := by simp [scrubWriteback]

@[simp] theorem keyView_pushEntry (s : State) (p : Port) (e : BufEntry) : keyView (pushEntry s p e) = keyView s := by
  simp [pushEntry]

@[simp] theorem keyView_popEntry (s : State) (p : Port) (rest : List BufEntry) :
    keyView (popEntry s p rest) = keyView s := by simp [popEntry]

@[simp] theorem keyView_afterWrite (s : State) (p : Port) : keyView (afterWrite s p) = keyView s := by
  simp [afterWrite]

@[simp] theorem keyView_serveRead (s : State) (p : Port) (w : Word) (rest : List Word) :
    keyView (serveRead s p w rest).2 = keyView s := by
  unfold serveRead
  dsimp only
  (repeat' split) <;> simp

@[simp] theorem keyView_wdataReadOp (s : State) (p : Port) : keyView (wdataReadOp s p).2 = keyView s := by
  unfold wdataReadOp
  (repeat' split) <;> simp

@[simp] theorem keyView_waddrWriteOp (s : State) (p : Port) (high : Bool) (v : Word) :
    keyView (waddrWriteOp s p high v) = keyView s := by simp [waddrWriteOp]

@[simp] theorem keyView_wctlWriteOp (s : State) (p : Port) (v : Word) : keyView (wctlWriteOp s p v) = keyView s := by
  simp [wctlWriteOp]

@[simp] theorem keyView_wdataWriteOp (s : State) (p : Port) (v : Word) :
    keyView (wdataWriteOp s p v) = keyView s := by
  unfold wdataWriteOp
  dsimp only
  (repeat' split) <;> simp

@[simp] theorem keyView_dcommitWrite (s : State) (p : Port) (v : Word) :
    keyView (dcommitWrite s p v) = keyView s := by
  unfold dcommitWrite
  (repeat' split) <;> simp

@[simp] theorem keyView_atagWrite (s : State) (p : Port) (v : Word) : keyView (atagWrite s p v) = keyView s := by
  unfold atagWrite
  (repeat' split) <;> simp

@[simp] theorem keyView_pagePost (s : State) (p : Port) (a : CAddr) (v : Word) :
    keyView (pagePost s p a v) = keyView s := by
  unfold pagePost
  split <;> simp

/-- R118, R119: the access that WAIT# held is performed as it would have been. -/
@[simp] theorem keyView_resumeHeld (s : State) : keyView (resumeHeld s) = keyView s := by
  unfold resumeHeld
  dsimp only
  split
  · rfl
  · have h := keyView_wdataReadOp { s with portP := { s.portP with held := .none } } .portP
    split <;> next heq => simpa [heq] using h
  · simp
  · split <;> simp
  · simp
  · simp

@[simp] theorem keyView_entryServed (s : State) (p : Port) (ups : List Upset) :
    keyView (entryServed s p ups) = keyView s := by
  unfold entryServed
  split <;> simp

@[simp] theorem keyView_entryLeaves (s : State) (p : Port) (ups : List Upset) :
    keyView (entryLeaves s p ups) = keyView s := by
  unfold entryLeaves
  split <;> simp

@[simp] theorem keyView_commitServed (s : State) (p : Port) : keyView (commitServed s p) = keyView s := by
  unfold commitServed
  split <;> simp

@[simp] theorem keyView_frontFreed (s : State) (p : Port) : keyView (frontFreed s p) = keyView s := by
  simp [frontFreed]

@[simp] theorem keyView_commitLeaves (s : State) (p : Port) : keyView (commitLeaves s p) = keyView s := by
  unfold commitLeaves
  split <;> simp

@[simp] theorem keyView_tagServed (s : State) (p : Port) (ups : List Upset) :
    keyView (tagServed s p ups) = keyView s := by
  unfold tagServed
  split <;> simp

@[simp] theorem keyView_tagLeaves (s : State) (p : Port) (ups : List Upset) :
    keyView (tagLeaves s p ups) = keyView s := by
  unfold tagLeaves
  dsimp only
  (repeat' split) <;> simp

@[simp] theorem keyView_loadDone (s : State) (p : Port) (ups : List Upset) :
    keyView (loadDone s p ups) = keyView s := by
  unfold loadDone
  split <;> simp

@[simp] theorem keyView_frontLeaves (s : State) (p : Port) (ups : List Upset) :
    keyView (frontLeaves s p ups) = keyView s := by
  unfold frontLeaves
  split <;> simp

/-! ### What the arbiter grants before an access (R140, R224) -/

@[simp] theorem keyView_windowServed (s : State) (p : Port) : keyView (windowServed s p) = keyView s := by
  unfold windowServed
  split <;> simp

@[simp] theorem keyView_lowServed (s : State) (lvl : Nat) : keyView (lowServed s lvl) = keyView s := by
  unfold lowServed
  (repeat' split) <;> simp

@[simp] theorem keyView_servedFirst (own : Grant) (n : Nat) (s : State) :
    keyView (servedFirst own n s) = keyView s := by
  induction n generalizing s with
  | zero => rfl
  | succ n ih =>
    unfold servedFirst
    (repeat' split) <;> simp [ih]

@[simp] theorem keyView_arbWaits (s : State) (own : Grant) : keyView (arbWaits s own) = keyView s :=
  keyView_servedFirst own 32 s

@[simp] theorem keyView_portSReady (n : Nat) (s : State) : keyView (portSReady n s) = keyView s := by
  induction n generalizing s with
  | zero => rfl
  | succ n ih =>
    unfold portSReady
    (repeat' split) <;> simp [ih]

/-- R140: what a capture of Port S waits for leaves the key view. -/
@[simp] theorem keyView_captured (s : State) (p : Port) : keyView (captured s p) = keyView s := by simp [captured]

@[simp] theorem keyView_pageRow (s : State) (p : Port) (a : Nat) (set : Word → Word) :
    keyView (pageRow s p a set) = keyView s := by
  unfold pageRow
  split_ifs
  · rfl
  · simp
  · dsimp only
    split
    · simp
    · split
      · next hserve => simp [keyView_arbServe hserve]
      · simp

/-! ### The Supervisor role -/

theorem isSup_of_keyView {s t : State} (h : keyView t = keyView s) (p : Port) : isSup t p = isSup s p := by
  have hgen : t.pw.gen = s.pw.gen := congrArg KeyView.gen h
  have hppri : t.roles.ppri = s.roles.ppri := congrArg KeyView.ppri h
  simp [isSup, supPort, solo, hgen, hppri]

/-- R140: a capture finds the Supervisor role where it was. -/
@[simp] theorem isSup_captured (s : State) (p q : Port) : isSup (captured s p) q = isSup s q :=
  isSup_of_keyView (keyView_captured s p) q

end Sys2Proof.Machine
end

section
/-! Commits, DLAYER and DBLINK (R100, R140, R180 to R182, R310, R311, R315, R337, O34): the capture of a commit, its
effect bank by bank and layer by layer, and the two plain registers. -/

namespace Sys2Proof.Machine

open Sys2Proof

/-! ### The capture of a commit (R140, R180) -/

section
variable {s c : State} {p : Port} {v w : Word}

/-- The row of a DCOMMIT whose capture finds the state c (R140). -/
theorem exec_dcommit {t : State} (h : reachesRule s p 0x10 v w) (hc : captured (gen1Empty s p 0x10) p = c)
    (hrule : dcommitWrite c p w = t) : exec (.dcommit p v) s = .next t :=
  exec_reach_to rfl h (by rw [hc, hrule])

/-- A commit that its checks let pass waits where its port's buffer has room. -/
theorem dcommitWrite_free (hpass : commitRefusal c p w = none) (hroom : (getPort c p).buf.length < 32)
    (hpage : pageMode c p = false) : dcommitWrite c p w = pushEntry c p (.dcommit w) := by
  rw [dcommitWrite, hpass, roomFor_free hroom]
  exact pageLost_noPage (by rw [pageMode_pushEntry, hpage])

theorem dcommitWrite_refused {e : Byte} (hrefused : commitRefusal c p w = some e) (hpage : pageMode c p = false) :
    dcommitWrite c p w = refuse c p e 0x20 := by
  rw [dcommitWrite, hrefused]
  exact pageLost_noPage (by rw [pageMode_refuse, hpage])

/-- R180: a Tell-tale commit is the Supervisor's. -/
theorem commitRefusal_owner (htt : bit w 4 = true) (hsup : isSup c p = false) : commitRefusal c p w = some eOWNER :=
  if_pos ⟨htt, by simp [hsup]⟩

end

/-! ### The effect of a commit (R310, R311, R337) -/

/-- A commit changes its bank alone. -/
theorem commitBank_frame (s : State) (b : Bank) (v : Word) :
    commitBank s b v = setBank s b (getBank (commitBank s b v) b) := by
  unfold commitBank
  dsimp only
  split
  · rw [getBank_setBank]
  · rw [commitPlaced_bank, getBank_setBank]

theorem onBank_commitBank (s : State) (b : Bank) (v : Word) : OnBank s b (commitBank s b v) := by
  rw [commitBank_frame]
  exact onBank_setBank s b _

theorem commitsWait_congr {s t : State} {b : Bank} (hbank : getBank t b = getBank s b) (hpw : t.pw = s.pw)
    (hnow : t.now = s.now) : commitsWait t b = commitsWait s b := by
  simp only [commitsWait, slotsRun, slotDueNow, hbank, hpw, hnow]

/-- What a commit makes of its bank asks for that bank, the mode and the time alone. -/
theorem commitBank_congr {s t : State} {b : Bank} (v : Word) (hbank : getBank t b = getBank s b) (hpw : t.pw = s.pw)
    (hnow : t.now = s.now) : getBank (commitBank t b v) b = getBank (commitBank s b v) b := by
  have hrun : slotsRun t = slotsRun s := by simp only [slotsRun, hpw]
  have hstand : slotsStand t = slotsStand s := funext fun d => by simp only [slotsStand, hrun]
  have hplaced : getBank (commitPlaced t b v) b = getBank (commitPlaced s b v) b := by
    simp only [commitPlaced, hstand, hbank, getBank_setBank]
  unfold commitBank
  simp only [commitsWait_congr hbank hpw hnow, hbank]
  split
  · rw [getBank_setBank, getBank_setBank]
  · exact hplaced

/-- R180: a commit takes effect on each bank that it names, by itself. -/
theorem getBank_commitEffect (s : State) (v : Word) (b : Bank) :
    getBank (commitEffect s v) b = if bit v (5 + b.num) then getBank (commitBank s b v) b else getBank s b := by
  have hA := onBank_commitBank s .bankA v
  unfold commitEffect
  cases b with
  | bankA =>
    have hkeep (u : State) : getBank (if bit v 6 then commitBank u .bankB v else u) .bankA = getBank u .bankA := by
      split
      · exact (onBank_commitBank u .bankB v).other (by decide)
      · rfl
    rw [hkeep, apply_ite (getBank · .bankA)]
    rfl
  | bankB =>
    have hkeep : ∀ u, u = (if bit v 5 then commitBank s .bankA v else s) → getBank u .bankB = getBank s .bankB ∧
        u.pw = s.pw ∧ u.now = s.now := by
      rintro u rfl
      split
      · exact ⟨hA.other (by decide), hA.pw, by rw [hA]; rfl⟩
      · exact ⟨rfl, rfl, rfl⟩
    dsimp only
    obtain ⟨hbank, hpw, hnow⟩ := hkeep _ rfl
    generalize (if bit v 5 = true then commitBank s .bankA v else s) = u at hbank hpw hnow
    rw [apply_ite (getBank · .bankB), commitBank_congr v hbank hpw hnow, hbank]
    rfl

/-- A commit changes the banks alone. -/
theorem commitEffect_frame (s : State) (v : Word) : ∃ x y, commitEffect s v = { s with bankA := x, bankB := y } := by
  have hbank (b : Bank) (u : State) (h : ∃ x y, u = { s with bankA := x, bankB := y }) :
      ∃ x y, commitBank u b v = { s with bankA := x, bankB := y } := by
    obtain ⟨x, y, rfl⟩ := h
    rw [commitBank_frame]
    cases b
    · exact ⟨_, _, rfl⟩
    · exact ⟨_, _, rfl⟩
  unfold commitEffect
  dsimp only
  have hA : ∃ x y, (if bit v 5 then commitBank s .bankA v else s) = { s with bankA := x, bankB := y } := by
    split
    · exact hbank .bankA s ⟨_, _, rfl⟩
    · exact ⟨_, _, rfl⟩
  split
  · exact hbank .bankB _ hA
  · exact hA

/-- R311, R337: a commit waits behind a flush, in the cycle in which a slot begins, and behind commits that wait. -/
theorem commitBank_waits {s : State} {b : Bank} {v : Word} (h : commitsWait s b = true ∨ (getBank s b).held ≠ []) :
    getBank (commitBank s b v) b = { getBank s b with held := (getBank s b).held ++ [v] } := by
  have hcond : (commitsWait s b || !(getBank s b).held.isEmpty) = true := by
    rcases h with h | h
    · simp [h]
    · simp [h]
  rw [commitBank, if_pos hcond, getBank_setBank]

theorem commitBank_placed {s : State} {b : Bank} {v : Word} (hwait : commitsWait s b = false)
    (hheld : (getBank s b).held = []) : commitBank s b v = commitPlaced s b v :=
  if_neg (by simp [hwait, hheld])

theorem commitsWait_iff (s : State) (b : Bank) : commitsWait s b = true ↔
    (getBank s b).drv.flushing = true ∨ (slotsRun s = true ∧ slotDueNow s b = true) := by simp [commitsWait]

/-- COMMIT_EFFECT with the clocks running and no access held: the front entry leaves and its commit takes effect. -/
theorem commitLeaves_front {s : State} {p : Port} {v : Word} {rest : List BufEntry}
    (hbuf : (getPort s p).buf = .dcommit v :: rest) (hdom : domains s = true) (hheld : s.portP.held = .none) :
    commitLeaves s p = commitEffect (popEntry s p rest) v := by
  have hnone : (commitEffect (popEntry s p rest) v).portP.held = .none := by
    obtain ⟨x, y, heq⟩ := commitEffect_frame (popEntry s p rest) v
    rw [heq]
    have hpop : (popEntry s p rest).portP.held = s.portP.held := held_setPort rfl
    exact hpop.trans hheld
  rw [commitLeaves, hbuf]
  simp only [hdom, if_true, commitServed, hbuf]
  exact resumeHeld_none hnone

/-! ### DLAYER (R181) -/

/-- A layer with the flags written 1 cleared. -/
def flagsCleared (y : LayerSt) (w : Word) : LayerSt :=
  { y with late := y.late && !bit w 5, super := y.super && !bit w 6, coal := y.coal && !bit w 7 }

theorem dlayerWrite_layer {s : State} {p : Port} {w : Word} (h : fld w 0 3 ≤ 4) : dlayerWrite s p w =
    { setBank s (Bank.ofBit (bit w 3)) (setLayer (getBank s (Bank.ofBit (bit w 3))) (fld w 0 3)
        (flagsCleared (getLayer (getBank s (Bank.ofBit (bit w 3))) (fld w 0 3)) w)) with
      disp := { s.disp with viewLayer := fld w 0 3, viewBank := Bank.ofBit (bit w 3) } } := by
  refine (if_neg (by omega)).trans ?_
  cases bit w 3 <;> rfl

/-! ### The statement -/

/-- Settles O34: a commit waits in its port's buffer, acts on each bank by what holds it there, and the two registers take
their fields. -/
theorem commitsLayersAndBlink : Obligations.CommitsLayersAndBlink := by
  unfold Obligations.CommitsLayersAndBlink
  refine ⟨⟨?capture, ?owner, ?effect⟩, ?layer, ?range, ?blink⟩
  case capture =>
    intro p v w s c h hc hpass hroom hpage
    exact exec_dcommit h hc (dcommitWrite_free hpass hroom hpage)
  case owner =>
    intro p v w s c h hc htt hsup hpage
    have hsupC : isSup c p = false := by rw [← hc, isSup_captured, isSup_gen1Empty, hsup]
    exact exec_dcommit h hc (dcommitWrite_refused (commitRefusal_owner htt hsupC) hpage)
  case effect =>
    intro p v rest s hbuf hdom hheld
    obtain ⟨x, y, heq⟩ := commitEffect_frame (popEntry s p rest) v
    have hpop (b : Bank) : getBank (popEntry s p rest) b = getBank s b := getBank_setPort s p _ b
    have hpw : (popEntry s p rest).pw = s.pw := setPort_pw s p _
    have hnow : (popEntry s p rest).now = s.now := setPort_now s p _
    have hbank (b : Bank) : getBank (commitEffect (popEntry s p rest) v) b =
        if bit v (5 + b.num) then getBank (commitBank s b v) b else getBank s b := by
      rw [getBank_commitEffect, commitBank_congr v (hpop b) hpw hnow, hpop]
    refine ⟨_, congrArg Host.Outcome.next (commitLeaves_front hbuf hdom hheld), ?_, ?_, ?_, ?_, fun b => ⟨fun hb => ?_,
      fun hb hwait => ?_, commitsWait_iff s b, fun hb hwait hheldB l hl => ?_⟩⟩
    · rw [heq]
      have hport : getPort (popEntry s p rest) p = _ := getPort_setPort s p _
      cases p <;> exact congrArg PortSt.buf hport
    · rw [heq]; exact setPort_mem s p _
    · rw [heq]; exact setPort_irqStat s p _
    · rw [heq]; exact setPort_err s p _
    · rw [hbank, hb]; rfl
    · rw [hbank, if_pos hb, commitBank_waits hwait]
    · rw [hbank, if_pos hb, commitBank_placed hwait hheldB, commitPlaced_layer s b v hl, slotsStand]
      cases slotsRun s <;> rfl
  case layer =>
    intro p v w s h hle
    generalize hb : Bank.ofBit (bit w 3) = b
    generalize hx : setLayer (getBank (gen1Empty s p 0x11) b) (fld w 0 3)
      (flagsCleared (getLayer (getBank (gen1Empty s p 0x11) b) (fld w 0 3)) w) = x
    have hrule := dlayerWrite_layer (s := gen1Empty s p 0x11) (p := p) hle
    rw [hb, hx, gen1Empty_disp] at hrule
    rw [getBank_gen1Empty] at hx
    refine ⟨_, b, exec_reach_to rfl h hrule, rfl, ?_⟩
    generalize ht : ({ setBank (gen1Empty s p 0x11) b x with
      disp := { s.disp with viewLayer := fld w 0 3, viewBank := b } } : State) = t
    have hbank : getBank t b = x := by rw [← ht]; cases b <;> rfl
    rw [hbank, ← ht, ← hx]
    refine ⟨rfl, setLayer_frame .., fun l hl hne => getLayer_setLayer_ne _ hl hne _, getLayer_setLayer _ (by omega) _⟩
  case range => exact fun p v w s h hlt => exec_reach_to rfl h (if_pos hlt)
  case blink => exact fun p v w s h => exec_reach_to rfl h (by rw [dblinkWrite, gen1Empty_disp])

end Sys2Proof.Machine
end

section
/-! KCTL, the key counters, KEVT and the Key log (R185, R187, R350 to R359, O38): a page word that is granted at once, the
clear in each part of a scan, writes of the cycle in which a full scan begins, and the bytes of a log entry. -/

namespace Sys2Proof.Machine

open Sys2Proof

/-! ### A page word that is granted at once (R115, R221) -/

/-- The word of a page row that passes its checks is captured and stored in the state of the grant. -/
theorem pageRow_accepted {s u : State} {p : Port} {a : Nat} {set : Word → Word} (h : pageAccepted s u p a set) :
    pageRow s p a set =
      winStore (grantL1 (keysCapture u a (set (pg u a &&& wordOf (pageWord a).stored))) p) a
        (set (pg u a &&& wordOf (pageWord a).stored)) := by
  obtain ⟨⟨hlive, hface⟩, hbuf, hserve, hpass⟩ := h
  have hpg : pg u a = pg (pageCaptured s p) a := by
    rw [arbServe_frame hserve]
    rfl
  rw [hpg]
  unfold pageCaptured at hbuf hserve hpass ⊢
  simp only [pageRow, hlive, hface, hpass, hbuf, hserve, Bool.not_true, Bool.false_eq_true, reduceCtorEq, if_false]

/-! ### The capture and the store of the keys page (R356, R359) -/

theorem keepSettings_keys (s : State) : ∃ W, keepSettings s =
    { s with keys := { s.keys with regAt := some s.now, was := W } } := by
  unfold keepSettings
  split
  · next h =>
    refine ⟨s.keys.was, ?_⟩
    rw [← h]
  · exact ⟨_, rfl⟩

/-- A word of the keys page that is captured while no other waits. -/
theorem keysCapture_alone {s : State} {a : Nat} (v : Word) (ha : keysWord a = true) (hcapt : s.keys.capt = []) :
    ∃ W, keysCapture s a v =
      { s with keys := { s.keys with regAt := some s.now, was := W, capt := [(s.now, a, v)] } } := by
  obtain ⟨W, hkept⟩ := keepSettings_keys s
  refine ⟨W, ?_⟩
  simp only [keysCapture, ha, if_true, hkept, hcapt, List.filter_nil, List.nil_append]

/-- The machine whose captured word is being stored. -/
def captTaken (s : State) : State := { s with keys := { s.keys with capt := [] } }

/-- A word of the keys page's first address that was captured in this cycle is stored: it waits for the next full scan
where the present one began in the cycle. -/
theorem keysStore_captured {s : State} {v : Word} (stored : Word) (hcapt : s.keys.capt = [(s.now, 0xCC00, v)]) :
    keysStore s 0xCC00 v stored =
      let t := storeWord (captTaken s) 0xCC00 stored
      if s.keys.scanAt = some s.now ∧ s.keys.boot = 0 then
        { t with keys := { t.keys with logHold := some (logEnabled s), clr := t.keys.clr || bit v 3 } }
      else if bit v 3 then keyCountersClear { t with keys := { t.keys with
        logHold := none, was := { t.keys.was with cleared := true } } }
      else { t with keys := { t.keys with logHold := none } } := by
  rcases hscan : s.keys.scanAt with _ | c
  · simp [keysStore, captTaken, hscan, hcapt]
  · by_cases hnow : c = s.now
    · subst hnow
      simp [keysStore, captTaken, hscan, hcapt]
    · simp [keysStore, captTaken, hscan, hcapt, hnow]

/-- The Trellis behind a CNTCLR that was captured in this cycle (R352, R356, R359). -/
def keysCleared (s : State) : Keys :=
  let k := { s.keys with capt := [] }
  let w := { k.was with cleared := true }
  if s.keys.scanAt = some s.now ∧ s.keys.boot = 0 then { k with logHold := some (logEnabled s), clr := true }
  else if 0 < s.keys.boot then { k with was := w, logHold := none, clr := true }
  else { k with was := w, logHold := none, ovfCnt := 0, logWrap := 0, ghostCnt := 0, clr := false }

theorem keys_storeWord (s : State) (a : Nat) (v : Word) : (storeWord s a v).keys = s.keys := by rw [storeWord_frame]

/-- A captured CNTCLR clears the counters, or waits for the end of the boot scan or for the next full scan. -/
theorem keysStore_cleared {s : State} {v : Word} (stored : Word) (hcapt : s.keys.capt = [(s.now, 0xCC00, v)])
    (hclr : bit v 3 = true) : (keysStore s 0xCC00 v stored).keys = keysCleared s ∧
      (keysStore s 0xCC00 v stored).mem = Cellar.setWord s.mem 0xCC00 stored := by
  have hkeys := keys_storeWord (captTaken s) 0xCC00 stored
  have hmem := mem_storeWord (captTaken s) 0xCC00 stored
  rw [keysStore_captured stored hcapt]
  generalize storeWord (captTaken s) 0xCC00 stored = t at hkeys hmem
  simp only [hclr, if_true, hkeys, Bool.or_true, keysCleared, keyCountersClear, countersZero, captTaken]
  split
  · exact ⟨rfl, hmem⟩
  · split
    · exact ⟨rfl, hmem⟩
    · exact ⟨rfl, hmem⟩

/-- A write to the first word of the keys page reaches its store. -/
theorem winStore_keys (s : State) (v : Word) :
    winStore s 0xCC00 v = keysStore s 0xCC00 v (v &&& wordOf (pageWord 0xCC00).stored) := by
  have hpage : isPage 0xCC00 = true := by decide
  have hstored : ¬((pageWord 0xCC00).stored = 0 ∧ (pageWord 0xCC00).ro = 0xFFFF) := by decide
  have hkeys : keysWord 0xCC00 = true := by decide
  refine (if_pos hpage).trans ((if_neg hstored).trans ((if_neg (by decide)).trans (if_pos hkeys)))

/-- CNTCLR of the keys page, granted at once. -/
theorem keysCleared_accepted {s u : State} {p : Port} (h : pageAccepted s u p 0xCC00 (fun w => w ||| 8))
    (hcapt : u.keys.capt = []) : ∃ W v, (pageRow s p 0xCC00 (fun w => w ||| 8)).keys = keysCleared
        { u with keys := { u.keys with regAt := some u.now, was := W } } ∧
      (pageRow s p 0xCC00 (fun w => w ||| 8)).mem = Cellar.setWord u.mem 0xCC00 v := by
  rw [pageRow_accepted h, winStore_keys]
  generalize hv : (pg u 0xCC00 &&& wordOf (pageWord 0xCC00).stored) ||| 8 = v
  have hbit : bit v 3 = true := by
    rw [← hv, bit, BitVec.getLsbD_or]
    exact Bool.or_true _
  obtain ⟨W, hcaptured⟩ := keysCapture_alone v (by decide : keysWord 0xCC00 = true) hcapt
  rw [hcaptured]
  obtain ⟨hkeys, hmem⟩ := keysStore_cleared (s := grantL1 { u with keys := { u.keys with
    regAt := some u.now, was := W, capt := [(u.now, 0xCC00, v)] } } p) (v := v)
    (v &&& wordOf (pageWord 0xCC00).stored) (by cases p <;> rfl) hbit
  refine ⟨W, v &&& wordOf (pageWord 0xCC00).stored, hkeys.trans ?_, hmem.trans ?_⟩
  · cases p <;> rfl
  · cases p <;> rfl

/-! ### KCTL (R185, R353, R359) -/

/-- The Trellis behind a KCTL write: what stood is kept, the fields wait for the next scan, and EN acts, or waits where a
full scan began in this cycle. -/
def kctlTaken (s : State) (w : Word) (W : KeysWas) : Keys :=
  let k := { s.keys with
    regAt := some s.now, was := W
    reg := { s.keys.reg with
      diodes := bit w 1, kslot := fld w 2 2, deb := fld w 4 4, lines := fld w 8 4, kins := fld w 12 3 } }
  if s.keys.scanAt = some s.now ∧ s.keys.boot = 0 ∧ s.keys.en then
    { k with enNext := if bit w 0 then none else some false }
  else keysEnable k (bit w 0)

theorem kctlWrite_taken {s : State} {p : Port} {w : Word} (h2 : 2 ≤ fld w 4 4) (h8 : fld w 4 4 ≤ 8) {W : KeysWas}
    (hkept : keepSettings s = { s with keys := { s.keys with regAt := some s.now, was := W } }) :
    kctlWrite s p w = { s with keys := kctlTaken s w W } := by
  refine (if_neg (by omega)).trans ?_
  rw [hkept]
  unfold kctlTaken
  dsimp only
  split
  · rfl
  · rfl

/-! ### The first key slot of a full scan (R342, R356, R359) -/

/-- What a key slot takes of the settings: those in force, EN with its wait, the start of the scan and the boot scan. -/
structure ScanView where
  cur : KeySet
  en : Bool
  enNext : Option Bool
  scanAt : Option Nat
  boot : Nat

/-- The scan view of the Trellis. -/
def scanView (k : Keys) : ScanView := ⟨k.cur, k.en, k.enNext, k.scanAt, k.boot⟩

theorem scanView_keyPush (s : State) (e : Word) : scanView (keyPush s e).keys = scanView s.keys := by
  unfold keyPush
  dsimp only
  split
  · rfl
  · split
    · rfl
    · rfl

theorem scanView_reportKey (s : State) (old : BitVec 128) (l r : Nat) :
    scanView (reportKey s old l r).keys = scanView s.keys := by
  unfold reportKey
  dsimp only
  split
  · split
    · exact scanView_keyPush _ _
    · exact scanView_keyPush _ _
  · split
    · exact scanView_keyPush _ _
    · split
      · exact scanView_keyPush _ _
      · rfl

theorem scanView_sampleLine (k : Keys) (l : Nat) (ret : Byte) : scanView (sampleLine k l ret) = scanView k := by
  unfold sampleLine
  generalize List.range (k.cur.kins + 1) = rs
  induction rs generalizing k with
  | nil => rfl
  | cons r rs ih => exact ih _

theorem scanView_scanLine (s : State) (ret : Byte) : scanView (scanLine s ret).keys = scanView s.keys := by
  have hfold (old : BitVec 128) (l : Nat) (rs : List Nat) (t : State) :
      scanView (rs.foldl (fun s r => reportKey s old l r) t).keys = scanView t.keys := by
    induction rs generalizing t with
    | nil => rfl
    | cons r rs ih => exact (ih _).trans (scanView_reportKey t old l r)
  exact (hfold _ _ _ _).trans (scanView_sampleLine _ _ _)

/-- Outside the boot scan a line's end leaves the settings. -/
theorem scanView_scanStep {s : State} (h : s.keys.boot = 0) : scanView (scanStep s).keys = scanView s.keys := by
  unfold scanStep
  simp only [h]
  split
  · simp [scanView, h]
  · simp [scanView, h]

theorem keys_bookKey (s : State) (K cycles : Nat) : (bookKey s K cycles).keys = s.keys := by
  unfold bookKey
  dsimp only
  split
  · rfl
  · rfl

/-- A whole key slot outside the boot scan leaves the settings with which it began. -/
theorem scanView_keySlotRuns {s : State} (ret : Byte) (h : s.keys.boot = 0) :
    scanView (keySlotRuns s ret none).keys = scanView s.keys := by
  have hline : scanView (scanLine (bookKey s (keyCycles s.keys.cur.kslot) (keyCycles s.keys.cur.kslot)) ret).keys =
      scanView s.keys := (scanView_scanLine _ ret).trans (congrArg scanView (keys_bookKey s _ _))
  unfold keySlotRuns
  dsimp only
  generalize scanLine (bookKey s (keyCycles s.keys.cur.kslot) (keyCycles s.keys.cur.kslot)) ret = t at hline
  have hboot : t.keys.boot = 0 := (congrArg ScanView.boot hline).trans h
  split
  · exact (scanView_scanStep (s := passBegins t .bankA false) hboot).trans hline
  · exact (scanView_scanStep hboot).trans hline

/-- The end of the waits of the full scan before, with nothing that waits but the counters. -/
theorem waitsEnd_keys {s : State} (h : s.keys.enNext = none) : (waitsEnd s).keys.en = s.keys.en ∧
    (waitsEnd s).keys.enNext = none ∧ (waitsEnd s).keys.was = s.keys.was ∧ (waitsEnd s).keys.regAt = s.keys.regAt ∧
    (waitsEnd s).keys.boot = s.keys.boot := by
  have hclr : (if s.keys.clr then countersZero s.keys else s.keys).en = s.keys.en ∧
      (if s.keys.clr then countersZero s.keys else s.keys).enNext = s.keys.enNext ∧
      (if s.keys.clr then countersZero s.keys else s.keys).was = s.keys.was ∧
      (if s.keys.clr then countersZero s.keys else s.keys).regAt = s.keys.regAt ∧
      (if s.keys.clr then countersZero s.keys else s.keys).boot = s.keys.boot := by
    split
    · exact ⟨rfl, rfl, rfl, rfl, rfl⟩
    · exact ⟨rfl, rfl, rfl, rfl, rfl⟩
  unfold waitsEnd
  dsimp only
  generalize (if s.keys.clr = true then countersZero s.keys else s.keys) = k at hclr
  obtain ⟨hen, hnext, hwas, hreg, hboot⟩ := hclr
  rw [h] at hnext
  split
  · exact ⟨by rw [hnext]; exact hen, rfl, hwas, hreg, hboot⟩
  · exact ⟨by rw [hnext]; exact hen, rfl, hwas, hreg, hboot⟩

/-- R359: where KCTL was written in the cycle in which the first slot of a full scan begins, EN and the place of the scan
are put back, and the settings are those that stood. -/
theorem slotMeets_written {s : State} (hboot : s.keys.boot = 0) (hreg : s.keys.regAt = some s.now)
    (hline : s.keys.was.line = 0) (hen : s.keys.was.en = true) (hnext : s.keys.enNext = none) :
    ∃ k, slotMeets s = { s with keys := k } ∧ k.en = true ∧ k.due = s.keys.was.due ∧ k.line = 0 ∧ k.boot = 0 ∧
      k.regAt = some s.now ∧ k.was = s.keys.was ∧ k.enNext = if s.keys.en then none else some false := by
  obtain ⟨hwen, hwnext, hwwas, hwreg, hwboot⟩ := waitsEnd_keys hnext
  have hmeets : slotMeets s = writesWait (waitsEnd s) := if_pos ⟨hboot, hreg, hline, hen⟩
  have hframe : waitsEnd s = { s with keys := (waitsEnd s).keys } := rfl
  refine ⟨(writesWait (waitsEnd s)).keys, by rw [hmeets]; rfl, ?_, ?_, ?_, hwboot.trans hboot, hwreg.trans hreg, hwwas, ?_⟩
  · exact (congrArg KeysWas.en hwwas).trans hen
  · exact congrArg KeysWas.due hwwas
  · exact (congrArg KeysWas.line hwwas).trans hline
  · show (if (waitsEnd s).keys.en = (waitsEnd s).keys.was.en then _ else _) = _
    rw [hwen, hwwas, hen, hwnext]
    cases s.keys.en <;> rfl

/-- The slot that begins a full scan in a cycle of writes takes the settings that stood. -/
theorem slotBegun_written {s : State} {k : Keys} (hmeets : slotMeets s = { s with keys := k }) (hline : k.line = 0)
    (hboot : k.boot = 0) (hreg : k.regAt = some s.now) :
    scanView (slotBegun s).keys = ⟨k.was.set, k.en, k.enNext, some s.now, 0⟩ := by
  unfold slotBegun
  rw [hmeets]
  simp only [loadScan, hline, hboot, hreg, and_self, if_true, scanView, takeSettings]

/-- Whether a key slot begins asks for the mode, EN and the boot scan, the common slot and bank A's state. -/
theorem slotBegins_congr {s t : State} (hpw : t.pw = s.pw) (hbank : t.bankA = s.bankA)
    (hscan : scanning t.keys = scanning s.keys) (hdue : t.keys.due = s.keys.due) : slotBegins t = slotBegins s := by
  simp only [slotBegins, slotsRun, hpw, hbank, hscan, hdue]

/-- The machine in which a KCTL write finds nothing kept of this cycle. -/
def kctlKept (s : State) : State := { s with keys := { s.keys with regAt := some s.now, was := keysStand s } }

/-- The Trellis behind a KCTL write in a cycle in which no full scan has begun. -/
theorem kctlTaken_fields {s : State} (w : Word) (W : KeysWas) (hscan : s.keys.scanAt ≠ some s.now) :
    (kctlTaken s w W).en = bit w 0 ∧ (kctlTaken s w W).boot = s.keys.boot ∧
      (kctlTaken s w W).regAt = some s.now ∧ (kctlTaken s w W).was = W ∧ (kctlTaken s w W).enNext = none := by
  unfold kctlTaken
  dsimp only
  rw [if_neg fun h => hscan h.1]
  exact ⟨rfl, rfl, rfl, rfl, rfl⟩

/-- R359: KCTL written in the cycle in which a full scan then begins is not in force in that scan. -/
theorem slot_kctlWritten {s : State} {w : Word} (ret : Byte) (hboot : s.keys.boot = 0) (hline : s.keys.line = 0)
    (hen : s.keys.en = true) (hscan : s.keys.scanAt ≠ some s.now) (hbegins : slotBegins s = true) :
    ∃ r, exec (.keySlot ret none) { s with keys := kctlTaken s w (keysStand s) } = .next r ∧
      scanView r.keys = ⟨keySettings s, true, if bit w 0 then none else some false, some s.now, 0⟩ := by
  obtain ⟨hten, htboot, htreg, htwas, htnext⟩ := kctlTaken_fields w (keysStand s) hscan
  generalize kctlTaken s w (keysStand s) = K at hten htboot htreg htwas htnext
  obtain ⟨k, hmeets, hken, hkdue, hkline, hkboot, hkreg, hkwas, hknext⟩ :=
    slotMeets_written (s := { s with keys := K }) (htboot.trans hboot) htreg ((congrArg KeysWas.line htwas).trans hline)
      ((congrArg KeysWas.en htwas).trans hen) htnext
  have hbegun := slotBegun_written hmeets hkline hkboot hkreg
  have hslot : slotBegins (slotMeets { s with keys := K }) = true := by
    rw [hmeets, ← hbegins]
    exact slotBegins_congr rfl rfl (by simp [scanning, hken, hen]) (hkdue.trans (congrArg KeysWas.due htwas))
  refine ⟨keySlotRuns (slotBegun { s with keys := K }) ret none, congrArg Host.Outcome.next (if_pos hslot), ?_⟩
  rw [scanView_keySlotRuns ret (congrArg ScanView.boot hbegun), hbegun]
  dsimp only at hkwas hknext
  rw [hkwas, htwas, hknext, hken, hten]
  rfl

/-! ### The Key log (Table KEY-4) -/

/-- The bytes of a log entry as one number. -/
def logNum (e : KeyLog) : Nat :=
  e.event.toNat + 2 ^ 16 * e.seq.toNat + 2 ^ 32 * e.scan.toNat + 2 ^ 48 * (e.sub.toNat % 0x8000)
    + 2 ^ 64 * e.secL.toNat + 2 ^ 80 * e.secH.toNat + 2 ^ 96 * e.sta

/-- A word read where n whole ECC words were written is that word of the number written. -/
theorem getWord_storeEcc {s : State} (hwf : Cellar.wf s.mem = true) {w n v i : Nat} (h : 2 * i + 2 ≤ 8 * n) :
    Cellar.getWord (storeEcc s w n v).mem (w + 2 * i) = wordOf (v / 2 ^ (16 * i)) := by
  have hbyte (k : Nat) (hk : k < 8 * n) :
      Cellar.get (storeEcc s w n v).mem (w + k) = BitVec.ofNat 8 (v / 256 ^ k) := by
    rw [storeEcc_get hwf, if_pos ⟨by omega, by omega⟩, Nat.add_sub_cancel_left]
  have hpow : (2 : Nat) ^ (16 * i) = 256 ^ (2 * i) := by
    rw [show (256 : Nat) = 2 ^ 8 by rfl, ← Nat.pow_mul]
    congr 1
    omega
  have hnext : v / 256 ^ (2 * i + 1) = v / 256 ^ (2 * i) / 256 := by rw [Nat.pow_succ, Nat.div_div_eq_div_mul]
  rw [Cellar.getWord, hbyte _ (by omega), Nat.add_assoc, hbyte _ (by omega), hpow, hnext]
  generalize v / 256 ^ (2 * i) = x
  apply BitVec.eq_of_toNat_eq
  simp only [wordOfBytes, wordOf, BitVec.toNat_ofNat]
  omega

/-- The words of a log entry's number. -/
theorem logNum_words (e : KeyLog) : wordOf (logNum e / 2 ^ (16 * 0)) = e.event ∧ wordOf (logNum e / 2 ^ (16 * 1)) = e.seq ∧
    wordOf (logNum e / 2 ^ (16 * 2)) = e.scan ∧ wordOf (logNum e / 2 ^ (16 * 3)) = wordOf (e.sub.toNat % 0x8000) ∧
    wordOf (logNum e / 2 ^ (16 * 4)) = e.secL ∧ wordOf (logNum e / 2 ^ (16 * 5)) = e.secH ∧
    wordOf (logNum e / 2 ^ (16 * 6)) = wordOf e.sta := by
  have h0 := e.event.isLt
  have h1 := e.seq.isLt
  have h2 := e.scan.isLt
  have h4 := e.secL.isLt
  have h5 := e.secH.isLt
  refine ⟨?_, ?_, ?_, ?_, ?_, ?_, ?_⟩
  all_goals
    apply BitVec.eq_of_toNat_eq
    simp only [wordOf, logNum, BitVec.toNat_ofNat]
    omega

/-- The machine in which a granted log entry is written: the entry is gone from the queue, its place marked as used. -/
def logTaken (s : State) (e : KeyLog) (rest : List KeyLog) : State :=
  let i := e.seq.toNat % 1024
  grantLow { s with keys := { s.keys with
    logQ := rest, logged := s.keys.logged ||| 2 ^ i
    logWrap := if s.keys.logged.testBit i then sat1 s.keys.logWrap else s.keys.logWrap } } 5 1

theorem logServed_eq (s : State) (e : KeyLog) (rest : List KeyLog) :
    logServed s e rest = storeEcc (logTaken s e rest) (0x30000 + 16 * (e.seq.toNat % 1024)) 2 (logNum e) := rfl

/-- A granted entry leaves the queue and stands in its place, and no other byte changes (R351). -/
theorem logServed_bytes {s : State} (hwf : Cellar.wf s.mem = true) (e : KeyLog) (rest : List KeyLog) :
    (logServed s e rest).keys.logQ = rest ∧
      onlyBytes s (logServed s e rest) (0x30000 + 16 * (e.seq.toNat % 1024)) 16 ∧
      ∀ i, i < 8 → Cellar.getWord (logServed s e rest).mem (0x30000 + 16 * (e.seq.toNat % 1024) + 2 * i) =
        wordOf (logNum e / 2 ^ (16 * i)) := by
  rw [logServed_eq]
  have hmem : (logTaken s e rest).mem = s.mem := rfl
  have hq : (logTaken s e rest).keys.logQ = rest := rfl
  rw [← hmem] at hwf
  generalize logTaken s e rest = u at hwf hmem hq
  refine ⟨?_, fun x hx => ?_, fun i hi => getWord_storeEcc hwf (by omega)⟩
  · rw [storeEcc_frame]; exact hq
  · rw [storeEcc_get hwf, if_neg (by omega), hmem]

/-! ### The statement -/

/-- Settles O38: KCTL's fields and EN, the clear by the part of the scan, the first slot in a cycle of writes, the FIFO's
oldest event and the entry's bytes. -/
theorem keyScanControlAndKeyEventsLeave : Obligations.KeyScanControlAndKeyEventsLeave := by
  unfold Obligations.KeyScanControlAndKeyEventsLeave
  refine ⟨⟨?fields, ?range, ?clear, ?begins⟩, ?oldest, ?empty, ?log⟩
  case fields =>
    intro p v w s h h2 h8
    obtain ⟨W, hkept⟩ := keepSettings_keys (gen1Empty s p 0x15)
    refine ⟨_, exec_reach_to rfl h (kctlWrite_taken h2 h8 hkept), rfl, ?_⟩
    have hnow : (gen1Empty s p 0x15).now = s.now := gen1Empty_now s p 0x15
    show _ ∧ _
    dsimp only
    unfold kctlTaken
    rw [gen1Empty_keys, hnow]
    by_cases hwaits : s.keys.scanAt = some s.now ∧ s.keys.boot = 0 ∧ s.keys.en = true
    · rw [if_pos hwaits]
      obtain ⟨hscan, hboot, hen⟩ := hwaits
      exact ⟨rfl, rfl, rfl, rfl, rfl, rfl, rfl, rfl, rfl, fun hn => absurd ⟨hscan, hboot, hen⟩ hn,
        fun _ _ _ => ⟨hen, rfl, rfl⟩⟩
    · rw [if_neg hwaits]
      refine ⟨rfl, rfl, rfl, rfl, rfl, rfl, rfl, rfl, rfl, fun _ => ⟨rfl, fun hne hboot => ?_⟩,
        fun h1 h2 h3 => absurd ⟨h1, h2, h3⟩ hwaits⟩
      exact if_pos (decide_eq_true ⟨hne, hboot⟩)
  case range => exact fun p v w s h hdeb => exec_reach_to rfl h (if_pos hdeb)
  case clear =>
    intro p s u h hwf hcapt
    obtain ⟨W, v, hkeys, hmem⟩ := keysCleared_accepted h hcapt
    have hrow : exec (.keyCounterClear p) s = .next (pageRow s p 0xCC00 (fun w => w ||| 8)) := rfl
    generalize pageRow s p 0xCC00 (fun w => w ||| 8) = t at hkeys hmem hrow
    refine ⟨t, hrow, fun x hx => ?_, fun hboot hscan => ?_, fun hboot hscan => ?_, fun hboot => ?_⟩
    · rw [hmem, Cellar.get_setWord_ne _ _ hx]
    · simp [hkeys, keysCleared, hboot, hscan, hcapt]
    · simp [hkeys, keysCleared, hboot, hscan, hcapt]
    · simp [hkeys, keysCleared, hboot, hboot.ne', hcapt]
  case begins =>
    intro p v w ret s h h2 h8 hboot hline hen hscan hreg hnext _ hbegins
    have hset : keySettings (gen1Empty s p 0x15) = keySettings s := by simp [keySettings, pgf, pg]
    obtain ⟨r, hslot, hview⟩ := slot_kctlWritten (s := gen1Empty s p 0x15) (w := w) ret (by rw [gen1Empty_keys, hboot])
      (by rw [gen1Empty_keys, hline]) (by rw [gen1Empty_keys, hen])
      (by rw [gen1Empty_keys, gen1Empty_now]; exact hscan)
      (by rw [← hbegins]; exact slotBegins_congr (by simp) (by simp) (by simp) (by simp))
    have hkept : keepSettings (gen1Empty s p 0x15) = kctlKept (gen1Empty s p 0x15) := if_neg (by simpa using hreg)
    have hrow := exec_reach_to (i := .kctlWrite p v) rfl h (kctlWrite_taken (p := p) h2 h8 hkept)
    rw [hset, gen1Empty_now] at hview
    exact ⟨_, r, hrow, hslot, congrArg ScanView.cur hview, congrArg ScanView.en hview,
      congrArg ScanView.enNext hview, congrArg ScanView.scanAt hview⟩
  case oldest =>
    intro p e rest s h hfifo
    have hop : kevtReadOp s = (e, { s with keys := { s.keys with
        fifo := rest, ovfEnd := if keyType e = tMARKER then s.keys.seqNext else s.keys.ovfEnd } }) := by
      rw [kevtReadOp, hfifo]
    generalize hu : ({ s with keys := { s.keys with
      fifo := rest, ovfEnd := if keyType e = tMARKER then s.keys.seqNext else s.keys.ovfEnd } } : State) = u at hop
    have hkeys : (readDone u p 0x17 e).keys = u.keys := by rw [readDone_frame, setPort_keys]
    refine ⟨_, congrArg Host.Outcome.next ((readGate_read h).trans (by rw [hop])), ?_, ?_, ?_, ?_⟩
    · rw [hkeys]
      refine (readDone_frame u p 0x17 e).trans ?_
      rw [← hu]
      cases p <;> rfl
    · exact rdata_readDone fun _ => by rw [← hu]
    · rw [hkeys, ← hu]
    · rw [hkeys, ← hu]
  case empty =>
    intro p s h hfifo
    have hop : kevtReadOp s = (0, s) := by rw [kevtReadOp, hfifo]
    refine ⟨_, congrArg Host.Outcome.next ((readGate_read h).trans (by rw [hop])), readDone_frame s p 0x17 0, ?_⟩
    rw [readDone_rdata]
    exact ite_self _
  case log =>
    intro e rest s u hq hdom hserve hwf
    have hmem : u.mem = s.mem := by rw [arbServe_frame hserve]
    rw [← hmem] at hwf
    obtain ⟨hleft, hbytes, hwords⟩ := logServed_bytes hwf e rest
    obtain ⟨h0, h1, h2, h3, h4, h5, h6⟩ := logNum_words e
    have hrow : keyLogWrites s = logServed u e rest := by
      rw [keyLogWrites, hq]
      simp only [hdom, if_true, granted_of hserve]
    refine ⟨_, _, congrArg Host.Outcome.next hrow, rfl, hleft, fun x hx => ?_, (hwords 0 (by omega)).trans h0,
      (hwords 1 (by omega)).trans h1, (hwords 2 (by omega)).trans h2, (hwords 3 (by omega)).trans h3,
      (hwords 4 (by omega)).trans h4, (hwords 6 (by omega)).trans h6, (hwords 5 (by omega)).trans h5⟩
    rw [hbytes x hx, hmem]

end Sys2Proof.Machine
end

section
/-! Lamp channels that follow their requests (R188, R364, R380, R383): what a request asks for, the settings that no
switching changes, and where each channel ends. -/

namespace Sys2Proof.Machine

open Sys2Proof

/-! ### What a channel keeps -/

/-- The part of a channel that its switching leaves: its settings, its fault and its retries. -/
structure LampView where
  gang : Bool
  flash : Bool
  retry : Nat
  flt : Bool
  causes : BitVec 8
  senseless : Bool
  rleft : Nat

/-- The view of a channel. -/
def lampView (c : Lamp) : LampView := ⟨c.gang, c.flash, c.retry, c.flt, c.causes, c.senseless, c.rleft⟩

/-- What a channel's request asks for beside its own settings (Table LMP-1, R364). -/
structure ReqView where
  allowed : Bool
  fallbk : Bool
  lctl : Word
  flOut : Bool
  claim : BitVec 8
  mode : Word
  fb : Word
  gang : Fin 8 → Bool
  flash : Fin 8 → Bool

/-- The request view of a machine. -/
def reqView (s : State) : ReqView :=
  ⟨lampsAllowed s, s.roles.fallbk, s.lamps.lctl, s.lamps.flOut, s.lamps.ttClaim, s.lamps.ttMode, s.lamps.ttFb,
    fun n => (getLamp s n).gang, fun n => (getLamp s n).flash⟩

theorem leader_of_reqView {s t : State} (h : reqView t = reqView s) (n : Fin 8) : leader t n = leader s n := by
  have hgang : (getLamp t (evenOf n)).gang = (getLamp s (evenOf n)).gang := congrFun (congrArg ReqView.gang h) _
  rw [leader, leader, ganged, ganged, hgang]

/-- A channel's effective request asks for nothing but the request view. -/
theorem effReq_of_reqView {s t : State} (h : reqView t = reqView s) (n : Fin 8) : effReq t n = effReq s n := by
  have hallowed : lampsAllowed t = lampsAllowed s := congrArg ReqView.allowed h
  have hfallbk : t.roles.fallbk = s.roles.fallbk := congrArg ReqView.fallbk h
  have hlctl : t.lamps.lctl = s.lamps.lctl := congrArg ReqView.lctl h
  have hout : t.lamps.flOut = s.lamps.flOut := congrArg ReqView.flOut h
  have hclaim : t.lamps.ttClaim = s.lamps.ttClaim := congrArg ReqView.claim h
  have hmode : t.lamps.ttMode = s.lamps.ttMode := congrArg ReqView.mode h
  have hfb : t.lamps.ttFb = s.lamps.ttFb := congrArg ReqView.fb h
  have hflash (m : Fin 8) : (getLamp t m).flash = (getLamp s m).flash := congrFun (congrArg ReqView.flash h) m
  have hsrc (m : Fin 8) : reqSrc t m = reqSrc s m := by
    simp only [reqSrc, policySrc, plainSrc, claimed, ttModeOf, ttFbOf, hfallbk, hclaim, hmode, hfb, hflash]
    rfl
  simp only [effReq, srcValue, hallowed, hlctl, hout, hsrc, leader_of_reqView h]

/-- A change of the lamps that keeps every channel's gang and flasher settings, LCTL, the flasher and the policy keeps
the requests. -/
theorem reqView_of_lamps {s t : State} (hview : ∀ n, lampView (getLamp t n) = lampView (getLamp s n))
    (hallowed : lampsAllowed t = lampsAllowed s) (hroles : t.roles = s.roles) (hlctl : t.lamps.lctl = s.lamps.lctl)
    (hout : t.lamps.flOut = s.lamps.flOut) (hclaim : t.lamps.ttClaim = s.lamps.ttClaim)
    (hmode : t.lamps.ttMode = s.lamps.ttMode) (hfb : t.lamps.ttFb = s.lamps.ttFb) : reqView t = reqView s := by
  have hgang (n : Fin 8) : (getLamp t n).gang = (getLamp s n).gang := congrArg LampView.gang (hview n)
  have hflash (n : Fin 8) : (getLamp t n).flash = (getLamp s n).flash := congrArg LampView.flash (hview n)
  simp only [reqView, hallowed, hroles, hlctl, hout, hclaim, hmode, hfb, hgang, hflash]

/-- A channel that is set with its view keeps every view. -/
theorem lampView_setLamp {s : State} {n : Fin 8} {c : Lamp} (h : lampView c = lampView (getLamp s n)) (m : Fin 8) :
    lampView (getLamp (setLamp s n c) m) = lampView (getLamp s m) := by
  by_cases hm : m = n
  · subst hm; rw [getLamp_setLamp, h]
  · rw [getLamp_setLamp_ne _ _ _ _ hm]

theorem reqView_setLamp {s : State} {n : Fin 8} {c : Lamp} (h : lampView c = lampView (getLamp s n)) :
    reqView (setLamp s n c) = reqView s :=
  reqView_of_lamps (lampView_setLamp h) rfl rfl rfl rfl rfl rfl rfl

/-! ### A channel follows its request (R364) -/

/-- The state of a channel that follows a request. -/
def followMode : LampMode → Bool → LampMode
  | .off, true => .inrush
  | .inrush, false => .off
  | .on, false => .off
  | .wait, false => .off
  | m, _ => m

/-- Its switch. -/
def followCond (c : Lamp) (req : Bool) : Bool :=
  match c.mode, req with
  | .off, true => true
  | .inrush, false => false
  | .on, false => false
  | .wait, false => false
  | _, _ => c.conducting

theorem followReq_view (s : State) (n m : Fin 8) : lampView (getLamp (followReq s n) m) = lampView (getLamp s m) := by
  unfold followReq
  split
  case h_1 => exact lampView_setLamp (by rfl) m
  case h_5 => rfl
  all_goals exact lampView_setLamp (by rfl) m

theorem followReq_reqView (s : State) (n : Fin 8) : reqView (followReq s n) = reqView s := by
  unfold followReq
  split
  case h_1 => exact reqView_setLamp (by rfl)
  case h_5 => rfl
  all_goals exact reqView_setLamp (by rfl)

theorem followReq_self (s : State) (n : Fin 8) : (getLamp (followReq s n) n).mode = followMode (getLamp s n).mode (effReq s n) ∧
    (getLamp (followReq s n) n).conducting = followCond (getLamp s n) (effReq s n) := by
  unfold followReq followCond
  cases hmode : (getLamp s n).mode <;> cases hreq : effReq s n <;>
    simp [switchOn, switchOff, followMode, hmode]

/-- Channels that follow one after the other leave each other alone. -/
theorem followAll_lamp (l : List (Fin 8)) (hl : l.Nodup) (s : State) (n : Fin 8) :
    reqView (l.foldl followReq s) = reqView s ∧
    lampView (getLamp (l.foldl followReq s) n) = lampView (getLamp s n) ∧
    (getLamp (l.foldl followReq s) n).mode = (if n ∈ l then followMode (getLamp s n).mode (effReq s n)
      else (getLamp s n).mode) ∧
    (getLamp (l.foldl followReq s) n).conducting = (if n ∈ l then followCond (getLamp s n) (effReq s n)
      else (getLamp s n).conducting) := by
  induction l generalizing s with
  | nil => exact ⟨rfl, rfl, rfl, rfl⟩
  | cons m l ih =>
    obtain ⟨hm, hnodup⟩ := List.nodup_cons.mp hl
    obtain ⟨hreq, hview, hmode, hcond⟩ := ih hnodup (followReq s m)
    rw [List.foldl_cons, hreq, hview, hmode, hcond, followReq_reqView, followReq_view,
      effReq_of_reqView (followReq_reqView s m)]
    refine ⟨rfl, rfl, ?_⟩
    by_cases hn : n = m
    · subst hn
      obtain ⟨hself, hselfCond⟩ := followReq_self s n
      simp [hm, hself, hselfCond]
    · rw [followReq_getLamp_ne s hn]
      simp [hn]

/-! ### The lamps settle (R364, R380, R383) -/

theorem flasherFollow_lamp (s : State) (n : Fin 8) : (getLamp (flasherFollow s) n).mode = (getLamp s n).mode ∧
    (getLamp (flasherFollow s) n).conducting = (getLamp s n).conducting ∧
    lampView (getLamp (flasherFollow s) n) = lampView (getLamp s n) := by
  have hmap : (s.lamps.ch.map (fun c => { c with openNow := false }))[n] = { getLamp s n with openNow := false } :=
    Vector.getElem_map _ _
  unfold flasherFollow
  dsimp only
  split
  · split
    · exact ⟨rfl, rfl, rfl⟩
    · simp only [getLamp] at hmap ⊢
      rw [hmap]
      exact ⟨rfl, rfl, rfl⟩
  · exact ⟨rfl, rfl, rfl⟩

/-- R364: when the lamps have settled each channel has followed the request that then stands. -/
theorem lampsSettle_lamp (s : State) (n : Fin 8) :
    lampView (getLamp (lampsSettle s) n) = lampView (getLamp s n) ∧
    (getLamp (lampsSettle s) n).mode = followMode (getLamp s n).mode (effReq (lampsSettle s) n) ∧
    (getLamp (lampsSettle s) n).conducting = followCond (getLamp s n) (effReq (lampsSettle s) n) := by
  obtain ⟨hreq, hview, hmode, hcond⟩ := followAll_lamp (List.finRange 8) (List.nodup_finRange 8) (flasherFollow s) n
  obtain ⟨hfmode, hfcond, hfview⟩ := flasherFollow_lamp s n
  have hsettled : effReq (lampsSettle s) n = effReq (flasherFollow s) n := effReq_of_reqView hreq n
  refine ⟨hview.trans hfview, ?_, ?_⟩
  · rw [hsettled, ← hfmode]
    exact hmode.trans (if_pos (List.mem_finRange n))
  · have hcongr : followCond (getLamp (flasherFollow s) n) (effReq (flasherFollow s) n) =
        followCond (getLamp s n) (effReq (flasherFollow s) n) := by simp only [followCond, hfmode, hfcond]
    rw [hsettled, ← hcongr]
    exact hcond.trans (if_pos (List.mem_finRange n))

/-! ### Channels that run no PWM conduct fully (R376, R380) -/

/-- A channel that conducts fully keeps its state and its view. -/
theorem fullyOn_frame (s : State) : fullyOn s = { s with lamps := (fullyOn s).lamps } := by
  have hfold (l : List (Fin 8)) (t : State) (f : State → Fin 8 → State)
      (hf : ∀ t n, f t n = { t with lamps := (f t n).lamps }) : l.foldl f t = { t with lamps := (l.foldl f t).lamps } := by
    induction l generalizing t with
    | nil => rfl
    | cons n l ih => rw [List.foldl_cons, ih, hf]
  exact hfold _ _ _ fun t n => by
    dsimp only
    split
    · rfl
    · rfl

theorem fullyOn_lamp (s : State) (n : Fin 8) : (getLamp (fullyOn s) n).mode = (getLamp s n).mode ∧
    lampView (getLamp (fullyOn s) n) = lampView (getLamp s n) ∧
    (fullyOn s).lamps.lctl = s.lamps.lctl := by
  unfold fullyOn
  generalize List.finRange 8 = l
  induction l generalizing s with
  | nil => exact ⟨rfl, rfl, rfl⟩
  | cons m l ih =>
    rw [List.foldl_cons]
    obtain ⟨hmode, hview, hlctl⟩ := ih _
    rw [hmode, hview, hlctl]
    dsimp only
    split
    · refine ⟨?_, lampView_setLamp (by rfl) n, rfl⟩
      by_cases hn : n = m
      · subst hn; rw [getLamp_setLamp]
      · rw [getLamp_setLamp_ne _ _ _ _ hn]
    · exact ⟨rfl, rfl, rfl⟩

end Sys2Proof.Machine
end

section
/-! LCTL, LPARAM and LFAULT (R188, R190 to R192, R365, R366, R391, O41): which channels a write moves, the parameters'
refusals, and what the clear of a channel's FLT frees. -/

namespace Sys2Proof.Machine

open Sys2Proof

/-! ### LCTL (R188) -/

section
variable {s : State} {p : Port} {w new : Word}

/-- The write is the port's to make: no bit of a claimed channel changes, or the port is the Supervisor. -/
theorem lctlWrite_kept (hnew : new = (w &&& ~~~ wordOf (gangOdd s)) ||| (s.lamps.lctl &&& wordOf (gangOdd s)))
    (howner : isSup s p = true ∨ (new ^^^ s.lamps.lctl) &&& wordOf (s.lamps.ttClaim.toNat * 0x101) = 0)
    (hstate : s.pw.mode = .standby → new &&& ~~~ s.lamps.lctl &&& 0xFF = 0) :
    lctlWrite s p w = lampsSettle (fullyOn { s with lamps := { s.lamps with lctl := new } }) := by
  subst hnew
  refine (if_neg ?_).trans (if_neg fun h => h.2 (hstate h.1))
  rintro ⟨hsup, hclaimed⟩
  exact howner.elim (fun h => by simp [h] at hsup) hclaimed

theorem lctlWrite_owner (hnew : new = (w &&& ~~~ wordOf (gangOdd s)) ||| (s.lamps.lctl &&& wordOf (gangOdd s)))
    (hsup : isSup s p = false) (hclaimed : (new ^^^ s.lamps.lctl) &&& wordOf (s.lamps.ttClaim.toNat * 0x101) ≠ 0) :
    lctlWrite s p w = refuse s p eOWNER 0x30 := by
  subst hnew
  exact if_pos ⟨by simp [hsup], hclaimed⟩

theorem lctlWrite_state (hnew : new = (w &&& ~~~ wordOf (gangOdd s)) ||| (s.lamps.lctl &&& wordOf (gangOdd s)))
    (howner : isSup s p = true ∨ (new ^^^ s.lamps.lctl) &&& wordOf (s.lamps.ttClaim.toNat * 0x101) = 0)
    (hmode : s.pw.mode = .standby) (hon : new &&& ~~~ s.lamps.lctl &&& 0xFF ≠ 0) :
    lctlWrite s p w = refuse s p eSTATE 0x30 := by
  subst hnew
  refine (if_neg ?_).trans (if_pos ⟨hmode, hon⟩)
  rintro ⟨hsup, hclaimed⟩
  exact howner.elim (fun h => by simp [h] at hsup) hclaimed

end

/-- Lamps that conduct fully and have settled are the machine's only change. -/
theorem settled_frame (s : State) :
    lampsSettle (fullyOn s) = { s with lamps := (lampsSettle (fullyOn s)).lamps } := by
  have h := lampsSettle_frame (fullyOn s)
  generalize lampsSettle (fullyOn s) = t at h
  rw [h, fullyOn_frame]

theorem followCond_rises {c : Lamp} (h : c.mode = .off) : followCond c true = true := by
  simp [followCond, h]

theorem followCond_falls {c : Lamp} (hoff : c.mode ≠ .off) (hlatched : c.mode ≠ .latched) : followCond c false = false := by
  cases hmode : c.mode <;> simp_all [followCond]

theorem followMode_false {m : LampMode} (h : m ≠ .latched) : followMode m false = .off := by
  cases m <;> simp_all [followMode]

theorem followMode_true {m : LampMode} (h : m ≠ .off) : followMode m true = m := by
  cases m <;> simp_all [followMode]

theorem followMode_latched (r : Bool) : followMode .latched r = .latched := by cases r <;> rfl

theorem followMode_ne_latched {m : LampMode} (h : m ≠ .latched) (r : Bool) : followMode m r ≠ .latched := by
  cases m <;> cases r <;> simp_all [followMode]

/-- Each channel of the settled lamps has followed its request. -/
theorem settled_lamp (s : State) (n : Fin 8) :
    lampView (getLamp (lampsSettle (fullyOn s)) n) = lampView (getLamp s n) ∧
    (getLamp (lampsSettle (fullyOn s)) n).mode =
      followMode (getLamp s n).mode (effReq (lampsSettle (fullyOn s)) n) ∧
    ((getLamp s n).mode = .off → effReq (lampsSettle (fullyOn s)) n = true →
      (getLamp (lampsSettle (fullyOn s)) n).conducting = true) ∧
    (effReq (lampsSettle (fullyOn s)) n = false → (getLamp s n).mode ≠ .off → (getLamp s n).mode ≠ .latched →
      (getLamp (lampsSettle (fullyOn s)) n).conducting = false) := by
  obtain ⟨hview, hmode, hcond⟩ := lampsSettle_lamp (fullyOn s) n
  obtain ⟨hfmode, hfview, _⟩ := fullyOn_lamp s n
  refine ⟨hview.trans hfview, by rw [hmode, hfmode], fun hoff hreq => ?_, fun hreq hoff hlatched => ?_⟩
  · rw [hcond, hreq, followCond_rises (hfmode.trans hoff)]
  · rw [hcond, hreq, followCond_falls (by rwa [hfmode]) (by rwa [hfmode])]

/-- What LCTL's bits ask for once the lamps have settled, as the machine's own modes and roles have it. -/
theorem effReq_withLamps {s t : State} (hpw : t.pw = s.pw) (hclk : t.clk = s.clk) (hroles : t.roles = s.roles) (n : Fin 8) :
    effReq { s with lamps := t.lamps } n = effReq t n := by
  refine effReq_of_reqView (reqView_of_lamps (s := t) (t := { s with lamps := t.lamps }) (fun _ => rfl) ?_ hroles.symm rfl
    rfl rfl rfl rfl) n
  simp only [lampsAllowed, lampsHeld, hpw, hclk]

/-! ### LPARAM (R190, R191) -/

section
variable {s : State} {p : Port} {w : Word}

theorem lparamWrite_owner (hclaim : s.lamps.ttClaim.getLsbD s.lamps.selCh.val = true) (hsup : isSup s p = false) :
    lparamWrite s p w = refuse s p eOWNER 0x36 := if_pos ⟨hclaim, by simp [hsup]⟩

variable (howner : s.lamps.ttClaim.getLsbD s.lamps.selCh.val = false ∨ isSup s p = true)
include howner

theorem lparam_owned : ¬(s.lamps.ttClaim.getLsbD s.lamps.selCh.val = true ∧ (!isSup s p) = true) := by
  rintro ⟨hclaim, hsup⟩
  rcases howner with h | h
  · exact Bool.noConfusion (h.symm.trans hclaim)
  · simp [h] at hsup

theorem lparamWrite_range (h : lparamMax s.lamps.selParam < w.toNat ∨
    (s.lamps.selParam = 4 ∧ s.lamps.selCh.val % 2 = 1)) : lparamWrite s p w = refuse s p eRANGE 0x36 :=
  (if_neg (lparam_owned howner)).trans (if_pos h)

theorem lparamWrite_state (hrange : ¬(lparamMax s.lamps.selParam < w.toNat ∨
      (s.lamps.selParam = 4 ∧ s.lamps.selCh.val % 2 = 1))) (hparam : 4 ≤ s.lamps.selParam)
    (hmode : (getLamp s s.lamps.selCh).mode ≠ .off ∨ (getLamp s (pairOf s.lamps.selCh)).mode ≠ .off) :
    lparamWrite s p w = refuse s p eSTATE 0x36 :=
  (if_neg (lparam_owned howner)).trans ((if_neg hrange).trans (if_pos ⟨hparam, hmode⟩))

/-- A value that is accepted goes to the parameter that LSEL names. -/
theorem lparamWrite_taken (hrange : ¬(lparamMax s.lamps.selParam < w.toNat ∨
      (s.lamps.selParam = 4 ∧ s.lamps.selCh.val % 2 = 1)))
    (hstate : ¬(4 ≤ s.lamps.selParam ∧ ((getLamp s s.lamps.selCh).mode ≠ .off ∨
      (getLamp s (pairOf s.lamps.selCh)).mode ≠ .off))) : lparamWrite s p w =
    match s.lamps.selParam with
    | 0 => setLamp s s.lamps.selCh { getLamp s s.lamps.selCh with duty := w.toNat }
    | 1 => setLamp s s.lamps.selCh { getLamp s s.lamps.selCh with pwmf := w.toNat }
    | 2 => setLamp s s.lamps.selCh { getLamp s s.lamps.selCh with inrush := w.toNat }
    | 3 => setLamp s s.lamps.selCh { getLamp s s.lamps.selCh with retry := w.toNat }
    | 4 => lampsSettle (setLamp s s.lamps.selCh { getLamp s s.lamps.selCh with gang := decide (w.toNat = 1) })
    | _ => lampsSettle (setLamp s s.lamps.selCh { getLamp s s.lamps.selCh with flash := decide (w.toNat = 1) }) :=
  (if_neg (lparam_owned howner)).trans ((if_neg hrange).trans (if_neg hstate))

end

/-- A channel set and the lamps settled: the machine's only change, and every view but that channel's as it was. -/
theorem settledSet {s t : State} {n : Fin 8} {c : Lamp} (ht : t = lampsSettle (setLamp s n c)) :
    t = { s with lamps := t.lamps } ∧ lampView (getLamp t n) = lampView c ∧
    ∀ m, m ≠ n → lampView (getLamp t m) = lampView (getLamp s m) := by
  have hframe : t = { setLamp s n c with lamps := t.lamps } := by
    rw [ht]; exact lampsSettle_frame _
  have hview : ∀ m, lampView (getLamp t m) = lampView (getLamp (setLamp s n c) m) := fun m => by
    rw [ht]; exact (lampsSettle_lamp _ m).1
  refine ⟨hframe, (hview n).trans ?_, fun m hm => (hview m).trans ?_⟩
  · rw [getLamp_setLamp]
  · rw [getLamp_setLamp_ne _ _ _ _ hm]

section
variable {s : State} {p : Port} {w : Word}
  (howner : s.lamps.ttClaim.getLsbD s.lamps.selCh.val = false ∨ isSup s p = true)
include howner

/-- R191: duty, PWM frequency, inrush and retry settings are fields of the selected channel. -/
theorem lparamWrite_field (hk : s.lamps.selParam < 4) (hle : w.toNat ≤ lparamMax s.lamps.selParam) :
    lparamWrite s p w = setLamp s s.lamps.selCh
      (match s.lamps.selParam with
        | 0 => { getLamp s s.lamps.selCh with duty := w.toNat }
        | 1 => { getLamp s s.lamps.selCh with pwmf := w.toNat }
        | 2 => { getLamp s s.lamps.selCh with inrush := w.toNat }
        | _ => { getLamp s s.lamps.selCh with retry := w.toNat }) := by
  rw [lparamWrite_taken howner (by omega) (fun hn => by omega)]
  generalize s.lamps.selParam = k at hk
  match k, hk with
  | 0, _ => rfl
  | 1, _ => rfl
  | 2, _ => rfl
  | 3, _ => rfl

variable (hle : w.toNat ≤ 1) (hoff : (getLamp s s.lamps.selCh).mode = .off)
  (hpoff : (getLamp s (pairOf s.lamps.selCh)).mode = .off)
include hle hoff hpoff

/-- FLASH is set in the selected channel, and the lamps settle. -/
theorem lparamWrite_flash (hk : s.lamps.selParam = 5) :
    ∃ t, lparamWrite s p w = t ∧ t = { s with lamps := t.lamps } ∧
      (getLamp t s.lamps.selCh).flash = decide (w.toNat = 1) ∧
      ∀ n, n ≠ s.lamps.selCh → (getLamp t n).flash = (getLamp s n).flash := by
  have hmax : lparamMax s.lamps.selParam = 1 := by rw [hk]; rfl
  have hrow : lparamWrite s p w = lampsSettle (setLamp s s.lamps.selCh
      { getLamp s s.lamps.selCh with flash := decide (w.toNat = 1) }) := by
    rw [lparamWrite_taken howner (by omega) fun hn => hn.2.elim (fun ho => ho hoff) fun ho => ho hpoff]
    generalize s.lamps.selParam = k at hk
    subst hk
    rfl
  obtain ⟨t, ht⟩ : ∃ t, t = lampsSettle (setLamp s s.lamps.selCh
      { getLamp s s.lamps.selCh with flash := decide (w.toNat = 1) }) := ⟨_, rfl⟩
  obtain ⟨hframe, hown, hothers⟩ := settledSet ht
  exact ⟨t, hrow.trans ht.symm, hframe, congrArg LampView.flash hown, fun n hn => congrArg LampView.flash (hothers n hn)⟩

/-- GANG is set in the selected channel, and the lamps settle. -/
theorem lparamWrite_gang (hk : s.lamps.selParam = 4) (heven : s.lamps.selCh.val % 2 = 0) :
    ∃ t, lparamWrite s p w = t ∧ t = { s with lamps := t.lamps } ∧
      (getLamp t s.lamps.selCh).gang = decide (w.toNat = 1) ∧
      ∀ n, n ≠ s.lamps.selCh → (getLamp t n).gang = (getLamp s n).gang := by
  have hmax : lparamMax s.lamps.selParam = 1 := by rw [hk]; rfl
  have hrow : lparamWrite s p w = lampsSettle (setLamp s s.lamps.selCh
      { getLamp s s.lamps.selCh with gang := decide (w.toNat = 1) }) := by
    rw [lparamWrite_taken howner (by omega) fun hn => hn.2.elim (fun ho => ho hoff) fun ho => ho hpoff]
    generalize s.lamps.selParam = k at hk
    subst hk
    rfl
  obtain ⟨t, ht⟩ : ∃ t, t = lampsSettle (setLamp s s.lamps.selCh
      { getLamp s s.lamps.selCh with gang := decide (w.toNat = 1) }) := ⟨_, rfl⟩
  obtain ⟨hframe, hown, hothers⟩ := settledSet ht
  exact ⟨t, hrow.trans ht.symm, hframe, congrArg LampView.gang hown, fun n hn => congrArg LampView.gang (hothers n hn)⟩

end

/-! ### LFAULT (R192, R365, R366, R391) -/

theorem unlatch_ne_latched (m : LampMode) : unlatch m ≠ .latched := by cases m <;> simp [unlatch]

theorem unlatch_of_ne {m : LampMode} (h : m ≠ .latched) : unlatch m = m := if_neg h

theorem pairOf_pairOf (n : Fin 8) : pairOf (pairOf n) = n := by revert n; decide

theorem pairOf_ne (n : Fin 8) : pairOf n ≠ n := by revert n; decide

/-- A channel that only another channel's clear has touched: its state may be unlatched, but not while its own FLT
stands, and the derating of a gang may have ended. -/
def FreedBeside (c d : Lamp) : Prop :=
  ∃ m g, d = { c with mode := m, gangDer := g } ∧ (m = c.mode ∨ c.flt = false ∧ m = unlatch c.mode)

theorem FreedBeside.refl (c : Lamp) : FreedBeside c c := ⟨c.mode, c.gangDer, rfl, .inl rfl⟩

theorem FreedBeside.trans {c d e : Lamp} (h : FreedBeside c d) (k : FreedBeside d e) : FreedBeside c e := by
  obtain ⟨m, g, rfl, hm⟩ := h
  obtain ⟨m', g', rfl, hm'⟩ := k
  refine ⟨m', g', rfl, ?_⟩
  rcases hm' with rfl | ⟨hflt, rfl⟩
  · exact hm
  · rcases hm with rfl | ⟨_, rfl⟩
    · exact .inr ⟨hflt, rfl⟩
    · exact .inr ⟨hflt, unlatch_of_ne (unlatch_ne_latched _)⟩

theorem FreedBeside.flt {c d : Lamp} (h : FreedBeside c d) : d.flt = c.flt := by
  obtain ⟨m, g, rfl, -⟩ := h; rfl

/-- Of a channel whose FLT stands the state is kept. -/
theorem FreedBeside.mode {c d : Lamp} (h : FreedBeside c d) (hflt : c.flt = true) : d.mode = c.mode := by
  obtain ⟨m, g, rfl, hm⟩ := h
  exact hm.resolve_right fun hn => by simp [hflt] at hn

theorem FreedBeside.ne_latched {c d : Lamp} (h : FreedBeside c d) (hmode : c.mode ≠ .latched) : d.mode ≠ .latched := by
  obtain ⟨m, g, rfl, rfl | ⟨_, rfl⟩⟩ := h
  · exact hmode
  · exact unlatch_ne_latched _

/-- The clear of a channel without FLT does nothing. -/
theorem clearFault_unset {s : State} {n : Fin 8} (h : (getLamp s n).flt = false) : clearFault s n = s :=
  if_neg (by simp [h])

/-- A channel with its FLT cleared. -/
def fltCleared (s : State) (n : Fin 8) : Lamp :=
  let c := getLamp s n
  { c with flt := false, causes := 0, senseless := false, rleft := reloadValue s n, mode := unlatch c.mode }

/-- The channel cleared, and the partner of its gang that has no FLT of its own freed. -/
def fltFreed (s : State) (n : Fin 8) : State :=
  let u := setLamp s n (fltCleared s n)
  let m := getLamp s (pairOf n)
  if ganged s n = true ∧ m.flt = false then setLamp u (pairOf n) { m with mode := unlatch m.mode } else u

/-- The derating of a gang ended in both halves. -/
def derateEnded (s : State) (n : Fin 8) : State :=
  let u := setLamp s n { getLamp s n with gangDer := false }
  setLamp u (pairOf n) { getLamp u (pairOf n) with gangDer := false }

theorem fltFreed_lamps (s : State) (n : Fin 8) : getLamp (fltFreed s n) n = fltCleared s n ∧
    getLamp (fltFreed s n) (pairOf n) = { getLamp s (pairOf n) with
      mode := if ganged s n = true ∧ (getLamp s (pairOf n)).flt = false
        then unlatch (getLamp s (pairOf n)).mode else (getLamp s (pairOf n)).mode } ∧
    ∀ m, m ≠ n → m ≠ pairOf n → getLamp (fltFreed s n) m = getLamp s m := by
  unfold fltFreed
  dsimp only
  split
  · refine ⟨?_, getLamp_setLamp .., fun m h1 h2 => ?_⟩
    · rw [getLamp_setLamp_ne _ _ _ _ (pairOf_ne n).symm, getLamp_setLamp]
    · rw [getLamp_setLamp_ne _ _ _ _ h2, getLamp_setLamp_ne _ _ _ _ h1]
  · exact ⟨getLamp_setLamp .., getLamp_setLamp_ne _ _ _ _ (pairOf_ne n), fun m h1 _ => getLamp_setLamp_ne _ _ _ _ h1⟩

theorem derateEnded_lamps (s : State) (n : Fin 8) :
    getLamp (derateEnded s n) n = { getLamp s n with gangDer := false } ∧
    getLamp (derateEnded s n) (pairOf n) = { getLamp s (pairOf n) with gangDer := false } ∧
    ∀ m, m ≠ n → m ≠ pairOf n → getLamp (derateEnded s n) m = getLamp s m := by
  unfold derateEnded
  refine ⟨?_, ?_, fun m h1 h2 => ?_⟩
  · rw [getLamp_setLamp_ne _ _ _ _ (pairOf_ne n).symm, getLamp_setLamp]
  · rw [getLamp_setLamp, getLamp_setLamp_ne _ _ _ _ (pairOf_ne n)]
  · rw [getLamp_setLamp_ne _ _ _ _ h2, getLamp_setLamp_ne _ _ _ _ h1]

/-- The clear of a channel whose FLT stands, in its two steps. -/
theorem clearFault_set {s : State} {n : Fin 8} (hflt : (getLamp s n).flt = true) :
    clearFault s n = if n.val % 2 = 0 then derateEnded (fltFreed s n) n else fltFreed s n := by
  have hpair : getLamp (setLamp s n (fltCleared s n)) (pairOf n) = getLamp s (pairOf n) :=
    getLamp_setLamp_ne _ _ _ _ (pairOf_ne n)
  have hgang : ganged (setLamp s n (fltCleared s n)) n = ganged s n := by
    unfold ganged
    by_cases hn : evenOf n = n
    · rw [hn, getLamp_setLamp]; rfl
    · rw [getLamp_setLamp_ne _ _ _ _ hn]
  have hset : clearFault s n =
      let u := setLamp s n (fltCleared s n)
      let m := getLamp u (pairOf n)
      let t := if ganged u n ∧ !m.flt then setLamp u (pairOf n) { m with mode := unlatch m.mode } else u
      if n.val % 2 = 0 then derateEnded t n else t := if_pos hflt
  dsimp only at hset
  rw [hpair, hgang] at hset
  simpa only [fltFreed, Bool.not_eq_true'] using hset

/-- What the clear of a channel whose FLT stands leaves: the channel cleared, its partner, in a gang and with no FLT of
its own, freed, and every other channel as it was. -/
theorem clearFault_lamps {s : State} {n : Fin 8} (hflt : (getLamp s n).flt = true) :
    (∃ g, getLamp (clearFault s n) n = { fltCleared s n with gangDer := g }) ∧
    (∃ g, getLamp (clearFault s n) (pairOf n) = { getLamp s (pairOf n) with
      gangDer := g, mode := if ganged s n = true ∧ (getLamp s (pairOf n)).flt = false
        then unlatch (getLamp s (pairOf n)).mode else (getLamp s (pairOf n)).mode }) ∧
    ∀ m, m ≠ n → m ≠ pairOf n → getLamp (clearFault s n) m = getLamp s m := by
  obtain ⟨hown, hpair, hothers⟩ := fltFreed_lamps s n
  obtain ⟨hdown, hdpair, hdothers⟩ := derateEnded_lamps (fltFreed s n) n
  rw [clearFault_set hflt]
  split
  · exact ⟨⟨false, by rw [hdown, hown]⟩, ⟨false, by rw [hdpair, hpair]⟩, fun m h1 h2 =>
      (hdothers m h1 h2).trans (hothers m h1 h2)⟩
  · exact ⟨⟨_, hown⟩, ⟨_, hpair⟩, hothers⟩

/-- A channel beside the one that is cleared, and one without FLT, may only be freed. -/
theorem clearFault_beside (s : State) {n m : Fin 8} (h : m ≠ n ∨ (getLamp s m).flt = false) :
    FreedBeside (getLamp s m) (getLamp (clearFault s n) m) := by
  by_cases hflt : (getLamp s n).flt = true
  · have hm : m ≠ n := fun hmn => h.elim (fun hne => hne hmn) fun hn => by
      rw [hmn] at hn
      exact Bool.noConfusion (hn.symm.trans hflt)
    obtain ⟨-, ⟨g, hpair⟩, hothers⟩ := clearFault_lamps hflt
    by_cases hp : m = pairOf n
    · subst hp
      refine ⟨_, g, hpair, ?_⟩
      split
      · next hfree => exact .inr ⟨hfree.2, rfl⟩
      · exact .inl rfl
    · rw [hothers m hm hp]
      exact .refl _
  · rw [clearFault_unset (by simpa using hflt)]
    exact .refl _

/-- A clear leaves every channel's gang and retry settings, and all but the lamps. -/
theorem clearFault_settings (s : State) (n m : Fin 8) : (getLamp (clearFault s n) m).gang = (getLamp s m).gang ∧
    (getLamp (clearFault s n) m).retry = (getLamp s m).retry := by
  by_cases hm : m ≠ n ∨ (getLamp s m).flt = false
  · obtain ⟨_, _, heq, -⟩ := clearFault_beside s hm
    rw [heq]
    exact ⟨rfl, rfl⟩
  · obtain ⟨hmn, hflt⟩ := not_or.mp hm
    obtain rfl := not_not.mp hmn
    obtain ⟨⟨g, heq⟩, -, -⟩ := clearFault_lamps (s := s) (n := m) (by simpa using hflt)
    rw [heq]
    exact ⟨rfl, rfl⟩

theorem clearFault_frame (s : State) (n : Fin 8) : clearFault s n = { s with lamps := (clearFault s n).lamps } := by
  unfold clearFault
  dsimp only
  split_ifs <;> rfl

/-- The clears of a list of channels. -/
def faultsCleared (clears : Fin 8 → Bool) (l : List (Fin 8)) (s : State) : State :=
  l.foldl (fun s n => if clears n then clearFault s n else s) s

section
variable (clears : Fin 8 → Bool)

theorem faultsCleared_cons (n : Fin 8) (l : List (Fin 8)) (s : State) : faultsCleared clears (n :: l) s =
    faultsCleared clears l (if clears n then clearFault s n else s) := rfl

theorem faultsCleared_settings (l : List (Fin 8)) (s : State) (m : Fin 8) :
    faultsCleared clears l s = { s with lamps := (faultsCleared clears l s).lamps } ∧
    (getLamp (faultsCleared clears l s) m).gang = (getLamp s m).gang ∧
    (getLamp (faultsCleared clears l s) m).retry = (getLamp s m).retry := by
  induction l generalizing s with
  | nil => exact ⟨rfl, rfl, rfl⟩
  | cons n l ih =>
    rw [faultsCleared_cons]
    obtain ⟨hframe, hgang, hretry⟩ := ih (if clears n then clearFault s n else s)
    generalize hx : (if clears n then clearFault s n else s) = x at hframe hgang hretry
    have hstep : x = { s with lamps := x.lamps } ∧ (getLamp x m).gang = (getLamp s m).gang ∧
        (getLamp x m).retry = (getLamp s m).retry := by
      rw [← hx]
      split
      · exact ⟨clearFault_frame s n, clearFault_settings s n m⟩
      · exact ⟨rfl, rfl, rfl⟩
    obtain ⟨hxframe, hxgang, hxretry⟩ := hstep
    exact ⟨by rw [hframe, hxframe], hgang.trans hxgang, hretry.trans hxretry⟩

/-- A channel that is not among those cleared, or has no FLT, may only be freed. -/
theorem faultsCleared_beside (l : List (Fin 8)) (s : State) {m : Fin 8}
    (h : (m ∈ l → clears m = false) ∨ (getLamp s m).flt = false) :
    FreedBeside (getLamp s m) (getLamp (faultsCleared clears l s) m) := by
  induction l generalizing s with
  | nil => exact .refl _
  | cons n l ih =>
    rw [faultsCleared_cons]
    have hstep : FreedBeside (getLamp s m) (getLamp (if clears n then clearFault s n else s) m) := by
      split
      · next hn =>
        refine clearFault_beside s (h.imp_left fun hm hmn => ?_)
        subst hmn
        exact Bool.noConfusion ((hm List.mem_cons_self).symm.trans hn)
      · exact .refl _
    exact hstep.trans (ih _ (h.imp (fun hm hin => hm (List.mem_cons_of_mem _ hin)) fun hflt => hstep.flt.trans hflt))

/-- A channel of which neither half is cleared stays as it is. -/
theorem faultsCleared_apart (l : List (Fin 8)) (s : State) {m : Fin 8} (hm : clears m = false)
    (hpair : clears (pairOf m) = false) : getLamp (faultsCleared clears l s) m = getLamp s m := by
  induction l generalizing s with
  | nil => rfl
  | cons n l ih =>
    rw [faultsCleared_cons, ih]
    split
    · next hn =>
      have hne : m ≠ n := fun h => Bool.noConfusion (hm.symm.trans (h ▸ hn))
      have hnp : m ≠ pairOf n := fun h => by
        rw [h, pairOf_pairOf] at hpair
        exact Bool.noConfusion (hpair.symm.trans hn)
      by_cases hflt : (getLamp s n).flt = true
      · exact (clearFault_lamps hflt).2.2 m hne hnp
      · rw [clearFault_unset (by simpa using hflt)]
    · rfl

/-- The retries that a reload takes ask for the channel's own state and the gang's settings. -/
theorem reloadValue_congr {s t : State} {n : Fin 8} (hmode : (getLamp t n).mode = (getLamp s n).mode)
    (hretryN : (getLamp t n).retryN = (getLamp s n).retryN) (hmem : t.mem = s.mem)
    (hset : ∀ m, (getLamp t m).gang = (getLamp s m).gang ∧ (getLamp t m).retry = (getLamp s m).retry) :
    reloadValue t n = reloadValue s n := by
  have hlead : leader t n = leader s n := by rw [leader, leader, ganged, ganged, (hset _).1]
  simp only [reloadValue, retriesOf, hmode, hretryN, hlead, (hset _).2, pgf, pg, hmem]

/-- R192: a channel whose FLT is written 1 ends cleared, and frees the partner of its gang that has no FLT of its own. -/
theorem faultsCleared_own {s : State} {n : Fin 8} {l : List (Fin 8)} (hn : n ∈ l) (hl : l.Nodup) (hclear : clears n = true)
    (hflt : (getLamp s n).flt = true) :
    FreedBeside (fltCleared s n) (getLamp (faultsCleared clears l s) n) ∧
    (ganged s n = true → (getLamp s (pairOf n)).flt = false →
      (getLamp (faultsCleared clears l s) (pairOf n)).mode ≠ .latched) := by
  obtain ⟨l1, l2, rfl⟩ := List.append_of_mem hn
  have hn1 : n ∉ l1 := fun h => (List.nodup_append.mp hl).2.2 n h n List.mem_cons_self rfl
  have hn2 : n ∉ l2 := (List.nodup_cons.mp (List.nodup_append.mp hl).2.1).1
  have hsplit : faultsCleared clears (l1 ++ n :: l2) s =
      faultsCleared clears l2 (clearFault (faultsCleared clears l1 s) n) := by
    unfold faultsCleared
    rw [List.foldl_append, List.foldl_cons, if_pos hclear]
  have hbefore := faultsCleared_beside clears l1 s (m := n) (.inl fun h => absurd h hn1)
  have hset (m : Fin 8) := faultsCleared_settings clears l1 s m
  have hpairBefore (h : (getLamp s (pairOf n)).flt = false) :=
    faultsCleared_beside clears l1 s (m := pairOf n) (.inr h)
  rw [hsplit]
  generalize faultsCleared clears l1 s = x at hbefore hset hpairBefore
  have hxflt : (getLamp x n).flt = true := hbefore.flt.trans hflt
  have hreload : reloadValue x n = reloadValue s n := by
    refine reloadValue_congr (hbefore.mode hflt) ?_ ?_ fun m => (hset m).2
    · obtain ⟨_, _, heq, -⟩ := hbefore
      rw [heq]
    · rw [(hset n).1]
  have hcleared : FreedBeside (fltCleared s n) (fltCleared x n) := by
    obtain ⟨m, g, heq, -⟩ := id hbefore
    have hmode : m = (getLamp s n).mode := by
      have h := hbefore.mode hflt
      rwa [heq] at h
    refine ⟨_, g, ?_, .inl rfl⟩
    unfold fltCleared
    rw [hreload, heq, hmode]
  obtain ⟨⟨g, hown⟩, ⟨g', hpair⟩, -⟩ := clearFault_lamps hxflt
  have hafter := faultsCleared_beside clears l2 (clearFault x n) (m := n) (.inl fun h => absurd h hn2)
  refine ⟨hcleared.trans (FreedBeside.trans ⟨_, g, hown, .inl rfl⟩ hafter), fun hgang hpflt => ?_⟩
  have hxpair : (getLamp x (pairOf n)).flt = false := (hpairBefore hpflt).flt.trans hpflt
  have hxgang : ganged x n = true := by rw [ganged, (hset _).2.1]; exact hgang
  rw [if_pos ⟨hxgang, hxpair⟩] at hpair
  refine (faultsCleared_beside clears l2 (clearFault x n) (m := pairOf n) (.inr ?_)).ne_latched ?_
  · rw [hpair]; exact hxpair
  · rw [hpair]; exact unlatch_ne_latched _

end

/-- The channels that an LFAULT write clears: those whose bit is 1, but for those kept by a cause of the same cycle. -/
def lfaultClears (w : Word) (kept : List (Fin 8)) (n : Fin 8) : Bool := bit w n.val && !kept.contains n

theorem lfaultWrite_eq (s : State) (w : Word) (kept : List (Fin 8)) : lfaultWrite s w kept =
    lampsSettle (fullyOn (faultsCleared (lfaultClears w kept) (List.finRange 8) s)) := rfl

/-- The write changes the lamps alone. -/
theorem lfaultWrite_frame (s : State) (w : Word) (kept : List (Fin 8)) :
    lfaultWrite s w kept = { s with lamps := (lfaultWrite s w kept).lamps } := by
  rw [lfaultWrite_eq]
  have h := settled_frame (faultsCleared (lfaultClears w kept) (List.finRange 8) s)
  generalize lampsSettle (fullyOn (faultsCleared (lfaultClears w kept) (List.finRange 8) s)) = t at h
  rw [h, (faultsCleared_settings _ _ _ 0).1]

/-- A channel of which nothing is cleared keeps FLT, causes and retries, and a state that its FLT holds. -/
theorem lfaultWrite_kept {s : State} {w : Word} {kept : List (Fin 8)} {n : Fin 8}
    (h : lfaultClears w kept n = false ∨ (getLamp s n).flt = false) :
    (getLamp (lfaultWrite s w kept) n).flt = (getLamp s n).flt ∧
    (getLamp (lfaultWrite s w kept) n).causes = (getLamp s n).causes ∧
    (getLamp (lfaultWrite s w kept) n).rleft = (getLamp s n).rleft ∧
    ((getLamp s n).flt = true → (getLamp s n).mode = .latched → (getLamp (lfaultWrite s w kept) n).mode = .latched) := by
  have hbeside := faultsCleared_beside (lfaultClears w kept) (List.finRange 8) s (m := n) (h.imp_left fun h _ => h)
  obtain ⟨hview, hmode, -⟩ := settled_lamp (faultsCleared (lfaultClears w kept) (List.finRange 8) s) n
  rw [← lfaultWrite_eq] at hview hmode
  have hkept : lampView (getLamp (faultsCleared (lfaultClears w kept) (List.finRange 8) s) n) = lampView (getLamp s n) := by
    obtain ⟨m, g, heq, -⟩ := hbeside
    rw [heq]
    rfl
  have hall := hview.trans hkept
  generalize lfaultWrite s w kept = t at hall hmode
  refine ⟨congrArg LampView.flt hall, congrArg LampView.causes hall, congrArg LampView.rleft hall, fun hflt hlatched => ?_⟩
  rw [hmode, hbeside.mode hflt, hlatched, followMode_latched]

/-- A channel whose FLT stands and is cleared. -/
theorem lfaultWrite_cleared {s : State} {w : Word} {kept : List (Fin 8)} {n : Fin 8}
    (h : lfaultClears w kept n = true) (hflt : (getLamp s n).flt = true) :
    (getLamp (lfaultWrite s w kept) n).flt = false ∧ (getLamp (lfaultWrite s w kept) n).causes = 0 ∧
    (getLamp (lfaultWrite s w kept) n).senseless = false ∧
    (getLamp (lfaultWrite s w kept) n).rleft = reloadValue s n ∧
    (getLamp (lfaultWrite s w kept) n).mode ≠ .latched ∧
    ((getLamp s n).mode = .latched → effReq (lfaultWrite s w kept) n = false →
      (getLamp (lfaultWrite s w kept) n).mode = .off) ∧
    (ganged s n = true → (getLamp s (pairOf n)).flt = false →
      (getLamp (lfaultWrite s w kept) (pairOf n)).mode ≠ .latched) := by
  obtain ⟨hfreed, hpair⟩ := faultsCleared_own (lfaultClears w kept) (List.mem_finRange n) (List.nodup_finRange 8) h hflt
  obtain ⟨hview, hmode, -⟩ := settled_lamp (faultsCleared (lfaultClears w kept) (List.finRange 8) s) n
  obtain ⟨-, hpmode, -⟩ := settled_lamp (faultsCleared (lfaultClears w kept) (List.finRange 8) s) (pairOf n)
  rw [← lfaultWrite_eq] at hview hmode hpmode
  have hkept : lampView (getLamp (faultsCleared (lfaultClears w kept) (List.finRange 8) s) n) = lampView (fltCleared s n) := by
    obtain ⟨m, g, heq, -⟩ := hfreed
    rw [heq]
    rfl
  have hall := hview.trans hkept
  have hunlatched : (fltCleared s n).mode ≠ .latched := unlatch_ne_latched _
  have hne := hfreed.ne_latched hunlatched
  generalize lfaultWrite s w kept = t at hall hmode hpmode
  refine ⟨congrArg LampView.flt hall, congrArg LampView.causes hall, congrArg LampView.senseless hall,
    congrArg LampView.rleft hall, ?_, fun _ hreq => ?_, fun hgang hpflt => ?_⟩
  · rw [hmode]
    exact followMode_ne_latched hne _
  · rw [hmode, hreq, followMode_false hne]
  · rw [hpmode]
    exact followMode_ne_latched (hpair hgang hpflt) _

/-- R192: an LFAULT write without a cause beside it, channel by channel. -/
theorem lfaultWrite_lamp {s t : State} {w : Word} (ht : lfaultWrite s w [] = t) (n : Fin 8) :
    (bit w n.val = true → (getLamp t n).flt = false ∧
      ((getLamp s n).flt = true → (getLamp t n).causes = 0 ∧ (getLamp t n).senseless = false ∧
        (getLamp t n).rleft = reloadValue s n ∧ (getLamp t n).mode ≠ .latched ∧
        ((getLamp s n).mode = .latched → effReq t n = false → (getLamp t n).mode = .off) ∧
        (ganged s n = true → (getLamp s (pairOf n)).flt = false → (getLamp t (pairOf n)).mode ≠ .latched))) ∧
    (bit w n.val = false → (getLamp t n).flt = (getLamp s n).flt ∧ (getLamp t n).causes = (getLamp s n).causes ∧
      ((getLamp s n).mode = .latched → (getLamp s n).flt = true → (getLamp t n).mode = .latched)) ∧
    ((bit w n.val = false ∨ (getLamp s n).flt = false) → (getLamp t n).rleft = (getLamp s n).rleft) := by
  have hclears (b : Bool) (hb : bit w n.val = b) : lfaultClears w [] n = b := by simp [lfaultClears, hb]
  have hkept := lfaultWrite_kept (s := s) (w := w) (kept := []) (n := n)
  have hcleared := lfaultWrite_cleared (s := s) (w := w) (kept := []) (n := n)
  rw [ht] at hkept hcleared
  refine ⟨fun hb => ⟨?_, fun hflt => (hcleared (hclears _ hb) hflt).2⟩, fun hb => ?_, fun hb => ?_⟩
  · cases hflt : (getLamp s n).flt with
    | false => exact (hkept (.inr hflt)).1.trans hflt
    | true => exact (hcleared (hclears _ hb) hflt).1
  · obtain ⟨hflt, hcauses, -, hlatched⟩ := hkept (.inl (hclears _ hb))
    exact ⟨hflt, hcauses, fun hm hf => hlatched hf hm⟩
  · obtain ⟨-, -, hrleft, -⟩ := hkept (hb.imp_left (hclears _))
    exact hrleft

/-- A half of which neither half is cleared stays latched. -/
theorem lfaultWrite_apart {s : State} {w : Word} {kept : List (Fin 8)} {n : Fin 8} (h : lfaultClears w kept n = false)
    (hpair : lfaultClears w kept (pairOf n) = false) (hlatched : (getLamp s n).mode = .latched) :
    (getLamp (lfaultWrite s w kept) n).mode = .latched := by
  obtain ⟨-, hmode, -⟩ := settled_lamp (faultsCleared (lfaultClears w kept) (List.finRange 8) s) n
  rw [← lfaultWrite_eq] at hmode
  rw [hmode, faultsCleared_apart _ _ _ h hpair, hlatched, followMode_latched]

/-! ### A cause of the same cycle (R379, R391) -/

/-- The state t is s but for the lamps and IRQSTAT. -/
def OnLamps (s t : State) : Prop := t = { s with lamps := t.lamps, irqStat := t.irqStat }

theorem OnLamps.trans {s t u : State} (h : OnLamps s t) (k : OnLamps t u) : OnLamps s u := by
  unfold OnLamps at h k ⊢
  rw [k, h]

theorem OnLamps.reaches {s t : State} (h : OnLamps s t) {p : Port} {a : Fin 64} {v w : Word}
    (hreach : reachesRule s p a v w) : reachesRule t p a v w := by
  rw [h]
  cases p <;> exact hreach

theorem onLamps_setLamp (s : State) (n : Fin 8) (c : Lamp) : OnLamps s (setLamp s n c) := rfl

theorem onLamps_latchCause (s : State) (n : Fin 8) (i : Nat) : OnLamps s (latchCause s n i) := by
  unfold latchCause
  dsimp only
  split
  · rfl
  · rfl

theorem onLamps_foldl {α : Type} {f : State → α → State} (hf : ∀ s a, OnLamps s (f s a)) (l : List α) (s : State) :
    OnLamps s (l.foldl f s) := by
  induction l generalizing s with
  | nil => rfl
  | cons a l ih => exact (hf s a).trans (ih _)

theorem onLamps_lampTrip (s : State) (n : Fin 8) (cause : Nat) : OnLamps s (lampTrip s n cause) :=
  ((onLamps_foldl (fun t m => onLamps_setLamp t m _) (mates s n) s).trans (onLamps_setLamp _ n _)).trans
    (onLamps_latchCause _ n cause)

theorem onLamps_secondTrip (s : State) (n : Fin 8) (cause : Nat) : OnLamps s (secondTrip s n cause) :=
  (onLamps_setLamp s n _).trans (onLamps_latchCause _ n cause)

theorem onLamps_shortEnergy (s : State) (n : Fin 8) (e : Nat) : OnLamps s (shortEnergy s n e) := rfl

theorem onLamps_absoluteShort (s : State) (n : Fin 8) (e : Nat) : OnLamps s (absoluteShort s n e) := by
  unfold absoluteShort shortArises
  dsimp only
  split
  · exact (onLamps_shortEnergy s n e).trans (onLamps_lampTrip _ n _)
  · split
    · exact (onLamps_shortEnergy s n e).trans (onLamps_secondTrip _ n _)
    · rfl

theorem onLamps_overtemp (s : State) (n : Fin 8) : OnLamps s (overtemp s n) := by
  unfold overtemp
  dsimp only
  split
  · exact (onLamps_setLamp s n _).trans (onLamps_lampTrip _ n _)
  · split
    · exact (onLamps_setLamp s n _).trans (onLamps_secondTrip _ n _)
    · exact onLamps_setLamp s n _

/-- R379: a cause that arises changes the lamps and IRQSTAT alone. -/
theorem onLamps_causeArises (s : State) (x : LampCause) : OnLamps s (causeArises s x) := by
  have hite (c : Prop) [Decidable c] (t : State) (h : OnLamps s t) : OnLamps s (if c then t else s) := by
    split
    · exact h
    · rfl
  unfold causeArises
  split
  · exact onLamps_absoluteShort s x.n x.e
  · exact hite _ _ ((onLamps_setLamp s x.n _).trans (onLamps_latchCause _ x.n _))
  · exact hite _ _ (onLamps_latchCause s x.n _)
  · exact hite _ _ (onLamps_latchCause s x.n _)
  · exact onLamps_overtemp s x.n
  · exact hite _ _ ((onLamps_setLamp s x.n _).trans (onLamps_latchCause _ x.n _))
  · exact onLamps_latchCause s x.n _

/-! ### The statement -/

theorem getLamp_gen1Empty (s : State) (p : Port) (a : Fin 64) (n : Fin 8) : getLamp (gen1Empty s p a) n = getLamp s n := by
  rw [getLamp, gen1Empty_lamps]
  rfl

/-- LCTL's accepted write, channel by channel. -/
theorem lctlAccepted_lamp {s u : State} {new : Word}
    (hu : lampsSettle (fullyOn { s with lamps := { s.lamps with lctl := new } }) = u) (n : Fin 8) :
    ((getLamp s n).mode = .off → effReq u n = true → (getLamp u n).mode = .inrush ∧ (getLamp u n).conducting = true) ∧
    (effReq u n = false → (getLamp s n).mode ≠ .latched →
      (getLamp u n).mode = .off ∧ ((getLamp s n).mode ≠ .off → (getLamp u n).conducting = false)) ∧
    (effReq u n = true → (getLamp s n).mode ≠ .off → (getLamp u n).mode = (getLamp s n).mode) ∧
    ((getLamp s n).mode = .latched → (getLamp u n).mode = .latched) := by
  obtain ⟨-, hmode, hrises, hfalls⟩ := settled_lamp { s with lamps := { s.lamps with lctl := new } } n
  rw [hu] at hmode hrises hfalls
  change (getLamp u n).mode = followMode (getLamp s n).mode _ at hmode
  refine ⟨fun hoff hreq => ⟨?_, hrises hoff hreq⟩, fun hreq hlatched => ⟨?_, fun hoff => hfalls hreq hoff hlatched⟩,
    fun hreq hoff => ?_, fun hlatched => ?_⟩
  · rw [hmode, hoff, hreq]; rfl
  · rw [hmode, hreq, followMode_false hlatched]
  · rw [hmode, hreq, followMode_true hoff]
  · rw [hmode, hlatched, followMode_latched]

/-- R188 on the wires of a write that reaches LCTL. -/
theorem exec_lctlWrite_kept {p : Port} {v w new : Word} {s : State} (h : reachesRule s p 0x18 v w)
    (hnew : new = (w &&& ~~~ wordOf (gangOdd s)) ||| (s.lamps.lctl &&& wordOf (gangOdd s)))
    (howner : isSup s p = true ∨ (new ^^^ s.lamps.lctl) &&& wordOf (s.lamps.ttClaim.toNat * 0x101) = 0)
    (hstate : s.pw.mode = .standby → new &&& ~~~ s.lamps.lctl &&& 0xFF = 0) :
    ∃ u, exec (.lctlWrite p v) s = .next u ∧ u = { gen1Empty s p 0x18 with lamps := u.lamps } ∧
      u.lamps.lctl = new ∧
      ∀ n, ((getLamp s n).mode = .off → effReq { s with lamps := u.lamps } n = true →
          (getLamp u n).mode = .inrush ∧ (getLamp u n).conducting = true) ∧
        (effReq { s with lamps := u.lamps } n = false → (getLamp s n).mode ≠ .latched →
          (getLamp u n).mode = .off ∧ ((getLamp s n).mode ≠ .off → (getLamp u n).conducting = false)) ∧
        (effReq { s with lamps := u.lamps } n = true → (getLamp s n).mode ≠ .off →
          (getLamp u n).mode = (getLamp s n).mode) ∧
        ((getLamp s n).mode = .latched → (getLamp u n).mode = .latched) := by
  have hrow := lctlWrite_kept (s := gen1Empty s p 0x18) (p := p) (new := new) (w := w)
    (by simpa [gangOdd] using hnew) (by simpa using howner) (by simpa using hstate)
  have hframe := settled_frame { gen1Empty s p 0x18 with lamps := { (gen1Empty s p 0x18).lamps with lctl := new } }
  have hlctl := lampsSettle_lctl (fullyOn { gen1Empty s p 0x18 with
    lamps := { (gen1Empty s p 0x18).lamps with lctl := new } })
  rw [(fullyOn_lamp _ 0).2.2] at hlctl
  generalize hu : lampsSettle (fullyOn { gen1Empty s p 0x18 with
    lamps := { (gen1Empty s p 0x18).lamps with lctl := new } }) = u at hrow hframe hlctl
  refine ⟨u, exec_reach_to rfl h hrow, hframe, hlctl, fun n => ?_⟩
  have hreq : effReq { s with lamps := u.lamps } n = effReq u n :=
    effReq_withLamps (by rw [hframe]; exact gen1Empty_pw s p _) (by rw [hframe]; exact gen1Empty_clk s p _)
      (by rw [hframe]; exact gen1Empty_roles s p _) n
  have hlamp := lctlAccepted_lamp hu n
  rw [getLamp_gen1Empty] at hlamp
  rwa [hreq]

/-- R191 on the wires: the two parameters that name a pair, FLASH and GANG. -/
theorem exec_lparamWrite_pair {p : Port} {v w : Word} {s : State} (h : reachesRule s p 0x1B v w)
    (howner : s.lamps.ttClaim.getLsbD s.lamps.selCh.val = false ∨ isSup s p = true) (hle : w.toNat ≤ 1)
    (hoff : (getLamp s s.lamps.selCh).mode = .off) (hpoff : (getLamp s (pairOf s.lamps.selCh)).mode = .off) :
    (s.lamps.selParam = 5 →
      ∃ t, exec (.lparamWrite p v) s = .next t ∧ t = { gen1Empty s p 0x1B with lamps := t.lamps } ∧
        (getLamp t s.lamps.selCh).flash = decide (w.toNat = 1) ∧
        ∀ n, n ≠ s.lamps.selCh → (getLamp t n).flash = (getLamp s n).flash) ∧
    (s.lamps.selParam = 4 → s.lamps.selCh.val % 2 = 0 →
      ∃ t, exec (.lparamWrite p v) s = .next t ∧ t = { gen1Empty s p 0x1B with lamps := t.lamps } ∧
        (getLamp t s.lamps.selCh).gang = decide (w.toNat = 1) ∧
        ∀ n, n ≠ s.lamps.selCh → (getLamp t n).gang = (getLamp s n).gang) := by
  have hrule {t : State} (hrow : lparamWrite (gen1Empty s p 0x1B) p w = t) : exec (.lparamWrite p v) s = .next t :=
    exec_reach_to rfl h hrow
  have hlamps := gen1Empty_lamps s p 0x1B
  have hsup := isSup_gen1Empty s p p 0x1B
  have hlamp := getLamp_gen1Empty s p 0x1B
  generalize gen1Empty s p 0x1B = r at hrule hlamps hsup hlamp
  rw [← hlamps] at howner hoff hpoff ⊢
  rw [← hsup] at howner
  rw [← hlamp] at hoff hpoff
  refine ⟨fun hk => ?_, fun hk heven => ?_⟩
  · obtain ⟨t, hrow, hframe, hown, hothers⟩ := lparamWrite_flash howner hle hoff hpoff hk
    exact ⟨t, hrule hrow, hframe, hown, fun n hn => by rw [hothers n hn, hlamp]⟩
  · obtain ⟨t, hrow, hframe, hown, hothers⟩ := lparamWrite_gang howner hle hoff hpoff hk heven
    exact ⟨t, hrule hrow, hframe, hown, fun n hn => by rw [hothers n hn, hlamp]⟩

/-- R192 on the wires of a write that reaches LFAULT. -/
theorem exec_lfaultClear {p : Port} {v w : Word} {s : State} (h : reachesRule s p 0x1C v w) :
    ∃ t, exec (.lfaultClear p v []) s = .next t ∧ t = { gen1Empty s p 0x1C with lamps := t.lamps } ∧
      ∀ n, (bit w n.val = true → (getLamp t n).flt = false ∧
          ((getLamp s n).flt = true → (getLamp t n).causes = 0 ∧ (getLamp t n).senseless = false ∧
            (getLamp t n).rleft = reloadValue s n ∧ (getLamp t n).mode ≠ .latched ∧
            ((getLamp s n).mode = .latched → effReq t n = false → (getLamp t n).mode = .off) ∧
            (ganged s n = true → (getLamp s (pairOf n)).flt = false → (getLamp t (pairOf n)).mode ≠ .latched))) ∧
        (bit w n.val = false → (getLamp t n).flt = (getLamp s n).flt ∧ (getLamp t n).causes = (getLamp s n).causes ∧
          ((getLamp s n).mode = .latched → (getLamp s n).flt = true → (getLamp t n).mode = .latched)) ∧
        ((bit w n.val = false ∨ (getLamp s n).flt = false) → (getLamp t n).rleft = (getLamp s n).rleft) := by
  have hrule : exec (.lfaultClear p v []) s = .next (lfaultWrite (gen1Empty s p 0x1C) w []) := exec_reach_to rfl h rfl
  have hframe := lfaultWrite_frame (gen1Empty s p 0x1C) w []
  obtain ⟨t, ht⟩ : ∃ t, lfaultWrite (gen1Empty s p 0x1C) w [] = t := ⟨_, rfl⟩
  rw [ht] at hrule hframe
  refine ⟨t, hrule, hframe, fun n => ?_⟩
  have hlamp := getLamp_gen1Empty s p 0x1C
  have hreload : reloadValue (gen1Empty s p 0x1C) n = reloadValue s n :=
    reloadValue_congr (congrArg Lamp.mode (hlamp n)) (congrArg Lamp.retryN (hlamp n)) (gen1Empty_mem s p _)
      fun m => ⟨congrArg Lamp.gang (hlamp m), congrArg Lamp.retry (hlamp m)⟩
  have hgang : ganged (gen1Empty s p 0x1C) n = ganged s n := congrArg Lamp.gang (hlamp _)
  have hchannel := lfaultWrite_lamp ht n
  rwa [hreload, hgang, hlamp, hlamp] at hchannel

/-- R391 on the wires: the channel x of which a cause arises beside the write. -/
theorem exec_lfaultClear_cause {p : Port} {v w : Word} {s : State} (x : LampCause) (h : reachesRule s p 0x1C v w)
    (hflt : (getLamp (causeArises s x) x.n).flt = true) :
    ∃ t, exec (.lfaultClear p v [x]) s = .next t ∧ (getLamp t x.n).flt = true ∧
      (getLamp t x.n).causes = (getLamp (causeArises s x) x.n).causes ∧
      (getLamp t x.n).rleft = (getLamp (causeArises s x) x.n).rleft ∧
      ((getLamp (causeArises s x) x.n).mode = .latched → (getLamp t x.n).mode = .latched) ∧
      (bit w (pairOf x.n).val = false →
        (getLamp (causeArises s x) (pairOf x.n)).mode = .latched → (getLamp t (pairOf x.n)).mode = .latched) := by
  have hreach := (onLamps_causeArises s x).reaches h
  have hrow : exec (.lfaultClear p v [x]) s = .next (lfaultWrite (gen1Empty (causeArises s x) p 0x1C) w [x.n]) :=
    congrArg Host.Outcome.next (gate_reach hreach)
  have hlamp := getLamp_gen1Empty (causeArises s x) p 0x1C
  generalize causeArises s x = r at hrow hlamp hflt
  have hkept := lfaultWrite_kept (s := gen1Empty r p 0x1C) (w := w) (kept := [x.n]) (n := x.n)
    (.inl (by simp [lfaultClears]))
  have hapart := lfaultWrite_apart (s := gen1Empty r p 0x1C) (w := w) (kept := [x.n]) (n := pairOf x.n)
  rw [pairOf_pairOf] at hapart
  simp only [hlamp] at hkept hapart
  generalize lfaultWrite (gen1Empty r p 0x1C) w [x.n] = t at hrow hkept hapart
  obtain ⟨hfltT, hcauses, hrleft, hlatched⟩ := hkept
  exact ⟨t, hrow, hfltT.trans hflt, hcauses, hrleft, fun hm => hlatched hflt hm,
    fun hb hm => hapart (by simp [lfaultClears, hb]) (by simp [lfaultClears]) hm⟩

/-- Settles O41: LCTL's channels follow their requests, LPARAM's field is set or refused, and LFAULT clears by each
channel's own FLT. -/
theorem lampRegistersAndFaultClears : Obligations.LampRegistersAndFaultClears := by
  unfold Obligations.LampRegistersAndFaultClears
  refine ⟨?lctl, ⟨?owner, ?param⟩, ?clear, ?kept⟩
  case lctl =>
    intro p v w new s h hnew
    have hnew' : new = (w &&& ~~~ wordOf (gangOdd (gen1Empty s p 0x18))) |||
        ((gen1Empty s p 0x18).lamps.lctl &&& wordOf (gangOdd (gen1Empty s p 0x18))) := by
      simpa [gangOdd] using hnew
    refine ⟨fun howner hstate => exec_lctlWrite_kept h hnew howner hstate, fun hsup hclaim => ?_, fun howner hmode hon => ?_⟩
    · exact exec_reach_to rfl h (lctlWrite_owner hnew' (by simpa using hsup) (by simpa using hclaim))
    · exact exec_reach_to rfl h (lctlWrite_state hnew' (by simpa using howner) (by simpa using hmode) (by simpa using hon))
  case owner =>
    exact fun p v w s h hclaim hsup => exec_reach_to rfl h (lparamWrite_owner (by simpa using hclaim) (by simpa using hsup))
  case param =>
    intro p v w s h howner
    have hlamps := gen1Empty_lamps s p 0x1B
    have hlamp := getLamp_gen1Empty s p 0x1B
    have howner' : (gen1Empty s p 0x1B).lamps.ttClaim.getLsbD (gen1Empty s p 0x1B).lamps.selCh.val = false ∨
        isSup (gen1Empty s p 0x1B) p = true := by rwa [hlamps, isSup_gen1Empty]
    refine ⟨fun hk hle => exec_reach_to rfl h ?_, fun hk hle hoff hpoff => (exec_lparamWrite_pair h howner hle hoff hpoff).1 hk,
      fun hk heven hle hoff hpoff => (exec_lparamWrite_pair h howner hle hoff hpoff).2 hk heven,
      fun hbad => exec_reach_to rfl h (lparamWrite_range howner' ?_),
      fun hk hle hon => exec_reach_to rfl h (lparamWrite_state howner' ?_ ?_ ?_)⟩
    · have hrow := lparamWrite_field (p := p) (w := w) howner' (by rwa [hlamps]) (by rwa [hlamps])
      rwa [hlamps, hlamp] at hrow
    · rwa [hlamps]
    · have hmax : lparamMax s.lamps.selParam = 1 := by rcases hk with hk | ⟨hk, -⟩ <;> rw [hk] <;> rfl
      rw [hlamps]
      omega
    · rw [hlamps]
      omega
    · rwa [hlamps, hlamp, hlamp]
  case clear => exact fun p v w s h => exec_lfaultClear h
  case kept =>
    intro p v w x s h hflt
    obtain ⟨t, hrow, hfltT, hcauses, hrleft, hlatched, hapart⟩ := exec_lfaultClear_cause x h hflt
    exact ⟨t, hrow, hfltT, hcauses, hrleft, hlatched, fun _ => hapart⟩

end Sys2Proof.Machine
end

section
/-! BCTL, the pack's identification mode and channel A's conversions (R193, R397, R398, R402, R415, R443, R456, O46). -/

namespace Sys2Proof.Machine

open Sys2Proof

/-! ### What each battery operation leaves unchanged -/

theorem trigger_frame (s : State) (i : Nat) : trigger s i = { s with batA := (trigger s i).batA } := by
  unfold trigger
  split
  · split <;> rfl
  · rfl

theorem trigger_ora (s : State) (i : Nat) : (trigger s i).batA.ora = s.batA.ora := by
  unfold trigger
  split
  · split <;> rfl
  · rfl

theorem setIrqIf_frame (c : Bool) (s : State) (i : Nat) : setIrqIf c s i = { s with irqStat := (setIrqIf c s i).irqStat } := by
  cases c <;> rfl

theorem clearEstimate_frame (s : State) : clearEstimate s =
    { s with irqStat := (clearEstimate s).irqStat
             estA := { s.estA with valid := false, int := 0, rep := 0, q := Frac.zero, src := 0 } } := by
  unfold clearEstimate
  cases s.estA.valid <;> rfl

theorem dropAccepted_frame (s : State) : dropAccepted s = { s with auth := (dropAccepted s).auth } := by
  unfold dropAccepted
  split
  · split <;> rfl
  · rfl

/-- R456: the end of a pack's session clears the estimate, but not the pack. -/
theorem packClear_frame (s : State) : packClear s =
    { s with irqStat := (packClear s).irqStat, auth := (packClear s).auth, estA := (packClear s).estA } := by
  unfold packClear
  rw [dropAccepted_frame, clearEstimate_frame]

theorem packClear_est (s : State) : (packClear s).estA.valid = false ∧ (packClear s).estA.fcc = 0 ∧
    (packClear s).estA.restore = none := by
  unfold packClear
  rw [dropAccepted_frame, clearEstimate_frame]
  exact ⟨rfl, rfl, rfl⟩

/-! ### BCTL (R193, R456) -/

/-- The pack with a new identification mode, its session ended. -/
def idmPack (s : State) (idm : Nat) : State :=
  { s with pack := { s.pack with
    idm := idm, pres := if idm = 0 then 1 else 2, verif := false, frozen := false, open_ := false, candN := 0
    rem := !decide (idm = 0) && (s.pack.rem || decide (s.pack.pres = 1)), swap := s.pack.swap && !decide (idm = 0)
    remCnt := sat1 s.pack.remCnt, pil := s.pack.pil.outside } }

/-- The machine with a new identification mode, before the events that it signals. -/
def idmTaken (s : State) (idm : Nat) : State :=
  if idm = 0 then restartInit (beginSession (packClear (idmPack s idm))) else packClear (idmPack s idm)

theorem idmChange_same (s : State) : idmChange s s.pack.idm = s := if_pos rfl

theorem idmChange_new {s : State} {idm : Nat} (h : idm ≠ s.pack.idm) :
    idmChange s idm = packTrigger s (packSignal s (idmTaken s idm)) := by
  refine (if_neg h).trans ?_
  unfold idmTaken idmPack
  by_cases hnone : idm = 0
  · subst hnone; rfl
  · simp [hnone]

theorem packTrigger_frame (old s : State) : packTrigger old s = { s with batA := (packTrigger old s).batA } := by
  unfold packTrigger
  split
  · exact trigger_frame s _
  · rfl

/-- R456: what a new mode makes of the pack and of the estimate. -/
theorem idmTaken_pack (s : State) (idm : Nat) :
    (idmTaken s idm).pack.idm = idm ∧ (idmTaken s idm).pack.verif = false ∧ (idmTaken s idm).pack.frozen = false ∧
    (idmTaken s idm).pack.candN = 0 ∧ (idmTaken s idm).pack.pres = (if idm = 0 then 1 else 2) ∧
    (idmTaken s idm).pack.remCnt = sat1 s.pack.remCnt ∧
    (idmTaken s idm).pack.rem = (!decide (idm = 0) && (s.pack.rem || decide (s.pack.pres = 1))) := by
  have hpack : (packClear (idmPack s idm)).pack = (idmPack s idm).pack := by rw [packClear_frame]
  unfold idmTaken
  split
  · next hnone =>
    simp only [restartInit, beginSession, hpack]
    simp [idmPack, hnone]
  · next hsome =>
    rw [hpack]
    simp [idmPack, hsome]

theorem idmTaken_est (s : State) (idm : Nat) : (idmTaken s idm).estA.valid = false ∧
    (idmTaken s idm).estA.fcc = 0 ∧ (idmTaken s idm).estA.restore = none := by
  unfold idmTaken
  split
  · exact packClear_est (idmPack s idm)
  · exact packClear_est (idmPack s idm)

theorem idmTaken_frame (s : State) (idm : Nat) : idmTaken s idm =
    { s with irqStat := (idmTaken s idm).irqStat, auth := (idmTaken s idm).auth, estA := (idmTaken s idm).estA
             pack := (idmTaken s idm).pack } := by
  have h := packClear_frame (idmPack s idm)
  unfold idmTaken
  generalize packClear (idmPack s idm) = t at h
  rw [h]
  split <;> rfl

theorem idmChange_frame (s : State) (idm : Nat) : idmChange s idm =
    { s with irqStat := (idmChange s idm).irqStat, auth := (idmChange s idm).auth, estA := (idmChange s idm).estA
             pack := (idmChange s idm).pack, batA := (idmChange s idm).batA } := by
  by_cases h : idm = s.pack.idm
  · rw [h, idmChange_same]
  · rw [idmChange_new h, packTrigger_frame]
    have hsignal : packSignal s (idmTaken s idm) = { idmTaken s idm with
      irqStat := (packSignal s (idmTaken s idm)).irqStat } := setIrqIf_frame _ _ _
    rw [hsignal, idmTaken_frame]

/-- A new mode is signalled in IRQSTAT and may trigger channel A; pack and estimate are those it makes. -/
theorem idmChange_taken {s : State} {idm : Nat} (h : idm ≠ s.pack.idm) :
    (idmChange s idm).pack = (idmTaken s idm).pack ∧ (idmChange s idm).estA = (idmTaken s idm).estA := by
  rw [idmChange_new h, packTrigger_frame]
  have hsignal : packSignal s (idmTaken s idm) = { idmTaken s idm with
    irqStat := (packSignal s (idmTaken s idm)).irqStat } := setIrqIf_frame _ _ _
  rw [hsignal]
  exact ⟨rfl, rfl⟩

/-- BCTL's fields in channel A, before their effects. -/
def bctlSet (s : State) (v : Word) : State :=
  let a := s.batA
  { s with batA := { a with
    ena := bit v 0, harv := bit v 2, hdec := fld v 3 2, iq := fld v 7 2
    ending := a.ending || (a.started && a.ena && !bit v 0)
    htrigd := a.htrigd && !bit v 2, trig := if bit v 2 then a.trig else none } }

/-- What the fields set have, and a dropped record and a start keep, BCTL's fields leave. -/
theorem bctlFields_rule {P : State → Prop} {s : State} {v : Word} (hset : P (bctlSet s v))
    (hdrop : ∀ t, P t → P (dropRecord t)) (hstart : ∀ t, P t → P (startA t)) : P (bctlFields s v) := by
  unfold bctlFields
  extract_lets a ena harv s1 s2
  have hs2 : P s2 := by
    unfold s2
    split
    · exact hdrop _ hset
    · exact hset
  split
  · exact hstart _ hs2
  · exact hs2

theorem bctlFields_frame (s : State) (v : Word) : bctlFields s v =
    { s with batA := (bctlFields s v).batA, estA := (bctlFields s v).estA } :=
  bctlFields_rule (P := fun t => t = { s with batA := t.batA, estA := t.estA }) rfl
    (fun t h => by rw [h]; rfl) (fun t h => by rw [h]; rfl)

/-- R193: the fields of BCTL other than IDM, of channel A. -/
theorem bctlFields_batA (s : State) (v : Word) :
    (bctlFields s v).batA.ena = bit v 0 ∧ (bctlFields s v).batA.harv = bit v 2 ∧
    (bctlFields s v).batA.hdec = fld v 3 2 ∧ (bctlFields s v).batA.iq = fld v 7 2 :=
  bctlFields_rule (P := fun t => t.batA.ena = bit v 0 ∧ t.batA.harv = bit v 2 ∧ t.batA.hdec = fld v 3 2 ∧
    t.batA.iq = fld v 7 2) ⟨rfl, rfl, rfl, rfl⟩ (fun _ h => h) (fun _ h => h)

/-- Starting channel A clears the estimator's intervals, not the estimate. -/
theorem bctlFields_est (s : State) (v : Word) : (bctlFields s v).estA.valid = s.estA.valid ∧
    (bctlFields s v).estA.fcc = s.estA.fcc ∧ (bctlFields s v).estA.restore = s.estA.restore :=
  bctlFields_rule (P := fun t => t.estA.valid = s.estA.valid ∧ t.estA.fcc = s.estA.fcc ∧
    t.estA.restore = s.estA.restore) ⟨rfl, rfl, rfl⟩ (fun _ h => h) (fun _ h => h)

theorem bctlWrite_taken {s : State} {p : Port} {v : Word} (h : fld v 5 2 ≠ 3) :
    bctlWrite s p v = bctlFields (idmChange s (fld v 5 2)) v := if_neg h

/-- R193: a BCTL write that is not refused. -/
theorem bctlWrite_accepted {s t : State} {p : Port} {v : Word} (h : fld v 5 2 ≠ 3) (ht : bctlWrite s p v = t) :
    t.batA.ena = bit v 0 ∧ t.batA.harv = bit v 2 ∧ t.batA.hdec = fld v 3 2 ∧ t.batA.iq = fld v 7 2 ∧
    t.pack.idm = fld v 5 2 ∧ t.mem = s.mem ∧ t.err = s.err ∧
    (fld v 5 2 = s.pack.idm → t.pack = s.pack ∧ t.irqStat = s.irqStat) := by
  have hidm : (idmChange s (fld v 5 2)).pack.idm = fld v 5 2 := by
    by_cases hsame : fld v 5 2 = s.pack.idm
    · rw [hsame, idmChange_same]
    · rw [(idmChange_taken hsame).1]
      exact (idmTaken_pack s _).1
  have hsame : fld v 5 2 = s.pack.idm → idmChange s (fld v 5 2) = s := fun hsame => by rw [hsame, idmChange_same]
  have hkept := idmChange_frame s (fld v 5 2)
  rw [bctlWrite_taken h] at ht
  generalize idmChange s (fld v 5 2) = u at hidm hsame hkept ht
  have hframe := bctlFields_frame u v
  obtain ⟨hena, hharv, hhdec, hiq⟩ := bctlFields_batA u v
  rw [ht] at hframe hena hharv hhdec hiq
  refine ⟨hena, hharv, hhdec, hiq, ?_, ?_, ?_, fun hn => ?_⟩
  · rw [hframe, hidm]
  · rw [hframe, hkept]
  · rw [hframe, hkept]
  · rw [hframe, hsame hn]
    exact ⟨rfl, rfl⟩

/-- R456: a BCTL write with a new mode ends the session. -/
theorem bctlWrite_session {s t : State} {p : Port} {v : Word} {idm : Nat} (hidm : fld v 5 2 = idm) (h : idm ≠ 3)
    (hnew : idm ≠ s.pack.idm) (ht : bctlWrite s p v = t) : t.pack.idm = idm ∧ t.pack.verif = false ∧
    t.pack.frozen = false ∧ t.pack.candN = 0 ∧ t.pack.pres = (if idm = 0 then 1 else 2) ∧ t.estA.valid = false ∧
    t.estA.fcc = 0 ∧ t.estA.restore = none ∧ t.pack.remCnt = sat1 s.pack.remCnt ∧
    t.pack.rem = (!decide (idm = 0) && (s.pack.rem || decide (s.pack.pres = 1))) := by
  obtain ⟨hpack, hest⟩ := idmChange_taken hnew
  obtain ⟨h1, h2, h3, h4, h5, h6, h7⟩ := idmTaken_pack s idm
  obtain ⟨hvalid, hfcc, hrestore⟩ := idmTaken_est s idm
  rw [bctlWrite_taken (by rwa [hidm]), hidm] at ht
  generalize idmChange s idm = u at hpack hest ht
  have hframe := bctlFields_frame u v
  obtain ⟨hvalidT, hfccT, hrestoreT⟩ := bctlFields_est u v
  rw [ht] at hframe hvalidT hfccT hrestoreT
  have hpackT : t.pack = (idmTaken s idm).pack := by rw [hframe]; exact hpack
  rw [hpackT, hvalidT, hfccT, hrestoreT, hest]
  exact ⟨h1, h2, h3, h4, h5, hvalid, hfcc, hrestore, h6, h7⟩

/-- The word that IDM's row writes: BCTL as it reads, with the new mode. -/
theorem fld_idmWord (x iq : Nat) (d : BitVec 2) : fld (wordOf (x % 32 + 32 * d.toNat + 128 * iq)) 5 2 = d.toNat := by
  have hd := d.isLt
  have hfld (n : Nat) : fld (wordOf n) 5 2 = n % 65536 / 32 % 4 := by simp [fld, wordOf]
  rw [hfld]
  omega

/-! ### Conversions of channel A (R397, R398, R402, R415, R443) -/

/-- The raw codes of a conversion kept, with its time stamp. -/
def sampled (s : State) (m : Sample) : State :=
  let a := s.batA
  { s with batA := { a with
    ts := a.ts + 1, valid := true, rawV := m.rawV.signExtend 32, rawI := m.rawI.signExtend 32
    rawT := m.rawT.signExtend 32
    anchorTs := if a.valid then a.anchorTs else a.ts
    anchorSec := if a.valid then a.anchorSec else s.aon.sec
    anchorSub := if a.valid then a.anchorSub else wordOf s.aon.sub
    orCnt := min 0xFFFF (a.orCnt + ((if overV m then 1 else 0) + (if overI m then 1 else 0))) } }

/-- What the conversion adds to an interval. -/
def sampleAdd (s : State) (m : Sample) (k : Acc) : Acc :=
  k.add (scaleV s m) (scaleI s m) (scaleT s m) (overV m) (overI m) (countedI s (scaleI s m))

/-- The conversion kept, and its over-range flag where it is out of range. -/
def ranged (s : State) (m : Sample) : State :=
  if overV m = true ∨ overI m = true then setOra (sampled s m) else sampled s m

/-- The conversion in the estimator's interval and in the harvest record. -/
def booked (s : State) (m : Sample) : State :=
  harvestConv (intervalConv (ranged s m) (sampleAdd s m)) s.batA.ts (sampleAdd s m)

theorem conversion_runs {s : State} (m : Sample) (hstarted : s.batA.started = true) (hslots : slotsRun s = true) :
    conversion s m = endConversion (booked s m) := if_pos ⟨hstarted, hslots⟩

theorem setOra_frame (s : State) : setOra s = { s with batA := (setOra s).batA, irqStat := (setOra s).irqStat } := by
  unfold setOra
  split
  · rfl
  · rw [trigger_frame]
    rfl

/-- What of channel A a trigger, an over-range flag and a harvest record leave alone. -/
structure ChannelView where
  acc : Acc
  due : Option Acc
  ts : BitVec 32
  rawV : BitVec 32
  ending : Bool
  ena : Bool

def channelView (a : BatA) : ChannelView := ⟨a.acc, a.due, a.ts, a.rawV, a.ending, a.ena⟩

theorem channelView_trigger (s : State) (i : Nat) : channelView (trigger s i).batA = channelView s.batA := by
  unfold trigger
  split
  · split <;> rfl
  · rfl

theorem setOra_channel (s : State) : channelView (setOra s).batA = channelView s.batA ∧ (setOra s).batA.ora = true := by
  unfold setOra
  split
  · next hora => exact ⟨rfl, hora⟩
  · exact ⟨channelView_trigger _ _, (trigger_ora _ _).trans rfl⟩

theorem ranged_frame (s : State) (m : Sample) :
    ranged s m = { s with batA := (ranged s m).batA, irqStat := (ranged s m).irqStat } := by
  unfold ranged
  split
  · rw [setOra_frame]
    rfl
  · rfl

theorem ranged_channel (s : State) (m : Sample) : channelView (ranged s m).batA = channelView (sampled s m).batA ∧
    ((overV m = true ∨ overI m = true) → (ranged s m).batA.ora = true) := by
  unfold ranged
  split
  · exact ⟨(setOra_channel _).1, fun _ => (setOra_channel _).2⟩
  · next hin => exact ⟨rfl, fun h => absurd h hin⟩

theorem harvestConv_frame (s : State) (ts : BitVec 32) (add : Acc → Acc) :
    harvestConv s ts add = { s with batA := (harvestConv s ts add).batA } ∧
    channelView (harvestConv s ts add).batA = channelView s.batA ∧
    (harvestConv s ts add).batA.ora = s.batA.ora := by
  by_cases hharv : s.batA.harv = true ∧ s.batA.ena = true
  · rw [harvestConv, if_pos hharv]
    extract_lets a first len t0 k
    split <;> exact ⟨rfl, rfl, rfl⟩
  · rw [harvestConv, if_neg hharv]
    exact ⟨rfl, rfl, rfl⟩

/-- What of the estimator's state outlasts a stop of its channel. -/
structure EstView where
  fcc : Nat
  r0s : Nat
  ecyc : Nat
  flow : Nat

def estView (e : Est) : EstView := ⟨e.fcc, e.r0s, e.ecyc, e.flow⟩

/-- The charge of the intervals that are not booked yet is kept (R443). -/
def chargeKept (s : State) : Est :=
  match s.batA.due with
  | some d => keepCharge (keepCharge s.estA s.batA.acc) d
  | none => keepCharge s.estA s.batA.acc

theorem chargeKept_view (s : State) : estView (chargeKept s) = estView s.estA := by
  unfold chargeKept
  split <;> rfl

theorem intervalConv_frame (s : State) (add : Acc → Acc) :
    intervalConv s add = { s with batA := { s.batA with acc := (intervalConv s add).batA.acc, due := (intervalConv s add).batA.due }
                                  estA := (intervalConv s add).estA } := by
  unfold intervalConv
  dsimp only
  split <;> rfl

/-- R402: the fortieth conversion ends the interval. -/
theorem intervalConv_full {s : State} {add : Acc → Acc} (h : 40 ≤ (add s.batA.acc).n) :
    (intervalConv s add).batA.acc = Acc.zero ∧ (intervalConv s add).batA.due = some (add s.batA.acc) := by
  unfold intervalConv
  rw [if_pos h]
  exact ⟨rfl, rfl⟩

theorem intervalConv_view (s : State) (add : Acc → Acc) : estView (intervalConv s add).estA = estView s.estA := by
  unfold intervalConv
  dsimp only
  split
  · split <;> rfl
  · rfl

theorem intervalConv_part {s : State} {add : Acc → Acc} (h : (add s.batA.acc).n < 40) : intervalConv s add =
    { s with estA := { s.estA with initLeft := s.estA.initLeft - 1 }, batA := { s.batA with acc := add s.batA.acc } } :=
  if_neg (by omega)

/-- The booking keeps everything outside channel A, its estimate and IRQSTAT. -/
theorem booked_frame (s : State) (m : Sample) : booked s m =
    { s with batA := (booked s m).batA, estA := (booked s m).estA, irqStat := (booked s m).irqStat } := by
  unfold booked
  rw [(harvestConv_frame _ _ _).1, intervalConv_frame, ranged_frame]

theorem booked_channel (s : State) (m : Sample) :
    (booked s m).batA.ts = s.batA.ts + 1 ∧ (booked s m).batA.rawV = m.rawV.signExtend 32 ∧
    (booked s m).batA.ending = s.batA.ending ∧ (booked s m).batA.ena = s.batA.ena ∧
    ((overV m = true ∨ overI m = true) → (booked s m).batA.ora = true) ∧
    (39 ≤ s.batA.acc.n → (booked s m).batA.acc = Acc.zero ∧ (booked s m).batA.due ≠ none) := by
  obtain ⟨hranged, hora⟩ := ranged_channel s m
  have hinterval := intervalConv_frame (ranged s m) (sampleAdd s m)
  have hfull := intervalConv_full (s := ranged s m) (add := sampleAdd s m)
  obtain ⟨-, hview, horaH⟩ := harvestConv_frame (intervalConv (ranged s m) (sampleAdd s m)) s.batA.ts (sampleAdd s m)
  have hacc : (ranged s m).batA.acc = s.batA.acc := congrArg ChannelView.acc hranged
  change channelView (booked s m).batA = _ at hview
  change (booked s m).batA.ora = _ at horaH
  have hkept {α : Type} (f : ChannelView → α) (hf : ∀ v a d, f { v with acc := a, due := d } = f v) :
      f (channelView (booked s m).batA) = f (channelView (sampled s m).batA) := by
    rw [hview, hinterval, ← hranged]
    exact hf (channelView (ranged s m).batA) _ _
  refine ⟨hkept ChannelView.ts fun _ _ _ => rfl, hkept ChannelView.rawV fun _ _ _ => rfl,
    hkept ChannelView.ending fun _ _ _ => rfl, hkept ChannelView.ena fun _ _ _ => rfl, fun hover => ?_, fun hn => ?_⟩
  · rw [horaH, hinterval]
    exact hora hover
  · have hn' : 40 ≤ (sampleAdd s m (ranged s m).batA.acc).n := by
      rw [hacc]
      exact Nat.succ_le_succ hn
    obtain ⟨hzero, hdue⟩ := hfull hn'
    refine ⟨(congrArg ChannelView.acc hview).trans hzero, ?_⟩
    have hd : (booked s m).batA.due = some _ := (congrArg ChannelView.due hview).trans hdue
    simp [hd]

theorem booked_est (s : State) (m : Sample) : estView (booked s m).estA = estView s.estA := by
  have hest : (booked s m).estA = (intervalConv (ranged s m) (sampleAdd s m)).estA := by
    unfold booked
    rw [(harvestConv_frame _ _ _).1]
  rw [hest, intervalConv_view, ranged_frame]

/-- A conversion within range, in the middle of an interval and with no record open, only enters its interval. -/
theorem booked_within {s : State} {m : Sample} (hv : overV m = false) (hi : overI m = false) (hn : s.batA.acc.n < 39)
    (hharv : s.batA.harv = false) : booked s m = { sampled s m with
      estA := { s.estA with initLeft := s.estA.initLeft - 1 }
      batA := { (sampled s m).batA with acc := sampleAdd s m s.batA.acc } } := by
  have hranged : ranged s m = sampled s m := if_neg (by simp [hv, hi])
  have hpart : (sampleAdd s m (sampled s m).batA.acc).n < 40 := Nat.succ_lt_succ hn
  unfold booked
  rw [hranged, intervalConv_part hpart]
  refine (if_neg ?_).trans rfl
  simp [sampled, hharv]

/-- R443: the clearing of ENA leaves of the estimate what outlasts it, and signals a flow that stood. -/
theorem enaClear_frame (s : State) : enaClear s =
    { s with
      irqStat := (enaClear s).irqStat
      estA := { Est.ready with
        fcc := s.estA.fcc, soh := s.estA.soh, r0s := s.estA.r0s, ecyc := s.estA.ecyc, ecycQ := s.estA.ecycQ
        pendDis := s.estA.pendDis, restore := s.estA.restore } } := by
  unfold enaClear
  rw [setIrqIf_frame, clearEstimate_frame]

theorem enaClear_irq {s : State} (h : s.estA.flow ≠ 0) : bit (enaClear s).irqStat 7 = true := by
  have hset : (enaClear s).irqStat = (clearEstimate s).irqStat ||| wordOf (2 ^ 7) := by
    unfold enaClear
    rw [decide_eq_true h]
    rfl
  rw [hset, bit, BitVec.getLsbD_or]
  exact Bool.or_true _

/-- The channel goes with its last conversion (R398, R443). -/
theorem stopA_ended {s : State} (h : s.batA.ending = true) :
    (stopA s).batA.ena = s.batA.ena ∧ (stopA s).batA.started = false ∧ (stopA s).batA.valid = false ∧
    (stopA s).batA.ending = false ∧ (stopA s).batA.ts = s.batA.ts ∧ (stopA s).batA.acc = Acc.zero ∧
    (stopA s).batA.due = none ∧ (stopA s).mem = s.mem ∧
    (stopA s).estA = { Est.ready with
      fcc := s.estA.fcc, soh := (stopA s).estA.soh, r0s := s.estA.r0s, ecyc := s.estA.ecyc
      ecycQ := (stopA s).estA.ecycQ, pendDis := (stopA s).estA.pendDis, restore := (stopA s).estA.restore } ∧
    (s.estA.flow ≠ 0 → bit (stopA s).irqStat 7 = true) := by
  have hstop : stopA s = dropRecord { enaClear { s with estA := chargeKept s } with
      batA := { s.batA with started := false, ending := false, valid := false, acc := Acc.zero, due := none, held := none } } := by
    unfold stopA
    dsimp only
    rw [if_pos h]
    rfl
  have hview := chargeKept_view s
  have hframe := enaClear_frame { s with estA := chargeKept s }
  have hirq := enaClear_irq (s := { s with estA := chargeKept s })
  dsimp only at hframe hirq
  rw [show (chargeKept s).flow = s.estA.flow from congrArg EstView.flow hview] at hirq
  rw [show (chargeKept s).fcc = s.estA.fcc from congrArg EstView.fcc hview,
    show (chargeKept s).r0s = s.estA.r0s from congrArg EstView.r0s hview,
    show (chargeKept s).ecyc = s.estA.ecyc from congrArg EstView.ecyc hview] at hframe
  rw [hstop]
  generalize enaClear { s with estA := chargeKept s } = u at hframe hirq
  refine ⟨rfl, rfl, rfl, rfl, rfl, rfl, rfl, ?_, ?_, hirq⟩
  · rw [hframe]
    rfl
  · rw [hframe]
    rfl

/-- The conversion of a channel that goes on. -/
theorem endConversion_on {s : State} (h : s.batA.ending = false) : endConversion s = s := if_neg (by simp [h])

/-- R398, R443: the last conversion of a channel, with which the estimator state goes; the channel starts anew where
ENA has been set again. -/
theorem endConversion_last {s t : State} (h : s.batA.ending = true) (ht : endConversion s = t) :
    t.batA.started = s.batA.ena ∧ t.batA.valid = false ∧ t.batA.ending = false ∧ t.batA.ts = s.batA.ts ∧
    t.batA.acc = Acc.zero ∧ t.batA.due = none ∧ t.estA.valid = false ∧ t.estA.fcc = s.estA.fcc ∧
    t.estA.r0s = s.estA.r0s ∧ t.estA.ecyc = s.estA.ecyc ∧ t.estA.flow = 0 ∧ t.estA.restS = 0 ∧
    (s.estA.flow ≠ 0 → bit t.irqStat 7 = true) ∧ t.estA.pendCount = 0 ∧ t.estA.pendOr = false ∧ t.estA.corrCnt = 0 ∧
    t.estA.lrn = [] ∧ (s.batA.ena = true → t.estA.initLeft = 400 ∧ t.estA.f = Frac.zero) := by
  obtain ⟨hena, hstarted, hvalid, hending, hts, hacc, hdue, -, hest, hirq⟩ := stopA_ended h
  have hend : t = if s.batA.ena = true then startA (stopA s) else stopA s := ht.symm.trans (if_pos h)
  generalize stopA s = u at *
  have hkept : u.estA.valid = false ∧ u.estA.fcc = s.estA.fcc ∧ u.estA.r0s = s.estA.r0s ∧ u.estA.ecyc = s.estA.ecyc ∧
      u.estA.flow = 0 ∧ u.estA.restS = 0 ∧ u.estA.pendCount = 0 ∧ u.estA.pendOr = false ∧ u.estA.corrCnt = 0 ∧
      u.estA.lrn = [] := by
    rw [hest]
    exact ⟨rfl, rfl, rfl, rfl, rfl, rfl, rfl, rfl, rfl, rfl⟩
  obtain ⟨hest, hfcc, hr0s, hecyc, hflow, hrest, hcount, hor, hcorr, hlrn⟩ := hkept
  cases hon : s.batA.ena with
  | true =>
    rw [hon, if_pos rfl] at hend
    rw [hend]
    exact ⟨rfl, rfl, hending, hts, rfl, rfl, hest, hfcc, hr0s, hecyc, hflow, rfl, hirq, hcount, hor, hcorr, hlrn,
      fun _ => ⟨rfl, rfl⟩⟩
  | false =>
    rw [hon, if_neg Bool.false_ne_true] at hend
    rw [hend]
    exact ⟨hstarted, hvalid, hending, hts, hacc, hdue, hest, hfcc, hr0s, hecyc, hflow, hrest, hirq, hcount, hor, hcorr,
      hlrn, fun hn => absurd hn Bool.false_ne_true⟩

/-! ### The statement -/

/-- The row of an IDM change writes BCTL with the new mode, and its gate lets it pass. -/
theorem exec_idmChange {p : Port} {s : State} (d : BitVec 2) (h : readable s p) (hmode : s.pw.mode ≠ .corkEntry)
    (hgen : p = .portP → s.pw.gen ≠ .gen1) : ∃ w, fld w 5 2 = d.toNat ∧
    exec (.idmChange p d) s = .next (bctlWrite (gen1Empty s p 0x1D) p w) := by
  refine ⟨_, fld_idmWord (bctlRead s).toNat s.batA.iq d, exec_reach (body := fun s w => bctlWrite s p w) rfl ?_⟩
  exact ⟨h.1, h.2, by decide, if_neg fun hn => hgen hn.1 hn.2, fun hn => absurd hn hmode⟩

/-- R193 on the wires of a write that reaches BCTL. -/
theorem exec_bctlWrite {p : Port} {v w : Word} {s : State} (h : reachesRule s p 0x1D v w) (hidm : fld w 5 2 ≠ 3) :
    ∃ t, exec (.bctlWrite p v) s = .next t ∧ t.batA.ena = bit w 0 ∧ t.batA.harv = bit w 2 ∧
      t.batA.hdec = fld w 3 2 ∧ t.batA.iq = fld w 7 2 ∧ t.pack.idm = fld w 5 2 ∧ t.mem = s.mem ∧ t.err = s.err ∧
      (fld w 5 2 = s.pack.idm → t.pack = s.pack ∧ t.irqStat = s.irqStat) := by
  obtain ⟨t, ht⟩ : ∃ t, bctlWrite (gen1Empty s p 0x1D) p w = t := ⟨_, rfl⟩
  refine ⟨t, exec_reach_to rfl h ht, ?_⟩
  simpa using bctlWrite_accepted hidm ht

/-- R456 on the wires of an IDM change. -/
theorem exec_idmChange_session {p : Port} {d : BitVec 2} {s : State} (h : readable s p) (hmode : s.pw.mode ≠ .corkEntry)
    (hgen : p = .portP → s.pw.gen ≠ .gen1) (hd : d.toNat ≠ 3) (hnew : d.toNat ≠ s.pack.idm) :
    ∃ t, exec (.idmChange p d) s = .next t ∧ t.pack.idm = d.toNat ∧ t.pack.verif = false ∧ t.pack.frozen = false ∧
      t.pack.candN = 0 ∧ t.pack.pres = (if d = 0 then 1 else 2) ∧ t.estA.valid = false ∧ t.estA.fcc = 0 ∧
      t.estA.restore = none ∧ t.pack.remCnt = sat1 s.pack.remCnt ∧
      t.pack.rem = (decide (d ≠ 0) && (s.pack.rem || decide (s.pack.pres = 1))) := by
  obtain ⟨w, hidm, hrow⟩ := exec_idmChange d h hmode hgen
  have hpack := gen1Empty_pack s p 0x1D
  obtain ⟨t, ht⟩ : ∃ t, bctlWrite (gen1Empty s p 0x1D) p w = t := ⟨_, rfl⟩
  have hsession := bctlWrite_session hidm hd (by rwa [hpack]) ht
  have hzero : d.toNat = 0 ↔ d = 0 := by simp [← BitVec.toNat_inj]
  rw [ht] at hrow
  refine ⟨t, hrow, ?_⟩
  rw [hpack] at hsession
  simpa only [hzero, ne_eq, decide_not] using hsession

/-- Settles O46: BCTL's fields, the change of the pack's mode, and each conversion by the state of its channel. -/
theorem batteryControlAndConversions : Obligations.BatteryControlAndConversions := by
  unfold Obligations.BatteryControlAndConversions
  refine ⟨⟨fun p v w s => exec_bctlWrite, fun p v w s h hidm => exec_reach_to rfl h (if_pos hidm),
    fun p d s => exec_idmChange_session⟩, ?within, ?goesOn, ?last, ?stopped⟩
  case within =>
    intro m s hstarted hslots hending hv hi hn hharv
    have hbooked := booked_within (m := m) hv hi hn hharv
    have hrow : exec (.conversion m) s = .next (conversion s m) := rfl
    have hon : endConversion (booked s m) = booked s m := endConversion_on (by rw [(booked_channel s m).2.2.1, hending])
    rw [hrow, conversion_runs m hstarted hslots, hon, hbooked]
    simp [sampled, sampleAdd, hv, hi]
  case goesOn =>
    intro m s hstarted hslots hending
    obtain ⟨hts, hrawV, hend, -, hora, hfull⟩ := booked_channel s m
    have hmem : (booked s m).mem = s.mem := by rw [booked_frame]
    have hrow : exec (.conversion m) s = .next (booked s m) := congrArg Host.Outcome.next
      ((conversion_runs m hstarted hslots).trans (endConversion_on (hend.trans hending)))
    exact ⟨_, hrow, hts, hrawV, hmem, hora, hfull⟩
  case last =>
    intro m s hstarted hslots hending
    obtain ⟨hts, -, hend, hena, -⟩ := booked_channel s m
    have hview := booked_est s m
    have hfcc : (booked s m).estA.fcc = s.estA.fcc := congrArg EstView.fcc hview
    have hr0s : (booked s m).estA.r0s = s.estA.r0s := congrArg EstView.r0s hview
    have hecyc : (booked s m).estA.ecyc = s.estA.ecyc := congrArg EstView.ecyc hview
    have hflow : (booked s m).estA.flow = s.estA.flow := congrArg EstView.flow hview
    obtain ⟨t, ht⟩ : ∃ t, endConversion (booked s m) = t := ⟨_, rfl⟩
    have hlast := endConversion_last (hend.trans hending) ht
    rw [hts, hena, hfcc, hr0s, hecyc, hflow] at hlast
    exact ⟨t, congrArg Host.Outcome.next ((conversion_runs m hstarted hslots).trans ht), hlast⟩
  case stopped =>
    intro m s hstopped
    refine congrArg Host.Outcome.next (if_neg ?_)
    rcases hstopped with h | h <;> simp [h]

end Sys2Proof.Machine
end

section
/-! The RTC's registers, the island's time and the backup timekeeper (R199 to R201, R508 to R511, R525, O59). -/

namespace Sys2Proof.Machine

open Sys2Proof

/-! ### RTC_L, RTC_H, RTC_SUB and RTC_ALM on the ports -/

/-- The snapshot that a read of RTC_L has taken outlasts the end of the read. -/
theorem rtcSnap_readDone (s : State) (p : Port) (a : Fin 64) (v : Word) :
    (getPort (readDone s p a v) p).rtcSnap = (getPort s p).rtcSnap := by
  cases p with
  | portP => unfold readDone; dsimp only; split <;> rfl
  | portS => rfl

/-- R199, R102: what a read of RTC_L answers, and the snapshot that it leaves in its port. -/
theorem exec_rtcLRead {p : Port} {s : State} (h : readable s p) : ∃ t, exec (.rtcLRead p) s = .next t ∧
    t = setPort s p (getPort t p) ∧ (getPort t p).rdata = onPortBus s p (wordOf s.aon.sec.toNat) ∧
    rtcHRead t p = wordOf (s.aon.sec.toNat / 0x10000) ∧ rtcSubRead t p = wordOf s.aon.sub := by
  have hrow : exec (.rtcLRead p) s = .next (readDone (rtcLReadOp s p).2 p 0x2A (rtcLReadOp s p).1) :=
    congrArg Host.Outcome.next (readGate_read h)
  have hframe := readDone_frame (rtcLReadOp s p).2 p 0x2A (rtcLReadOp s p).1
  have hsnap := rtcSnap_readDone (rtcLReadOp s p).2 p 0x2A (rtcLReadOp s p).1
  have hdata : (getPort (readDone (rtcLReadOp s p).2 p 0x2A (rtcLReadOp s p).1) p).rdata =
      onPortBus s p (rtcLReadOp s p).1 := rdata_readDone fun hp => by subst hp; rfl
  generalize readDone (rtcLReadOp s p).2 p 0x2A (rtcLReadOp s p).1 = t at hrow hframe hsnap hdata
  have htaken : (getPort t p).rtcSnap = some (wordOf (s.aon.sec.toNat / 0x10000), wordOf s.aon.sub) := by
    rw [hsnap]
    cases p <;> rfl
  refine ⟨t, hrow, hframe.trans ?_, hdata, ?_, ?_⟩
  · cases p <;> rfl
  · unfold rtcHRead
    rw [htaken]
  · unfold rtcSubRead
    rw [htaken]

/-- R200: RTC_L waits in its port for RTC_H. -/
theorem exec_rtcLWrite {p : Port} {v w : Word} {s : State} (h : reachesRule s p 0x2A v w) :
    ∃ t, exec (.rtcLWrite p v) s = .next t ∧ t = setPort (gen1Empty s p 0x2A) p (getPort t p) ∧
      (getPort t p).rtcHold = some w ∧ t.aon = s.aon := by
  refine ⟨_, exec_reach_to rfl h rfl, ?_, ?_, ?_⟩
  · rw [rtcLWrite, getPort_setPort]
  · rw [rtcLWrite, getPort_setPort]
  · refine Eq.trans ?_ (gen1Empty_aon s p 0x2A)
    cases p <;> rfl

theorem rtcHWrite_held {s : State} {p : Port} {v l : Word} (h : (getPort s p).rtcHold = some l) :
    rtcHWrite s p v = aonPush (setPort s p { getPort s p with rtcHold := none }) (.rtc (v ++ l)) := by
  simp only [rtcHWrite, h]

theorem rtcHWrite_without {s : State} {p : Port} {v : Word} (h : (getPort s p).rtcHold = none) :
    rtcHWrite s p v = refuse s p eSTATE 0x56 := by
  simp only [rtcHWrite, h]

/-- The Gen1 latch of Port P is no part of a held RTC_L. -/
theorem rtcHold_gen1Empty (s : State) (p q : Port) (a : Fin 64) :
    (getPort (gen1Empty s p a) q).rtcHold = (getPort s q).rtcHold := by
  unfold gen1Empty
  split
  · cases q <;> rfl
  · rfl

/-- R200: RTC_H goes to the island with the low word held. -/
theorem exec_rtcHWrite {p : Port} {v w l : Word} {s : State} (h : reachesRule s p 0x2B v w)
    (hheld : (getPort s p).rtcHold = some l) :
    ∃ t, exec (.rtcHWrite p v) s = .next t ∧ (getPort t p).rtcHold = none ∧
      t = { setPort (gen1Empty s p 0x2B) p (getPort t p) with aon := { s.aon with q := s.aon.q ++ [.rtc (w ++ l)] } } := by
  refine ⟨_, exec_reach_to rfl h (rtcHWrite_held ((rtcHold_gen1Empty s p p 0x2B).trans hheld)), ?_, ?_⟩
  · cases p <;> rfl
  · have haon := gen1Empty_aon s p 0x2B
    generalize gen1Empty s p 0x2B = r at haon
    rw [← haon]
    cases p <;> rfl

/-- R99: RTC_ALM reads the value written last. -/
theorem regValue_rtcAlm_pushed (s : State) (q : Port) (w : Word) : regValue (rtcAlmWrite s w) q 0x5A = w := by
  have hlast : ((rtcAlmWrite s w).aon.q.filterMap almWritten).getLast? = some w := by
    simp [rtcAlmWrite, aonPush, almWritten]
  show rtcAlmRead (rtcAlmWrite s w) = w
  unfold rtcAlmRead
  rw [hlast]

/-! ### The island (R39, R508 to R510, R525) -/

theorem setIrq_keeps {s : State} {i : Nat} (h : bit s.irqStat i = true) (j : Nat) : bit (setIrq s j).irqStat i = true := by
  have hor : bit (setIrq s j).irqStat i = (bit s.irqStat i || bit (wordOf (2 ^ j)) i) := BitVec.getLsbD_or
  rw [hor, h, Bool.true_or]

theorem declareMiss_irq {s : State} {i : Nat} (h : bit s.irqStat i = true) : bit (declareMiss s).irqStat i = true := by
  unfold declareMiss
  rw [lampsSettle_frame]
  exact setIrq_keeps h _

theorem abandonSleep_irq {s : State} {i : Nat} (h : bit s.irqStat i = true) : bit (abandonSleep s).irqStat i = true := by
  unfold abandonSleep
  dsimp only
  split
  · exact declareMiss_irq (setIrq_keeps h _)
  · exact setIrq_keeps h _

theorem wakeEvent_irq {s : State} {i : Nat} (h : bit s.irqStat i = true) (k : Nat) :
    bit (wakeEvent s k).irqStat i = true := by
  unfold wakeEvent
  split
  · split
    · exact abandonSleep_irq h
    · rwa [startWake_frame]
  · exact h

theorem alarmFires_off {s : State} (h : s.aon.alarm ≠ some 0) : alarmFires s = s := if_neg fun hn => h hn.1

/-- R510: an alarm that fires latches ALARM, and changes nothing else of the island's time. -/
theorem alarmFires_due {s : State} (h : s.aon.alarm = some 0) (hon : islandOn s = true) :
    (alarmFires s).aon = { s.aon with alarm := none, latch := s.aon.latch ||| 8 } ∧
    bit (alarmFires s).irqStat 10 = true := by
  have hfires : alarmFires s = wakeEvent (setIrq (latchWake { s with aon := { s.aon with alarm := none } } wkALARM) irqALARM)
      wkALARM := if_pos ⟨h, hon⟩
  rw [hfires]
  refine ⟨?_, wakeEvent_irq ?_ _⟩
  · rw [wakeEvent_frame, latchWake_frame]
    rfl
  · have hor : bit (setIrq (latchWake { s with aon := { s.aon with alarm := none } } wkALARM) irqALARM).irqStat 10 = _ :=
      BitVec.getLsbD_or
    rw [hor]
    exact Bool.or_true _

/-- The machine with the oldest write on its way taken. -/
def aonTaken (s : State) (rest : List AonWrite) : State := { s with aon := { s.aon with q := rest } }

section
variable {s : State} {rest : List AonWrite} (hck : ckAon s = true)
include hck

theorem aonArrive_alm {n : Word} (hq : s.aon.q = .alm n :: rest) : aonArrive s =
    { alarmFires (aonTaken s rest) with
      aon := { (alarmFires (aonTaken s rest)).aon with alarm := if n = 0 then none else some n.toNat } } := by
  rw [aonArrive, if_pos hck]
  simp only [hq]
  rfl

theorem aonArrive_wakectl {v : Word} (hq : s.aon.q = .wakectl v :: rest) :
    aonArrive s = { s with aon := { s.aon with q := rest, wakeIs := v } } := by
  rw [aonArrive, if_pos hck]
  simp only [hq]

theorem aonArrive_wakestat {v : Word} (hq : s.aon.q = .wakestat v :: rest) : aonArrive s = aonTaken s rest := by
  rw [aonArrive, if_pos hck]
  simp only [hq]
  rfl

/-- The machine with the seconds count written. -/
def rtcTaken (s : State) (rest : List AonWrite) (x : BitVec 32) : State :=
  let t := startSecond (aonTaken s rest) x (calSecond x && !calSecond s.aon.sec)
  { t with aon := { t.aon with phase := 0 }, bak := { t.bak with follow := true } }

theorem aonArrive_rtc {x : BitVec 32} (hq : s.aon.q = .rtc x :: rest) :
    aonArrive s = backupFollow (rtcTaken s rest x) := by
  rw [aonArrive, if_pos hck]
  simp only [hq]
  rfl

end

/-- R39, R200, R201, R525: the oldest write on its way arrives, each at its own place. -/
theorem aonArrive_oldest {s t : State} {w : AonWrite} {rest : List AonWrite} (hck : ckAon s = true)
    (hq : s.aon.q = w :: rest) (ht : aonArrive s = t) :
    (s.aon.alarm ≠ some 0 → t = { s with aon := t.aon, bak := t.bak }) ∧ t.aon.q = rest ∧
    (∀ n, w = .alm n → s.aon.alarm = some 0 → t.aon.latch.getLsbD wkALARM = true ∧ bit t.irqStat 10 = true) ∧
    (∀ x, w = .rtc x → t.aon.sec = x ∧ t.aon.sub = 0 ∧ t.aon.phase = 0 ∧ t.bak.follow = true ∧
      (s.bak.powered = true → t.bak.sec = x)) ∧
    (∀ n, w = .alm n → t.aon.alarm = (if n = 0 then none else some n.toNat) ∧ t.aon.sec = s.aon.sec) ∧
    (∀ v, w = .wakectl v → t.aon = { s.aon with q := rest, wakeIs := v }) := by
  have hon : islandOn s = true := by
    unfold ckAon at hck
    simp only [Bool.and_eq_true] at hck
    exact hck.1
  subst ht
  cases w with
  | rtc x =>
    rw [aonArrive_rtc hck hq]
    refine ⟨fun _ => ?_, ?_, nofun, fun y hy => ?_, nofun, nofun⟩
    · rw [backupFollow_frame]
      rfl
    · rw [backupFollow_frame]
      rfl
    · injection hy with hy
      subst hy
      unfold backupFollow
      split
      · exact ⟨rfl, rfl, rfl, rfl, fun _ => rfl⟩
      · next hfollow => exact ⟨rfl, rfl, rfl, rfl, fun hp => absurd ⟨hp, rfl⟩ hfollow⟩
  | alm n =>
    rw [aonArrive_alm hck hq]
    by_cases hdue : s.aon.alarm = some 0
    · obtain ⟨haon, hirq⟩ := alarmFires_due (s := aonTaken s rest) hdue hon
      rw [haon]
      refine ⟨fun hn => absurd hdue hn, rfl, fun _ _ _ => ⟨?_, hirq⟩, nofun, fun m hm => ?_, nofun⟩
      · exact BitVec.getLsbD_or.trans (Bool.or_true _)
      · injection hm with hm
        subst hm
        exact ⟨rfl, rfl⟩
    · rw [alarmFires_off (s := aonTaken s rest) hdue]
      refine ⟨fun _ => rfl, rfl, fun _ _ hn => absurd hn hdue, nofun, fun m hm => ?_, nofun⟩
      injection hm with hm
      subst hm
      exact ⟨rfl, rfl⟩
  | wakectl v =>
    rw [aonArrive_wakectl hck hq]
    exact ⟨fun _ => rfl, rfl, nofun, nofun, nofun, fun _ hv => by injection hv with hv; subst hv; rfl⟩
  | wakestat v =>
    rw [aonArrive_wakestat hck hq]
    exact ⟨fun _ => rfl, rfl, nofun, nofun, nofun, nofun⟩

/-- The machine after the second that ends, before BKSEC follows. -/
def secondEnded (s : State) : State :=
  let t := startSecond (substituted s) (s.aon.sec + 1) (calSecond (s.aon.sec + 1))
  { t with aon := { t.aon with alarm := s.aon.alarm.map (· - 1) } }

theorem rtcSecond_counts {s : State} (h : ckAon s = true) : rtcSecond s = backupFollow (secondEnded s) := if_pos h

/-! ### The statement -/

/-- Settles O59: the RTC's and wake registers on the ports, the island's writes and seconds, and the backup domain. -/
theorem rtcRegistersAndIslandTime : Obligations.RtcRegistersAndIslandTime := by
  unfold Obligations.RtcRegistersAndIslandTime
  refine ⟨⟨fun p s => exec_rtcLRead, fun p v w s => exec_rtcLWrite, fun p v w l s => exec_rtcHWrite, ?unheld, ?alm,
    ?almReads, ?almLeft, ?wakestat⟩, ?arrival, ?second, ?unclocked, ?alone, ?loss, ?returns⟩
  case unheld =>
    exact fun p v w s h hheld => exec_reach_to rfl h (rtcHWrite_without ((rtcHold_gen1Empty s p p 0x2B).trans hheld))
  case alm =>
    intro p v w s h
    refine exec_reach_to rfl h ?_
    rw [rtcAlmWrite, aonPush, gen1Empty_aon]
  case almReads => exact fun p q v w s h => ⟨_, exec_reach_to rfl h rfl, regValue_rtcAlm_pushed _ q w⟩
  case almLeft =>
    intro q s hq
    show rtcAlmRead s = _
    unfold rtcAlmRead
    rw [hq]
    rfl
  case wakestat =>
    intro p v w s h
    refine exec_reach_to rfl h ?_
    rw [wakestatWrite, aonPush, gen1Empty_aon]
  case arrival => exact fun w rest s hck hq => ⟨_, rfl, aonArrive_oldest hck hq rfl⟩
  case second =>
    intro s h
    refine ⟨_, congrArg Host.Outcome.next (rtcSecond_counts h), ?_⟩
    unfold backupFollow
    split
    · next hfollow => exact ⟨rfl, rfl, rfl, rfl, fun _ _ => rfl, fun hn => absurd (hn.symm.trans hfollow.2) Bool.false_ne_true⟩
    · next hfollow => exact ⟨rfl, rfl, rfl, rfl, fun hp hf => absurd ⟨hp, hf⟩ hfollow, fun _ => rfl⟩
  case unclocked => exact fun s h => congrArg Host.Outcome.next (if_neg (by simp [h]))
  case alone => exact fun s hp hf hm => congrArg Host.Outcome.next (if_pos ⟨hp, by simp [hf], hm⟩)
  case loss =>
    intro s
    refine congrArg Host.Outcome.next ?_
    cases hm : s.pw.mode <;> simp [vbkupLoss, hm]
  case returns =>
    intro s hp
    refine congrArg Host.Outcome.next ((if_neg (by simp [hp])).trans ?_)
    cases hf : s.bak.follow <;> simp [backupFollow, hf]

end Sys2Proof.Machine
end

section
/-! The order of the arbiter for the rows that ask for an access (R28, R111, R224, R225, R227): which request an edge
grants, and what the bursts granted ahead take (part of O57). -/

namespace Sys2Proof.Machine

open Sys2Proof

/-! ### Reads of the vectors of levels -/

theorem vget_lt {α : Type} {n : Nat} (v : Vector α (n + 1)) {i : Nat} (h : i < n + 1) : vget v i = v[i] := dif_pos h

theorem vget_ofFn {α : Type} {n : Nat} (f : Fin (n + 1) → α) {i : Nat} (h : i < n + 1) : vget (Vector.ofFn f) i = f ⟨i, h⟩ := by
  rw [vget_lt _ h, Vector.getElem_ofFn]

theorem vget_vset_same {α : Type} {n : Nat} (v : Vector α (n + 1)) {i : Nat} (h : i < n + 1) (x : α) :
    vget (vset v i x) i = x := by
  rw [vset, dif_pos h, vget_lt _ h, Vector.getElem_set_self]

/-! ### The order of the requests (R224, R225) -/

theorem firstLow_none {f : Nat → Bool} (h : ∀ k, k < 5 → f k = false) : firstLow f = none := by
  have hfind : (List.range 5).find? f = none :=
    List.find?_eq_none.mpr fun k hk => by rw [h k (List.mem_range.mp hk)]; exact Bool.false_ne_true
  rw [firstLow, hfind]
  rfl

theorem firstLow_first {f : Nat → Bool} {k : Nat} (hk : k < 5) (hf : f k = true) (hbefore : ∀ j, j < k → f j = false) :
    firstLow f = some (k + 2) := by
  have hfind : (List.range 5).find? f = some k :=
    List.find?_range_eq_some.mpr ⟨hf, List.mem_range.mpr hk, fun j hj => by simp [hbefore j hj]⟩
  rw [firstLow, hfind]
  rfl

theorem vget_lowReqs (s : State) (own : Option Nat) {k : Nat} (h : k < 5) :
    vget (lowReqs s own) k = (longReq s (k + 2) || rowReq s (k + 2) || own == some (k + 2)) := vget_ofFn _ h

/-- No level asks: no share stands for one. -/
theorem sharePending_none {s : State} {low : Vector Bool 5} (h : low = Vector.replicate 5 false) :
    sharePending s low = none := by
  subst h
  have hnone : ∀ k : Fin 5, vget (Vector.replicate 5 false) k.val = false := by decide
  exact firstLow_none fun k hk => by rw [hnone ⟨k, hk⟩, Bool.false_and]

/-- The first level that asks, with share left. -/
theorem sharePending_first {s : State} {low : Vector Bool 5} {k : Nat} (hk : k < 5) (hlow : vget low k = true)
    (hrem : vget s.arb.rem k ≠ 0) (hbefore : ∀ j, j < k → vget low j = false) : sharePending s low = some (k + 2) :=
  firstLow_first hk (by simp [hlow, Nat.pos_of_ne_zero hrem]) fun j hj => by rw [hbefore j hj, Bool.false_and]

/-- Whether a port owes a yield (R225). -/
def owesYield (s : State) (p : Port) : Bool := if p = .portP then s.arb.yieldP else s.arb.yieldS

theorem heldBack_eq (s : State) (p : Port) (b : Bool) : heldBack s p b = (owesYield s p && b) := by cases p <;> rfl

/-- Port S's request goes first, unless it owes a yield to a share that is asked for. -/
theorem arbGrant_portS {s : State} {reqP : Bool} {low : Vector Bool 5}
    (h : (owesYield s .portS && (sharePending s low).isSome) = false) :
    arbGrant s false true reqP low = some (.window .portS) := by
  simp [arbGrant, heldBack_eq, h]

section
variable {s : State} {p : Port} (hother : windowReq s p.other = false)
include hother

/-- The request of a port, with none of the other port: it is granted, or a level with share goes before it. -/
theorem arbNow_window : arbNow s (.window p) =
    if owesYield s p = true ∧ (sharePending s (lowReqs s none)).isSome = true
    then (sharePending s (lowReqs s none)).map .low else some (.window p) := by
  generalize hshare : sharePending s (lowReqs s none) = share
  cases p with
  | portP =>
    have hS : windowReq s .portS = false := hother
    simp only [arbNow, arbGrant, hS, heldBack_eq, hshare]
    cases share <;> cases owesYield s .portP <;> simp
  | portS =>
    have hP : windowReq s .portP = false := hother
    simp only [arbNow, arbGrant, hP, heldBack_eq, hshare]
    cases share <;> cases owesYield s .portS <;> simp

/-- The request of a level: a level with share goes before a port that owes a yield. -/
theorem arbNow_low {l k : Nat} (howes : owesYield s p = true) (hshare : sharePending s (lowReqs s (some l)) = some k) :
    arbNow s (.low l) = some (.low k) := by
  cases p with
  | portP =>
    have hS : windowReq s .portS = false := hother
    simp [arbNow, arbGrant, hS, heldBack_eq, hshare, howes]
  | portS =>
    have hP : windowReq s .portP = false := hother
    simp [arbNow, arbGrant, hP, heldBack_eq, hshare, howes]

end

/-! ### What is granted ahead of a request (R227) -/

/-- A request that goes first, or behind a burst for which a row stands, lets no burst go ahead of it. -/
theorem burstsFirst_none {s : State} {own : Grant} (h : ∀ l, arbNow s own = some (.low l) → own = .low l ∨ rowReq s l = true)
    (n : Nat) : burstsFirst own n s = s := by
  cases n with
  | zero => rfl
  | succ n =>
    rw [burstsFirst]
    split
    · next l hl =>
      refine if_neg fun hn => ?_
      rcases h l hl with hown | hrow
      · exact hn.1 hown
      · simp [hrow] at hn
    · rfl

/-- Where no burst goes ahead, the first request alone decides. -/
theorem arbServe_now {s : State} {own : Grant} (h : ∀ l, arbNow s own = some (.low l) → own = .low l ∨ rowReq s l = true) :
    arbServe s own = if arbNow s own = some own then some s else none := by
  unfold arbServe
  rw [burstsFirst_none h]

theorem arbServe_first {s : State} {own : Grant} (h : arbNow s own = some own) : arbServe s own = some s := by
  rw [arbServe_now fun l hl => .inl (Option.some.inj (h.symm.trans hl)), if_pos h]

theorem arbServe_behind {s : State} {own other : Grant} (h : arbNow s own = some other) (hne : other ≠ own)
    (hrow : ∀ l, other = .low l → rowReq s l = true) : arbServe s own = none := by
  rw [arbServe_now fun l hl => .inr (hrow l (Option.some.inj (h.symm.trans hl))),
    if_neg fun hn => hne (Option.some.inj (h.symm.trans hn))]

/-- A burst that no row stands for goes ahead of a request, which is then the first. -/
theorem arbServe_ahead {s : State} {own : Grant} {l : Nat} (h : arbNow s own = some (.low l)) (hown : own ≠ .low l)
    (hlong : longReq s l = true) (hrow : rowReq s l = false) (hthen : arbNow (grantAhead s l) own = some own) :
    arbServe s own = some (grantAhead s l) := by
  have hnone := burstsFirst_none (s := grantAhead s l) (own := own) fun m hm => .inl (Option.some.inj (hthen.symm.trans hm))
  have hstep : burstsFirst own 32 s = grantAhead s l := by
    rw [burstsFirst, h]
    simp only [hown, hlong, hrow, ne_eq, not_false_eq_true, Bool.not_false, and_self, if_true]
    exact hnone 31
  unfold arbServe
  rw [hstep]
  exact if_pos hthen

/-- What an arbiter that has granted a request keeps. -/
def ArbKept (s t : State) : Prop := t = { s with arb := { s.arb with
  rem := t.arb.rem, paid := t.arb.paid, yieldP := t.arb.yieldP, yieldS := t.arb.yieldS } }

theorem arbKept_burstsFirst (own : Grant) (n : Nat) (s : State) : ArbKept s (burstsFirst own n s) := by
  induction n generalizing s with
  | zero => rfl
  | succ n ih =>
    have hahead (l : Nat) : ArbKept s (burstsFirst own n (grantAhead s l)) := ih (grantAhead s l)
    rw [burstsFirst]
    split
    · split
      · exact hahead _
      · rfl
    · rfl

/-- To be granted changes the shares, what of them is taken ahead, and the yields alone. -/
theorem arbKept_arbServe {s t : State} {own : Grant} (h : arbServe s own = some t) : ArbKept s t := by
  unfold arbServe at h
  dsimp only at h
  split at h
  · injection h with h
    subst h
    exact arbKept_burstsFirst own 32 s
  · exact nomatch h

/-! ### The shares (R225, R227) -/

/-- The bursts of work that ends take the shares that those granted ahead have left. -/
theorem grantRest_grantAhead {s : State} {n : Nat} (h : vget s.arb.paid 0 < n) :
    vget (grantRest (grantAhead s 2) 2 n).arb.rem 0 = vget (grantRest s 2 n).arb.rem 0 := by
  have hpaid : vget (grantAhead s 2).arb.paid 0 = vget s.arb.paid 0 + 1 := vget_vset_same _ (by decide) _
  have hrem : vget (grantAhead s 2).arb.rem 0 = vget s.arb.rem 0 - 1 := vget_vset_same _ (by decide) _
  have hrest (t : State) : vget (grantRest t 2 n).arb.rem 0 = vget t.arb.rem 0 - (n - vget t.arb.paid 0) := by
    by_cases hlt : vget t.arb.paid 0 < n
    · have hset : (grantRest t 2 n).arb.rem = vset t.arb.rem 0 (vget t.arb.rem 0 - (n - vget t.arb.paid 0)) := by
        simp [grantRest, grantLow, hlt]
      rw [hset, vget_vset_same _ (by decide)]
    · rw [grantRest_paid (l := 2) (show n ≤ vget t.arb.paid 0 by omega)]
      show vget t.arb.rem 0 = _
      omega
  rw [hrest, hrest, hpaid, hrem]
  omega

/-- R28, R111, R224, R225: with no request of L2 to L6 Port S goes before Port P. -/
theorem portS_first {s : State} (ups : List Upset) (hlow : lowReqs s none = Vector.replicate 5 false)
    (hS : windowReq s .portS = true) :
    arbServe s (.window .portP) = none ∧ arbServe s (.window .portS) = some s ∧
    (s.arb.yieldS = false → arbServe s (.low 6) = none) ∧ entryLeaves s .portP ups = s ∧ loadDone s .portP ups = s := by
  have hshare := sharePending_none (s := s) hlow
  have hP : arbServe s (.window .portP) = none := by
    refine arbServe_behind (other := .window .portS) ?_ (by decide) nofun
    rw [arbNow, hS]
    exact arbGrant_portS (by rw [hshare]; exact Bool.and_false _)
  refine ⟨hP, arbServe_first ?_, fun hyield => arbServe_behind (other := .window .portS) ?_ (by decide) nofun, ?_, ?_⟩
  · rw [arbNow, hS]
    exact arbGrant_portS (by rw [hshare]; exact Bool.and_false _)
  · rw [arbNow, hS]
    exact arbGrant_portS (by rw [owesYield, if_neg (by decide), hyield]; exact Bool.false_and _)
  · unfold entryLeaves
    split
    · split
      · exact granted_not hP
      · rfl
    · rfl
  · unfold loadDone
    split
    · rfl
    · split
      · exact granted_not hP
      · rfl

theorem longReq_idle {s : State} {l : Nat} (h : longCost s l = 0) : longReq s l = false := by
  simp [longReq, h]

/-- Without a booking pass nothing asks at L2, and work of many bursts never at L3. -/
theorem longCost_noPass {s : State} (hA : s.bankA.led.passes = []) (hB : s.bankB.led.passes = []) : longCost s 2 = 0 := by
  simp [longCost, longWork, hA, hB]

/-- R225: a port that owes a yield waits for a Harvest record with share left. -/
theorem harvest_first {s : State} {p : Port} (hA : s.bankA.led.passes = []) (hB : s.bankB.led.passes = [])
    (hrow3 : rowReq s 3 = false) (hother : windowReq s p.other = false) (hrec : s.batA.hQ ≠ [])
    (hrem : vget s.arb.rem 2 ≠ 0) (howes : owesYield s p = true) :
    arbServe s (.window p) = none ∧ arbServe s (.low 4) = some s := by
  have hrow4 : rowReq s 4 = true := by simp [rowReq, hrec]
  have hcost2 := longCost_noPass hA hB
  have hrow2 : rowReq s 2 = false := by simp [rowReq, hcost2]
  have hcost3 : longCost s 3 = 0 := rfl
  have hshare (own : Option Nat) (hown : own = none ∨ own = some 4) : sharePending s (lowReqs s own) = some 4 := by
    refine sharePending_first (k := 2) (by decide) ?_ hrem fun j hj => ?_
    · rw [vget_lowReqs s own (by decide), hrow4, Bool.or_true, Bool.true_or]
    · have hj' : j = 0 ∨ j = 1 := by omega
      rcases hj' with rfl | rfl <;> rw [vget_lowReqs s own (by decide)]
      · rw [longReq_idle hcost2, hrow2]
        rcases hown with rfl | rfl <;> rfl
      · rw [longReq_idle hcost3, hrow3]
        rcases hown with rfl | rfl <;> rfl
  refine ⟨arbServe_behind (other := .low 4) ?_ nofun ?_, arbServe_first (arbNow_low hother howes (hshare _ (.inr rfl)))⟩
  · rw [arbNow_window hother, hshare none (.inl rfl), if_pos ⟨howes, rfl⟩]
    rfl
  · rintro l ⟨⟩
    exact hrow4

/-- R225, R227: a burst of a booking pass goes ahead of a port that owes a yield, which is granted behind it. -/
theorem pass_ahead {s : State} {p : Port} (hlong : longReq s 2 = true) (hother : windowReq s p.other = false)
    (hrem : vget s.arb.rem 0 ≠ 0) (howes : owesYield s p = true) :
    arbServe s (.window p) = some (grantAhead s 2) := by
  have hrow : rowReq s 2 = false := by simp [rowReq, hlong]
  have hshare : sharePending s (lowReqs s none) = some 2 :=
    sharePending_first (k := 0) (by decide) (by rw [vget_lowReqs s none (by decide), hlong]; rfl) hrem nofun
  refine arbServe_ahead ?_ nofun hlong hrow ?_
  · rw [arbNow_window hother, hshare, if_pos ⟨howes, rfl⟩]
    rfl
  · have hyield : owesYield (grantAhead s 2) p = false := by cases p <;> rfl
    rw [arbNow_window (s := grantAhead s 2) hother, if_neg fun hn => Bool.noConfusion (hyield.symm.trans hn.1)]

/-- A grant at L1 makes its port owe a yield. -/
theorem grantL1_eq (s : State) (p : Port) : grantL1 s p = { s with arb := { s.arb with
    yieldP := decide (p = .portP) || s.arb.yieldP, yieldS := decide (p = .portS) || s.arb.yieldS } } := by
  cases p <;> rfl

theorem grantLow_one {s : State} {l : Nat} (h2 : 2 ≤ l) (h6 : l ≤ 6) : (grantLow s l 1).arb.yieldP = false ∧
    (grantLow s l 1).arb.yieldS = false ∧ vget (grantLow s l 1).arb.rem (l - 2) = vget s.arb.rem (l - 2) - 1 :=
  ⟨rfl, rfl, vget_vset_same _ (by omega) _⟩

end Sys2Proof.Machine
end

section
/-! The arbitration window, the scrub, the write-backs and CNTCLR of the arbitration page (R202, R219, R222, R229 to R233,
R237; part of O57). -/

namespace Sys2Proof.Machine

open Sys2Proof

/-! ### The error that an ECC word holds -/

/-- A word written with fresh check bits holds no error; the others hold what they held. -/
theorem eccAt_eccWritten (s : State) (w x : Nat) :
    eccAt (eccWritten s w) x = if x = w then none else eccAt s x := by
  unfold eccAt eccWritten
  dsimp only
  rw [List.find?_filter]
  by_cases h : x = w
  · subst h
    rw [if_pos rfl, List.find?_eq_none.mpr]
    · rfl
    · simp
  · rw [if_neg h]
    congr 2
    funext e
    by_cases he : e.1 = x
    · simp [he, h]
    · simp [he]

theorem eccAt_congr {s t : State} (h : t.arb.ecc = s.arb.ecc) (w : Nat) : eccAt t w = eccAt s w := by
  unfold eccAt
  rw [h]

/-- What memory upsets leave hangs on the memory and the errors alone. -/
theorem upset_congr {s t : State} (hmem : t.mem = s.mem) (hecc : t.arb.ecc = s.arb.ecc) (u : Upset) :
    (upset t u).mem = (upset s u).mem ∧ (upset t u).arb.ecc = (upset s u).arb.ecc := by
  cases u with
  | single w =>
    have hat := eccAt_congr hecc (eccWord w)
    unfold upset
    dsimp only
    rw [hat]
    split
    · exact ⟨hmem, hecc⟩
    · exact ⟨hmem, by simp [eccPut, hecc]⟩
  | double w d => exact ⟨by simp [upset, eccPut, hmem], by simp [upset, eccPut, hecc]⟩

theorem upsets_congr {s t : State} (hmem : t.mem = s.mem) (hecc : t.arb.ecc = s.arb.ecc) (l : List Upset) :
    (upsets t l).mem = (upsets s l).mem ∧ (upsets t l).arb.ecc = (upsets s l).arb.ecc := by
  induction l generalizing s t with
  | nil => exact ⟨hmem, hecc⟩
  | cons u l ih =>
    obtain ⟨hm, he⟩ := upset_congr hmem hecc u
    exact ih hm he

/-- Upsets change the errors of the words, not what has been counted of them. -/
theorem upsets_arb (s : State) (l : List Upset) : (upsets s l).arb = { s.arb with ecc := (upsets s l).arb.ecc } := by
  induction l generalizing s with
  | nil => rfl
  | cons u l ih =>
    have hu : (upset s u).arb = { s.arb with ecc := (upset s u).arb.ecc } := by
      cases u with
      | single w => unfold upset; dsimp only; split <;> rfl
      | double w d => rfl
    show (upsets (upset s u) l).arb = { s.arb with ecc := (upsets (upset s u) l).arb.ecc }
    rw [ih, hu]

/-! ### ARBSTAT and the window (R202, R227, R229 to R231) -/

theorem arbstatWrite_taken {s : State} {p : Port} {v : Word} (h : fld v 0 3 ≠ 7) : arbstatWrite s p v =
    { s with arb := { s.arb with lvl := fld v 0 3, maxw := if bit v 3 then Vector.replicate 7 0 else s.arb.maxw } } :=
  if_neg h

theorem windowStarts_on {s : State} (x : Vector Nat 7) (h : domains s = true) : windowStarts s x =
    { s with arb := { s.arb with
      maxw := recordWaits s.arb.maxw x
      scrubLeft := s.arb.scrubLeft - 1
      paid := Vector.ofFn (fun k : Fin 5 => min (vget s.arb.paid k.val) (longCost s (k.val + 2)))
      rem := Vector.ofFn (fun k : Fin 5 => shareField s k.val) } } := if_pos h

theorem recordWaits_at (m x : Vector Nat 7) (k : Fin 7) :
    (recordWaits m x)[k] = max m[k] (min maxwBound[k] ((x[k] + 3) / 4)) := by
  unfold recordWaits
  rw [Fin.getElem_fin, Vector.getElem_ofFn, vget_lt _ k.isLt, vget_lt _ k.isLt, vget_lt _ k.isLt]
  rfl

/-! ### The scrub (R219, R222, R231) -/

/-- Words that hold no error are read without a trace. -/
theorem scrubWords_clean {s : State} (h : s.arb.ecc = []) (w n : Nat) : scrubWords s w n = s := by
  induction n generalizing w with
  | zero => rfl
  | succ n ih =>
    have hword : scrubWord s w = s := by simp [scrubWord, eccAt, h]
    rw [scrubWords, hword, ih]

theorem scrubBurst_idle {s : State} (ups : List Upset)
    (h : pgb s 0xE802 4 = false ∨ s.arb.scrubLeft ≠ 0 ∨ s.arb.wbQ ≠ []) : scrubBurst s ups = s := by
  refine if_neg ?_
  rintro ⟨-, hen, hleft, hq⟩
  rcases h with h | h | h
  · exact Bool.noConfusion (h.symm.trans hen)
  · exact h hleft
  · exact h (List.isEmpty_iff.mp hq)

theorem scrubBurst_due {s u : State} (ups : List Upset) (hdom : domains s = true) (hen : pgb s 0xE802 4 = true)
    (hleft : s.arb.scrubLeft = 0) (hq : s.arb.wbQ = []) (hserve : arbServe s (.low 6) = some u) :
    scrubBurst s ups = scrubEight u ups :=
  (if_pos ⟨hdom, hen, hleft, by rw [hq]; rfl⟩).trans (granted_of hserve)

/-- A scrub burst over words without errors: the counts and the bytes stand, the address goes on. -/
theorem scrubEight_clean {s : State} (h : s.arb.ecc = []) : scrubEight s [] =
    { s with arb := { (grantLow s 6 1).arb with
      scrubAt := (s.arb.scrubAt + 64) % cellarSize, scrubLeft := (pg s 0xE804).toNat
      passCnt := if (s.arb.scrubAt + 64) % cellarSize = 0 then sat1 s.arb.passCnt else s.arb.passCnt } } := by
  have hwords : scrubWords (upsets s []) s.arb.scrubAt 8 = s := scrubWords_clean h _ _
  unfold scrubEight
  rw [hwords]
  rfl

theorem writebackServed_corrected {s : State} {c : CAddr} {rest : List CAddr} (ups : List Upset) (hq : s.arb.wbQ = c :: rest)
    (hecc : eccAt (upsets s ups) c.toNat ≠ some .double) : writebackServed s ups =
      eccWritten (grantLow { upsets s ups with arb := { (upsets s ups).arb with wbQ := rest } } 6 1) c.toNat := by
  have hat : eccAt (grantLow { upsets s ups with arb := { (upsets s ups).arb with wbQ := rest } } 6 1) c.toNat =
      eccAt (upsets s ups) c.toNat := rfl
  unfold writebackServed
  rw [hq]
  dsimp only
  rw [hat]
  split
  · next hdouble => exact absurd hdouble hecc
  · rfl

theorem scrubWriteback_queued {s u : State} {c : CAddr} {rest : List CAddr} (ups : List Upset) (hq : s.arb.wbQ = c :: rest)
    (hdom : domains s = true) (hserve : arbServe s (.low 6) = some u) :
    scrubWriteback s ups = writebackServed u ups :=
  (if_pos ⟨hdom, by rw [hq]; rfl⟩).trans (granted_of hserve)

/-- R219: the write-back of the oldest queued word, in the state u of its grant. -/
theorem scrubWriteback_corrects {s u : State} {c : CAddr} {rest : List CAddr} (ups : List Upset) (hq : s.arb.wbQ = c :: rest)
    (hdom : domains s = true) (hserve : arbServe s (.low 6) = some u) (hecc : eccAt (upsets u ups) c.toNat ≠ some .double) :
    (scrubWriteback s ups).mem = (upsets s ups).mem ∧ (scrubWriteback s ups).arb.wbQ = rest ∧
    eccAt (scrubWriteback s ups) c.toNat = none ∧
    (∀ w, w ≠ c.toNat → eccAt (scrubWriteback s ups) w = eccAt (upsets s ups) w) ∧
    (scrubWriteback s ups).arb.ceCnt = s.arb.ceCnt ∧ (scrubWriteback s ups).err = s.err := by
  have hkept : ArbKept s u := arbKept_arbServe hserve
  have hmem : u.mem = s.mem := by rw [hkept]
  have herrors : u.arb.ecc = s.arb.ecc := by rw [hkept]
  have hqueue : u.arb.wbQ = c :: rest := by rw [hkept]; exact hq
  have herr : u.err = s.err := by rw [hkept]
  have hcnt : u.arb.ceCnt = s.arb.ceCnt := by rw [hkept]
  obtain ⟨humem, huecc⟩ := upsets_congr hmem herrors ups
  have hrow := (scrubWriteback_queued ups hq hdom hserve).trans (writebackServed_corrected ups hqueue hecc)
  have hat (w : Nat) : eccAt (scrubWriteback s ups) w = if w = c.toNat then none else eccAt (upsets s ups) w := by
    rw [hrow, eccAt_eccWritten, ← eccAt_congr huecc w]
    rfl
  refine ⟨?_, ?_, (hat _).trans (if_pos rfl), fun w hw => (hat w).trans (if_neg hw), ?_, ?_⟩
  · rw [hrow]
    exact humem
  · rw [hrow]
    rfl
  · rw [hrow]
    show (upsets u ups).arb.ceCnt = s.arb.ceCnt
    rw [upsets_arb]
    exact hcnt
  · rw [hrow]
    show (upsets u ups).err = s.err
    rw [upsets_frame]
    exact herr

/-! ### CNTCLR of the arbitration page (R219, R232, R237) -/

theorem winStore_arb (s : State) (v : Word) : winStore s 0xE802 v =
    storeWord (pageAction s 0xE802 v) 0xE802 (v &&& wordOf (pageWord 0xE802).stored) := by
  have hpage : isPage 0xE802 = true := by decide
  have hstored : ¬((pageWord 0xE802).stored = 0 ∧ (pageWord 0xE802).ro = 0xFFFF) := by decide
  exact (if_pos hpage).trans ((if_neg hstored).trans (if_pos rfl))

/-- What of the arbiter a read of an ECC word and its fresh writing leave alone. -/
theorem eccRewrite_kept (s : State) (w : Nat) : (eccWritten (eccRead s w) w).arb.passCnt = s.arb.passCnt ∧
    (eccWritten (eccRead s w) w).arb.maxw = s.arb.maxw := by
  show (eccRead s w).arb.passCnt = _ ∧ (eccRead s w).arb.maxw = _
  unfold eccRead
  split
  · exact ⟨rfl, rfl⟩
  · exact ⟨rfl, rfl⟩
  · unfold detectUe
    dsimp only
    split <;> exact ⟨rfl, rfl⟩

/-- The counts of a word that is read and written afresh: what the read finds is counted, and nothing else. -/
structure EccCounts where
  ceCnt : Nat
  ueCnt : Nat
  cev : Bool
  uev : Bool
  wbDrop : Nat

def eccCounts (a : Arb) : EccCounts := ⟨a.ceCnt, a.ueCnt, a.cev, a.uev, a.wbDrop⟩

theorem eccRewrite_none {s : State} {w : Nat} (h : eccAt s w = none) :
    eccCounts (eccWritten (eccRead s w) w).arb = eccCounts s.arb := by
  have hread : eccRead s w = s := by rw [eccRead, h]
  rw [hread]
  rfl

theorem eccRewrite_single {s : State} {w : Nat} (h : eccAt s w = some .single) :
    eccCounts (eccWritten (eccRead s w) w).arb = { eccCounts s.arb with
      ceCnt := sat1 s.arb.ceCnt, cev := true
      wbDrop := if BitVec.ofNat 20 w ∉ s.arb.wbQ ∧ 4 ≤ s.arb.wbQ.length then sat1 s.arb.wbDrop else s.arb.wbDrop } := by
  have hread : eccRead s w = detectCe s w := by rw [eccRead, h]
  rw [hread]
  simp [eccCounts, eccWritten, detectCe]

theorem eccRewrite_double {s : State} {w : Nat} (h : eccAt s w = some .double) :
    eccCounts (eccWritten (eccRead s w) w).arb = { eccCounts s.arb with ueCnt := sat1 s.arb.ueCnt, uev := true } := by
  have hread : eccRead s w = detectUe s w := by rw [eccRead, h]
  rw [hread]
  unfold detectUe
  dsimp only
  split
  · next hagain =>
    simp only [Bool.and_eq_true] at hagain
    simp [eccCounts, eccWritten, hagain.1.1]
  · rfl

/-- CNTCLR granted in u: the counters cleared, and then the page word stored. -/
theorem eccCounterClear_accepted {s u : State} {p : Port} (h : pageAccepted s u p 0xE802 (fun w => w ||| 0x20)) :
    ∃ v, pageRow s p 0xE802 (fun w => w ||| 0x20) = storeWord (eccCountersClear (grantL1 u p)) 0xE802 v := by
  have haction (w : Word) : pageAction (grantL1 u p) 0xE802 (w ||| 0x20) = eccCountersClear (grantL1 u p) := by
    have hbit : bit (w ||| 0x20) 5 = true := by simp [bit]
    exact if_pos hbit
  have hrow := pageRow_accepted h
  rw [keysCapture, if_neg (by decide), winStore_arb, haction] at hrow
  exact ⟨_, hrow⟩

/-- R219, R232, R237: CNTCLR clears the counters, and its own write counts what it finds. -/
theorem eccCounterClear_counts {s u t : State} {p : Port} (h : pageAccepted s u p 0xE802 (fun w => w ||| 0x20))
    (ht : pageRow s p 0xE802 (fun w => w ||| 0x20) = t) :
    onlyBytes u t 0xE802 2 ∧ t.arb.passCnt = 0 ∧
    (eccAt u 0xE800 ≠ some .single ∨ 0xE800 ∈ u.arb.wbQ ∨ u.arb.wbQ.length < 4 → t.arb.wbDrop = 0) ∧
    (eccAt u 0xE800 = some .single → 0xE800 ∉ u.arb.wbQ → 4 ≤ u.arb.wbQ.length → t.arb.wbDrop = 1) ∧
    t.arb.maxw = u.arb.maxw ∧
    (eccAt u 0xE800 = none → t.arb.ceCnt = 0 ∧ t.arb.ueCnt = 0 ∧ t.arb.cev = false ∧ t.arb.uev = false) ∧
    (eccAt u 0xE800 = some .single → t.arb.ceCnt = 1 ∧ t.arb.cev = true ∧ t.arb.ueCnt = 0) ∧
    (eccAt u 0xE800 = some .double → t.arb.ueCnt = 1 ∧ t.arb.uev = true ∧ t.arb.ceCnt = 0) := by
  obtain ⟨v, hrow⟩ := eccCounterClear_accepted h
  obtain ⟨r, hr⟩ : ∃ r, r = eccCountersClear (grantL1 u p) := ⟨_, rfl⟩
  have hmem : t.mem = Cellar.setWord u.mem 0xE802 v := by
    rw [← ht, hrow, mem_storeWord, ← hr, hr]
    cases p <;> rfl
  have harb : t.arb = (eccWritten (eccRead r 0xE800) 0xE800).arb := by
    rw [← ht, hrow, ← hr]
    rfl
  have hkeep : r.arb.maxw = u.arb.maxw ∧ r.arb.wbQ = u.arb.wbQ ∧ r.arb.ecc = u.arb.ecc ∧ r.arb.passCnt = 0 ∧
      eccCounts r.arb = ⟨0, 0, false, false, 0⟩ := by
    rw [hr]
    cases p <;> exact ⟨rfl, rfl, rfl, rfl, rfl⟩
  obtain ⟨hmaxw, hq, hecc, hpass, hzero⟩ := hkeep
  obtain ⟨hpassT, hmaxwT⟩ := eccRewrite_kept r 0xE800
  have hat := eccAt_congr hecc 0xE800
  rw [← harb] at hpassT hmaxwT
  have hnone := eccRewrite_none (s := r) (w := 0xE800)
  have hsingle := eccRewrite_single (s := r) (w := 0xE800)
  have hdouble := eccRewrite_double (s := r) (w := 0xE800)
  rw [hat, ← harb, hzero] at hnone hsingle hdouble
  rw [hq] at hsingle
  have hce : r.arb.ceCnt = 0 := congrArg EccCounts.ceCnt hzero
  have hue : r.arb.ueCnt = 0 := congrArg EccCounts.ueCnt hzero
  have hdrop : r.arb.wbDrop = 0 := congrArg EccCounts.wbDrop hzero
  rw [hce, hdrop] at hsingle
  rw [hue] at hdouble
  refine ⟨fun x hx => ?_, hpassT.trans hpass, fun hfew => ?_, fun hs hout hfull => ?_, hmaxwT.trans hmaxw, fun hn => ?_,
    fun hs => ?_, fun hd => ?_⟩
  · rw [hmem, Cellar.get_setWord_ne _ _ hx]
  · cases he : eccAt u 0xE800 with
    | none => exact congrArg EccCounts.wbDrop (hnone he)
    | some e =>
      cases e with
      | single =>
        refine (congrArg EccCounts.wbDrop (hsingle he)).trans (if_neg fun hn => ?_)
        rcases hfew with hfew | hfew | hfew
        · exact hfew he
        · exact hn.1 hfew
        · omega
      | double => exact congrArg EccCounts.wbDrop (hdouble he)
  · exact (congrArg EccCounts.wbDrop (hsingle hs)).trans (if_pos ⟨hout, hfull⟩)
  · have hcounts := hnone hn
    exact ⟨congrArg EccCounts.ceCnt hcounts, congrArg EccCounts.ueCnt hcounts, congrArg EccCounts.cev hcounts,
      congrArg EccCounts.uev hcounts⟩
  · have hcounts := hsingle hs
    exact ⟨congrArg EccCounts.ceCnt hcounts, congrArg EccCounts.cev hcounts, congrArg EccCounts.ueCnt hcounts⟩
  · have hcounts := hdouble hd
    exact ⟨congrArg EccCounts.ueCnt hcounts, congrArg EccCounts.uev hcounts, congrArg EccCounts.ceCnt hcounts⟩

end Sys2Proof.Machine
end

section
/-! LCLR of a bank's ledger (R296; part of O57): the accumulators rewritten word by word, and no byte beside them. -/

namespace Sys2Proof.Machine

open Sys2Proof

/-- What each step of a loop over 0, …, m - 1 carries on from one count to the next, the loop carries to m. -/
theorem foldl_range_rule {α : Type} {P : Nat → α → Prop} {f : α → Nat → α} {a : α} {m : Nat} (hbegin : P 0 a)
    (hstep : ∀ i t, i < m → P i t → P (i + 1) (f t i)) : P m ((List.range m).foldl f a) := by
  induction m with
  | zero => exact hbegin
  | succ m ih =>
    rw [List.range_succ, List.foldl_append]
    exact hstep m _ (Nat.lt_succ_self m) (ih fun i t hi => hstep i t (by omega))

/-! ### The two accumulators of an ECC word -/

/-- The words of eight bytes written as one number. -/
theorem getNat_pair {m : List Host.Cell} (hwf : Cellar.wf m = true) (a : Nat) (v0 v1 : BitVec 32) :
    BitVec.ofNat 32 (Cellar.getNat (Cellar.setNat m a 8 (v0.toNat + v1.toNat * 2 ^ 32)) a 4) = v0 ∧
    BitVec.ofNat 32 (Cellar.getNat (Cellar.setNat m a 8 (v0.toNat + v1.toNat * 2 ^ 32)) (a + 4) 4) = v1 := by
  have h0 := v0.isLt
  have h1 := v1.isLt
  have hlow : Cellar.getNat (Cellar.setNat m a 8 (v0.toNat + v1.toNat * 2 ^ 32)) a 4 =
      (v0.toNat + v1.toNat * 2 ^ 32) % 256 ^ 4 :=
    Cellar.getNat_eq fun x hx1 hx2 => by rw [Cellar.get_setNat hwf, if_pos (by omega)]
  have hhigh : Cellar.getNat (Cellar.setNat m a 8 (v0.toNat + v1.toNat * 2 ^ 32)) (a + 4) 4 =
      (v0.toNat + v1.toNat * 2 ^ 32) / 2 ^ 32 % 256 ^ 4 := by
    refine Cellar.getNat_eq fun x hx1 hx2 => ?_
    have hpow : (256 : Nat) ^ (x - a) = 2 ^ 32 * 256 ^ (x - (a + 4)) := by
      rw [show x - a = 4 + (x - (a + 4)) by omega, Nat.pow_add]
      rfl
    rw [Cellar.get_setNat hwf, if_pos (by omega), hpow, Nat.div_div_eq_div_mul]
  rw [hlow, hhigh]
  constructor
  · apply BitVec.eq_of_toNat_eq
    simp only [BitVec.toNat_ofNat]
    omega
  · apply BitVec.eq_of_toNat_eq
    simp only [BitVec.toNat_ofNat]
    omega

/-- Where no word holds an error, a pair is read and written back changed. -/
theorem rmwPair_clean {s : State} (b : Bank) (c x : Nat) (f : Nat → BitVec 32 → BitVec 32) (h : s.arb.ecc = []) :
    (rmwPair s b c x f).mem = Cellar.setNat s.mem (accAddr b c x) 8
      ((f x (readAcc s b c x)).toNat + (f (x + 1) (readAcc s b c (x + 1))).toNat * 2 ^ 32) ∧
    (rmwPair s b c x f).arb.ecc = [] := by
  have hbad := eccBad_clean h (accAddr b c x)
  unfold rmwPair
  dsimp only
  rw [hbad, eccRead_clean h]
  constructor
  · cases b <;> rfl
  · refine Eq.trans ?_ (eccWritten_clean h (accAddr b c x))
    cases b <;> rfl

/-! ### The accumulators in their order -/

/-- The first n accumulators of a bank have been rewritten, each by its own function; the others, and every other byte of the
Cellar, are as they were, and no word holds an error. -/
structure Rewritten (u : State) (b : Bank) (g : Nat → BitVec 32 → BitVec 32) (n : Nat) (t : State) : Prop where
  wf : Cellar.wf t.mem = true
  clean : t.arb.ecc = []
  acc : ∀ c x, x < 128 → readAcc t b c x = if 128 * c + x < n then g x (readAcc u b c x) else readAcc u b c x
  other : ∀ a, (a < accAddr b 0 0 ∨ accAddr b 0 0 + 0x2000 ≤ a) → Cellar.get t.mem a = Cellar.get u.mem a

theorem Rewritten.begin {u : State} (b : Bank) (g : Nat → BitVec 32 → BitVec 32) (hwf : Cellar.wf u.mem = true)
    (hclean : u.arb.ecc = []) : Rewritten u b g 0 u :=
  ⟨hwf, hclean, fun _ _ _ => (if_neg (Nat.not_lt_zero _)).symm, fun _ _ => rfl⟩

/-- Words read alike in the same memory. -/
theorem Rewritten.congr {u t r : State} {b : Bank} {g : Nat → BitVec 32 → BitVec 32} {n : Nat} (h : Rewritten u b g n t)
    (hmem : r.mem = t.mem) (hclean : r.arb.ecc = t.arb.ecc) : Rewritten u b g n r := by
  refine ⟨by rw [hmem]; exact h.wf, by rw [hclean]; exact h.clean, fun c x hx => ?_, fun a ha => ?_⟩
  · rw [← h.acc c x hx]
    unfold readAcc
    rw [hmem]
  · rw [hmem]
    exact h.other a ha

/-- The next pair. -/
theorem Rewritten.pair {u t : State} {b : Bank} {g : Nat → BitVec 32 → BitVec 32} {c i : Nat} (hc : c < 16) (hi : i < 64)
    (h : Rewritten u b g (128 * c + 2 * i) t) : Rewritten u b g (128 * c + 2 * (i + 1)) (rmwPair t b c (2 * i) g) := by
  obtain ⟨hmem, hclean⟩ := rmwPair_clean b c (2 * i) g h.clean
  obtain ⟨hlow, hhigh⟩ := getNat_pair h.wf (accAddr b c (2 * i)) (g (2 * i) (readAcc t b c (2 * i)))
    (g (2 * i + 1) (readAcc t b c (2 * i + 1)))
  rw [← hmem] at hlow hhigh
  have hfirst : readAcc t b c (2 * i) = readAcc u b c (2 * i) :=
    (h.acc c _ (by omega)).trans (if_neg (Nat.lt_irrefl _))
  have hsecond : readAcc t b c (2 * i + 1) = readAcc u b c (2 * i + 1) :=
    (h.acc c _ (by omega)).trans (if_neg (by omega))
  have haddr (c' x : Nat) : accAddr b c' x = accAddr b 0 0 + 4 * (128 * c' + x) := by
    simp only [accAddr]
    omega
  refine ⟨?_, hclean, fun c' x hx => ?_, fun a ha => ?_⟩
  · rw [hmem]
    exact Cellar.wf_setNat h.wf _ _ _
  · by_cases hlt : 128 * c' + x < 128 * c + 2 * i
    · have hsame : readAcc (rmwPair t b c (2 * i) g) b c' x = readAcc t b c' x := by
        unfold readAcc
        rw [hmem, Cellar.getNat_setNat_ne h.wf (by rw [haddr c' x, haddr c (2 * i)]; omega)]
      rw [hsame, h.acc c' x hx, if_pos hlt, if_pos (by omega)]
    · by_cases heq : 128 * c' + x < 128 * c + 2 * (i + 1)
      · have hc' : c' = c := by omega
        subst hc'
        rw [if_pos heq]
        have hx' : x = 2 * i ∨ x = 2 * i + 1 := by omega
        rcases hx' with rfl | rfl
        · exact hlow.trans (by rw [hfirst])
        · refine Eq.trans ?_ (hhigh.trans (by rw [hsecond]))
          unfold readAcc
          rw [show accAddr b c' (2 * i + 1) = accAddr b c' (2 * i) + 4 by
            rw [haddr c' (2 * i + 1), haddr c' (2 * i)]; omega]
      · have hsame : readAcc (rmwPair t b c (2 * i) g) b c' x = readAcc t b c' x := by
          unfold readAcc
          rw [hmem, Cellar.getNat_setNat_ne h.wf (by rw [haddr c' x, haddr c (2 * i)]; omega)]
        rw [hsame, h.acc c' x hx, if_neg hlt, if_neg heq]
  · rw [hmem, Cellar.get_setNat h.wf, if_neg (by rw [haddr c (2 * i)]; omega)]
    exact h.other a ha

/-- The next line. -/
theorem Rewritten.line {u t : State} {b : Bank} {g : Nat → BitVec 32 → BitVec 32} {c : Nat} (hc : c < 16)
    (h : Rewritten u b g (128 * c) t) : Rewritten u b g (128 * (c + 1)) (rmwLine t b c g) :=
  foldl_range_rule (P := fun i t => Rewritten u b g (128 * c + 2 * i) t) h fun _ _ hi ht => ht.pair hc hi

/-! ### LCLR (R296) -/

/-- The machine in which every accumulator of the bank has lost ACC, SAT, RST and OUT. -/
def accsCleared (s : State) (b : Bank) : State :=
  (List.range 16).foldl (fun s c => rmwLine s b c (fun _ w => w &&& 0x3C000000)) (grantLow s 2 (lineBursts 16))

theorem accsCleared_rewritten {s : State} (b : Bank) (hwf : Cellar.wf s.mem = true) (hclean : s.arb.ecc = []) :
    Rewritten s b (fun _ w => w &&& 0x3C000000) 2048 (accsCleared s b) :=
  foldl_range_rule (a := grantLow s 2 (lineBursts 16))
    (P := fun c t => Rewritten s b (fun _ w => w &&& 0x3C000000) (128 * c) t)
    ((Rewritten.begin b _ hwf hclean).congr rfl rfl) fun _ _ hc ht => ht.line hc

theorem clearWords_eq (s : State) (b : Bank) : clearWords s b = setLed (accsCleared s b) b
    { (getBank (accsCleared s b) b).led with peak := 0, peakAddr := accAddr b 0 0 % 0x10000, clr := false } := rfl

/-- R296: every accumulator loses its count and its marks, PEAK reads 0, and no byte beside them changes. -/
theorem clearWords_accs {s : State} (b : Bank) (hwf : Cellar.wf s.mem = true) (hclean : s.arb.ecc = []) :
    (getBank (clearWords s b) b).led.peak = 0 ∧
    (∀ c x, c < 16 → x < 128 → readAcc (clearWords s b) b c x = readAcc s b c x &&& 0x3C000000) ∧
    ∀ a, (a < accAddr b 0 0 ∨ accAddr b 0 0 + 0x2000 ≤ a) →
      Cellar.get (clearWords s b).mem a = Cellar.get s.mem a := by
  have hcleared := accsCleared_rewritten b hwf hclean
  have heq := clearWords_eq s b
  generalize accsCleared s b = t at hcleared heq
  have hall := hcleared.congr (r := clearWords s b) (by rw [heq]; cases b <;> rfl) (by rw [heq]; cases b <;> rfl)
  have hpeak : (getBank (clearWords s b) b).led.peak = 0 := by
    rw [heq]
    cases b <;> rfl
  exact ⟨hpeak, fun c x hc hx => (hall.acc c x hx).trans (if_pos (by omega)), hall.other⟩

/-- The page word of a bank's LCLR is stored, and then acts. -/
theorem winStore_lclr (s : State) (b : Bank) {v : Word} (h : bit v 0 = true) : winStore s (0xC404 + 0x20 * b.num) v =
    ledgerClear (storeWord s (0xC404 + 0x20 * b.num) (v &&& wordOf (pageWord (0xC404 + 0x20 * b.num)).stored)) b := by
  cases b with
  | bankA =>
    refine (if_pos (by decide)).trans ((if_neg (by decide)).trans ((if_neg (by decide)).trans ((if_neg (by decide)).trans ?_)))
    exact if_pos h
  | bankB =>
    refine (if_pos (by decide)).trans ((if_neg (by decide)).trans ((if_neg (by decide)).trans ((if_neg (by decide)).trans ?_)))
    exact if_pos h

/-- LCLR granted in u: its page word stored, it acts. -/
theorem ledgerClear_accepted {s u : State} {p : Port} {b : Bank}
    (h : pageAccepted s u p (0xC404 + 0x20 * b.num) (fun w => w ||| 1)) :
    ∃ v, pageRow s p (0xC404 + 0x20 * b.num) (fun w => w ||| 1) =
      ledgerClear (storeWord (grantL1 u p) (0xC404 + 0x20 * b.num) v) b := by
  have hbit (w : Word) : bit (w ||| 1) 0 = true := by simp [bit]
  have hkeys : keysWord (0xC404 + 0x20 * b.num) = false := by cases b <;> decide
  have hrow := pageRow_accepted h
  rw [keysCapture, if_neg (by simp [hkeys]), winStore_lclr _ b (hbit _)] at hrow
  exact ⟨_, hrow⟩

/-- R296: LCLR waits behind a running pass, and otherwise clears the accumulators. -/
theorem ledgerClear_effect {s u t : State} {p : Port} {b : Bank}
    (h : pageAccepted s u p (0xC404 + 0x20 * b.num) (fun w => w ||| 1))
    (ht : pageRow s p (0xC404 + 0x20 * b.num) (fun w => w ||| 1) = t) :
    ((getBank u b).led.passes ≠ [] → (getBank t b).led = { (getBank u b).led with clr := true }) ∧
    ((getBank u b).led.passes = [] → u.arb.ecc = [] → Cellar.wf u.mem = true → (getBank t b).led.peak = 0 ∧
      (∀ c x, c < 16 → x < 128 → readAcc t b c x = readAcc u b c x &&& 0x3C000000) ∧
      ∀ a, (a < accAddr b 0 0 ∨ accAddr b 0 0 + 0x2000 ≤ a) →
        (a < 0xC404 + 0x20 * b.num ∨ 0xC406 + 0x20 * b.num ≤ a) → Cellar.get t.mem a = Cellar.get u.mem a) := by
  obtain ⟨v, hrow⟩ := ledgerClear_accepted h
  obtain ⟨r, hr⟩ : ∃ r, r = storeWord (grantL1 u p) (0xC404 + 0x20 * b.num) v := ⟨_, rfl⟩
  have hbank : getBank r b = getBank u b := by
    rw [hr, storeWord_frame, grantL1_frame]
    cases b <;> rfl
  have hmem : r.mem = Cellar.setWord u.mem (0xC404 + 0x20 * b.num) v := by
    rw [hr, mem_storeWord, grantL1_frame]
  have hcleared : t = ledgerClear r b := by rw [← ht, hrow, hr]
  refine ⟨fun hpasses => ?_, fun hpasses hecc hwf => ?_⟩
  · have hwaits : t = setLed r b { (getBank r b).led with clr := true } :=
      hcleared.trans (if_neg (by rw [hbank]; simpa using hpasses))
    rw [hwaits, hbank]
    cases b <;> rfl
  · have hclears : t = clearWords r b := hcleared.trans (if_pos (by rw [hbank]; simpa using hpasses))
    have hecc' : (grantL1 u p).arb.ecc = [] := by cases p <;> exact hecc
    have hclean : r.arb.ecc = [] := by
      rw [hr]
      show (eccWritten (eccRead (grantL1 u p) _) _).arb.ecc = []
      rw [eccRead_clean hecc']
      exact eccWritten_clean hecc' _
    obtain ⟨hpeak, hacc, hother⟩ := clearWords_accs b (by rw [hmem]; exact Cellar.wf_setWord hwf _ _) hclean
    rw [hclears]
    refine ⟨hpeak, fun c x hc hx => ?_, fun a ha hword => ?_⟩
    · rw [hacc c x hc hx]
      unfold readAcc
      rw [hmem]
      congr 2
      refine Cellar.getNat_congr fun y hy1 hy2 => Cellar.get_setWord_ne _ _ (.inl ?_)
      have hnum : b.num ≤ 1 := by cases b <;> decide
      simp only [accAddr] at hy1 hy2
      omega
    · rw [hother a ha, hmem, Cellar.get_setWord_ne _ _ (by omega)]

end Sys2Proof.Machine
end

section
/-! O57: the arbiter's registers and order, the clears and the scrub, put together. -/

namespace Sys2Proof.Machine

open Sys2Proof

/-- R222, R231: the scrub burst that is granted over words without errors, in the state u of its grant. -/
theorem exec_scrubBurst_clean {s u : State} (hdom : domains s = true) (hen : pgb s 0xE802 4 = true) (hecc : s.arb.ecc = [])
    (hleft : s.arb.scrubLeft = 0) (hq : s.arb.wbQ = []) (hserve : arbServe s (.low 6) = some u) :
    ∃ t, exec (.scrubBurst []) s = .next t ∧ t = { s with arb := t.arb } ∧ t.arb.scrubLeft = (pg s 0xE804).toNat ∧
      t.arb.scrubAt = (s.arb.scrubAt + 64) % cellarSize ∧ t.arb.ceCnt = s.arb.ceCnt ∧ t.arb.ueCnt = s.arb.ueCnt ∧
      vget t.arb.rem 4 = vget u.arb.rem 4 - 1 ∧
        t.arb.passCnt = if t.arb.scrubAt = 0 then sat1 s.arb.passCnt else s.arb.passCnt := by
  have hkept : ArbKept s u := arbKept_arbServe hserve
  have herrors : u.arb.ecc = [] := by rw [hkept]; exact hecc
  have hrow : scrubBurst s [] = _ := (scrubBurst_due [] hdom hen hleft hq hserve).trans (scrubEight_clean herrors)
  have hrem : vget (grantLow u 6 1).arb.rem 4 = vget u.arb.rem 4 - 1 := (grantLow_one (by decide) (by decide)).2.2
  have hwindow : pg u 0xE804 = pg s 0xE804 := by rw [hkept]; rfl
  have hat : u.arb.scrubAt = s.arb.scrubAt := by rw [hkept]
  have hpass : u.arb.passCnt = s.arb.passCnt := by rw [hkept]
  have hce : u.arb.ceCnt = s.arb.ceCnt := by rw [hkept]
  have hue : u.arb.ueCnt = s.arb.ueCnt := by rw [hkept]
  rw [hwindow, hat, hpass] at hrow
  refine ⟨_, congrArg Host.Outcome.next hrow, ?_, rfl, rfl, hce, hue, hrem, rfl⟩
  dsimp only
  rw [arbServe_frame hserve]

/-- R227, R230: a new window. -/
theorem exec_arbWindowStart {s : State} (x : Vector Nat 7) (h : domains s = true) :
    ∃ t, exec (.arbWindowStart x) s = .next t ∧
      t = { s with arb := { s.arb with maxw := t.arb.maxw, rem := t.arb.rem, scrubLeft := s.arb.scrubLeft - 1
                                       paid := t.arb.paid } } ∧ (∀ k : Fin 5, t.arb.paid[k] ≤ s.arb.paid[k]) ∧
      (∀ k : Fin 7, t.arb.maxw[k] = max s.arb.maxw[k] (min maxwBound[k] ((x[k] + 3) / 4))) ∧
      ∀ k : Fin 5, t.arb.rem[k] = shareField s k.val := by
  refine ⟨_, congrArg Host.Outcome.next (windowStarts_on x h), rfl, fun k => ?_, recordWaits_at _ _, fun k => ?_⟩
  · rw [Fin.getElem_fin, Vector.getElem_ofFn, vget_lt _ k.isLt]
    exact Nat.min_le_left _ _
  · rw [Fin.getElem_fin, Vector.getElem_ofFn]

/-- Settles O57: ARBSTAT and the clears on their rows, the order of the requests, and the scrub with its write-backs. -/
theorem arbiterLedgerClearsAndScrub : Obligations.ArbiterLedgerClearsAndScrub := by
  unfold Obligations.ArbiterLedgerClearsAndScrub
  refine ⟨⟨?lvl, ?range, fun x s => exec_arbWindowStart x, ?cntclr, ?lclr⟩, ⟨?portS, ?harvest, ?pass, ?paid, ?alone,
    fun p s => grantL1_eq s p, fun l s => grantLow_one⟩, ?burst, ?idle, ?writeback⟩
  case lvl =>
    intro p v w s h hlvl
    refine exec_reach_to rfl h ?_
    rw [arbstatWrite_taken hlvl, gen1Empty_arb]
  case range => exact fun p v w s h hlvl => exec_reach_to rfl h (if_pos hlvl)
  case cntclr => exact fun p s u h _ => ⟨_, rfl, eccCounterClear_counts h rfl⟩
  case lclr => exact fun p b s u h => ⟨_, rfl, ledgerClear_effect h rfl⟩
  case portS =>
    intro ups s hlow hS
    obtain ⟨hP, hfirst, hscrub, hentry, hload⟩ := portS_first ups hlow hS
    exact ⟨hP, hfirst, hscrub, congrArg Host.Outcome.next hentry, congrArg Host.Outcome.next hload⟩
  case harvest => exact fun p s hA hB hrow hother hrec hrem howes => harvest_first hA hB hrow hother hrec hrem howes
  case pass =>
    exact fun p s hlong _ _ _ _ _ hother hrem howes =>
      ⟨pass_ahead hlong hother hrem howes, vget_vset_same _ (by decide) _, fun n hn => grantRest_grantAhead hn⟩
  case paid =>
    intro l n s hn
    rw [grantRest_paid hn]
    exact ⟨rfl, rfl, rfl⟩
  case alone =>
    intro p s hlow hother
    refine arbServe_first ?_
    rw [arbNow_window hother, sharePending_none hlow]
    exact if_neg fun hn => Bool.noConfusion hn.2
  case burst => exact fun s u hdom hen hecc hleft hq hserve => exec_scrubBurst_clean hdom hen hecc hleft hq hserve
  case idle => exact fun ups s h => congrArg Host.Outcome.next (scrubBurst_idle ups h)
  case writeback =>
    exact fun c rest ups s u hq hdom hserve hecc => ⟨_, rfl, scrubWriteback_corrects ups hq hdom hserve hecc⟩

end Sys2Proof.Machine
end

section
/-! O19: IRQSTAT.KEY stands while the key FIFO holds an event (R173, R205, R349), operation by operation and in every
step; BOOT finds the FIFO empty. -/

namespace Sys2Proof.Machine

open Sys2Proof

/-! ### The key flag -/

/-- KEY stands while the FIFO holds an event, and in BOOT it holds none. -/
def KeyView.flagged (q : KeyView) : Prop := (q.fifo ≠ [] → q.key = true) ∧ (q.boot = true → q.fifo = [])

theorem keyFlag_iff (s : State) : keyFlag s ↔ (keyView s).flagged := by
  simp only [keyFlag, KeyView.flagged, keyView, beq_iff_eq]

@[simp] theorem KeyView.flagged_ite (c : Prop) [Decidable c] (q r : KeyView) :
    (if c then q else r).flagged ↔ if c then q.flagged else r.flagged := by split <;> rfl

/-- Without events nothing is asked of KEY. -/
@[simp] theorem KeyView.flagged_nil (key boot : Bool) (gen : Gen) (ppri : Bool) :
    (KeyView.mk [] key boot gen ppri).flagged := ⟨fun h => absurd rfl h, fun _ => rfl⟩

/-- A machine that leaves or keeps out of BOOT with the same FIFO and KEY. -/
theorem flagged_awake {s t : State} (hs : (keyView s).flagged) (hfifo : t.keys.fifo = s.keys.fifo)
    (hkey : bit t.irqStat irqKEY = bit s.irqStat irqKEY) (hmode : t.pw.mode ≠ .boot) : (keyView t).flagged := by
  refine ⟨fun h => hkey.trans (hs.1 fun hn => h (hfifo.trans hn)), fun h => absurd ?_ hmode⟩
  exact beq_iff_eq.mp h

/-- The roles do not count. -/
theorem flagged_roles {s : State} (hs : (keyView s).flagged) (r : Roles) : (keyView { s with roles := r }).flagged := hs

/-! ### Resets empty the FIFO -/

@[simp] theorem flagged_coldBoot (s : State) (cause : Nat) (running : Bool) :
    (keyView (coldBoot s cause running)).flagged := KeyView.flagged_nil _ _ _ _

@[simp] theorem flagged_corkMode (s : State) : (keyView (corkMode s)).flagged := KeyView.flagged_nil _ _ _ _

@[simp] theorem flagged_warmBoot (s : State) (cause : Nat) : (keyView (warmBoot s cause)).flagged := by
  have hfifo : (keyView (warmBoot s cause)).fifo = [] := by
    have hkept : (ledgerKept s (wiped (faceTakesHeld s))).keys.fifo = [] := by
      unfold ledgerKept
      rfl
    show (if Config.ledgerOutlives then ledgerKept s (wiped (faceTakesHeld s)) else wiped (faceTakesHeld s)).keys.fifo = []
    split
    · exact hkept
    · rfl
  exact ⟨fun h => absurd hfifo h, fun _ => hfifo⟩

section
variable {s : State} (hs : (keyView s).flagged)
include hs

theorem flagged_powerOn (straps : Straps) : (keyView (powerOn s straps)).flagged := by
  unfold powerOn
  split
  · simp
  · exact hs

theorem flagged_corkExits (straps : Straps) : (keyView (corkExits s straps)).flagged := by
  unfold corkExits
  split
  · exact KeyView.flagged_nil _ _ _ _
  · exact hs

theorem flagged_powerLoss : (keyView (powerLoss s)).flagged := by
  unfold powerLoss
  split
  · exact hs
  · exact KeyView.flagged_nil _ _ _ _

@[simp] theorem flagged_expiryDone : (keyView (expiryDone s)).flagged := by simp [expiryDone, clockFailure, hs]

@[simp] theorem flagged_enterHold : (keyView (enterHold s)).flagged := by simp [enterHold, expiryBegins, hs]

theorem flagged_rootLost (pllToo : Bool) : (keyView (rootLost s pllToo)).flagged := by
  unfold rootLost
  split
  · exact hs
  · dsimp only
    split <;> simp [hs]

theorem flagged_pllLost : (keyView (pllLost s)).flagged := by
  unfold pllLost
  split
  · exact hs
  · dsimp only
    split <;> simp [hs]

theorem flagged_holdExpires : (keyView (holdExpires s)).flagged := by simp [holdExpires, clockFailure, expiryBegins, hs]

theorem flagged_warmStarts : (keyView (warmStarts s)).flagged := by
  unfold warmStarts
  split
  · split <;> simp [hs]
  · exact hs

theorem flagged_counterWritten : (keyView (counterWritten s)).flagged := by
  unfold counterWritten
  dsimp only
  split <;> simp [hs]

/-! ### The modes -/

/-- R47, R500: the SHIP step leaves CORK-ENTRY for STANDBY, or for Cork mode, which holds no event. -/
theorem flagged_corkShip : (keyView (corkShip s)).flagged := by
  have hawake : (keyView { s with pw := { s.pw with mode := .standby, trans := .idle } }).flagged :=
    flagged_awake hs rfl rfl nofun
  unfold corkShip
  split
  · dsimp only
    split
    · simpa only [keyView_slotsResume, keyView_recordInfo, keyView_restartA] using hawake
    · exact flagged_corkMode s
  · exact hs

omit hs in
theorem keyView_presenceKnown (s : State) : keyView (presenceKnown s) = keyView s := rfl

/-- R60: BOOT has kept the FIFO empty, so that IRQSTAT may begin without KEY. -/
theorem flagged_readyNow : (keyView (readyNow s)).flagged := by
  unfold readyNow
  split
  · next h =>
    have hempty : s.keys.fifo = [] := hs.2 (beq_iff_eq.mpr h.1)
    have hready : (keyView { s with
        pw := { s.pw with mode := .standby, bstep := 0, face := .full }
        irqStat := wordOf (1 + flag (decide (s.aon.latch &&& 7 ≠ 0)) irqWAKE)
        roles := Roles.ready (!s.pw.roleStrap) s.now }).flagged := ⟨fun hn => absurd hempty hn, nofun⟩
    dsimp only
    split <;> simpa only [keyView_bootWrites, keyView_backupFollow, keyView_startA, keyView_beginSession,
      keyView_presenceKnown] using hready
  · exact hs

@[simp] theorem flagged_modeBegin (m : Nat) : (keyView (modeBegin s m)).flagged := by
  unfold modeBegin
  split
  · simpa using hs
  · rw [keyView_lampsSettle]
    exact flagged_awake hs rfl rfl nofun
  · simpa using hs
  · exact hs

@[simp] theorem flagged_sysctlWrite (p : Port) (v : Word) : (keyView (sysctlWrite s p v)).flagged := by
  have hexpert : (keyView (setExpert s v)).flagged := by simpa using hs
  unfold sysctlWrite
  extract_lets m k
  split_ifs
  · simpa using hs
  · simpa using hs
  · simpa using hs
  · rw [keyView_banksDown, keyView_lampsSettle]
    exact hs
  · exact hexpert
  · exact flagged_modeBegin hexpert m
  · simpa using hs

theorem flagged_standbyReached : (keyView (standbyReached s)).flagged := by
  unfold standbyReached
  split
  · rw [keyView_lampsSettle]
    exact flagged_awake hs rfl rfl nofun
  · exact hs

theorem flagged_sleepEntered : (keyView (sleepEntered s)).flagged := by
  have hstops : (keyView (sleepStops s)).flagged := by simpa [sleepStops] using hs
  unfold sleepEntered
  split
  · exact flagged_awake hstops rfl rfl nofun
  · exact hs

theorem flagged_wakeCompletes : (keyView (wakeCompletes s)).flagged := by
  unfold wakeCompletes
  split
  · simp only [keyView_slotsResume, keyView_estWake, keyView_restartA, keyView_bootWrites]
    rw [keyView_setIrq _ (by decide)]
    exact flagged_awake hs rfl rfl nofun
  · exact hs

@[simp] theorem flagged_corkBegins (p : Port) : (keyView (corkBegins s p)).flagged := by
  have hstops : (keyView (pilIdle (slotsStop (slotsStop s .bankA true) .bankB true))).flagged := by simpa using hs
  unfold corkBegins
  rw [keyView_quietOutputs, keyView_crankStop, keyView_stopA]
  exact flagged_awake hstops rfl rfl nofun

/-! ### The roles (R149, R159) -/

@[simp] theorem flagged_swapRoles : (keyView (swapRoles s)).flagged := by
  unfold swapRoles
  rw [keyView_setIrq _ (by decide)]
  exact flagged_roles hs _

@[simp] theorem flagged_portctlWrite (p : Port) (v : Word) : (keyView (portctlWrite s p v)).flagged := by
  have hcore : (keyView (portctlCore s p v false).1).flagged := by simpa using hs
  unfold portctlWrite
  dsimp only
  split
  · exact flagged_swapRoles hcore
  · exact hcore

theorem flagged_swapMerge (vS vP : Word) : (keyView (swapMerge s vS vP)).flagged := by
  unfold swapMerge
  extract_lets wants kS s1 kP s2
  have hs2 : (keyView s2).flagged := by simpa [s2, s1] using hs
  split
  · exact flagged_swapRoles hs2
  · exact hs2

/-- R24: two requests of one merge window. -/
theorem flagged_modeMerge (vS vP : Word) : (keyView (modeMerge s vS vP)).flagged := by
  unfold modeMerge
  extract_lets mS mP s1
  have hs1 : (keyView s1).flagged :=
    answered_keepsView 3 vS hs fun t ht => gate_keepsView .portS 3 vS ht fun r w hr => flagged_sysctlWrite hr .portS w
  refine gate_keepsView .portP 3 vP hs1 fun t w ht => ?_
  split
  · split <;> simpa using ht
  · exact flagged_sysctlWrite ht .portP w

/-! ### IRQSTAT (R173, R205) -/

omit hs in
/-- A write of ones to IRQSTAT clears those bits, but KEY only with an empty FIFO. -/
theorem bit_clearIrq (s : State) (v : Word) {i : Nat} (hi : i < 16) : bit (clearIrq s v).irqStat i =
    (bit s.irqStat i && (!bit v i || (decide (i = irqKEY) && !s.keys.fifo.isEmpty))) := by
  have hkeep : bit (if s.keys.fifo.isEmpty then 0 else wordOf (2 ^ irqKEY)) i =
      (decide (i = irqKEY) && !s.keys.fifo.isEmpty) := by
    cases s.keys.fifo.isEmpty
    · show bit (wordOf (2 ^ irqKEY)) i = _
      simp only [bit, wordOf, BitVec.getLsbD_ofNat, Nat.testBit_two_pow, hi, decide_true, Bool.true_and, Bool.not_false,
        Bool.and_true, eq_comm]
    · simp [bit]
  simp only [clearIrq, bit, BitVec.getLsbD_and, BitVec.getLsbD_or, BitVec.getLsbD_not, hi, decide_true, Bool.true_and]
  rw [← hkeep]
  rfl

@[simp] theorem flagged_clearIrq (v : Word) : (keyView (clearIrq s v)).flagged := by
  refine ⟨fun h => ?_, hs.2⟩
  have hsome : s.keys.fifo ≠ [] := h
  have hkey : bit s.irqStat irqKEY = true := hs.1 hsome
  have hfull : s.keys.fifo.isEmpty = false := by simpa [List.isEmpty_iff] using hsome
  show bit (clearIrq s v).irqStat irqKEY = true
  rw [bit_clearIrq s v (by decide), hkey, hfull]
  simp

end

/-! ### The FIFO (R349, R350) -/

/-- Out of BOOT, with KEY as the FIFO asks. -/
def KeyView.scans (q : KeyView) : Prop := q.flagged ∧ q.boot = false

/-- An event that enters the FIFO sets KEY. -/
theorem keyView_keyPush (s : State) (e : Word) : keyView (keyPush s e) = keyView s ∨
    ∃ f, keyView (keyPush s e) = { keyView s with fifo := f, key := true } := by
  have hset (v : Word) : bit (v ||| wordOf (2 ^ irqKEY)) irqKEY = true := by
    rw [bit, BitVec.getLsbD_or]
    exact Bool.or_true _
  unfold keyPush
  dsimp only
  split
  · exact .inl rfl
  · split
    · exact .inr ⟨s.keys.fifo ++ [e], congrArg (fun k => KeyView.mk _ k _ _ _) (hset _)⟩
    · exact .inr ⟨s.keys.fifo ++ [keyEvent tMARKER 0 0 s.keys.scanCnt],
        congrArg (fun k => KeyView.mk _ k _ _ _) (hset _)⟩

theorem scans_keyPush {s : State} (hs : (keyView s).scans) (e : Word) : (keyView (keyPush s e)).scans := by
  rcases keyView_keyPush s e with h | ⟨f, h⟩
  · rwa [h]
  · rw [h]
    exact ⟨⟨fun _ => rfl, fun hb => absurd (hs.2.symm.trans hb) Bool.false_ne_true⟩, hs.2⟩

theorem scans_reportKey {s : State} (hs : (keyView s).scans) (old : BitVec 128) (l r : Nat) :
    (keyView (reportKey s old l r)).scans := by
  unfold reportKey
  extract_lets k n was is' ghosted put
  have hput (t : State) (ht : keyView t = keyView s) (ty : Nat) : (keyView (put t ty)).scans :=
    scans_keyPush (by rwa [ht]) _
  split_ifs
  · refine hput _ ?_ _
    rfl
  · exact hput s rfl _
  · exact hput s rfl _
  · refine hput _ ?_ _
    rfl
  · refine hput _ ?_ _
    rfl
  · exact hs

theorem scans_scanLine {s : State} (hs : (keyView s).scans) (ret : Byte) : (keyView (scanLine s ret)).scans := by
  have hfold (l : List Nat) (old : BitVec 128) (k : Nat) : ∀ t : State, (keyView t).scans →
      (keyView (l.foldl (fun s r => reportKey s old k r) t)).scans := by
    induction l with
    | nil => exact fun t ht => ht
    | cons r l ih => exact fun t ht => ih _ (scans_reportKey ht old k r)
  refine hfold _ _ _ _ ?_
  simpa [sampleLine_fifo] using hs

/-- No key slot begins in BOOT. -/
theorem boot_of_slotBegins {s : State} (h : slotBegins s = true) : (keyView s).boot = false := by
  show (s.pw.mode == .boot) = false
  unfold slotBegins slotsRun at h
  cases hmode : s.pw.mode
  case boot => simp [hmode] at h
  all_goals rfl

theorem flagged_keySlotRun {s : State} (hs : (keyView s).flagged) (ret : Byte) (cut : Option Nat) :
    (keyView (keySlotRun s ret cut)).flagged := by
  unfold keySlotRun
  split_ifs with hbegins
  · have hboot : (keyView (slotBegun s)).boot = false := by
      rw [keyView_slotBegun, ← keyView_slotMeets]
      exact boot_of_slotBegins hbegins
    unfold keySlotRuns
    dsimp only
    split
    · simpa using hs
    · have hline (K : Nat) := scans_scanLine (s := bookKey (slotBegun s) K K) ⟨by simpa using hs, by simpa using hboot⟩ ret
      rw [keyView_keySlotOver, keyView_scanStep]
      split
      · simpa using (hline _).1
      · exact (hline _).1
  · simpa using hs
  · exact hs

/-- R187: a read of KEVT takes events out of the FIFO. -/
@[simp] theorem flagged_kevtReadOp {s : State} (hs : (keyView s).flagged) : (keyView (kevtReadOp s).2).flagged := by
  unfold kevtReadOp
  split
  · exact hs
  · next e rest hq =>
    have hsome : s.keys.fifo ≠ [] := by rw [hq]; exact List.cons_ne_nil _ _
    exact ⟨fun _ => hs.1 hsome, fun hb => absurd (hs.2 hb) hsome⟩

end Sys2Proof.Machine
end

section
/-! O19, continued: register accesses, what falls beside them, the commands and the step (R131, R159, R173, R205, R208). -/

namespace Sys2Proof.Machine

open Sys2Proof

/-! ### Registers -/

section
variable {s : State} (hs : (keyView s).flagged)
include hs

@[simp] theorem flagged_regWriteBody (p : Port) (off : Nat) (v : Word) : (keyView (regWriteBody p off s v)).flagged := by
  unfold regWriteBody
  split <;> simp [hs]

@[simp] theorem flagged_regWrite (p : Port) (a : Fin 64) (v : Word) : (keyView (regWrite s p a v)).flagged :=
  gate_keepsView p a v hs fun _ w ht => flagged_regWriteBody ht p _ w

@[simp] theorem flagged_regReadBody (p : Port) (off : Nat) : (keyView (regReadBody p off s).2).flagged := by
  unfold regReadBody
  split <;> simp [rtcLReadOp, hs]

@[simp] theorem flagged_regRead (p : Port) (a : Fin 64) : (keyView (regRead s p a)).flagged := by
  unfold regRead
  split
  · have h : (keyView (wdataReadOp (captured s p) p).2).flagged := by simpa using hs
    split <;> next heq => simpa [heq] using h
  · exact readGate_keepsView p a hs (flagged_regReadBody hs p _)

theorem flagged_gen1Strobe {act : State → Byte → State}
    (hact : ∀ t ad, (keyView t).flagged → (keyView (act t ad)).flagged) (ale : Option Byte) (cs : Bool) :
    (keyView (gen1Strobe s ale cs act)).flagged := by
  unfold gen1Strobe
  dsimp only
  split_ifs
  · exact hact _ _ hs
  · exact hs
  · exact hs

theorem flagged_gen1Read (ad : Byte) : (keyView (gen1Read s ad)).flagged := by simp [gen1Read, hs]

theorem flagged_gen1Write (ad b : Byte) : (keyView (gen1Write s ad b)).flagged := by simp [gen1Write, hs]

/-! ### What falls together with a register write (R131, R159, R208) -/

omit hs in
@[simp] theorem keyView_frameCaptured (s : State) (a : Fin 64) : keyView (frameCaptured s a) = keyView s := by
  simp [frameCaptured]

@[simp] theorem flagged_frameWrite (a : Fin 64) (v : Word) : (keyView (frameWrite s a v)).flagged :=
  answered_keepsView a v (by simpa using hs) fun _ ht => flagged_regWrite ht .portS a v

@[simp] theorem flagged_writePair (aS : Fin 64) (vS : Word) (aP : Fin 64) (vP : Word) :
    (keyView (writePair s aS vS aP vP)).flagged := by
  have hboth := flagged_regWrite (flagged_frameWrite hs aS vS) .portP aP vP
  unfold writePair
  split_ifs
  · exact flagged_modeMerge hs vS vP
  · exact flagged_swapMerge hs vS vP
  · unfold dpwrPair
    split
    · simpa using hs
    · simp [hs]
  · exact hboth

theorem flagged_besideWait {act : State → State} (hact : ∀ t, (keyView t).flagged → (keyView (act t)).flagged) (p : Port)
    (bs : List Bank) (a : Fin 64) (v : Word) : (keyView (besideWait s p bs a v act).1).flagged := by
  have hdone := hact s hs
  unfold besideWait
  dsimp only
  split
  · split
    · exact hdone
    · split <;> simpa using hs
  · split
    · simpa using hs
    · exact hdone
  · exact hs
  · split <;> simpa using hs
  · exact hdone

@[simp] theorem flagged_writeWait (p : Port) (bs : List Bank) (a : Fin 64) (v : Word) :
    (keyView (writeWait s p bs a v).1).flagged := by
  unfold writeWait
  split
  · split
    · exact flagged_besideWait (by simpa using hs) (fun t ht => flagged_regWriteBody ht _ _ _) _ _ _ _
    · exact flagged_regWrite hs p a v
  · exact flagged_regWrite hs p a v

@[simp] theorem flagged_frameWait (bs : List Bank) (a : Fin 64) (v : Word) : (keyView (frameWait s bs a v).1).flagged :=
  answered_keepsView a v (by simpa using hs) fun _ ht => flagged_writeWait ht .portS bs a v

@[simp] theorem flagged_pairWait (bs : List Bank) (aS : Fin 64) (vS : Word) (aP : Fin 64) (vP : Word) :
    (keyView (pairWait s bs aS vS aP vP).1).flagged := by
  unfold pairWait
  split
  · simpa using hs
  · split
    · exact flagged_writePair hs aS vS aP vP
    · exact flagged_writeWait (flagged_frameWait hs bs aS vS) .portP bs aP vP

theorem flagged_bothWrite (S P : Option (Fin 64 × Word)) : (keyView (bothWrite s S P)).flagged := by
  cases S <;> cases P <;> simp [bothWrite, hs]

theorem flagged_bothWait (bs : List Bank) (S P : Option (Fin 64 × Word)) : (keyView (bothWait s bs S P).1).flagged := by
  cases S <;> cases P <;> simp [bothWait, hs]

theorem flagged_deviceLast {act rest : State → State} (hact : ∀ t, (keyView t).flagged → (keyView (act t)).flagged)
    (hrest : ∀ t, (keyView t).flagged → (keyView (rest t)).flagged) : (keyView (deviceLast s act rest)).flagged := by
  have h : (keyView (rest { act { s with err := ErrRec.none } with err := s.err })).flagged := hrest _ (hact _ hs)
  unfold deviceLast
  dsimp only
  split
  · exact h
  · exact h

theorem flagged_writesBeside (p : Port) (a : Fin 64) (v : Word) (w : Beside) :
    (keyView (writesBeside s p a v w)).flagged := by
  unfold writesBeside
  dsimp only
  refine flagged_deviceLast (flagged_bothWrite hs _ _) (fun t ht => ?leave) fun t ht => ?writes
  case leave =>
    split
    · split <;> simpa using ht
    · exact ht
  case writes =>
    split
    · exact flagged_bothWrite ht _ _
    · have hboundary := flagged_bothWait ht
      split <;> simp [hboundary]

theorem flagged_writeBeside (p : Port) (a : Fin 64) (v : Word) (w : Beside) : (keyView (writeBeside s p a v w)).flagged := by
  unfold writeBeside
  split
  · exact flagged_regWrite hs p a v
  · exact flagged_writesBeside hs p a v w

theorem flagged_portSFrame (bits : List Bool) : (keyView (portSFrame s bits)).flagged := by
  have hread (a : Fin 64) := flagged_regRead hs .portS a
  have hwrite := flagged_frameWrite hs
  unfold portSFrame
  split
  · exact hs
  · dsimp only
    split
    · exact hs
    · split
      · exact hwrite _ _
      · exact hread _

end

/-! ### The commands and the step -/

@[simp] theorem keyView_tick (s : State) : keyView (tick s) = keyView s := by
  simp [tick, aonTick, frameEdge]

/-- R490, R499: the CORK command's effect begins CORK-ENTRY. -/
theorem flagged_corkEffect {s : State} (hs : (keyView s).flagged) : (keyView (effect s .cork (fun s a =>
    if s.pw.rst = .pin then s else corkBegins (authDone s 0) a.port))).flagged := by
  have hverdict : (keyView (authVerdict s)).flagged := by simpa using hs
  unfold effect
  dsimp only
  split
  · split
    · split
      · exact hverdict
      · exact flagged_corkBegins (by simpa using hverdict) _
    · exact hverdict
  · exact hverdict

/-- A command keeps KEY with the FIFO: the rows named here move the FIFO, its interrupt bit, the mode or the roles; every
other row leaves them alone. -/
theorem flagged_exec {c : Instr} {s t : State} (h : exec c s = .next t) (hs : (keyView s).flagged) :
    (keyView t).flagged := by
  cases c with
  | powerOnReset straps => cases h; exact flagged_powerOn hs straps
  | corkExit straps => cases h; exact flagged_corkExits hs straps
  | powerOnResetAssertion => cases h; exact flagged_powerLoss hs
  | warmBootStart => cases h; exact flagged_warmStarts hs
  | rootLoss pllToo => cases h; exact flagged_rootLost hs pllToo
  | pllUnlock => cases h; exact flagged_pllLost hs
  | holdoverExpiry => cases h; exact flagged_holdExpires hs
  | corkShipStep => cases h; exact flagged_corkShip hs
  | counterWriteDone => cases h; exact flagged_counterWritten hs
  | ready => cases h; exact flagged_readyNow hs
  | standbyReached => cases h; exact flagged_standbyReached hs
  | sleepEntered => cases h; exact flagged_sleepEntered hs
  | wakeComplete => cases h; exact flagged_wakeCompletes hs
  | keySlot returns cut => cases h; exact flagged_keySlotRun hs returns cut
  | kevtRead p => cases h; exact readGate_keepsView p 0x17 hs (flagged_kevtReadOp hs)
  | gen1LowByteWrite ale cs b => cases h; exact flagged_gen1Strobe hs (fun t ad ht => flagged_gen1Write ht ad b) ale cs
  | gen1LowByteRead ale cs => cases h; exact flagged_gen1Strobe hs (fun t ad ht => flagged_gen1Read ht ad) ale cs
  | registerWrite p a v w => cases h; exact flagged_writeBeside hs p a v w
  | portSFrame bits => cases h; exact flagged_portSFrame hs bits
  | mreqStandby p expert => cases h; exact gate_keepsView p 3 _ hs fun t w ht => flagged_sysctlWrite ht p w
  | mreqRun p expert => cases h; exact gate_keepsView p 3 _ hs fun t w ht => flagged_sysctlWrite ht p w
  | mreqSleep p expert => cases h; exact gate_keepsView p 3 _ hs fun t w ht => flagged_sysctlWrite ht p w
  | softwareReset p expert => cases h; exact gate_keepsView p 3 _ hs fun t w ht => flagged_sysctlWrite ht p w
  | modeMergeWindowEnd vS vP => cases h; exact flagged_modeMerge hs vS vP
  | swapRequest p v => cases h; exact gate_keepsView p 8 v hs fun t w ht => flagged_portctlWrite ht p w
  | swapMergeWindowEnd vS vP => cases h; exact flagged_swapMerge hs vS vP
  | heartbeat p v => cases h; exact gate_keepsView p 8 v hs fun t w ht => flagged_portctlWrite ht p w
  | fdonWrite p v => cases h; exact gate_keepsView p 8 v hs fun t w ht => flagged_portctlWrite ht p w
  | cork => cases h; exact flagged_corkEffect hs
  | _ => cases h; simp [hs]

/-- R173, R205: a write to IRQSTAT clears the bits written 1, and KEY only with an empty FIFO. -/
theorem irqstatWrite_bits {p : Port} {v w : Word} {s : State} (h : reachesRule s p 0x04 v w) :
    ∃ t, exec (.registerWrite p 0x04 v .alone) s = .next t ∧ t = { gen1Empty s p 0x04 with irqStat := t.irqStat } ∧
      (∀ i, i < 16 → i ≠ 4 → bit t.irqStat i = (bit s.irqStat i && !bit w i)) ∧
      bit t.irqStat 4 = (bit s.irqStat 4 && (!bit w 4 || !s.keys.fifo.isEmpty)) := by
  have hrow : exec (.registerWrite p 0x04 v .alone) s = .next (clearIrq (gen1Empty s p 0x04) w) :=
    registerWrite_reach h rfl
  refine ⟨_, hrow, rfl, fun i hi hne => ?_, ?_⟩
  · rw [bit_clearIrq _ _ hi, gen1Empty_irqStat, decide_eq_false hne, Bool.false_and, Bool.or_false]
  · rw [bit_clearIrq _ _ (by decide), gen1Empty_irqStat, gen1Empty_keys]
    rfl

/-- Settles O19: an idle cycle keeps the FIFO and KEY, every command keeps KEY with the FIFO, and a write to IRQSTAT
clears KEY with an empty FIFO alone. -/
theorem keyInterruptFollowsTheFifo : Obligations.KeyInterruptFollowsTheFifo := by
  unfold Obligations.KeyInterruptFollowsTheFifo
  refine ⟨fun s t hs hstep => ?_, fun p v w s => irqstatWrite_bits⟩
  rw [keyFlag_iff] at hs ⊢
  unfold step at hstep
  split at hstep
  · cases hstep
    simpa using hs
  · exact flagged_exec hstep (by simpa using hs)

end Sys2Proof.Machine
end

section
/-! The outputs towards the glass and the hosts (R91, R92, R119, R132, R240 to R261, R340, R498, R535, Tables DRV-2, DRV-3
and PKG-8): the levels of a slot's outputs, what an output ball of the VIO domain does, and O58. -/

namespace Sys2Proof.Machine

open Sys2Proof

/-! ### The levels of a slot (Tables DRV-2 and DRV-3) -/

/-- In positive polarity the COM level less the SEG level is the pixel's voltage, for every bias of Table REG-9. -/
theorem comLevel_sub_segLevel_positive {k : Nat} (hk : k ≤ 4) (selected on : Bool) :
    (if selected then (60 : Int) else biasLevel (biasA k) 1) -
      (if on then 0 else if k = 0 then 60 else biasLevel (biasA k) 2) = pixelUnits k selected on := by
  interval_cases k <;> cases selected <;> cases on <;> decide

/-- In negative polarity every level is mirrored, and with them the voltage changes its sign. -/
theorem mirrored_sub_mirrored (neg : Bool) (u v : Int) :
    mirrored neg u - mirrored neg v = if neg then -(u - v) else u - v := by
  cases neg
  · rfl
  · simp only [mirrored, if_true]
    omega

/-- Table DRV-3: the outputs of a slot give pixel (n, x) its voltage. -/
theorem slotLevels_sub {r : SlotRec} {n x : Nat} (hline : n < r.lines) (hdriven : r.driven = true) (hbias : r.bias ≤ 4) :
    ∃ u v : Int, comLevel r n = .level u ∧ segLevel r x = .level v ∧ u - v = driveUnits r n x := by
  refine ⟨_, _, if_neg (by omega), rfl, ?_⟩
  have hunits := comLevel_sub_segLevel_positive hbias (n == r.line) (r.pix.getLsbD x)
  simp only [beq_iff_eq] at hunits
  have hvoltage : driveUnits r n x = if r.neg then -pixelUnits r.bias (n == r.line) (r.pix.getLsbD x)
      else pixelUnits r.bias (n == r.line) (r.pix.getLsbD x) := if_pos ⟨hdriven, hline⟩
  rw [mirrored_sub_mirrored, hunits, hvoltage]

/-! ### The glass outputs -/

section
variable {s : State} {b : Bank} {key : Bool}

/-- A key slot is bank A's alone. -/
theorem noKeySlot (h : key = false ∨ b = .bankB) : (key && b == .bankA) = false := by
  rcases h with rfl | rfl
  · rfl
  · exact Bool.and_false key

theorem comOut_slot {r : SlotRec} (hdriven : driven (getBank s b).drv = true)
    (hslot : (getBank s b).led.recs.getLast? = some r) (hkey : key = false ∨ b = .bankB) (n : Nat) :
    comOut s b key n = comLevel r n := by
  simp [comOut, slotNow, hdriven, hslot, noKeySlot hkey]

theorem segOut_slot {r : SlotRec} (hdriven : driven (getBank s b).drv = true)
    (hslot : (getBank s b).led.recs.getLast? = some r) (hkey : key = false ∨ b = .bankB) (x : Nat) :
    segOut s b key x = segLevel r x := by
  simp [segOut, slotNow, hdriven, hslot, noKeySlot hkey]

theorem comOut_undriven (hdriven : driven (getBank s b).drv = false) (n : Nat) : comOut s b key n = .ground := by
  simp [comOut, hdriven]

/-- R261: outside the key slots of state 0 an undriven bank holds its SEG outputs at VSS. -/
theorem segOut_undriven (hdriven : driven (getBank s b).drv = false) {x : Nat}
    (h : key = false ∨ b = .bankB ∨ (getBank s b).drv.sta ≠ .off ∨ 16 ≤ x) : segOut s b key x = .ground := by
  have hscan : (key && b == .bankA && (getBank s b).drv.sta == .off && decide (x < 16)) = false := by
    rcases h with rfl | rfl | hon | hx
    · rfl
    · rw [noKeySlot (.inr rfl)]; rfl
    · rw [beq_false_of_ne hon, Bool.and_false, Bool.false_and]
    · rw [decide_eq_false (by omega), Bool.and_false]
  simp [segOut, hdriven, hscan]

end

/-- R247: in a key slot of a driven bank A every COM is at L_0. -/
theorem comOut_keySlot {s : State} (hdriven : driven s.bankA.drv = true) (n : Nat) : comOut s .bankA true n = .level 0 := by
  simp [comOut, getBank, hdriven]

/-- R340: the Trellis has SEGA0 to SEGA15, and the other SEG outputs are at L_0. -/
theorem segOut_keySlot {s : State} (hdriven : driven s.bankA.drv = true) (x : Nat) :
    segOut s .bankA true x = if x < 16 then scanOut s x else .level 0 := by
  simp [segOut, getBank, hdriven]

theorem scanOut_active {s : State} {l : Nat} (h : l = (slotBegun s).keys.line) :
    scanOut s l = .level (keyLevel (slotBegun s)) := if_pos h

theorem scanOut_idle {s : State} {l : Nat} (h : l ≠ (slotBegun s).keys.line) (hused : l ≤ (slotBegun s).keys.cur.lines) :
    scanOut s l = .weak := (if_neg h).trans (if_pos hused)

/-! ### The balls of the VIO domain (R535, Table PKG-8) -/

section
variable {s : State}

/-- Without VIO, or under HIGHZ, an output floats. -/
theorem vioPin_floats (h : s.pw.vio = false ∨ s.tap.ir = 4) (enable value : Bool) (own : Pin) :
    vioPin s enable value own = .hiZ := by
  rcases h with h | h <;> simp [vioPin, tapHighz, h]

/-- While no boundary instruction drives the balls an output has its function. -/
theorem vioPin_own (hvio : s.pw.vio = true) (hhighz : s.tap.ir ≠ 4) (hextest : s.tap.ir ≠ 0) (hclamp : s.tap.ir ≠ 3)
    (enable value : Bool) (own : Pin) : vioPin s enable value own = own := by
  have hdrive : cellsDrive s = false := by
    rw [cellsDrive, beq_false_of_ne hextest, beq_false_of_ne hclamp, Bool.or_self]
  simp [vioPin, show tapHighz s = false from beq_false_of_ne hhighz, hdrive, hvio]

theorem Pin.ofBool_eq_low {v : Bool} : Pin.ofBool v = .low ↔ v = false := by cases v <;> decide

theorem Pin.ofBool_eq_high {v : Bool} : Pin.ofBool v = .high ↔ v = true := by cases v <;> decide

theorem parallelOn_portOff (h : s.pw.gen = .portOff) : parallelOn s = false := by simp [parallelOn, h]

theorem parallelOn_live (hface : s.pw.face ≠ .dead) (hgen : s.pw.gen ≠ .portOff) : parallelOn s = true := by
  simp [parallelOn, hface, hgen]

/-- R92, R98: what ends the drive of HDn. -/
theorem hdDriven_not {x : Strobes} {n : Nat}
    (h : x.cs = false ∨ x.oe = false ∨ x.we = true ∨ (s.pw.gen = .gen1 ∧ 8 ≤ n)) : hdDriven s x n = false := by
  rcases h with h | h | h | ⟨hgen, hn⟩
  · simp [hdDriven, h]
  · simp [hdDriven, h]
  · simp [hdDriven, h]
  · simp [hdDriven, hgen, hn]

theorem hdDriven_access {x : Strobes} {n : Nat} (hon : parallelOn s = true) (hcs : x.cs = true) (hoe : x.oe = true)
    (hwe : x.we = false) (hbyte : s.pw.gen = .gen1 → n < 8) : hdDriven s x n = true := by
  by_cases hgen : s.pw.gen = .gen1
  · simp [hdDriven, hon, hcs, hoe, hwe, hbyte hgen]
  · simp [hdDriven, hon, hcs, hoe, hwe, hgen]

theorem readActs_iff (a : Fin 64) : readActs a = true ↔ offOf a = 0x16 ∨ offOf a = 0x2E ∨ offOf a = 0x54 := by
  simp only [readActs, Bool.or_eq_true, beq_iff_eq, or_assoc]

/-- R96, R101: the word that the read has taken, where the read is a row of its own. -/
theorem hdWord_taken {a : Fin 64} (h : s.pw.gen = .gen1 ∨ (s.pw.face = .full ∧ readActs a = true)) :
    hdWord s a = s.portP.rdata := by
  rcases h with h | ⟨hface, hacts⟩ <;> simp [hdWord, *]

theorem hdWord_bootFace {a : Fin 64} (hgen : s.pw.gen ≠ .gen1) (hface : s.pw.face = .bootFace) :
    hdWord s a = bootRead s a := by
  simp [hdWord, hgen, hface]

/-- R95: the value of the register selected. -/
theorem hdWord_register {a : Fin 64} (hgen : s.pw.gen ≠ .gen1) (hface : s.pw.face = .full) (hacts : readActs a = false) :
    hdWord s a = regValue s .portP (offOf a) := by
  simp [hdWord, hgen, hface, hacts]

/-! ### TDO (R498, R566) -/

theorem tdoPin_closed (h : s.pw.vio = false ∨ (s.auth.dbgBs = false ∧ s.auth.dbgTest = false)) (x : TapScan)
    (tdi : List Bool) (n : Nat) : tdoPin s (some (x, tdi, n)) = .hiZ := by
  rcases h with h | ⟨hbs, htest⟩ <;> simp [tdoPin, tapOpen, tapTest, *]

theorem tdoPin_open (hvio : s.pw.vio = true) (hbs : s.auth.dbgBs = true) (x : TapScan) (tdi : List Bool) (n : Nat) :
    tdoPin s (some (x, tdi, n)) = .ofBool (tapScanOut s x tdi n) := by
  simp [tdoPin, tapOpen, hvio, hbs]

/-- A scan shifts out the captured register first, and then what was shifted in. -/
theorem tapScanOut_captured {x : TapScan} {n : Nat} (h : n < (tapRegister s x).1) (tdi : List Bool) :
    tapScanOut s x tdi n = (tapRegister s x).2.testBit n := if_pos h

theorem tapScanOut_shifted {x : TapScan} {n : Nat} (h : (tapRegister s x).1 ≤ n) (tdi : List Bool) :
    tapScanOut s x tdi n = tdi.getD (n - (tapRegister s x).1) false := if_neg (by omega)

/-- R566: an instruction scan captures 0b00001. -/
theorem captureIr_testBit (n : Nat) : captureIr.toNat.testBit n = decide (n = 0) := by
  cases n
  · rfl
  · simp [captureIr, Nat.testBit_succ]

end

/-! ### The statement -/

/-- The host outputs while no boundary instruction drives the balls. -/
theorem hostOutputs_function {s : State} (x : Strobes) (a : Fin 64) (n : Nat) (cs sck : Bool) (hvio : s.pw.vio = true)
    (hhighz : s.tap.ir ≠ 4) (hextest : s.tap.ir ≠ 0) (hclamp : s.tap.ir ≠ 3) :
    hdPin s x a n = (if hdDriven s x n then .ofBool ((hdWord s a).getLsbD n) else .hiZ) ∧
    waitPin s cs = (if parallelOn s && s.pw.gen == .gen3 && cs then .ofBool (s.portP.held == .none) else .hiZ) ∧
    sdoPin s false sck n = .hiZ ∧
    ∀ p, irqPin s p = if !islandOn s then .hiZ
      else if p == .portP && s.pw.gen == .portOff then .high else .ofBool (!irqLow s (getPort s p)) :=
  have own := vioPin_own hvio hhighz hextest hclamp
  ⟨own _ _ _, own _ _ _, own _ _ _, fun _ => own _ _ _⟩

/-- Settles O58: the glass by the bank's state and the slot's record, the host balls by their gate and their function. -/
theorem outputsFollowTheState : Obligations.OutputsFollowTheState := by
  unfold Obligations.OutputsFollowTheState
  refine ⟨⟨?slot, ?keySlot, ?undriven, fun s b => rfl⟩, ?floats, ?function, ?tdo⟩
  case slot =>
    intro s b key r n x hdriven hslot hkey
    rw [comOut_slot hdriven hslot hkey, segOut_slot hdriven hslot hkey]
    exact ⟨slotLevels_sub, fun hbeyond => if_pos hbeyond⟩
  case keySlot =>
    intro s n x hdriven
    rw [segOut_keySlot hdriven]
    refine ⟨comOut_keySlot hdriven n, fun hx => if_neg (by omega), fun hx hline => ?_, fun hx hline hused => ?_⟩
    · rw [if_pos hx, scanOut_active hline]
    · rw [if_pos hx, scanOut_idle hline hused]
  case undriven => exact fun s b key n x hdriven => ⟨comOut_undriven hdriven n, segOut_undriven hdriven⟩
  case floats =>
    intro s x a n cs sck p h
    have floats := vioPin_floats h
    exact ⟨floats _ _ _, floats _ _ _, floats _ _ _, floats _ _ _⟩
  case function =>
    intro s x a n cs sck hvio hhighz hextest hclamp
    obtain ⟨hhd, hwait, hsdo, hirq⟩ := hostOutputs_function x a n cs sck hvio hhighz hextest hclamp
    obtain ⟨_, hwaitTrue, _⟩ := hostOutputs_function x a n true sck hvio hhighz hextest hclamp
    rw [hhd, hwait, hwaitTrue, hirq, hirq]
    refine ⟨fun h => ?hiZ, fun hface hgen hcs hoe hwe hbyte => ?driven, ?taken, hdWord_bootFace, ?register, fun h => ?waitHiZ,
      fun hface hgen => ?wait, hsdo, fun hgen => ?portOff, fun hon => ?irqS, fun hon hgen => ?irqP⟩
    case hiZ => rw [hdDriven_not h]; rfl
    case driven => rw [hdDriven_access (parallelOn_live hface hgen) hcs hoe hwe hbyte]; rfl
    case taken => exact fun h => hdWord_taken (h.imp_right (And.imp_right (readActs_iff a).mpr))
    case register =>
      intro hgen hface h16 h2e h54
      refine hdWord_register hgen hface (Bool.eq_false_iff.mpr fun hacts => ?_)
      rcases (readActs_iff a).mp hacts with h | h | h
      · exact h16 h
      · exact h2e h
      · exact h54 h
    case waitHiZ => rcases h with h | h <;> simp [h]
    case wait =>
      rw [parallelOn_live hface (by simp [hgen]), hgen]
      simp [Pin.ofBool_eq_low, Pin.ofBool_eq_high]
    case portOff => simp +contextual [hdDriven, parallelOn_portOff hgen, hgen]
    case irqS => simp [hon, Pin.ofBool_eq_low, getPort]
    case irqP => simp [hon, hgen, Pin.ofBool_eq_low, getPort]
  case tdo =>
    intro s x tdi n
    refine ⟨fun h => tdoPin_closed h x tdi n, rfl, fun hvio hbs => ?_⟩
    have hopen := tdoPin_open hvio hbs
    rw [hopen, hopen]
    refine ⟨fun hn => ?_, fun hn => ?_, fun y hn hy => ?_⟩
    · rw [tapScanOut_captured (x := .ir) hn]
      exact congrArg Pin.ofBool (captureIr_testBit n)
    · rw [tapScanOut_captured (x := .dr) hn]; rfl
    · rw [tapScanOut_shifted (x := .ir) hn]
      show Pin.ofBool (tdi.getD (n - 5) false) = _
      rw [List.getD_eq_getElem?_getD, hy]; rfl

end Sys2Proof.Machine
end

section
/-! What the racking side, the animation engine, the plans and the lamps leave at a frame boundary (R208, R226, R283, R306
to R329): a bank's drive, trim and records, one of its layers, the other bank, IRQSTAT.VLCD and the CK_FRAME cycle of the
last L0 burst, as one value. -/

namespace Sys2Proof.Machine

open Sys2Proof

/-! ### The value -/

/-- A bank's drive and trim, the records of its running frame and its booking passes, one of its layers and the other bank,
beside IRQSTAT.VLCD and the time of the last L0 burst. -/
structure EdgeView where
  drv : Drive
  trim : Trim
  recs : List SlotRec
  passes : List Pass
  layer : LayerSt
  other : BankSt
  vlcd : Bool
  l0At : Option Nat

/-- What a bank shows of it, with its layer l. -/
def edgeOf (x other : BankSt) (l : Nat) (vlcd : Bool) (l0At : Option Nat) : EdgeView :=
  ⟨x.drv, x.trim, x.led.recs, x.led.passes, getLayer x l, other, vlcd, l0At⟩

/-- The value of bank b and its layer l in a machine. -/
def edgeView (b : Bank) (l : Nat) (s : State) : EdgeView :=
  edgeOf (getBank s b) (otherBank s b) l (bit s.irqStat irqVLCD) s.arb.l0At

/-! `edgeView_mk` reads the value off a state written out and `edgeView_fold` reads it back; `edgeView_fields` reads a
field of the machine as the value shows it. -/

@[simp] theorem edgeView_mk (b : Bank) (l : Nat) (now freeCtr : Nat) (pw : Power) (clk : Clock) (irqStat : Word)
    (err : ErrRec) (portP portS : PortSt) (spi : SpiResp) (roles : Roles) (scratch : Word) (bankA bankB : BankSt)
    (disp : Display) (keys : Keys) (lamps : Lamps) (batA : BatA) (batB : BatB) (estA estB : Est) (pack : Pack)
    (auth : Auth) (nv : Nv) (aon : Aon) (bak : Backup) (arb : Arb) (tap : Tap) (mem : List Host.Cell)
    (pending : List Instr) :
    edgeView b l ⟨now, freeCtr, pw, clk, irqStat, err, portP, portS, spi, roles, scratch, bankA, bankB, disp, keys, lamps,
      batA, batB, estA, estB, pack, auth, nv, aon, bak, arb, tap, mem, pending⟩ =
      match b with
      | .bankA => edgeOf bankA bankB l (bit irqStat irqVLCD) arb.l0At
      | .bankB => edgeOf bankB bankA l (bit irqStat irqVLCD) arb.l0At := by
  cases b <;> rfl

@[simp] theorem edgeView_fold (b : Bank) (l : Nat) (s : State) :
    (match b with
      | .bankA => edgeOf s.bankA s.bankB l (bit s.irqStat irqVLCD) s.arb.l0At
      | .bankB => edgeOf s.bankB s.bankA l (bit s.irqStat irqVLCD) s.arb.l0At) = edgeView b l s := by
  cases b <;> rfl

theorem edgeView_fields (b : Bank) (l : Nat) (s : State) : (getBank s b).drv = (edgeView b l s).drv ∧
    (getBank s b).trim = (edgeView b l s).trim ∧ (getBank s b).led.recs = (edgeView b l s).recs ∧
    (getBank s b).led.passes = (edgeView b l s).passes ∧ getLayer (getBank s b) l = (edgeView b l s).layer ∧
    bit s.irqStat irqVLCD = (edgeView b l s).vlcd ∧ s.arb.l0At = (edgeView b l s).l0At :=
  ⟨rfl, rfl, rfl, rfl, rfl, rfl, rfl⟩

theorem edgeView_other {b b' : Bank} (h : b' ≠ b) (l : Nat) (s : State) : getBank s b' = (edgeView b l s).other :=
  otherBank_eq h

@[simp] theorem edgeView_setBank (b : Bank) (l : Nat) (s : State) (x : BankSt) : edgeView b l (setBank s b x) =
    { edgeView b l s with
      drv := x.drv, trim := x.trim, recs := x.led.recs, passes := x.led.passes, layer := getLayer x l } := by
  cases b <;> rfl

@[simp] theorem edgeView_ite (b : Bank) (l : Nat) (c : Prop) [Decidable c] (s t : State) :
    edgeView b l (if c then s else t) = if c then edgeView b l s else edgeView b l t := apply_ite (edgeView b l) c s t

@[simp] theorem edgeView_foldl {α : Type} {b : Bank} {l : Nat} {f : State → α → State}
    (hf : ∀ s a, edgeView b l (f s a) = edgeView b l s) (as : List α) (s : State) :
    edgeView b l (as.foldl f s) = edgeView b l s := by
  induction as generalizing s with
  | nil => rfl
  | cons a as ih => exact (ih _).trans (hf s a)

/-! ### Parts of a bank -/

section
variable (b : Bank) (l : Nat) (s : State)

@[simp] theorem edgeView_setDrv (d : Drive) : edgeView b l (setDrv s b d) = { edgeView b l s with drv := d } := by
  cases b <;> rfl

@[simp] theorem edgeView_setLed (g : Ledger) :
    edgeView b l (setLed s b g) = { edgeView b l s with recs := g.recs, passes := g.passes } := by
  cases b <;> rfl

@[simp] theorem edgeView_setThr (t : Thread) : edgeView b l (setThr s b t) = edgeView b l s := by cases b <;> rfl

@[simp] theorem edgeView_setCrack (c : Crack) : edgeView b l (setCrack s b c) = edgeView b l s := by cases b <;> rfl

/-! ### Flags, the Cellar and the lamps -/

/-- An interrupt bit other than VLCD leaves VLCD. -/
@[simp] theorem edgeView_setIrq {i : Nat} (h : i ≠ irqVLCD) : edgeView b l (setIrq s i) = edgeView b l s := by
  simp [setIrq, h]

@[simp] theorem edgeView_setIrqIf (c : Bool) {i : Nat} (h : i ≠ irqVLCD) :
    edgeView b l (setIrqIf c s i) = edgeView b l s := by simp [setIrqIf, h]

@[simp] theorem edgeView_eccRead (w : Nat) : edgeView b l (eccRead s w) = edgeView b l s := by
  unfold eccRead
  split <;> simp [detectCe, detectUe, recordCell, record]

@[simp] theorem edgeView_eccReadN (w n : Nat) : edgeView b l (eccReadN s w n) = edgeView b l s := by
  induction n generalizing s w with
  | zero => rfl
  | succ n ih => exact (ih _ _).trans (edgeView_eccRead b l s w)

@[simp] theorem edgeView_storeEcc (w n v : Nat) : edgeView b l (storeEcc s w n v) = edgeView b l s := by
  induction n generalizing s w v with
  | zero => rfl
  | succ n ih => exact (ih _ _ _).trans (by simp [eccWritten])

@[simp] theorem edgeView_storeLine (a : Nat) (v : BitVec 128) : edgeView b l (storeLine s a v) = edgeView b l s := by
  simp [storeLine]

@[simp] theorem edgeView_grantLow (lvl n : Nat) : edgeView b l (grantLow s lvl n) = edgeView b l s := by simp [grantLow]

@[simp] theorem edgeView_setLamp (n : Fin 8) (c : Lamp) : edgeView b l (setLamp s n c) = edgeView b l s := by
  simp [setLamp]

@[simp] theorem edgeView_lampsSettle : edgeView b l (lampsSettle s) = edgeView b l s := by
  rw [lampsSettle_frame]
  simp

@[simp] theorem edgeView_lampFrame (c : Bank) : edgeView b l (lampFrame s c) = edgeView b l s := by
  simp [lampFrame, lampLocked, periodStart, takeGrid]

/-! ### The layers, the masks and the blink groups -/

@[simp] theorem edgeView_burstWork (q : Burst) : edgeView b l (burstWork s b q) = edgeView b l s := by
  simp [burstWork, fetchReads, rackLayer, intoIdle]

@[simp] theorem edgeView_passBegins (boundary : Bool) : edgeView b l (passBegins s b boundary) =
    { edgeView b l s with
      recs := []
      passes := (edgeView b l s).passes ++ [⟨(edgeView b l s).recs, (frameLen (edgeView b l s).drv,
        frameSlots (edgeView b l s).drv), keyColumns s b, boundary⟩] } := by
  simp [passBegins, edgeView_fields b l]

/-- Work on the layers alone shows in the layer alone. -/
theorem edgeView_layers {x : BankSt} (h : x = { getBank s b with layers := x.layers }) :
    edgeView b l (setBank s b x) = { edgeView b l s with layer := getLayer x l } := by
  rw [edgeView_setBank, h]
  rfl

/-- R308, R313: the layers of a bank swap or are late, each by its batch. -/
theorem edgeView_layersBoundary (h : l < 5) : edgeView b l (layersBoundary s b) =
    { edgeView b l s with layer := (layerBoundary (edgeView b l s).layer).1 } := by
  have hframe := foldl_setLayer_frame _ (fun x k => setLayer_frame x k (layerBoundary (getLayer x k)).1) (List.range 5)
    (getBank s b)
  have hlayer := getLayer_eachLayer (fun _ y _ => (layerBoundary y).1) (getBank s b) h
  unfold layersBoundary
  extract_lets x r x' late ttLate s1 s2 stale anyTt s3
  have h1 : edgeView b l s1 = { edgeView b l s with layer := (layerBoundary (getLayer x l)).1 } := by
    rw [← hlayer]
    exact (edgeView_setBank b l s _).trans (by rw [show x' = _ from hframe]; rfl)
  have h3 : edgeView b l s3 = edgeView b l s1 := by simp [s3, s2]
  exact (by simp : edgeView b l { s3 with disp := _ } = edgeView b l s3).trans (h3.trans h1)

@[simp] theorem edgeView_fallbackBoundary : edgeView b l (fallbackBoundary s b) = edgeView b l s := by
  unfold fallbackBoundary
  extract_lets x s1
  have h1 : edgeView b l s1 = edgeView b l s := by cases b <;> rfl
  have hroles (r : Roles) : edgeView b l { s1 with roles := r } = edgeView b l s1 := by cases b <;> rfl
  split
  · rw [edgeView_lampsSettle, hroles, h1]
  · exact h1

@[simp] theorem edgeView_masksInForce : edgeView b l (masksInForce s b) = edgeView b l s := by cases b <;> rfl

@[simp] theorem edgeView_blinkBoundary (F : Nat) : edgeView b l (blinkBoundary s b F) = edgeView b l s := by
  cases b <;> rfl

/-! ### The animation engine, the plan and the crack loop -/

@[simp] theorem edgeView_animPut (c : Nat) (anew : Bool) (m v : BitVec 128) :
    edgeView b l (animPut s b c anew m v) = edgeView b l s := by simp [animPut]

@[simp] theorem edgeView_barRender (i : Nat) : edgeView b l (barRender s b i) = edgeView b l s := by
  unfold barRender
  split <;> simp [animRead, barDraw, animFault]

/-- R326: the engine racks into the Animation layer alone. -/
theorem edgeView_animCarry (c : Nat) (h : l < 5) (hl : l ≠ 2) : edgeView b l (animCarry s b c) = edgeView b l s := by
  have hlayer (t : State) (y : LayerSt) :
      edgeView b l (setBank t b (setLayer (getBank t b) 2 y)) = edgeView b l t := by
    rw [edgeView_layers b l t (setLayer_frame _ _ _), getLayer_setLayer_ne _ h hl]
    rfl
  simp [animCarry, intoIdle, hlayer]

@[simp] theorem edgeView_animResume (old : Vector BlinkSt 4) : edgeView b l (animResume s b old) = edgeView b l s := by
  unfold animResume
  dsimp only
  (repeat' split) <;> simp

theorem edgeView_animBoundary (old : Vector BlinkSt 4) (h : l < 5) (hl : l ≠ 2) :
    edgeView b l (animBoundary s b old) = edgeView b l s := by
  simp [animBoundary, edgeView_foldl fun s c => edgeView_animCarry b l s c h hl]

@[simp] theorem edgeView_planSettle (k : Nat) (rs : List SlotRec) : edgeView b l (planSettle s b k rs) = edgeView b l s := by
  cases b <;> rfl

@[simp] theorem edgeView_planFrame : edgeView b l (planFrame s b) = edgeView b l s := by
  have hled (p : List Bool) (n : Nat) :
      edgeView b l (setLed s b { (getBank s b).led with plan := p, invCnt := n }) = edgeView b l s := by cases b <;> rfl
  simp only [planFrame, edgeView_ite, edgeView_planSettle, hled, ite_self]

@[simp] theorem edgeView_crackLearn : edgeView b l (crackLearn s b) = edgeView b l s := by simp [crackLearn]

end

end Sys2Proof.Machine
end

section
/-! A bank's sequence at its frame boundary (Table DRV-5, R208, R226, R243): what a powering bank becomes, what a DPWR
change leaves of a bank, the writes that waited, and the drive and the records with which a frame begins. -/

namespace Sys2Proof.Machine

open Sys2Proof

/-! ### A bank's drive -/

section
variable {s : State} {b : Bank}

theorem getBank_setDrv (s : State) (b : Bank) (d : Drive) : getBank (setDrv s b d) b = { getBank s b with drv := d } :=
  getBank_setBank s b _

theorem setDrv_setDrv (s : State) (b : Bank) (d e : Drive) : setDrv (setDrv s b d) b e = setDrv s b e := by
  cases b <;> rfl

theorem setDrv_drv (s : State) (b : Bank) : setDrv s b (getBank s b).drv = s := setBank_getBank s b

theorem getBank_keySlotGone (s : State) (b b' : Bank) : getBank (keySlotGone s b) b' = getBank s b' := by
  unfold keySlotGone
  split <;> cases b' <;> rfl

theorem OnBank.irqStat {t : State} (h : OnBank s b t) : t.irqStat = s.irqStat := by rw [h]; cases b <;> rfl

theorem OnBank.arb {t : State} (h : OnBank s b t) : t.arb = s.arb := by rw [h]; cases b <;> rfl

/-! ### Powering up, off and release (Table DRV-5) -/

/-- Entry to state 1, which a bank whose VLCD is good leaves at once. -/
theorem bankUp_bank (s : State) (b : Bank) : getBank (bankUp s b) b = { getBank s b with
    trim := { (getBank s b).trim with now := trimEff (getBank s b).trim }
    drv := { (getBank s b).drv with
      sta := if (getBank s b).drv.vgood then .biasSettle else .waitVlcd
      req := true, latch := false, t20Out := false, pend := .none, vlossRun := false } } := by
  have hup (d : Drive) : getBank (setDrv (keySlotGone (setTrim s b { (getBank s b).trim with
      now := trimEff (getBank s b).trim }) b) b d) b = { getBank s b with
        trim := { (getBank s b).trim with now := trimEff (getBank s b).trim }, drv := d } := by
    rw [getBank_setDrv, getBank_keySlotGone, getBank_setTrim]
  unfold bankUp enterBias
  dsimp only
  split
  · rw [getBank_setDrv, hup]
  · rw [hup]

/-- Entry to state 0: a request that is latched or kept powers the bank up again, where it may. -/
theorem enterOff_eq (s : State) (b : Bank) : enterOff s b =
    if ((getBank s b).drv.latch || (getBank s b).drv.req) && mayPowerUp s then
      bankUp (setDrv s b { (getBank s b).drv with sta := .off }) b
    else setDrv s b { (getBank s b).drv with sta := .off } := by
  have hmay : mayPowerUp (setDrv s b { (getBank s b).drv with sta := .off }) = mayPowerUp s :=
    mayPowerUp_congr (setBank_pw s b _) (setBank_clk s b _)
  rw [← hmay]
  rfl

theorem enterOff_stays (h : ((getBank s b).drv.req = false ∧ (getBank s b).drv.latch = false) ∨ mayPowerUp s = false) :
    enterOff s b = setDrv s b { (getBank s b).drv with sta := .off } := by
  rw [enterOff_eq, if_neg]
  rcases h with ⟨hreq, hlatch⟩ | h
  · simp [hreq, hlatch]
  · simp [h]

theorem enterOff_returns (h : (getBank s b).drv.req = true ∨ (getBank s b).drv.latch = true)
    (hmay : mayPowerUp s = true) :
    enterOff s b = bankUp (setDrv s b { (getBank s b).drv with sta := .off }) b := by
  rw [enterOff_eq, if_pos]
  rcases h with h | h <;> simp [h, hmay]

/-! ### What a DPWR change leaves of a bank -/

/-- A bank without what a DPWR change can change: the state and the requests of its drive, the code and the arming of its
trim, and how its last settle went. -/
def powerRest (x : BankSt) : BankSt :=
  { x with
    drv := { x.drv with sta := .off, req := false, latch := false, pend := .none, t20Out := false, vlossRun := false
                        setReqAt := 0, setFrame := 0, setCap := 0 }
    trim := { x.trim with now := 0, armed := false, waitArm := false }
    led := { x.led with settleLast := 0, capped := false, skipped := false } }

/-- The bank t is the bank s after a DPWR change: the rest stands, and no trim interrupt is armed. -/
def PowerKept (x y : BankSt) : Prop := powerRest y = powerRest x ∧ (x.trim.armed = false → y.trim.armed = false)

theorem PowerKept.refl (x : BankSt) : PowerKept x x := ⟨rfl, id⟩

theorem PowerKept.trans {x y z : BankSt} (h : PowerKept x y) (k : PowerKept y z) : PowerKept x z :=
  ⟨k.1.trans h.1, fun ha => k.2 (h.2 ha)⟩

theorem powerKept_bankUp (s : State) (b : Bank) : PowerKept (getBank s b) (getBank (bankUp s b) b) := by
  rw [bankUp_bank]
  exact ⟨rfl, id⟩

theorem powerKept_enterOff (s : State) (b : Bank) : PowerKept (getBank s b) (getBank (enterOff s b) b) := by
  have hoff : PowerKept (getBank s b) (getBank (setDrv s b { (getBank s b).drv with sta := .off }) b) := by
    rw [getBank_setDrv]
    exact ⟨rfl, id⟩
  rw [enterOff_eq]
  split
  · exact hoff.trans (powerKept_bankUp _ b)
  · exact hoff

theorem powerKept_enterRelease (s : State) (b : Bank) : PowerKept (getBank s b) (getBank (enterRelease s b) b) := by
  have hskip : PowerKept (getBank s b) (getBank (settleSkipped s b) b) := by
    unfold settleSkipped
    dsimp only
    split
    · rw [setLed, getBank_setBank]
      exact ⟨rfl, id⟩
    · exact PowerKept.refl _
  have hdown (u : State) : PowerKept (getBank u b) (getBank (setDrv (setTrim u b { (getBank u b).trim with
      armed := false, waitArm := false }) b { (getBank u b).drv with sta := .release, pend := .none }) b) := by
    rw [getBank_setDrv, getBank_setTrim]
    exact ⟨rfl, fun _ => rfl⟩
  unfold enterRelease
  dsimp only
  split
  · exact hskip.trans (hdown _)
  · exact (hskip.trans (hdown _)).trans (powerKept_enterOff _ b)

theorem powerKept_downAct (s : State) (b : Bank) (k : PendDown) : PowerKept (getBank s b) (getBank (downAct s b k) b) := by
  unfold downAct
  dsimp only
  split
  · exact powerKept_enterRelease s b
  · exact powerKept_enterRelease s b
  · rw [getBank_setDrv]
    exact ⟨rfl, id⟩
  · split <;> rw [getBank_setDrv] <;> exact ⟨rfl, id⟩
  · exact PowerKept.refl _

theorem powerKept_powerSet (s : State) (b : Bank) : PowerKept (getBank s b) (getBank (powerSet s b) b) := by
  unfold powerSet
  dsimp only
  split
  · split
    · exact powerKept_bankUp s b
    · rw [getBank_setDrv]
      exact ⟨rfl, id⟩
  all_goals
    rw [getBank_setDrv]
    exact ⟨rfl, id⟩

theorem powerKept_powerClear (s : State) (b : Bank) : PowerKept (getBank s b) (getBank (powerClear s b) b) := by
  have hreq : PowerKept (getBank s b)
      (getBank (setDrv s b { (getBank s b).drv with req := false, latch := false }) b) := by
    rw [getBank_setDrv]
    exact ⟨rfl, id⟩
  exact hreq.trans (powerKept_downAct _ b .byClear)

/-! ### The DPWR change that waited for the boundary (R208) -/

/-- A bank in which no DPWR change waits. -/
def waitEnded (s : State) (b : Bank) : State := setDrv s b { (getBank s b).drv with reqNext := none }

/-- The change that waited is the one to the bit that does not stand, made where none waits. -/
theorem reqTaken_cases (s : State) (b : Bank) :
    (reqTaken s b = waitEnded s b ∧ ∀ v, (getBank s b).drv.reqNext = some v → (getBank s b).drv.req = v) ∨
    (reqTaken s b = powerSet (waitEnded s b) b ∧ (getBank s b).drv.reqNext = some true) ∨
    (reqTaken s b = powerClear (waitEnded s b) b ∧ (getBank s b).drv.reqNext = some false) := by
  have hbank : (getBank (waitEnded s b) b).drv = { (getBank s b).drv with reqNext := none } := by
    rw [waitEnded, getBank_setDrv]
  have hnext : (getBank (waitEnded s b) b).drv.reqNext = none := by rw [hbank]
  have hreq : (getBank (waitEnded s b) b).drv.req = (getBank s b).drv.req := by rw [hbank]
  rcases h : (getBank s b).drv.reqNext with _ | v
  · have hended : waitEnded s b = s := by rw [waitEnded, ← h, setDrv_drv]
    exact .inl ⟨by rw [hended]; simp [reqTaken, h], by simp⟩
  · have htaken : reqTaken s b = powerBit (waitEnded s b) b v := by simp only [reqTaken, h]; rfl
    rw [htaken]
    by_cases hv : (getBank s b).drv.req = v
    · refine .inl ⟨powerBit_same ?_, fun w hw => hv.trans (Option.some.inj hw)⟩
      rw [reqShown, hnext, hreq, hv]
      rfl
    · cases v
      · exact .inr (.inr ⟨powerBit_clear (by simpa [hreq] using hv) hnext, rfl⟩)
      · exact .inr (.inl ⟨powerBit_set (by simpa [hreq] using hv) hnext, rfl⟩)

theorem onBank_reqTaken (s : State) (b : Bank) : OnBank s b (reqTaken s b) := by
  have hended : OnBank s b (waitEnded s b) := onBank_setDrv s b _
  rcases reqTaken_cases s b with ⟨h, _⟩ | ⟨h, _⟩ | ⟨h, _⟩ <;> rw [h]
  · exact hended
  · exact hended.trans (onBank_powerSet _ b)
  · exact hended.trans (onBank_powerClear _ b)

theorem reqTaken_kept (s : State) (b : Bank) : PowerKept (getBank (waitEnded s b) b) (getBank (reqTaken s b) b) := by
  rcases reqTaken_cases s b with ⟨h, _⟩ | ⟨h, _⟩ | ⟨h, _⟩ <;> rw [h]
  · exact PowerKept.refl _
  · exact powerKept_powerSet _ b
  · exact powerKept_powerClear _ b

/-- The bit that waited is the one in force. -/
theorem reqTaken_req {v : Bool} (h : (getBank s b).drv.reqNext = some v) : (getBank (reqTaken s b) b).drv.req = v := by
  rcases reqTaken_cases s b with ⟨heq, hstood⟩ | ⟨heq, hset⟩ | ⟨heq, hclear⟩ <;> rw [heq]
  · rw [waitEnded, getBank_setDrv]
    exact hstood v h
  · rw [powerSet_req]
    exact Option.some.inj (hset.symm.trans h)
  · rw [(powerClear_req _ b).1]
    exact Option.some.inj (hclear.symm.trans h)

/-- R269: a power-down request of a driven bank waits for its boundary. -/
theorem downAct_driven (k : PendDown) (h : driven (getBank s b).drv = true) : ∃ k' a f c, downAct s b k =
    setDrv s b { (getBank s b).drv with pend := k', setReqAt := a, setFrame := f, setCap := c } := by
  unfold downAct
  dsimp only
  split
  next hsta => simp [driven, hsta] at h
  next hsta => simp [driven, hsta] at h
  · exact ⟨_, _, _, _, rfl⟩
  · split
    · exact ⟨_, _, _, _, rfl⟩
    · exact ⟨_, _, _, _, rfl⟩
  · exact ⟨_, _, _, _, (setDrv_drv s b).symm⟩

/-- Of a driven bank the change leaves the state and the slots: a clear waits as a pending power-down (R269). -/
theorem reqTaken_driven (h : driven (getBank s b).drv = true) : ∃ r g k a f c, reqTaken s b = setDrv s b
    { (getBank s b).drv with
      reqNext := none, req := r, latch := g, pend := k, setReqAt := a, setFrame := f, setCap := c } := by
  have hsta : (getBank s b).drv.sta = .allOff ∨ (getBank s b).drv.sta = .content ∨ (getBank s b).drv.sta = .settling := by
    simpa [driven, or_assoc] using h
  have hbank : (getBank (waitEnded s b) b).drv = { (getBank s b).drv with reqNext := none } := by
    rw [waitEnded, getBank_setDrv]
  rcases reqTaken_cases s b with ⟨heq, _⟩ | ⟨heq, _⟩ | ⟨heq, _⟩
  · exact ⟨_, _, _, _, _, _, heq⟩
  · rw [heq, powerSet_up (by rw [hbank]; exact hsta.imp_right (.imp_right .inl)), hbank, waitEnded, setDrv_setDrv]
    exact ⟨_, _, _, _, _, _, rfl⟩
  · obtain ⟨k, a, f, c, hact⟩ := downAct_driven (s := setDrv (waitEnded s b) b
      { (getBank (waitEnded s b) b).drv with req := false, latch := false }) .byClear
      (by rw [getBank_setDrv, hbank]; exact h)
    refine ⟨false, false, k, a, f, c, ?_⟩
    rw [heq, powerClear, hact, getBank_setDrv, setDrv_setDrv, hbank, waitEnded, setDrv_setDrv]

end

/-! ### The DUTY and DVLCD writes that waited (R208) -/

section
variable {s : State} {b : Bank}

/-- A bank's drive with the DUTY that waited taken: a change begins its flush. -/
def dutyTaken (d : Drive) : Drive :=
  { d with dutyWait := false, flushing := d.flushing || (d.dutyWait && d.duty != d.dutyNow) }

/-- Where no trim interrupt is armed, what follows a change of the target reaches the present code alone. -/
theorem trimRetarget_unarmed (h : (getBank s b).trim.armed = false) :
    ∃ n, trimRetarget s b = setTrim s b { (getBank s b).trim with now := n } := by
  cases hv : vlen (getBank s b).drv
  · exact ⟨_, trimRetarget_low hv⟩
  · refine ⟨(getBank s b).trim.now, ?_⟩
    rw [trimRetarget_high hv, trimArrived_quiet (.inl h)]
    exact (setBank_getBank s b).symm

/-- A bank as the writes that waited take effect, before its trim follows the target. -/
def waitsBank (x : BankSt) (w : Int × Nat × Bool) : BankSt :=
  { x with
    drv := dutyTaken x.drv
    trim := { x.trim with
      target := w.1, slew := w.2.1, tcomp := w.2.2, wait := none, waitArm := false, armed := x.trim.waitArm } }

theorem waitsTaken_none (h : (getBank s b).trim.wait = none) :
    waitsTaken s b = setDrv s b (dutyTaken (getBank s b).drv) := by
  simp only [waitsTaken, h]
  rfl

theorem waitsTaken_some {w : Int × Nat × Bool} (h : (getBank s b).trim.wait = some w) :
    waitsTaken s b = trimRetarget (setBank s b (waitsBank (getBank s b) w)) b := by
  simp only [waitsTaken, h]
  cases b <;> rfl

/-- What the writes that waited leave of the machine: the bank's drive and trim change, and IRQSTAT where a trim interrupt
fires, but not where the write was made with VLEN low or a fall of VLEN has disarmed it (R257). -/
theorem waitsTaken_frame (s : State) (b : Bank) : ∃ T, waitsTaken s b =
      { setBank s b { getBank s b with drv := dutyTaken (getBank s b).drv, trim := T } with
        irqStat := (waitsTaken s b).irqStat } ∧
    T.wait = none ∧ ∀ w, (getBank s b).trim.wait = some w → T.target = w.1 ∧ T.slew = w.2.1 ∧ T.tcomp = w.2.2 ∧
      ((getBank s b).trim.waitArm = false → T.armed = false ∧ (waitsTaken s b).irqStat = s.irqStat) := by
  rcases hw : (getBank s b).trim.wait with _ | w
  · refine ⟨(getBank s b).trim, ?_, hw, by simp⟩
    rw [waitsTaken_none hw]
    cases b <;> rfl
  · rw [waitsTaken_some hw]
    have hbank : getBank (setBank s b (waitsBank (getBank s b) w)) b = waitsBank (getBank s b) w := getBank_setBank s b _
    generalize hu : setBank s b (waitsBank (getBank s b) w) = u at hbank
    cases harm : (getBank s b).trim.waitArm
    · obtain ⟨n, hn⟩ := trimRetarget_unarmed (s := u) (b := b) (by rw [hbank]; exact harm)
      rw [hn, hbank]
      refine ⟨{ (waitsBank (getBank s b) w).trim with now := n }, ?_, rfl, fun w' hw' => ?_⟩
      · rw [← hu]
        cases b <;> rfl
      · obtain rfl := Option.some.inj hw'
        refine ⟨rfl, rfl, rfl, fun _ => ⟨harm, ?_⟩⟩
        rw [← hu]
        cases b <;> rfl
    · obtain ⟨n, a, hframe⟩ := trimRetarget_frame u b
      refine ⟨{ (waitsBank (getBank s b) w).trim with now := n, armed := a }, ?_, rfl, fun w' hw' => ?_⟩
      · rw [hframe, hbank, ← hu]
        cases b <;> rfl
      · obtain rfl := Option.some.inj hw'
        exact ⟨rfl, rfl, rfl, fun h => absurd h (by simp)⟩

/-! ### A burst that still waits at the boundary (R226) -/

theorem now_l0Burst (s : State) (b : Bank) (q : Burst) : (l0Burst s b q).now = s.now :=
  (congrArg State.now (offCellar_l0Burst s b q) :)

/-- A burst takes the edge of its CK_FRAME cycle, and shows in nothing else of the value. -/
theorem edgeView_l0Burst (b : Bank) (l : Nat) (s : State) (q : Burst) :
    edgeView b l (l0Burst s b q) = { edgeView b l s with l0At := some s.now } := by
  rw [← edgeView_burstWork b l s q, ← now_l0Burst s b q]
  cases b <;> rfl

theorem burstSettled_none (h : (getBank s b).drv.burst = none) : burstSettled s b = s := by simp [burstSettled, h]

/-- Where another burst has taken the edge, the line that the burst was to rack goes back to the batch. -/
theorem edgeView_burstSettled_taken {q : Burst} {l : Nat} (h : (getBank s b).drv.burst = some q)
    (htaken : l0Taken s b = true) (hl : l < 5) : edgeView b l (burstSettled s b) =
      { edgeView b l s with
        drv := { (getBank s b).drv with burst := none }, layer := lineReturned q (edgeView b l s).layer l } := by
  have heq : burstSettled s b = linesReturned (setDrv s b { (getBank s b).drv with burst := none }) b q := by
    simp only [burstSettled, h, htaken, if_true]
  rw [heq, linesReturned, edgeView_layers b l _ (foldl_setLayer_frame _ (fun x k => setLayer_frame x k _) _ _),
    getLayer_eachLayer (fun _ y k => lineReturned q y k) _ hl, edgeView_setDrv]
  cases b <;> rfl

/-- However a burst that waits ends, its bank's drive has it no longer, and of the rest its layers and the time of the last
burst can change. -/
theorem edgeView_burstSettled (s : State) (b : Bank) {l : Nat} (hl : l < 5) : ∃ y a, edgeView b l (burstSettled s b) =
    { edgeView b l s with drv := { (getBank s b).drv with burst := none }, layer := y, l0At := a } := by
  rcases h : (getBank s b).drv.burst with _ | q
  · refine ⟨(edgeView b l s).layer, (edgeView b l s).l0At, ?_⟩
    rw [burstSettled_none h, ← h]
    rfl
  · cases htaken : l0Taken s b
    · have heq : burstSettled s b = l0Burst (setDrv s b { (getBank s b).drv with burst := none }) b q := by
        simp only [burstSettled, burstRuns, h, htaken, Bool.false_eq_true, if_false]
      exact ⟨_, _, by rw [heq, edgeView_l0Burst, edgeView_setDrv]⟩
    · exact ⟨_, _, edgeView_burstSettled_taken h htaken hl⟩

end

/-! ### The frame that begins (R242, R243, R283) -/

/-- The drive with which a frame begins, in the machine u behind the writes that waited: rate and waveform are in force
from here, and the all-off frames of state 3 count down to content. -/
def frameBegun (u : State) (b : Bank) (first : Bool) : Drive :=
  let d := (getBank u b).drv
  let left := if driven d ∧ !first ∧ d.sta = .allOff then d.offLeft - 1 else d.offLeft
  { d with
    rateNow := rateOf u b, waveNow := d.wave, ninvNow := pgf u (drivePage b + 2) 0 4, slot := 0, slotAt := u.now
    fcnt := if first then 0 else if driven d then d.fcnt + 1 else d.fcnt
    offLeft := left, sta := if d.sta = .allOff ∧ left = 0 then .content else d.sta }

/-- The machine behind the writes that waited for a boundary, but for the DPWR bit. -/
def boundaryMet (s : State) (b : Bank) : State := waitsTaken (burstSettled s b) b

/-- The machine behind the DPWR bit that waited, with the frame begun. -/
def frameTaken (s : State) (b : Bank) (first : Bool) : State :=
  reqTaken (setDrv (boundaryMet s b) b (frameBegun (boundaryMet s b) b first)) b

/-- The machine with the booking pass of the frame that has ended, where one has. -/
def framePassed (s : State) (b : Bank) (first : Bool) : State :=
  if driven (getBank (boundaryMet s b) b).drv ∧ !first then passBegins (frameTaken s b first) b true
  else frameTaken s b first

/-- A boundary shows the frame begun; its layers swap where line slots run, and the rest of its work shows nothing. -/
theorem edgeView_frameWork (s : State) (b : Bank) (first : Bool) (cut : Option Nat) {l : Nat} (h : l < 5) (hl : l ≠ 2) :
    edgeView b l (frameWork s b first cut) =
      if slotsRun (framePassed s b first) then { edgeView b l (framePassed s b first) with
        layer := (layerBoundary (edgeView b l (framePassed s b first)).layer).1 }
      else edgeView b l (framePassed s b first) := by
  unfold frameWork
  extract_lets s1 d old e on left s2 s3 s4 l1 l2 l3 s5 s6 s7
  have h5 : edgeView b l s5 = if slotsRun s4 then
      { edgeView b l s4 with layer := (layerBoundary (edgeView b l s4).layer).1 } else edgeView b l s4 := by
    rw [← edgeView_layersBoundary b l s4 h]
    unfold s5
    split
    · simp [edgeView_animBoundary b l _ _ h hl, l3, l2, l1]
    · rfl
  have h7 : edgeView b l s7 = edgeView b l s5 := by simp [s7, s6]
  exact (edgeView_lampFrame b l s7 b).trans (h7.trans h5)

/-! ### The drive and the trim of a boundary -/

/-- The writes that waited show in the drive, the trim and IRQSTAT. -/
theorem edgeView_waitsTaken (s : State) (b : Bank) (l : Nat) : ∃ T, edgeView b l (waitsTaken s b) =
      { edgeView b l s with
        drv := dutyTaken (getBank s b).drv, trim := T, vlcd := bit (waitsTaken s b).irqStat irqVLCD } ∧
    T.wait = none ∧ ∀ w, (getBank s b).trim.wait = some w → T.target = w.1 ∧ T.slew = w.2.1 ∧ T.tcomp = w.2.2 ∧
      ((getBank s b).trim.waitArm = false → T.armed = false ∧ (waitsTaken s b).irqStat = s.irqStat) := by
  obtain ⟨T, hframe, hT⟩ := waitsTaken_frame s b
  refine ⟨T, ?_, hT⟩
  generalize (waitsTaken s b).irqStat = i at hframe ⊢
  rw [hframe]
  cases b <;> rfl

/-- Work on one bank shows in that bank's fields alone. -/
theorem OnBank.edgeView {s t : State} {b : Bank} (h : OnBank s b t) (l : Nat) : edgeView b l t =
    { edgeView b l s with
      drv := (getBank t b).drv, trim := (getBank t b).trim, recs := (getBank t b).led.recs
      passes := (getBank t b).led.passes, layer := getLayer (getBank t b) l } := by
  have hother : otherBank t b = otherBank s b := by
    cases b
    · exact h.other (c := .bankB) (by decide)
    · exact h.other (c := .bankA) (by decide)
  rw [Machine.edgeView, h.irqStat, h.arb, hother]
  rfl

/-- The DPWR change that waited shows in the drive and the trim. -/
theorem edgeView_reqTaken (s : State) (b : Bank) (l : Nat) : edgeView b l (reqTaken s b) =
    { edgeView b l s with drv := (getBank (reqTaken s b) b).drv, trim := (getBank (reqTaken s b) b).trim } := by
  obtain ⟨hrest, _⟩ := reqTaken_kept s b
  rw [waitEnded, getBank_setDrv] at hrest
  have hrecs : (getBank (reqTaken s b) b).led.recs = (getBank s b).led.recs :=
    (congrArg (fun x : BankSt => x.led.recs) hrest :)
  have hpasses : (getBank (reqTaken s b) b).led.passes = (getBank s b).led.passes :=
    (congrArg (fun x : BankSt => x.led.passes) hrest :)
  have hlayer : getLayer (getBank (reqTaken s b) b) l = getLayer (getBank s b) l :=
    (congrArg (fun x : BankSt => getLayer x l) hrest :)
  rw [(onBank_reqTaken s b).edgeView, hrecs, hpasses, hlayer]
  rfl

/-- The frame begun shows in the bank's drive and trim, beside what the writes that waited show. -/
theorem edgeView_frameTaken (s : State) (b : Bank) (first : Bool) (l : Nat) : edgeView b l (frameTaken s b first) =
    { edgeView b l (boundaryMet s b) with
      drv := (getBank (frameTaken s b first) b).drv, trim := (getBank (frameTaken s b first) b).trim } := by
  conv_lhs => rw [frameTaken, edgeView_reqTaken, edgeView_setDrv]
  rfl

/-- Of the records a boundary takes those of the frame that has ended into a booking pass (R283). -/
theorem edgeView_framePassed (s : State) (b : Bank) (first : Bool) (l : Nat) : ∃ R P,
    edgeView b l (framePassed s b first) = { edgeView b l (frameTaken s b first) with recs := R, passes := P } ∧
    (driven (getBank (boundaryMet s b) b).drv = true → first = false → R = [] ∧ ∃ q,
      P = (getBank (boundaryMet s b) b).led.passes ++ [q] ∧ q.recs = (getBank (boundaryMet s b) b).led.recs ∧
        q.boundary = true) := by
  have htaken := edgeView_frameTaken s b first l
  have hrecs : (edgeView b l (frameTaken s b first)).recs = (getBank (boundaryMet s b) b).led.recs :=
    (congrArg EdgeView.recs htaken :)
  have hpasses : (edgeView b l (frameTaken s b first)).passes = (getBank (boundaryMet s b) b).led.passes :=
    (congrArg EdgeView.passes htaken :)
  unfold framePassed
  split
  · refine ⟨_, _, edgeView_passBegins b l _ true, fun _ _ => ⟨rfl, ?_⟩⟩
    rw [hrecs, hpasses]
    exact ⟨_, rfl, rfl, rfl⟩
  next h => exact ⟨_, _, rfl, fun hon hfirst => absurd ⟨hon, by simp [hfirst]⟩ h⟩

/-- The work of a boundary leaves the drive and the trim as the frame begins with them, and the other bank. -/
theorem frameWork_bank (s : State) (b : Bank) (first : Bool) (cut : Option Nat) :
    (getBank (frameWork s b first cut) b).drv = (getBank (frameTaken s b first) b).drv ∧
    (getBank (frameWork s b first cut) b).trim = (getBank (frameTaken s b first) b).trim ∧
    (∀ b', b' ≠ b → getBank (frameWork s b first cut) b' = getBank s b') ∧
    bit (frameWork s b first cut).irqStat irqVLCD = bit (boundaryMet s b).irqStat irqVLCD := by
  obtain ⟨R, P, hpassed, _⟩ := edgeView_framePassed s b first 0
  obtain ⟨T, hwaits, _⟩ := edgeView_waitsTaken (burstSettled s b) b 0
  obtain ⟨y, a, hburst⟩ := edgeView_burstSettled s b (l := 0) (by decide)
  have hview := edgeView_frameWork s b first cut (l := 0) (by decide) (by decide)
  rw [hpassed, edgeView_frameTaken] at hview
  have hfields : ∃ z, edgeView b 0 (frameWork s b first cut) = { edgeView b 0 (boundaryMet s b) with
      drv := (getBank (frameTaken s b first) b).drv, trim := (getBank (frameTaken s b first) b).trim
      recs := R, passes := P, layer := z } := by
    split at hview
    · exact ⟨_, hview⟩
    · exact ⟨_, hview⟩
  obtain ⟨z, hz⟩ := hfields
  refine ⟨congrArg EdgeView.drv hz, congrArg EdgeView.trim hz, fun b' hb' => ?_, congrArg EdgeView.vlcd hz⟩
  rw [edgeView_other hb' 0, edgeView_other hb' 0]
  calc (edgeView b 0 (frameWork s b first cut)).other
      = (edgeView b 0 (boundaryMet s b)).other := (congrArg EdgeView.other hz :)
    _ = (edgeView b 0 (burstSettled s b)).other := (congrArg EdgeView.other hwaits :)
    _ = (edgeView b 0 s).other := (congrArg EdgeView.other hburst :)

/-- The drive that a boundary meets: no burst waits, and the DUTY that waited is taken. -/
theorem boundaryMet_drv (s : State) (b : Bank) :
    (getBank (boundaryMet s b) b).drv = dutyTaken { (getBank s b).drv with burst := none } := by
  obtain ⟨T, hwaits, _⟩ := edgeView_waitsTaken (burstSettled s b) b 0
  obtain ⟨y, a, hburst⟩ := edgeView_burstSettled s b (l := 0) (by decide)
  have hdrv : (getBank (burstSettled s b) b).drv = { (getBank s b).drv with burst := none } :=
    congrArg EdgeView.drv hburst
  rw [← hdrv]
  exact congrArg EdgeView.drv hwaits

/-- R243: a bank stays driven as a frame begins. -/
theorem frameBegun_driven {u : State} {b : Bank} (first : Bool) (h : driven (getBank u b).drv = true) :
    driven (frameBegun u b first) = true := by
  have hsta : (frameBegun u b first).sta = .content ∨ (frameBegun u b first).sta = (getBank u b).drv.sta :=
    ite_eq_or_eq _ _ _
  rcases hsta with hsta | hsta
  · simp [driven, hsta]
  · rw [driven, hsta]
    exact h

/-- Of a driven bank the drive behind the DPWR bit that waited is the one with which the frame begins, but for that bit
and what a clear asks for. -/
theorem frameTaken_driven {s : State} {b : Bank} (first : Bool) (h : driven (getBank (boundaryMet s b) b).drv = true) :
    ∃ r g k a f c, (getBank (frameTaken s b first) b).drv = { frameBegun (boundaryMet s b) b first with
      reqNext := none, req := r, latch := g, pend := k, setReqAt := a, setFrame := f, setCap := c } := by
  have hbegun : (getBank (setDrv (boundaryMet s b) b (frameBegun (boundaryMet s b) b first)) b).drv =
      frameBegun (boundaryMet s b) b first := by rw [getBank_setDrv]
  obtain ⟨r, g, k, a, f, c, htaken⟩ := reqTaken_driven (s := setDrv (boundaryMet s b) b
    (frameBegun (boundaryMet s b) b first)) (b := b) (by rw [hbegun]; exact frameBegun_driven first h)
  exact ⟨r, g, k, a, f, c, by rw [frameTaken, htaken, getBank_setDrv, hbegun]⟩

end Sys2Proof.Machine
end

section
/-! VLCD-good and a bank's sequence (Table DRV-5, R208, R243, R250, R261, R264, R265, R269, R582, O29). -/

namespace Sys2Proof.Machine

open Sys2Proof

section
variable {s : State} {b : Bank}

/-! ### VLCD-good (R250, R264, R265) -/

theorem vgoodRise_from_low (h : (getBank s b).drv.vgood = false) : vgoodRise s b = setDrv s b { (getBank s b).drv with
    vgood := true, vlossRun := false
    sta := if (getBank s b).drv.sta = .waitVlcd then .biasSettle else (getBank s b).drv.sta } := by
  unfold vgoodRise
  dsimp only
  rw [if_neg (by simp [h])]
  split
  next hsta => rw [enterBias, getBank_setDrv, setDrv_setDrv]
  · rfl

theorem setIrq_vlcd_setDrv (s : State) (b : Bank) (d : Drive) :
    setIrq (setDrv s b d) irqVLCD = { setDrv s b d with irqStat := s.irqStat ||| 0x2000 } := by cases b <;> rfl

/-- R264: a driven bank starts its loss time. -/
theorem vgoodFall_driven (h : (getBank s b).drv.vgood = true) (hdriven : driven (getBank s b).drv = true) :
    vgoodFall s b = { setDrv s b { (getBank s b).drv with vgood := false, vlossRun := true } with
      irqStat := s.irqStat ||| 0x2000 } := by
  have hsta : (getBank s b).drv.sta = .allOff ∨ (getBank s b).drv.sta = .content ∨ (getBank s b).drv.sta = .settling := by
    simpa [driven, or_assoc] using hdriven
  rw [← setIrq_vlcd_setDrv]
  rcases hsta with hsta | hsta | hsta <;> simp only [vgoodFall, h, hsta, setDrv_setDrv] <;> rfl

/-- R265: bias settling goes back to state 1. -/
theorem vgoodFall_settling (h : (getBank s b).drv.vgood = true) (hsta : (getBank s b).drv.sta = .biasSettle)
    (htime : (getBank s b).drv.t20Out = false) :
    vgoodFall s b = setDrv s b { (getBank s b).drv with vgood := false, sta := .waitVlcd } := by
  simp only [vgoodFall, h, hsta, htime, setDrv_setDrv]
  rfl

/-- Table DRV-5: a release without a request ends. -/
theorem vgoodFall_release (h : (getBank s b).drv.vgood = true) (hsta : (getBank s b).drv.sta = .release)
    (hreq : (getBank s b).drv.req = false) (hlatch : (getBank s b).drv.latch = false) :
    vgoodFall s b = setDrv s b { (getBank s b).drv with vgood := false, sta := .off } := by
  have hfall : vgoodFall s b = enterOff (setDrv s b { (getBank s b).drv with vgood := false }) b := by
    simp only [vgoodFall, h, hsta]
    rfl
  rw [hfall, enterOff_stays (.inl (by rw [getBank_setDrv]; exact ⟨hreq, hlatch⟩)), getBank_setDrv, setDrv_setDrv]

/-! ### The times that run out -/

/-- Table DRV-5, R176: state 1 ends with a record of the device that names the bank. -/
theorem noVlcd_frame (s : State) (b : Bank) :
    noVlcd s b = { setBank s b (getBank (noVlcd s b) b) with
      err := (noVlcd s b).err, irqStat := s.irqStat ||| 0x2002 } ∧
    (getBank (noVlcd s b) b).drv = { (getBank s b).drv with
      sta := .off, req := false, latch := false, reqNext := none, novlcdCnt := sat1 (getBank s b).drv.novlcdCnt } ∧
    (noVlcd s b).err.code = eNOVLCD ∧ (noVlcd s b).err.info = wordOf b.num ∧ (noVlcd s b).err.src = 0 := by
  have hirq : (noVlcd s b).irqStat = s.irqStat ||| 0x2002 := by
    have hboth : (0x2 ||| 0x2000 : Word) = 0x2002 := by decide
    rw [← hboth, ← BitVec.or_assoc]
    cases b <;> rfl
  refine ⟨?_, ?_, ?_⟩
  · rw [← hirq]
    cases b <;> rfl
  · cases b <;> rfl
  · cases b <;> exact ⟨rfl, rfl, rfl⟩

/-- R264: the loss is counted; with VLOSS_POL the bank is then grounded without settling. -/
theorem vlcdLost_driven (hdriven : driven (getBank s b).drv = true) (hrun : (getBank s b).drv.vlossRun = true) :
    vlcdLost s b = if pgb s (drivePage b + 2) 8 then
        enterGround (setDrv s b { (getBank s b).drv with
          vlossRun := false, vlostCnt := sat1 (getBank s b).drv.vlostCnt
          req := false, latch := false, reqNext := none }) b true true false
      else setDrv s b { (getBank s b).drv with vlossRun := false, vlostCnt := sat1 (getBank s b).drv.vlostCnt } := by
  have hpage (d : Drive) : pgb (setDrv s b d) (drivePage b + 2) 8 = pgb s (drivePage b + 2) 8 := by
    simp [pgb, pg, setDrv]
  rw [vlcdLost]
  dsimp only
  rw [if_pos ⟨hdriven, hrun⟩, hpage, getBank_setDrv, setDrv_setDrv]
  rfl

/-- R294: a settle that was skipped reads SKIPPED. -/
theorem enterGround_skipped (s : State) (b : Bank) (cut skip cap : Bool) :
    (getBank (enterGround s b cut skip cap) b).led.skipped = skip := by
  have hpass (u : State) (c : Bool) :
      (getBank (if c then u else passBegins u b false) b).led.skipped = (getBank u b).led.skipped := by
    cases c
    · exact (congrArg (fun x : BankSt => x.led.skipped) (getBank_setBank u b _) :)
    · rfl
  unfold enterGround
  dsimp only
  rw [getBank_setDrv]
  dsimp only
  rw [getBank_keySlotGone, hpass, setLed, getBank_setBank]

/-! ### Grounding and release (R261, R269) -/

/-- A bank at its entry to state 7. -/
def releaseBegun (x : BankSt) : BankSt :=
  { x with drv := { x.drv with sta := .release, pend := .none }
           trim := { x.trim with armed := false, waitArm := false } }

/-- Grounding ends in state 7, or in state 0 where the glass supply is down already. -/
theorem groundingEnds_eq (hsta : (getBank s b).drv.sta = .grounding) : groundingEnds s b =
    if (getBank s b).drv.vgood then setBank s b (releaseBegun (getBank s b))
    else enterOff (setBank s b (releaseBegun (getBank s b))) b := by
  have hskip : settleSkipped s b = s := by simp [settleSkipped, hsta]
  have hbegun : setDrv (setTrim s b { (getBank s b).trim with armed := false, waitArm := false }) b
      { (getBank s b).drv with sta := .release, pend := .none } = setBank s b (releaseBegun (getBank s b)) := by
    cases b <;> rfl
  rw [groundingEnds, if_pos hsta, enterRelease, hskip, ← hbegun]

theorem groundingEnds_off (hsta : (getBank s b).drv.sta = .grounding) (hgood : (getBank s b).drv.vgood = false)
    (hreq : (getBank s b).drv.req = false) (hlatch : (getBank s b).drv.latch = false) :
    groundingEnds s b = setBank s b { getBank s b with
      drv := { (getBank s b).drv with sta := .off, pend := .none }
      trim := { (getBank s b).trim with armed := false, waitArm := false } } := by
  have hbank := getBank_setBank s b (releaseBegun (getBank s b))
  rw [groundingEnds_eq hsta, if_neg (by simp [hgood]), enterOff_stays (.inl (by rw [hbank]; exact ⟨hreq, hlatch⟩)),
    setDrv, hbank, setBank_setBank]
  rfl

/-- While the expiry reaction of R45 does not run, the end of grounding ends no reaction. -/
theorem exec_groundingEnd {x : BankSt} (hexp : s.clk.expiring = false) (h : groundingEnds s b = setBank s b x) :
    exec (.groundingEnd b) s = .next (setBank s b x) := by
  have hdone : expiryDone (setBank s b x) = setBank s b x := by simp [expiryDone, hexp]
  exact congrArg Host.Outcome.next (by rw [h, hdone])

/-- R63: release ends in state 0, from which a request powers the bank up again where it may. -/
theorem releaseEnds_off (hsta : (getBank s b).drv.sta = .release) : releaseEnds s b = enterOff s b := if_pos hsta

/-- What a bank becomes that a request powers up again. -/
theorem enterOff_bank (h : (getBank s b).drv.req = true ∨ (getBank s b).drv.latch = true) (hmay : mayPowerUp s = true) :
    (getBank (enterOff s b) b).drv.req = true ∧ (getBank (enterOff s b) b).drv.latch = false ∧
    (getBank (enterOff s b) b).trim.now = trimEff (getBank s b).trim ∧
    (getBank (enterOff s b) b).drv.sta = if (getBank s b).drv.vgood then .biasSettle else .waitVlcd := by
  rw [enterOff_returns h hmay, bankUp_bank, getBank_setDrv]
  exact ⟨rfl, rfl, rfl, rfl⟩

/-! ### The entry to state 3 (R243) -/

@[simp] theorem edgeView_crackEntry (b : Bank) (l : Nat) (s : State) : edgeView b l (crackEntry s b) = edgeView b l s := by
  simp [crackEntry]

/-- R243: bias settling ends in state 3, whose frames count from 0. -/
theorem biasEnds_bank (hsta : (getBank s b).drv.sta = .biasSettle) :
    (getBank (biasEnds s b) b).drv.sta = .allOff ∧ (getBank (biasEnds s b) b).drv.fcnt = 0 ∧
    (getBank (biasEnds s b) b).drv.slot = 0 ∧ (getBank (biasEnds s b) b).drv.offLeft = 2 ∧
    ∀ b', b' ≠ b → getBank (biasEnds s b) b' = getBank s b' := by
  rw [biasEnds, if_pos hsta]
  generalize hu : crackEntry (setDrv s b { (getBank s b).drv with sta := .allOff, offLeft := 2, vlossRun := false }) b = u
  have hview : edgeView b 0 u = { edgeView b 0 s with
      drv := { (getBank s b).drv with sta := .allOff, offLeft := 2, vlossRun := false } } := by
    rw [← hu, edgeView_crackEntry, edgeView_setDrv]
  have hdrv : (getBank u b).drv = { (getBank s b).drv with sta := .allOff, offLeft := 2, vlossRun := false } :=
    congrArg EdgeView.drv hview
  have hother (b' : Bank) (h : b' ≠ b) : getBank u b' = getBank s b' := by
    rw [edgeView_other h 0, edgeView_other h 0]
    exact (congrArg EdgeView.other hview :)
  obtain ⟨hwork, _, hothers, _⟩ := frameWork_bank u b true (some (frameElapsed s b))
  have hmet := boundaryMet_drv u b
  rw [hdrv] at hmet
  obtain ⟨r, g, k, a, f, c, htaken⟩ := frameTaken_driven (s := u) (b := b) true (by rw [hmet]; rfl)
  rw [hwork, htaken]
  refine ⟨?_, rfl, rfl, ?_, fun b' hb' => (hothers b' hb').trans (hother b' hb')⟩
  · simp [frameBegun, hmet, dutyTaken]
  · simp [frameBegun, hmet, dutyTaken]

end

/-! ### The statement -/

/-- Settles O29: each event of Table DRV-5 by the state of the bank that it meets. -/
theorem glassSupplyAndBankSequence : Obligations.GlassSupplyAndBankSequence := by
  unfold Obligations.GlassSupplyAndBankSequence
  refine ⟨fun b s => ⟨?rise, ?fallDriven, ?fallSettling, ?fallRelease, ?novlcd, ?loss⟩,
    fun b s => ⟨?settled, ?grounded, ?groundedOff, ?released⟩⟩
  case rise => exact fun h => congrArg Host.Outcome.next (vgoodRise_from_low h)
  case fallDriven => exact fun h hdriven => congrArg Host.Outcome.next (vgoodFall_driven h hdriven)
  case fallSettling => exact fun h hsta htime => congrArg Host.Outcome.next (vgoodFall_settling h hsta htime)
  case fallRelease => exact fun h hsta hreq hlatch => congrArg Host.Outcome.next (vgoodFall_release h hsta hreq hlatch)
  case novlcd =>
    intro hsta
    have htimer : novlcdTimer s b = noVlcd s b := by simp only [novlcdTimer, hsta]
    exact ⟨_, congrArg Host.Outcome.next htimer, noVlcd_frame s b⟩
  case loss =>
    intro hdriven hrun
    have hlost := vlcdLost_driven hdriven hrun
    refine ⟨fun hpol => ?_, fun hpol => ⟨_, congrArg Host.Outcome.next hlost, ?_⟩⟩
    · exact congrArg Host.Outcome.next (hlost.trans (if_neg (by simp [hpol])))
    · rw [if_pos hpol]
      generalize hu : setDrv s b { (getBank s b).drv with
        vlossRun := false, vlostCnt := sat1 (getBank s b).drv.vlostCnt
        req := false, latch := false, reqNext := none } = u
      have hbank : OnBank s b (enterGround u b true true false) := by
        rw [← hu]
        exact (onBank_setDrv s b _).trans (onBank_enterGround _ b _ _ _)
      rw [enterGround_drv, enterGround_skipped, ← hu, getBank_setDrv, hu]
      exact ⟨rfl, rfl, rfl, rfl, rfl, rfl, hbank.mem, fun b' hb' => hbank.other hb'⟩
  case settled => exact fun hsta => ⟨_, rfl, biasEnds_bank hsta⟩
  case grounded => exact fun hsta hexp hgood => exec_groundingEnd hexp ((groundingEnds_eq hsta).trans (if_pos hgood))
  case groundedOff =>
    exact fun hsta hexp hgood hreq hlatch => exec_groundingEnd hexp (groundingEnds_off hsta hgood hreq hlatch)
  case released =>
    intro hsta
    have hends : exec (.releaseEnd b) s = .next (enterOff s b) := congrArg Host.Outcome.next (releaseEnds_off hsta)
    rw [hends]
    refine ⟨fun h => ?_, fun hreq hreduced hexp => ⟨_, rfl, ?_⟩⟩
    · refine congrArg Host.Outcome.next (enterOff_stays (h.imp_right fun h => ?_))
      rcases h with h | h <;> simp [mayPowerUp, h]
    · obtain ⟨hreq', hlatch, hnow, hsta'⟩ := enterOff_bank hreq (by simp [mayPowerUp, hreduced, hexp])
      exact ⟨hreq', hlatch, hnow, fun b' hb' => (onBank_enterOff s b).other hb', hsta'⟩

end Sys2Proof.Machine
end

section
/-! Frame and slot boundaries (R208, R226, R241 to R245, R257, R283, R306, O30). -/

namespace Sys2Proof.Machine

open Sys2Proof

section
variable {s : State} {b : Bank}

/-! ### The boundary of a frame -/

/-- Where no power-down of state 3 is due, a boundary is its work. -/
theorem frameBoundary_work (hrun : driven (getBank s b).drv = true ∨ slotsRun s = true)
    (hdown : (getBank s b).drv.sta = .allOff → (getBank s b).drv.pend = .none) :
    frameBoundary s b = frameWork s b false none := by
  have hedge : downEdge s b = s := if_neg fun ⟨hsta, hpend⟩ => hpend (hdown hsta)
  rw [frameBoundary, hedge]
  exact if_pos hrun

/-- While a bank is not driven and no line slots run nothing happens. -/
theorem frameBoundary_none (hdriven : driven (getBank s b).drv = false) (hslots : slotsRun s = false) :
    frameBoundary s b = s := by
  have hedge : downEdge s b = s := if_neg fun ⟨hsta, _⟩ => by simp [driven, hsta] at hdriven
  rw [frameBoundary, hedge]
  exact if_neg (by simp [hdriven, hslots])

theorem rateOf_congr {t : State} (hmem : t.mem = s.mem) (hrate : (getBank t b).drv.frate = (getBank s b).drv.frate) :
    rateOf t b = rateOf s b := by
  unfold rateOf pg
  rw [hmem, hrate]

/-- The writes that waited do not reach the Cellar. -/
theorem waitsTaken_mem (s : State) (b : Bank) : (waitsTaken s b).mem = s.mem := by
  obtain ⟨T, hframe, _⟩ := waitsTaken_frame s b
  rw [hframe]
  cases b <;> rfl

/-- R242, R243, R283: the frame that follows one of a driven bank. -/
theorem frameBoundary_driven (hdriven : driven (getBank s b).drv = true)
    (hdown : (getBank s b).drv.sta = .allOff → (getBank s b).drv.pend = .none) (hburst : (getBank s b).drv.burst = none) :
    let t := frameBoundary s b
    (getBank t b).drv.slot = 0 ∧ (getBank t b).drv.fcnt = (getBank s b).drv.fcnt + 1 ∧
    (getBank t b).drv.waveNow = (getBank s b).drv.wave ∧ (getBank t b).drv.rateNow = rateOf s b ∧
    ((getBank s b).drv.sta = .allOff → (getBank s b).drv.offLeft = 1 → (getBank t b).drv.sta = .content) ∧
    ((getBank s b).drv.sta ≠ .allOff → (getBank t b).drv.sta = (getBank s b).drv.sta) := by
  have hmet := boundaryMet_drv s b
  have hmetDriven : driven (getBank (boundaryMet s b) b).drv = true := by rw [hmet]; exact hdriven
  have hrate : rateOf (boundaryMet s b) b = rateOf s b := by
    refine rateOf_congr ?_ (by rw [hmet]; rfl)
    rw [boundaryMet, burstSettled_none hburst, waitsTaken_mem]
  obtain ⟨hwork, _⟩ := frameWork_bank s b false none
  obtain ⟨r, g, k, a, f, c, htaken⟩ := frameTaken_driven false hmetDriven
  dsimp only
  rw [frameBoundary_work (.inl hdriven) hdown, hwork, htaken]
  refine ⟨rfl, ?_, ?_, hrate, fun hsta hleft => ?_, fun hsta => ?_⟩
  · simp only [frameBegun, hmetDriven, if_true]
    rw [hmet]
    rfl
  · simp only [frameBegun, hmet]
    rfl
  · simp [frameBegun, hmet, dutyTaken, driven, hsta, hleft]
  · simp [frameBegun, hmet, dutyTaken, hsta]

/-- R283: the slots of the frame that has ended become a booking pass. -/
theorem frameBoundary_pass (hdriven : driven (getBank s b).drv = true)
    (hdown : (getBank s b).drv.sta = .allOff → (getBank s b).drv.pend = .none) :
    (getBank (frameBoundary s b) b).led.recs = [] ∧ ∃ q,
      (getBank (frameBoundary s b) b).led.passes = (getBank s b).led.passes ++ [q] ∧
        q.recs = (getBank s b).led.recs ∧ q.boundary = true := by
  have hmet := boundaryMet_drv s b
  obtain ⟨T, hwaits, _⟩ := edgeView_waitsTaken (burstSettled s b) b 0
  obtain ⟨y, a, hburst⟩ := edgeView_burstSettled s b (l := 0) (by decide)
  have hrecs : (getBank (boundaryMet s b) b).led.recs = (getBank s b).led.recs :=
    (congrArg EdgeView.recs hwaits :).trans (congrArg EdgeView.recs hburst :)
  have hpasses : (getBank (boundaryMet s b) b).led.passes = (getBank s b).led.passes :=
    (congrArg EdgeView.passes hwaits :).trans (congrArg EdgeView.passes hburst :)
  obtain ⟨R, P, hpassed, hbooks⟩ := edgeView_framePassed s b false 0
  obtain ⟨hR, hP⟩ := hbooks (by rw [hmet]; exact hdriven) rfl
  rw [hrecs, hpasses] at hP
  have hview := edgeView_frameWork s b false none (l := 0) (by decide) (by decide)
  have hboth : (getBank (frameWork s b false none) b).led.recs = R ∧
      (getBank (frameWork s b false none) b).led.passes = P := by
    rw [hpassed] at hview
    split at hview
    · exact ⟨(congrArg EdgeView.recs hview :), (congrArg EdgeView.passes hview :)⟩
    · exact ⟨(congrArg EdgeView.recs hview :), (congrArg EdgeView.passes hview :)⟩
  rw [frameBoundary_work (.inl hdriven) hdown, hboth.1, hboth.2]
  exact ⟨hR, hP⟩

/-! ### What waited for the boundary (R208, R257) -/

/-- Behind the DPWR bit that waited the bank is the one with which the frame begins, but for what a DPWR change can
change. -/
theorem frameTaken_kept (s : State) (b : Bank) (first : Bool) : PowerKept { getBank (boundaryMet s b) b with
    drv := { frameBegun (boundaryMet s b) b first with reqNext := none } } (getBank (frameTaken s b first) b) := by
  have hkept := reqTaken_kept (setDrv (boundaryMet s b) b (frameBegun (boundaryMet s b) b first)) b
  rw [waitEnded, setDrv_setDrv, getBank_setDrv, getBank_setDrv] at hkept
  exact hkept

/-- The trim that a boundary meets: the DVLCD fields that waited are taken. -/
theorem boundaryMet_trim (s : State) (b : Bank) : (getBank (boundaryMet s b) b).trim.wait = none ∧
    ∀ w, (getBank s b).trim.wait = some w → (getBank (boundaryMet s b) b).trim.target = w.1 ∧
      (getBank (boundaryMet s b) b).trim.slew = w.2.1 ∧ (getBank (boundaryMet s b) b).trim.tcomp = w.2.2 ∧
      ((getBank s b).trim.waitArm = false → (getBank (boundaryMet s b) b).trim.armed = false ∧
        bit (boundaryMet s b).irqStat irqVLCD = bit s.irqStat irqVLCD) := by
  obtain ⟨y, a, hburst⟩ := edgeView_burstSettled s b (l := 0) (by decide)
  have hsettled : (getBank (burstSettled s b) b).trim = (getBank s b).trim := (congrArg EdgeView.trim hburst :)
  obtain ⟨T, hwaits, hnone, htaken⟩ := edgeView_waitsTaken (burstSettled s b) b 0
  have htrim : (getBank (boundaryMet s b) b).trim = T := (congrArg EdgeView.trim hwaits :)
  rw [hsettled] at htaken
  rw [htrim]
  refine ⟨hnone, fun w hw => ?_⟩
  obtain ⟨htarget, hslew, htcomp, hquiet⟩ := htaken w hw
  refine ⟨htarget, hslew, htcomp, fun harm => ?_⟩
  obtain ⟨harmed, hirq⟩ := hquiet harm
  refine ⟨harmed, ?_⟩
  rw [boundaryMet, hirq]
  exact (congrArg EdgeView.vlcd hburst :)

/-- R208: what was written beside the boundary before takes effect, the DPWR bit and the DUTY. -/
theorem frameBoundary_waits (hrun : driven (getBank s b).drv = true ∨ slotsRun s = true)
    (hdown : (getBank s b).drv.sta = .allOff → (getBank s b).drv.pend = .none) :
    (getBank (frameBoundary s b) b).drv.reqNext = none ∧ (getBank (frameBoundary s b) b).drv.dutyWait = false ∧
    (∀ v, (getBank s b).drv.reqNext = some v → (getBank (frameBoundary s b) b).drv.req = v) ∧
    ((getBank s b).drv.dutyWait = true → (getBank s b).drv.duty ≠ (getBank s b).drv.dutyNow →
      (getBank (frameBoundary s b) b).drv.flushing = true) := by
  have hmet := boundaryMet_drv s b
  obtain ⟨hrest, _⟩ := frameTaken_kept s b false
  have hbegun : (getBank (setDrv (boundaryMet s b) b (frameBegun (boundaryMet s b) b false)) b).drv =
      frameBegun (boundaryMet s b) b false := by rw [getBank_setDrv]
  rw [frameBoundary_work hrun hdown, (frameWork_bank s b false none).1]
  refine ⟨(congrArg (fun x : BankSt => x.drv.reqNext) hrest :), ?_, fun v hv => reqTaken_req ?_, fun hwait hne => ?_⟩
  · have hduty : (getBank (frameTaken s b false) b).drv.dutyWait = (getBank (boundaryMet s b) b).drv.dutyWait :=
      (congrArg (fun x : BankSt => x.drv.dutyWait) hrest :)
    rw [hduty, hmet]
    rfl
  · have hnext : (frameBegun (boundaryMet s b) b false).reqNext = (getBank (boundaryMet s b) b).drv.reqNext := rfl
    rw [hbegun, hnext, hmet]
    exact hv
  · have hflush : (getBank (frameTaken s b false) b).drv.flushing = (getBank (boundaryMet s b) b).drv.flushing :=
      (congrArg (fun x : BankSt => x.drv.flushing) hrest :)
    rw [hflush, hmet]
    simp [dutyTaken, hwait, hne]

/-- R208, R257: so do the DVLCD fields, which arm no interrupt where the write did not. -/
theorem frameBoundary_trim (hrun : driven (getBank s b).drv = true ∨ slotsRun s = true)
    (hdown : (getBank s b).drv.sta = .allOff → (getBank s b).drv.pend = .none) :
    (getBank (frameBoundary s b) b).trim.wait = none ∧
    ∀ w, (getBank s b).trim.wait = some w → (getBank (frameBoundary s b) b).trim.target = w.1 ∧
      (getBank (frameBoundary s b) b).trim.slew = w.2.1 ∧ (getBank (frameBoundary s b) b).trim.tcomp = w.2.2 ∧
      ((getBank s b).trim.waitArm = false → (getBank (frameBoundary s b) b).trim.armed = false ∧
        bit (frameBoundary s b).irqStat irqVLCD = bit s.irqStat irqVLCD) := by
  obtain ⟨hrest, harmed⟩ := frameTaken_kept s b false
  obtain ⟨hnone, htaken⟩ := boundaryMet_trim s b
  obtain ⟨_, htrim, _, hirq⟩ := frameWork_bank s b false none
  have hfields : (getBank (frameTaken s b false) b).trim.wait = (getBank (boundaryMet s b) b).trim.wait ∧
      (getBank (frameTaken s b false) b).trim.target = (getBank (boundaryMet s b) b).trim.target ∧
      (getBank (frameTaken s b false) b).trim.slew = (getBank (boundaryMet s b) b).trim.slew ∧
      (getBank (frameTaken s b false) b).trim.tcomp = (getBank (boundaryMet s b) b).trim.tcomp :=
    ⟨(congrArg (fun x : BankSt => x.trim.wait) hrest :), (congrArg (fun x : BankSt => x.trim.target) hrest :),
      (congrArg (fun x : BankSt => x.trim.slew) hrest :), (congrArg (fun x : BankSt => x.trim.tcomp) hrest :)⟩
  obtain ⟨hwait, htarget, hslew, htcomp⟩ := hfields
  rw [frameBoundary_work hrun hdown, htrim, hirq, hwait, htarget, hslew, htcomp]
  refine ⟨hnone, fun w hw => ?_⟩
  obtain ⟨htarget', hslew', htcomp', hquiet⟩ := htaken w hw
  exact ⟨htarget', hslew', htcomp', fun harm => (hquiet harm).imp_left harmed⟩

/-! ### The line of a burst that is dropped (R226) -/

/-- A batch that still has a line of its own to rack is not done. -/
theorem batchDone_unracked {c : Batch} {m : BitVec 16} (h : c.named &&& m ≠ 0) :
    batchDone { c with racked := c.racked &&& ~~~ m } = false := by
  refine decide_eq_false fun hdone => h ?_
  refine BitVec.eq_of_getLsbD_eq fun i hi => ?_
  have hbit : (c.named.getLsbD i && !(c.racked.getLsbD i && !m.getLsbD i)) = false := by
    simpa [hi] using congrArg (fun v : BitVec 16 => v.getLsbD i) hdone
  rw [BitVec.getLsbD_and, show (0 : BitVec 16).getLsbD i = false from BitVec.getLsbD_zero]
  cases hm : m.getLsbD i
  · exact Bool.and_false _
  · simpa [hm] using hbit

/-- A layer keeps a current batch that is not done (R313). -/
theorem layerBoundary_late {y : LayerSt} {c : Batch} (hcur : y.cur = some c) (hdone : batchDone c = false) :
    (layerBoundary y).1.cur = some c := by simp [layerBoundary, hcur, hdone]

/-- The line that a burst was to rack goes back to the batch. -/
theorem lineReturned_rack {q : Burst} {y : LayerSt} {c : Batch} {l : Nat} (hrack : q.rack.getLsbD l = true)
    (hcur : y.cur = some c) :
    (lineReturned q y l).cur = some { c with racked := c.racked &&& ~~~ lineBit q.line } := by
  simp [lineReturned, hrack, hcur]

/-- R226: a burst that still waits as another has taken the edge is dropped. -/
theorem frameBoundary_drops {q : Burst} (hslots : slotsRun s = true) (hburst : (getBank s b).drv.burst = some q)
    (hedge : s.arb.l0At = some s.now) (hdown : (getBank s b).drv.sta = .allOff → (getBank s b).drv.pend = .none)
    {l : Nat} (hl : l < 5) (hanim : l ≠ 2) : (frameBoundary s b).arb.l0At = s.arb.l0At ∧
    ∀ c, q.rack.getLsbD l = true → (getLayer (getBank s b) l).cur = some c → c.named &&& lineBit q.line ≠ 0 →
      (getLayer (getBank (frameBoundary s b) b) l).cur = some { c with racked := c.racked &&& ~~~ lineBit q.line } := by
  have hsettled := edgeView_burstSettled_taken (s := s) (b := b) (l := l) hburst (by simp [l0Taken, hedge]) hl
  obtain ⟨T, hwaits, _⟩ := edgeView_waitsTaken (burstSettled s b) b l
  obtain ⟨R, P, hpassed, _⟩ := edgeView_framePassed s b false l
  have hview := edgeView_frameWork s b false none hl hanim
  rw [frameBoundary_work (.inr hslots) hdown]
  have hlayer : (edgeView b l (framePassed s b false)).layer = lineReturned q (getLayer (getBank s b) l) l := by
    rw [hpassed, edgeView_frameTaken]
    exact (congrArg EdgeView.layer hwaits :).trans (congrArg EdgeView.layer hsettled :)
  have hat : (edgeView b l (framePassed s b false)).l0At = s.arb.l0At := by
    rw [hpassed, edgeView_frameTaken]
    exact (congrArg EdgeView.l0At hwaits :).trans (congrArg EdgeView.l0At hsettled :)
  refine ⟨?_, fun c hrack hcur hnamed => ?_⟩
  · split at hview
    · exact (congrArg EdgeView.l0At hview :).trans hat
    · exact (congrArg EdgeView.l0At hview :).trans hat
  · have hreturned := lineReturned_rack hrack hcur
    rw [hlayer] at hview
    split at hview
    · exact (congrArg (fun v : EdgeView => v.layer.cur) hview :).trans
        (layerBoundary_late hreturned (batchDone_unracked hnamed))
    · exact (congrArg (fun v : EdgeView => v.layer.cur) hview :).trans ((congrArg LayerSt.cur hlayer :).trans hreturned)

/-! ### The boundary of a content slot (R241, R244, R245, R306) -/

/-- What the drive of a content slot finds: the ladder setting taken, and the upsets of the reads. -/
theorem slotFound_content (ups : List Upset) (hsta : (getBank s b).drv.sta = .content)
    (hpend : (getBank s b).drv.pend = .none) : slotFound s b ups = setDrv (upsets s ups) b
      { (getBank s b).drv with ladNow := pgf s (drivePage b + 2) 4 4 } := by
  have hstate : slotState (slotLadder s b) b = slotLadder s b :=
    slotState_shown (by rw [getBank_slotLadder]; exact .inr ⟨hsta, hpend⟩)
  rw [slotFound, hstate, slotLadder, setDrv, upsets_setBank, setDrv, getBank_upsets]

/-- The record of a content slot, as the machine before it and the upsets of its reads give it. -/
def contentShown (s : State) (b : Bank) (ups : List Upset) : SlotRec := contentRec (slotFound s b ups) b

/-- R241, R244, R245, R306: it names the line, the polarity and the cycles of the slot, and shows the composed line. -/
theorem contentShown_fields (ups : List Upset) (hsta : (getBank s b).drv.sta = .content)
    (hpend : (getBank s b).drv.pend = .none) (hslot : (getBank s b).drv.slot < frameSlots (getBank s b).drv) :
    (contentShown s b ups).line = slotLine (getBank s b).drv (getBank s b).drv.slot ∧
    (contentShown s b ups).neg = slotNeg (getBank s b) (getBank s b).drv.slot ∧
    (contentShown s b ups).driven = true ∧ (contentShown s b ups).bias = (getBank s b).drv.bias ∧
    (contentShown s b ups).cycles =
      slotLen (frameLen (getBank s b).drv) (frameSlots (getBank s b).drv) (getBank s b).drv.slot ∧
    (contentShown s b ups).pix = composedLine (upsets s ups) b (contentShown s b ups).line := by
  have hfound := slotFound_content ups hsta hpend
  have hbank : getBank (slotFound s b ups) b = { getBank s b with
      drv := { (getBank s b).drv with ladNow := pgf s (drivePage b + 2) 4 4 } } := by
    rw [hfound, getBank_setDrv, getBank_upsets]
  have hpix : (contentShown s b ups).pix = composedLine (upsets s ups) b (contentShown s b ups).line := by
    rw [← composedLine_setDrv (upsets s ups) b { (getBank s b).drv with ladNow := pgf s (drivePage b + 2) 4 4 },
      ← hfound]
    rfl
  refine ⟨?_, ?_, rfl, ?_, ?_, hpix⟩
  · have hline : (contentShown s b ups).line = slotLine (getBank (slotFound s b ups) b).drv
        ((getBank (slotFound s b ups) b).drv.slot % frameSlots (getBank (slotFound s b ups) b).drv) := rfl
    rw [hline, hbank]
    exact congrArg (slotLine (getBank s b).drv) (Nat.mod_eq_of_lt hslot)
  · have hneg : (contentShown s b ups).neg =
        slotNeg (getBank (slotFound s b ups) b) (getBank (slotFound s b ups) b).drv.slot := rfl
    rw [hneg, hbank]
    rfl
  · have hbias : (contentShown s b ups).bias = (getBank (slotFound s b ups) b).drv.bias := rfl
    rw [hbias, hbank]
  · have hcycles : (contentShown s b ups).cycles = slotLen (frameLen (getBank (slotFound s b ups) b).drv)
        (frameSlots (getBank (slotFound s b ups) b).drv) (getBank (slotFound s b ups) b).drv.slot := rfl
    rw [hcycles, hbank]
    rfl

@[simp] theorem edgeView_upsets (b : Bank) (l : Nat) (s : State) (ups : List Upset) :
    edgeView b l (upsets s ups) = edgeView b l s := by
  have hupset (s : State) (u : Upset) : edgeView b l (upset s u) = edgeView b l s := by
    unfold upset
    split <;> simp [eccPut]
  exact edgeView_foldl hupset ups s

/-- Commits that are placed behind the slot show in the layer alone. -/
theorem edgeView_heldPlaced (s : State) (b : Bank) (l : Nat) :
    ∃ y, edgeView b l (heldPlaced s b) = { edgeView b l s with layer := y } := by
  obtain ⟨L, H, h⟩ := heldPlaced_bank s b
  rw [h, edgeView_setBank]
  exact ⟨_, rfl⟩

@[simp] theorem edgeView_keySlotDue (b c : Bank) (l : Nat) (s : State) (on : Bool) :
    edgeView b l (keySlotDue s c on) = edgeView b l s := by simp [keySlotDue]

/-- The lines that a slot takes show in the layer alone. -/
theorem edgeView_linesTaken (s : State) (b : Bank) (l i : Nat) :
    ∃ y, edgeView b l (linesTaken s b i) = { edgeView b l s with layer := y } := by
  rw [linesTaken_bank, edgeView_setBank]
  exact ⟨_, rfl⟩

theorem burstOf_line (s : State) (b : Bank) (i : Nat) (shown : Bool) : (burstOf s b i shown).line = i := by
  unfold burstOf
  split <;> rfl

theorem burstOf_shown (s : State) (b : Bank) (i : Nat) (shown : Bool) : (burstOf s b i shown).shown = shown := by
  unfold burstOf
  split <;> rfl

/-- R226: the burst of a slot waits where another has run in its CK_FRAME cycle, and bank A's runs where none has. -/
theorem edgeView_burstDue (s : State) (b : Bank) (l : Nat) (q : Burst) : ∃ B A, edgeView b l (burstDue s b q) =
      { edgeView b l s with drv := { (getBank s b).drv with burst := B }, l0At := A } ∧
    (s.arb.l0At = some s.now → B = some q ∧ A = s.arb.l0At) ∧
    (s.arb.l0At ≠ some s.now → b = .bankA → B = (getBank s b).drv.burst ∧ A = some s.now) := by
  cases htaken : l0Taken s b
  · have heq : burstDue s b q = l0Burst s b q := by simp [burstDue, htaken]
    refine ⟨_, _, by rw [heq, edgeView_l0Burst]; rfl, fun hat => ?_, fun _ _ => ⟨rfl, rfl⟩⟩
    simp [l0Taken, hat] at htaken
  · have heq : burstDue s b q = setDrv s b { (getBank s b).drv with burst := some q } := by simp [burstDue, htaken]
    refine ⟨_, _, by rw [heq, edgeView_setDrv]; rfl, fun _ => ⟨rfl, rfl⟩, fun hat hb => ?_⟩
    simp [l0Taken, hat, hb] at htaken

/-- What a slot leaves shows in the slot counter, the burst, the layer and the time of the last burst. -/
theorem edgeView_slotTaken (s : State) (b : Bank) (d : Drive) (l : Nat) : ∃ y B A, edgeView b l (slotTaken s b d) =
      { edgeView b l s with
        drv := { (getBank s b).drv with slot := d.slot + 1, slotAt := s.now, burst := B }, layer := y, l0At := A } ∧
    (s.arb.l0At = some s.now →
      B = some (burstOf s b (slotLine d d.slot) ((getBank s b).drv.sta == .content)) ∧ A = s.arb.l0At) ∧
    (s.arb.l0At ≠ some s.now → b = .bankA → B = (getBank s b).drv.burst ∧ A = some s.now) := by
  let q := burstOf s b (slotLine d d.slot) ((getBank s b).drv.sta == .content)
  let e : Drive := { (getBank s b).drv with slot := d.slot + 1, slotAt := s.now }
  have htaken : slotTaken s b d = burstDue (setDrv (linesTaken s b q.line) b e) b q := rfl
  obtain ⟨y, hlines⟩ := edgeView_linesTaken s b l q.line
  have hview : edgeView b l (setDrv (linesTaken s b q.line) b e) = { edgeView b l s with drv := e, layer := y } := by
    rw [edgeView_setDrv, hlines]
  have hat : (setDrv (linesTaken s b q.line) b e).arb.l0At = s.arb.l0At := (congrArg EdgeView.l0At hview :)
  have hnow : (setDrv (linesTaken s b q.line) b e).now = s.now := by
    rw [setDrv, setBank_now, linesTaken_bank, setBank_now]
  obtain ⟨B, A, hdue, hwaits, hruns⟩ := edgeView_burstDue (setDrv (linesTaken s b q.line) b e) b l q
  rw [hat, hnow] at hwaits hruns
  rw [getBank_setDrv] at hdue hruns
  exact ⟨y, B, A, by rw [htaken, hdue, hview], hwaits, hruns⟩

/-- What the drive of a content slot leaves: the record, with the ladder setting taken. -/
theorem edgeView_slotDriven (ups : List Upset) (l : Nat) (hsta : (getBank s b).drv.sta = .content)
    (hpend : (getBank s b).drv.pend = .none) : edgeView b l (slotDrive (slotFound s b ups) b) = { edgeView b l s with
      drv := { (getBank s b).drv with ladNow := pgf s (drivePage b + 2) 4 4 }
      recs := (getBank s b).led.recs ++ [contentShown s b ups] } := by
  have hfound := slotFound_content ups hsta hpend
  have hview : edgeView b l (slotFound s b ups) = { edgeView b l s with
      drv := { (getBank s b).drv with ladNow := pgf s (drivePage b + 2) 4 4 } } := by
    rw [hfound, edgeView_setDrv, edgeView_upsets]
  have hcontent : (getBank (slotFound s b ups) b).drv.sta = .content := (congrArg (·.drv.sta) hview :).trans hsta
  have hrecs : (getBank (slotFound s b ups) b).led.recs = (getBank s b).led.recs := (congrArg EdgeView.recs hview :)
  have hpasses : (getBank (slotFound s b ups) b).led.passes = (edgeView b l s).passes :=
    (congrArg EdgeView.passes hview :)
  rw [slotDrive_content hcontent, edgeView_setLed, hview, hrecs, hpasses]
  rfl

/-- What the begin of a content slot shows: its record, the slot counter and the burst, run or waiting. -/
theorem edgeView_slotOpened (ups : List Upset) (l : Nat) (hsta : (getBank s b).drv.sta = .content)
    (hpend : (getBank s b).drv.pend = .none) : ∃ y q B A, edgeView b l (slotOpened s b ups) = { edgeView b l s with
      drv := { (getBank s b).drv with
        ladNow := pgf s (drivePage b + 2) 4 4, slot := (getBank s b).drv.slot + 1, slotAt := s.now, burst := B }
      recs := (getBank s b).led.recs ++ [contentShown s b ups], layer := y, l0At := A } ∧
    q.line = slotLine (getBank s b).drv (getBank s b).drv.slot ∧ q.shown = true ∧
    (s.arb.l0At = some s.now → B = some q ∧ A = s.arb.l0At) ∧
    (s.arb.l0At ≠ some s.now → b = .bankA → B = (getBank s b).drv.burst ∧ A = some s.now) := by
  have hdriven := edgeView_slotDriven ups l hsta hpend
  obtain ⟨_, _, hnow⟩ := slotDriven_shown (b := b) ups (.inr ⟨hsta, hpend⟩)
  unfold slotOpened
  extract_lets u
  have hview := (edgeView_keySlotDue b b l u (driven (getBank u b).drv)).trans hdriven
  have hknow : (keySlotDue u b (driven (getBank u b).drv)).now = s.now := (keySlotDue_keeps u b _).2.1.trans hnow
  generalize keySlotDue u b (driven (getBank u b).drv) = k at hview hknow
  have hdrv : (getBank k b).drv = { (getBank s b).drv with ladNow := pgf s (drivePage b + 2) 4 4 } :=
    (congrArg EdgeView.drv hview :)
  have hat : k.arb.l0At = s.arb.l0At := (congrArg EdgeView.l0At hview :)
  obtain ⟨y, B, A, htaken, hwaits, hruns⟩ := edgeView_slotTaken k b (getBank s b).drv l
  rw [hknow, hat, hdrv] at hwaits hruns
  refine ⟨y, _, B, A, ?_, burstOf_line _ _ _ _, ?_, hwaits, hruns⟩
  · rw [htaken, hview, hdrv, hknow]
  · rw [burstOf_shown, hsta]
    rfl

/-- R241, R226: the boundary of a content slot. -/
theorem slotBoundary_content (ups : List Upset) (hsta : (getBank s b).drv.sta = .content)
    (hpend : (getBank s b).drv.pend = .none) (hslot : (getBank s b).drv.slot < frameSlots (getBank s b).drv)
    (hburst : (getBank s b).drv.burst = none) : ∃ q B A,
    (getBank (slotBoundary s b ups) b).led.recs = (getBank s b).led.recs ++ [contentShown s b ups] ∧
    (getBank (slotBoundary s b ups) b).drv = { (getBank s b).drv with
      ladNow := pgf s (drivePage b + 2) 4 4, slot := (getBank s b).drv.slot + 1, slotAt := s.now, burst := B } ∧
    (slotBoundary s b ups).arb.l0At = A ∧
    q.line = slotLine (getBank s b).drv (getBank s b).drv.slot ∧ q.shown = true ∧
    (s.arb.l0At = some s.now → B = some q ∧ A = s.arb.l0At) ∧
    (s.arb.l0At ≠ some s.now → b = .bankA → B = none ∧ A = some s.now) := by
  obtain ⟨y, q, B, A, hopened, hline, hshown, hwaits, hruns⟩ := edgeView_slotOpened (b := b) ups 0 hsta hpend
  obtain ⟨z, hplaced⟩ := edgeView_heldPlaced (slotOpened s b ups) b 0
  have hon : driven (getBank s b).drv = true := by simp [driven, hsta]
  have hsteps := slotBoundary_steps ups hburst (by simp [hsta]) (.inl hon) hslot
  rw [← hsteps, hopened] at hplaced
  rw [hburst] at hruns
  exact ⟨q, B, A, (congrArg EdgeView.recs hplaced :), (congrArg EdgeView.drv hplaced :),
    (congrArg EdgeView.l0At hplaced :), hline, hshown, hwaits, hruns⟩

/-- R226: behind a boundary no burst of the bank waits. -/
theorem frameBoundary_burst (hrun : driven (getBank s b).drv = true ∨ slotsRun s = true)
    (hdown : (getBank s b).drv.sta = .allOff → (getBank s b).drv.pend = .none) :
    (getBank (frameBoundary s b) b).drv.burst = none := by
  have hmet := boundaryMet_drv s b
  obtain ⟨hrest, _⟩ := frameTaken_kept s b false
  have htaken : (getBank (frameTaken s b false) b).drv.burst = (getBank (boundaryMet s b) b).drv.burst :=
    (congrArg (fun x : BankSt => x.drv.burst) hrest :)
  rw [frameBoundary_work hrun hdown, (frameWork_bank s b false none).1, htaken, hmet]
  rfl

/-- Work on one bank's boundary leaves the other bank. -/
theorem frameBoundary_other {b' : Bank} (h : b' ≠ b) (hrun : driven (getBank s b).drv = true ∨ slotsRun s = true)
    (hdown : (getBank s b).drv.sta = .allOff → (getBank s b).drv.pend = .none) :
    getBank (frameBoundary s b) b' = getBank s b' := by
  obtain ⟨_, _, hother, _⟩ := frameWork_bank s b false none
  rw [frameBoundary_work hrun hdown]
  exact hother b' h

end

/-- Settles O30: a boundary shows what its bank's drive, trim, records and layers become through the writes that waited
and the frame begun; a content slot shows its record and its burst. -/
theorem frameAndSlotBoundaries : Obligations.FrameAndSlotBoundaries := by
  unfold Obligations.FrameAndSlotBoundaries
  refine ⟨⟨fun b s hon hdown hburst => ?_, fun b s hrun hdown => ?_,
    fun b q c l s hslots hburst hedge hdown hl hrack hcur hnamed => ?_, fun b s hoff hslots => ?_⟩,
    fun b ups s hsta hpend hslot hburst => ?_⟩
  · obtain ⟨hslot, hfcnt, hwave, hrate, hends, hstays⟩ := frameBoundary_driven hon hdown hburst
    obtain ⟨hrecs, hpass⟩ := frameBoundary_pass hon hdown
    exact ⟨_, rfl, hslot, hfcnt, hwave, hrate, hrecs, hpass, hends, hstays,
      fun b' hb' => congrArg BankSt.drv (frameBoundary_other hb' (.inl hon) hdown)⟩
  · obtain ⟨hnext, hduty, hreq, hflush⟩ := frameBoundary_waits hrun hdown
    obtain ⟨hwait, htrim⟩ := frameBoundary_trim hrun hdown
    exact ⟨_, rfl, hnext, hduty, hwait, hreq, hflush, fun c n k hw => htrim (c, n, k) hw⟩
  · exact ⟨_, rfl, frameBoundary_burst (.inr hslots) hdown,
      (frameBoundary_drops hslots hburst hedge hdown (l := 0) (by decide) (by decide)).1,
      fun hanim => (frameBoundary_drops hslots hburst hedge hdown hl hanim).2 c hrack hcur hnamed⟩
  · exact congrArg Host.Outcome.next (frameBoundary_none hoff hslots)
  · obtain ⟨q, B, A, hrecs, hdrv, hat, hqline, hqshown, hwaits, hruns⟩ := slotBoundary_content ups hsta hpend hslot hburst
    obtain ⟨hline, hneg, hdriven, hbias, hcycles, hpix⟩ := contentShown_fields ups hsta hpend hslot
    have hfields : (getBank (slotBoundary s b ups) b).drv.burst = B ∧
        (getBank (slotBoundary s b ups) b).drv.slot = (getBank s b).drv.slot + 1 ∧
        (getBank (slotBoundary s b ups) b).drv.slotAt = s.now ∧ (getBank (slotBoundary s b ups) b).drv.sta = .content := by
      rw [hdrv]
      exact ⟨rfl, rfl, rfl, hsta⟩
    obtain ⟨hB, hnext, hnow, hcontent⟩ := hfields
    refine ⟨_, _, rfl, hrecs, hline, hneg, hdriven, hbias, hcycles, hpix, fun hfree hb => ?_, fun htaken => ?_, hnext,
      hnow, hcontent⟩
    · obtain ⟨hnone, hA⟩ := hruns hfree hb
      exact ⟨hB.trans hnone, hat.trans hA⟩
    · obtain ⟨hsome, hA⟩ := hwaits htaken
      exact ⟨q, hB.trans hsome, hqline.trans hline.symm, hqshown, hat.trans hA⟩

end Sys2Proof.Machine
end

section
/-! The end of a booking pass (R277, R283, R285, R286): one line of accumulators rewritten, the lines of a pass booked and
rescaled, what of the machine this leaves, and O31. -/

namespace Sys2Proof.Machine

open Sys2Proof

/-! ### One line of accumulators -/

/-- The accumulators lie in the bank's cask in the order of their lines and columns (Table BAL-1). -/
theorem accAddr_eq (b : Bank) (c x : Nat) : accAddr b c x = accAddr b 0 0 + 4 * (128 * c + x) := by
  simp only [accAddr]
  omega

theorem readAcc_congr {s t : State} (h : t.mem = s.mem) (b : Bank) (c x : Nat) : readAcc t b c x = readAcc s b c x := by
  rw [readAcc, h, readAcc]

/-- A pair rewritten leaves every other accumulator. -/
theorem readAcc_rmwPair_ne {s : State} {b : Bank} {c i c' x : Nat} {f : Nat → BitVec 32 → BitVec 32}
    (hwf : Cellar.wf s.mem = true) (hclean : s.arb.ecc = [])
    (hne : 128 * c' + x < 128 * c + 2 * i ∨ 128 * c + 2 * i + 1 < 128 * c' + x) :
    readAcc (rmwPair s b c (2 * i) f) b c' x = readAcc s b c' x := by
  unfold readAcc
  rw [(rmwPair_clean b c (2 * i) f hclean).1, Cellar.getNat_setNat_ne hwf]
  rw [accAddr_eq b c' x, accAddr_eq b c (2 * i)]
  omega

/-- A pair rewritten has each of its words from its own function. -/
theorem readAcc_rmwPair_same {s : State} {b : Bank} {c i x : Nat} {f : Nat → BitVec 32 → BitVec 32}
    (hwf : Cellar.wf s.mem = true) (hclean : s.arb.ecc = []) (hx : x = 2 * i ∨ x = 2 * i + 1) :
    readAcc (rmwPair s b c (2 * i) f) b c x = f x (readAcc s b c x) := by
  obtain ⟨hlow, hhigh⟩ := getNat_pair hwf (accAddr b c (2 * i)) (f (2 * i) (readAcc s b c (2 * i)))
    (f (2 * i + 1) (readAcc s b c (2 * i + 1)))
  rw [← (rmwPair_clean b c (2 * i) f hclean).1] at hlow hhigh
  rcases hx with rfl | rfl
  · exact hlow
  · exact hhigh

/-! ### Work on a bank's accumulators -/

/-- The state t is s after reads and writes of the bank's accumulators: SAT_CNT and the arbiter have moved, and no byte
beside the accumulators; no word holds an error. -/
structure AccsWorked (s : State) (b : Bank) (t : State) : Prop where
  rest : t = { setLed s b { (getBank s b).led with satCnt := (getBank t b).led.satCnt } with arb := t.arb, mem := t.mem }
  wf : Cellar.wf t.mem = true
  clean : t.arb.ecc = []
  other : ∀ a, (a < accAddr b 0 0 ∨ accAddr b 0 0 + 0x2000 ≤ a) → Cellar.get t.mem a = Cellar.get s.mem a

namespace AccsWorked

variable {s t u : State} {b : Bank}

theorem refl (b : Bank) (hwf : Cellar.wf s.mem = true) (hclean : s.arb.ecc = []) : AccsWorked s b s :=
  ⟨by cases b <;> rfl, hwf, hclean, fun _ _ => rfl⟩

theorem trans (h : AccsWorked s b t) (k : AccsWorked t b u) : AccsWorked s b u := by
  refine ⟨?_, k.wf, k.clean, fun a ha => (k.other a ha).trans (h.other a ha)⟩
  have hk := k.rest
  rw [h.rest] at hk
  rw [hk]
  cases b <;> rfl

theorem led (h : AccsWorked s b t) :
    (getBank t b).led = { (getBank s b).led with satCnt := (getBank t b).led.satCnt } := by
  rw [h.rest]
  cases b <;> rfl

theorem drv (h : AccsWorked s b t) : (getBank t b).drv = (getBank s b).drv := by
  rw [h.rest]
  cases b <;> rfl

theorem irqStat (h : AccsWorked s b t) : t.irqStat = s.irqStat := by
  rw [h.rest]
  cases b <;> rfl

theorem err (h : AccsWorked s b t) : t.err = s.err := by
  rw [h.rest]
  cases b <;> rfl

end AccsWorked

section
variable {s t : State} {b : Bank}

theorem accsWorked_rmwPair {c i : Nat} (f : Nat → BitVec 32 → BitVec 32) (hwf : Cellar.wf s.mem = true)
    (hclean : s.arb.ecc = []) (hc : c < 16) (hi : i < 64) : AccsWorked s b (rmwPair s b c (2 * i) f) := by
  obtain ⟨hmem, hecc⟩ := rmwPair_clean b c (2 * i) f hclean
  refine ⟨?_, by rw [hmem]; exact Cellar.wf_setNat hwf _ _ _, hecc, fun a ha => ?_⟩
  · have hbad := eccBad_clean hclean (accAddr b c (2 * i))
    unfold rmwPair
    dsimp only
    rw [hbad, eccRead_clean hclean]
    cases b <;> rfl
  · rw [hmem, Cellar.get_setNat_ne]
    rw [accAddr_eq b c (2 * i)]
    omega

/-- A line rewritten: each of its accumulators by the line's function, and no other accumulator of the bank. -/
theorem rmwLine_accs {c : Nat} (f : Nat → BitVec 32 → BitVec 32) (hwf : Cellar.wf s.mem = true)
    (hclean : s.arb.ecc = []) (hc : c < 16) : AccsWorked s b (rmwLine s b c f) ∧
      ∀ c' x, x < 128 → readAcc (rmwLine s b c f) b c' x =
        if c' = c then f x (readAcc s b c' x) else readAcc s b c' x := by
  obtain ⟨hwork, hacc⟩ : AccsWorked s b (rmwLine s b c f) ∧ ∀ c' x, x < 128 → readAcc (rmwLine s b c f) b c' x =
      if c' = c ∧ x < 2 * 64 then f x (readAcc s b c' x) else readAcc s b c' x := by
    refine foldl_range_rule (P := fun n t => AccsWorked s b t ∧ ∀ c' x, x < 128 → readAcc t b c' x =
      if c' = c ∧ x < 2 * n then f x (readAcc s b c' x) else readAcc s b c' x)
      ⟨AccsWorked.refl b hwf hclean, fun c' x _ => (if_neg (by omega)).symm⟩ fun i t hi ⟨hwork, hacc⟩ => ?_
    refine ⟨hwork.trans (accsWorked_rmwPair f hwork.wf hwork.clean hc hi), fun c' x hx => ?_⟩
    by_cases hpair : c' = c ∧ (x = 2 * i ∨ x = 2 * i + 1)
    · obtain ⟨rfl, hword⟩ := hpair
      rw [readAcc_rmwPair_same hwork.wf hwork.clean hword, hacc c' x hx, if_neg (by omega), if_pos (by omega)]
    · rw [readAcc_rmwPair_ne hwork.wf hwork.clean (by omega), hacc c' x hx]
      exact if_congr (by omega) rfl rfl
  exact ⟨hwork, fun c' x hx => (hacc c' x hx).trans (if_congr (and_iff_left hx) rfl rfl)⟩

/-- m lines from a line on rewritten, each by its own function. -/
theorem rmwLines_accs {first m : Nat} (g : Nat → Nat → BitVec 32 → BitVec 32) (hwf : Cellar.wf s.mem = true)
    (hclean : s.arb.ecc = []) (hm : first + m ≤ 16)
    (ht : (List.range m).foldl (fun r i => rmwLine r b (first + i) (g (first + i))) s = t) : AccsWorked s b t ∧
      ∀ c x, x < 128 → readAcc t b c x =
        if first ≤ c ∧ c < first + m then g c x (readAcc s b c x) else readAcc s b c x := by
  subst ht
  refine foldl_range_rule (P := fun n t => AccsWorked s b t ∧ ∀ c x, x < 128 → readAcc t b c x =
    if first ≤ c ∧ c < first + n then g c x (readAcc s b c x) else readAcc s b c x)
    ⟨AccsWorked.refl b hwf hclean, fun c x _ => (if_neg (by omega)).symm⟩ fun i t hi ⟨hwork, hacc⟩ => ?_
  obtain ⟨hline, hwords⟩ := rmwLine_accs (b := b) (g (first + i)) hwork.wf hwork.clean
    (show first + i < 16 by omega)
  refine ⟨hwork.trans hline, fun c x hx => ?_⟩
  rw [hwords c x hx, hacc c x hx]
  by_cases hc : c = first + i
  · subst hc
    rw [if_pos rfl, if_neg (by omega), if_pos (by omega)]
  · rw [if_neg hc]
    exact if_congr (by omega) rfl rfl

/-! ### The stages of a pass (R283) -/

/-- Table REG-9: a bank has at most 16 lines. -/
theorem frameLines_le (d : Drive) : frameLines d ≤ 16 := by
  unfold frameLines dutyLines
  split <;> decide

/-- The oldest pass taken out of the ledger and counted. -/
def passTaken (s : State) (b : Bank) (rest : List Pass) : State :=
  setLed s b { (getBank s b).led with passes := rest, passCnt := ((getBank s b).led.passCnt + 1) % 0x10000 }

/-- The word of a used accumulator after a pass, by its line and column. -/
def bookedWord (s : State) (b : Bank) (q : Pass) (c x : Nat) (w : BitVec 32) : BitVec 32 :=
  passWord b (getBank s b).drv (getBank s b).led q (((getBank s b).led.passCnt + 1) % 0x10000) c x
    (decide (x < q.keyCols)) w

/-- Every used line booked. -/
def passBooked (s : State) (b : Bank) (q : Pass) (rest : List Pass) : State :=
  (List.range (frameLines (getBank s b).drv)).foldl (fun t c => rmwLine t b c (bookedWord s b q c))
    (passTaken s b rest)

/-- The lines beyond those of the duty in another T_s, where the pass brings one (R285). -/
def passScaled (s : State) (b : Bank) (q : Pass) (rest : List Pass) : State :=
  let l := (getBank s b).led
  if decide (l.units.1 * q.units.2 ≠ l.units.2 * q.units.1) then
    (List.range (16 - frameLines (getBank s b).drv)).foldl (fun t i => rmwLine t b (frameLines (getBank s b).drv + i)
      (fun _ w => unusedWord l q ((l.passCnt + 1) % 0x10000) w)) (passBooked s b q rest)
  else passBooked s b q rest

/-- The pass's T_s and the peak in the ledger of r, and the pass's bursts granted. -/
def passClosed (r : State) (b : Bank) (q : Pass) (first : Bool) : State :=
  setPeak (grantWork (setLed r b { (getBank r b).led with units := q.units }) 2 (lineBursts 16) first) b

/-- R283: the stages of a pass; a clear that waited follows it (R303). -/
theorem passEnds_eq {q : Pass} {rest : List Pass} (h : (getBank s b).led.passes = q :: rest) : passEnds s b =
    let t := passClosed (passScaled s b q rest) b q (decide (longWork s 2 = some (.pass b)))
    if (getBank t b).led.clr then clearWords t b else t := by
  unfold passEnds
  dsimp only
  rw [h]
  rfl

theorem passClosed_frame (r : State) (b : Bank) (q : Pass) (first : Bool) : (passClosed r b q first).mem = r.mem ∧
    (passClosed r b q first).irqStat = r.irqStat ∧ (passClosed r b q first).err = r.err ∧
    getBank (passClosed r b q first) b = { getBank r b with led := { (getBank r b).led with
      units := q.units, peak := (getBank (passClosed r b q first) b).led.peak
      peakAddr := (getBank (passClosed r b q first) b).led.peakAddr } } := by
  unfold passClosed setPeak
  rw [grantWork_frame]
  cases b <;> exact ⟨rfl, rfl, rfl, rfl⟩

/-- R277, R283, R285: through all its stages a pass works on the bank's accumulators alone, and each used one is as its
records book it. -/
theorem passScaled_accs (q : Pass) (rest : List Pass) (hwf : Cellar.wf s.mem = true) (hclean : s.arb.ecc = []) :
    AccsWorked (passTaken s b rest) b (passScaled s b q rest) ∧
    ∀ c x, c < frameLines (getBank s b).drv → x < 128 →
      readAcc (passScaled s b q rest) b c x = bookedWord s b q c x (readAcc s b c x) := by
  have hlines := frameLines_le (getBank s b).drv
  have hmem : (passTaken s b rest).mem = s.mem := by cases b <;> rfl
  have hecc : (passTaken s b rest).arb.ecc = [] := by cases b <;> exact hclean
  obtain ⟨hbook, hbooked⟩ := rmwLines_accs (t := passBooked s b q rest) (first := 0)
    (m := frameLines (getBank s b).drv) (bookedWord s b q) (hmem ▸ hwf) hecc (by omega)
    (by simp only [Nat.zero_add]; rfl)
  have hused (c x : Nat) (hc : c < frameLines (getBank s b).drv) (hx : x < 128) :
      readAcc (passBooked s b q rest) b c x = bookedWord s b q c x (readAcc s b c x) := by
    rw [hbooked c x hx, if_pos (by omega), readAcc_congr hmem]
  unfold passScaled
  dsimp only
  split
  · obtain ⟨hscale, hscaled⟩ := rmwLines_accs (first := frameLines (getBank s b).drv)
      (m := 16 - frameLines (getBank s b).drv)
      (fun _ _ w => unusedWord (getBank s b).led q (((getBank s b).led.passCnt + 1) % 0x10000) w)
      hbook.wf hbook.clean (by omega) rfl
    refine ⟨hbook.trans hscale, fun c x hc hx => ?_⟩
    rw [hscaled c x hx, if_neg (by omega), hused c x hc hx]
  · exact ⟨hbook, hused⟩

/-- R283: the end of a pass that no clear waits behind. -/
theorem passEnds_books {q : Pass} {rest : List Pass} (hpass : (getBank s b).led.passes = q :: rest)
    (hclr : (getBank s b).led.clr = false) (hwf : Cellar.wf s.mem = true) (hclean : s.arb.ecc = [])
    (ht : passEnds s b = t) :
    (getBank t b).led.passes = rest ∧ (getBank t b).led.passCnt = ((getBank s b).led.passCnt + 1) % 0x10000 ∧
    (getBank t b).led.units = q.units ∧
    (∀ c x, c < frameLines (getBank s b).drv → x < 128 → readAcc t b c x = bookedWord s b q c x (readAcc s b c x)) ∧
    (∀ a, a < accAddr b 0 0 ∨ accAddr b 0 0 + 0x2000 ≤ a → Cellar.get t.mem a = Cellar.get s.mem a) ∧
    (getBank t b).drv = (getBank s b).drv ∧ t.irqStat = s.irqStat ∧ t.err = s.err := by
  obtain ⟨hwork, hbooked⟩ := passScaled_accs (b := b) q rest hwf hclean
  obtain ⟨hmem, hirq, herr, hbank⟩ := passClosed_frame (passScaled s b q rest) b q
    (decide (longWork s 2 = some (.pass b)))
  have htaken : getBank (passTaken s b rest) b = { getBank s b with led := { (getBank s b).led with
      passes := rest, passCnt := ((getBank s b).led.passCnt + 1) % 0x10000 } } := getBank_setBank s b _
  have hframe : (passTaken s b rest).mem = s.mem ∧ (passTaken s b rest).irqStat = s.irqStat ∧
      (passTaken s b rest).err = s.err := by cases b <;> exact ⟨rfl, rfl, rfl⟩
  obtain ⟨hmem0, hirq0, herr0⟩ := hframe
  have hled := hwork.led
  have hdrv := hwork.drv
  rw [htaken] at hled hdrv
  have heq := passEnds_eq hpass
  dsimp only at heq
  rw [ht, hbank, hled, if_neg (by simp [hclr])] at heq
  subst heq
  rw [hbank, hled]
  refine ⟨rfl, rfl, rfl, fun c x hc hx => ?_, fun a ha => ?_, hdrv, ?_, ?_⟩
  · rw [readAcc_congr hmem, hbooked c x hc hx]
  · rw [hmem, hwork.other a ha, hmem0]
  · rw [hirq, hwork.irqStat, hirq0]
  · rw [herr, hwork.err, herr0]

/-! ### The row of the pass's end -/

/-- A pass that is granted in the state u ends there. -/
theorem exec_bookingPassEnd_granted {u : State} (hdom : domains s = true) (hpass : (getBank s b).led.passes ≠ [])
    (hserve : arbServe s (.low 2) = some u) : exec (.bookingPassEnd b []) s = .next (passEnds u b) := by
  refine congrArg Host.Outcome.next ((if_pos ⟨hdom, by simpa using hpass⟩).trans ?_)
  exact granted_of hserve

/-- Behind another request the row does nothing. -/
theorem exec_bookingPassEnd_behind (ups : List Upset) (hserve : arbServe s (.low 2) = none) :
    exec (.bookingPassEnd b ups) s = .next s := by
  refine congrArg Host.Outcome.next ?_
  split
  · exact granted_not hserve
  · rfl

end

/-- Settles O31: the grant leaves the bank and the Cellar, and the pass that ends in its state books line by line. -/
theorem bookingPassesBookEveryUsedPixel : Obligations.BookingPassesBookEveryUsedPixel := by
  unfold Obligations.BookingPassesBookEveryUsedPixel
  refine ⟨fun b ups s => exec_bookingPassEnd_behind ups, fun b q rest s u hdom hpass hserve hclr hclean hwf => ?_⟩
  have hrow := exec_bookingPassEnd_granted hdom (by rw [hpass]; exact List.cons_ne_nil _ _) hserve
  have hecc : u.arb.ecc = [] := by
    rw [arbKept_arbServe hserve]
    exact hclean
  have hu : u = { s with arb := u.arb } := arbServe_frame hserve
  have hbank : getBank u b = getBank s b := by
    rw [hu]
    cases b <;> rfl
  have hmem : u.mem = s.mem := mem_arbServe hserve
  have hirq : u.irqStat = s.irqStat := by rw [hu]
  have herr : u.err = s.err := by rw [hu]
  obtain ⟨hpasses, hcnt, hunits, hbooked, hother, hdrv, hirq', herr'⟩ :=
    passEnds_books (by rw [hbank, hpass]) (by rw [hbank, hclr]) (by rw [hmem, hwf]) hecc rfl
  rw [hbank] at hcnt hbooked hdrv
  refine ⟨_, hrow, hpasses, hcnt, hunits, fun c x hc hx => ?_, fun a ha => ?_, hdrv, ?_, ?_⟩
  · rw [hbooked c x hc hx, bookedWord, hbank, hcnt, readAcc_congr hmem]
  · rw [hother a ha, hmem]
  · rw [hirq', hirq]
  · rw [herr', herr]

end Sys2Proof.Machine
end

section
/-! Rows that write a thread's EN or a region's words (R214, R323, R324, R335, R580, O35): a page word that is stored, then
acts; a row that is refused, and one that waits behind the port's buffer. -/

namespace Sys2Proof.Machine

open Sys2Proof

/-! ### A word stored in the Parameter cask (R115, R214) -/

/-- The word read after its own write. -/
theorem getWord_setWord {m : List Host.Cell} (hwf : Cellar.wf m = true) (a : Nat) (v : Word) :
    Cellar.getWord (Cellar.setWord m a v) a = v := by
  rw [Cellar.getWord, Cellar.get_setWord hwf, Cellar.get_setWord hwf, if_neg (by omega), if_pos rfl, if_pos rfl]
  apply BitVec.eq_of_toNat_eq
  have hv := v.isLt
  simp only [wordOfBytes, loByte, hiByte, BitVec.toNat_ofNat, BitVec.truncate_eq_setWidth, BitVec.toNat_setWidth,
    BitVec.toNat_ushiftRight, Nat.shiftRight_eq_div_pow]
  omega

/-- The machine in which a page word's stored bits are in the Cellar, granted to the port in u. -/
def pageStored (u : State) (p : Port) (a : Nat) (v : Word) : State :=
  storeWord (grantL1 u p) a (v &&& wordOf (pageWord a).stored)

section
variable (u : State) (p : Port) (a : Nat) (v : Word)

theorem pageStored_frame : pageStored u p a v = { u with
    mem := (pageStored u p a v).mem, arb := (pageStored u p a v).arb, err := (pageStored u p a v).err,
    irqStat := (pageStored u p a v).irqStat } := by
  unfold pageStored
  rw [storeWord_frame]
  cases p <;> rfl

theorem pageStored_mem : (pageStored u p a v).mem = Cellar.setWord u.mem a (v &&& wordOf (pageWord a).stored) := by
  rw [pageStored, mem_storeWord, mem_grantL1]

theorem getBank_pageStored (b : Bank) : getBank (pageStored u p a v) b = getBank u b := by
  rw [pageStored_frame]
  cases b <;> rfl

theorem pageStored_disp : (pageStored u p a v).disp = u.disp := by rw [pageStored_frame]

end

/-- What a state shows of a page word where its memory is that behind the word's store. -/
theorem stored_of_mem {u t : State} {p : Port} {a : Nat} {v : Word} (hwf : Cellar.wf u.mem = true)
    (h : t.mem = (pageStored u p a v).mem) :
    onlyBytes u t a 2 ∧ pg t a = v &&& wordOf (pageWord a).stored := by
  rw [pageStored_mem] at h
  refine ⟨fun x hx => ?_, ?_⟩
  · rw [h, Cellar.get_setWord_ne _ _ hx]
  · rw [pg, h, getWord_setWord hwf]

/-- A page word that something can write is stored, and then acts. -/
theorem pageRow_stored {s u : State} {p : Port} {a : Nat} {set : Word → Word} (h : pageAccepted s u p a set)
    (hpage : isPage a = true) (hro : (pageWord a).ro ≠ 0xFFFF) (harb : a ≠ 0xE802) (hkeys : keysWord a = false) :
    ∃ v, v = set (pg u a &&& wordOf (pageWord a).stored) ∧ pageRow s p a set = pageAction (pageStored u p a v) a v := by
  refine ⟨_, rfl, ?_⟩
  rw [pageRow_accepted h, keysCapture_none hkeys, winStore, if_pos hpage]
  dsimp only
  rw [if_neg fun hnone => hro hnone.2, if_neg harb, hkeys, if_neg Bool.false_ne_true, pageStored]

/-! ### Rows that are refused or wait (R110, R115) -/

section
variable {s c : State} {p : Port} {a : Nat} {set : Word → Word} (hread : readable s p) (hcapt : pageCaptured s p = c)
include hread hcapt

theorem pageRow_refused {e : Byte} (h : winError c p a (set (pg c a &&& wordOf (pageWord a).stored)) = some e) :
    pageRow s p a set = refuseCell c p e a := by
  obtain ⟨hlive, hface⟩ := hread
  unfold pageCaptured at hcapt
  simp only [pageRow, hlive, hface, hcapt, h, Bool.not_true, Bool.false_eq_true, reduceCtorEq, if_false]

/-- R115: a row that finds a posted write takes the place behind it. -/
theorem pageRow_behind {x : BufEntry} {rest : List BufEntry} (hbuf : (getPort c p).buf = x :: rest)
    (h : winError c p a (set (pg c a &&& wordOf (pageWord a).stored)) = none) :
    pageRow s p a set = pagePost c p (BitVec.ofNat 20 a) (set (pg c a &&& wordOf (pageWord a).stored)) := by
  obtain ⟨hlive, hface⟩ := hread
  unfold pageCaptured at hcapt
  simp only [pageRow, hlive, hface, hcapt, h, hbuf, Bool.not_true, Bool.false_eq_true, reduceCtorEq, if_false]

end

theorem pagePost_free {c : State} {p : Port} {a : CAddr} {v : Word} (hkeys : keysWord a.toNat = false)
    (hroom : (getPort c p).buf.length < 32) : pagePost c p a v = pushEntry c p (.wdata a v) := by
  rw [pagePost, roomFor_free hroom, keysCapture_none hkeys]

/-! ### The word of a thread's EN (R335, R580) -/

/-- Table LAY-4: EN is the one bit of its word, which anything may write. -/
theorem enWord (b : Bank) : isPage (0xC880 + 0x10 * b.num) = true ∧ (pageWord (0xC880 + 0x10 * b.num)).ro ≠ 0xFFFF ∧
    0xC880 + 0x10 * b.num ≠ 0xE802 ∧ keysWord (0xC880 + 0x10 * b.num) = false ∧
    (pageWord (0xC880 + 0x10 * b.num)).stored = 1 := by
  cases b <;> decide

theorem pageAction_en (s : State) (b : Bank) (v : Word) : pageAction s (0xC880 + 0x10 * b.num) v = threadEn s b v := by
  cases b <;> rfl

/-- EN written at once: its word holds it, and the thread is asked for its start or its stop. -/
theorem pageRow_en {s u : State} {p : Port} {b : Bank} {set : Word → Word} {en : Bool}
    (h : pageAccepted s u p (0xC880 + 0x10 * b.num) set) (hset : ∀ w, bit (set w) 0 = en)
    (hwf : Cellar.wf u.mem = true) :
    ∃ t, pageRow s p (0xC880 + 0x10 * b.num) set = t ∧ onlyBytes u t (0xC880 + 0x10 * b.num) 2 ∧
      pgb t (0xC880 + 0x10 * b.num) 0 = en ∧
      getBank t b = { getBank u b with thr := { (getBank u b).thr with startReq := en, stopReq := !en } } ∧
      t = { setBank u b (getBank t b) with mem := t.mem, arb := t.arb, err := t.err, irqStat := t.irqStat } := by
  obtain ⟨hpage, hro, harb, hkeys, hstored⟩ := enWord b
  obtain ⟨v, hv, hrow⟩ := pageRow_stored h hpage hro harb hkeys
  have hbit : bit v 0 = en := by rw [hv, hset]
  rw [pageAction_en, threadEn, hbit] at hrow
  have hmem : (setThr (pageStored u p (0xC880 + 0x10 * b.num) v) b
      { (getBank (pageStored u p (0xC880 + 0x10 * b.num) v) b).thr with startReq := en, stopReq := !en }).mem =
      (pageStored u p (0xC880 + 0x10 * b.num) v).mem := setBank_mem _ _ _
  obtain ⟨hbytes, hword⟩ := stored_of_mem hwf hmem
  refine ⟨_, hrow, hbytes, ?_, ?_, ?_⟩
  · rw [pgb, hword, hstored, bit, BitVec.getLsbD_and]
    exact (Bool.and_true _).trans hbit
  · rw [setThr, getBank_setBank, getBank_pageStored]
  · rw [pageStored_frame]
    cases b <;> rfl

/-! ### The words of a region (R323, R324) -/

/-- Table LAY-4: the two descriptor words and the lock's word of a region. -/
theorem regionWord (r : Fin 4) {o : Nat} (ho : o = 0 ∨ o = 2 ∨ o = 4) :
    isPage (0xC8A0 + 8 * r.val + o) = true ∧ (pageWord (0xC8A0 + 8 * r.val + o)).ro ≠ 0xFFFF ∧
    0xC8A0 + 8 * r.val + o ≠ 0xE802 ∧ keysWord (0xC8A0 + 8 * r.val + o) = false := by
  have hro : ∀ r : Fin 4, ∀ o ∈ [0, 2, 4], (pageWord (0xC8A0 + 8 * r.val + o)).ro ≠ 0xFFFF := by decide
  have hr := r.isLt
  refine ⟨decide_eq_true (by omega), hro r o (by simpa using ho), by omega, decide_eq_false (by omega)⟩

/-- A word of a region acts on that region. -/
theorem pageAction_region (s : State) {a : Nat} (v : Word) (hlow : 0xC8A0 ≤ a) (hhigh : a < 0xC8C0) :
    pageAction s a v = regionWritten s ((a - 0xC8A0) / 8) (a % 8) v := by
  rw [pageAction, if_pos ⟨hlow, hhigh⟩]
  all_goals omega

/-- A descriptor word, or the lock bit set, locks the region. -/
theorem regionWritten_locks (s : State) (r : Fin 4) {o : Nat} {v : Word} (h : o = 0 ∨ o = 2 ∨ (o = 4 ∧ bit v 1 = true)) :
    regionWritten s r.val o v = lockRegion s r := by
  rw [regionWritten, dif_pos r.isLt, if_pos h]

theorem pageAction_locks (s : State) (r : Fin 4) {o : Nat} {v : Word} (h : o = 0 ∨ o = 2 ∨ (o = 4 ∧ bit v 1 = true)) :
    pageAction s (0xC8A0 + 8 * r.val + o) v = lockRegion s r := by
  have hr := r.isLt
  rw [pageAction_region s v (by omega) (by omega), ← regionWritten_locks s r h]
  congr 1 <;> omega

/-- A word of a region written at once: it is stored, and the region is locked. -/
theorem pageRow_region {s u : State} {p : Port} {r : Fin 4} {o : Nat} {set : Word → Word}
    (h : pageAccepted s u p (0xC8A0 + 8 * r.val + o) set)
    (ho : o = 0 ∨ o = 2 ∨ (o = 4 ∧ ∀ w, bit (set w) 1 = true)) :
    ∃ v, v = set (pg u (0xC8A0 + 8 * r.val + o) &&& wordOf (pageWord (0xC8A0 + 8 * r.val + o)).stored) ∧
      pageRow s p (0xC8A0 + 8 * r.val + o) set = lockRegion (pageStored u p (0xC8A0 + 8 * r.val + o) v) r := by
  obtain ⟨hpage, hro, harb, hkeys⟩ := regionWord r (ho.imp_right (Or.imp_right And.left))
  obtain ⟨v, hv, hrow⟩ := pageRow_stored h hpage hro harb hkeys
  refine ⟨v, hv, hrow.trans (pageAction_locks _ r (ho.imp_right (Or.imp_right ?_)))⟩
  rintro ⟨h4, hbit⟩
  exact ⟨h4, hv ▸ hbit _⟩

theorem lockRegion_mem (s : State) (r : Fin 4) : (lockRegion s r).mem = s.mem := rfl

/-- What the lock of a region leaves: its own flag is set, the other regions and the banks stand as they were. -/
theorem lockRegion_pageStored (u : State) (p : Port) (a : Nat) (v : Word) (r : Fin 4) :
    (lockRegion (pageStored u p a v) r).disp.rlock[r] = true ∧
    (∀ r', r' ≠ r → (lockRegion (pageStored u p a v) r).disp.rlock[r'] = u.disp.rlock[r']) ∧
    (lockRegion (pageStored u p a v) r).bankA = u.bankA ∧ (lockRegion (pageStored u p a v) r).bankB = u.bankB := by
  have hlock : (lockRegion (pageStored u p a v) r).disp.rlock = u.disp.rlock.set r true := by
    rw [lockRegion, pageStored_disp]
  refine ⟨?_, fun r' hne => ?_, getBank_pageStored u p a v .bankA, getBank_pageStored u p a v .bankB⟩
  · simp [hlock]
  · have hval : r.val ≠ r'.val := fun he => hne (Fin.ext he.symm)
    simp [hlock, Vector.getElem_set_ne, hval]

/-! ### The statement -/

/-- Settles O35: an accepted row stores its word and asks its thread or locks its region; a refused one makes its record
alone, and one that finds the buffer in use takes a place in it. -/
theorem threadAndRegionPageRows : Obligations.ThreadAndRegionPageRows := by
  unfold Obligations.ThreadAndRegionPageRows
  refine ⟨?start, ?stop, ?define, ?relock, ?refused, ?behind⟩
  case start =>
    intro p b s u h hwf
    obtain ⟨t, hrow, hrest⟩ := pageRow_en (en := true) h (fun w => by simp [bit]) hwf
    exact ⟨t, congrArg Host.Outcome.next hrow, hrest⟩
  case stop =>
    intro p b s u h hwf
    obtain ⟨t, hrow, hrest⟩ := pageRow_en (en := false) h (fun w => by simp [bit]) hwf
    exact ⟨t, congrArg Host.Outcome.next hrow, hrest⟩
  case define =>
    intro p r second v s u h hwf
    have hword : (if second then 2 else 0) = 0 ∨ (if second then 2 else 0) = 2 := by cases second <;> simp
    obtain ⟨v', hv, hrow⟩ := pageRow_region h (hword.imp_right Or.inl)
    rw [show v' = v from hv] at hrow
    obtain ⟨hlock, hother, hA, hB⟩ := lockRegion_pageStored u p (0xC8A0 + 8 * r.val + (if second then 2 else 0)) v r
    obtain ⟨hbytes, hpg⟩ := stored_of_mem hwf
      (lockRegion_mem (pageStored u p (0xC8A0 + 8 * r.val + (if second then 2 else 0)) v) r)
    exact ⟨_, congrArg Host.Outcome.next hrow, hbytes, hlock, hpg, hother, hA, hB⟩
  case relock =>
    intro p r s u h
    obtain ⟨v, -, hrow⟩ := pageRow_region h (.inr (.inr ⟨rfl, fun w => by simp [bit]⟩))
    exact ⟨_, congrArg Host.Outcome.next hrow, lockRegion_pageStored u p _ v r⟩
  case refused =>
    intro p b e s c hread hcapt herr
    exact congrArg Host.Outcome.next (pageRow_refused (set := fun w => w ||| 1) hread hcapt herr)
  case behind =>
    intro b x rest s c hread hcapt hbuf hroom herr
    have hkeys : keysWord (BitVec.ofNat 20 (0xC880 + 0x10 * b.num)).toNat = false := by cases b <;> decide
    exact congrArg Host.Outcome.next 
      ((pageRow_behind (set := fun w => w ||| 1) hread hcapt hbuf herr).trans (pagePost_free hkeys hroom))

end Sys2Proof.Machine
end

section
/-! One instruction of an animation thread (R13, R224, R326 to R328, O36): the row that fetches it and has its burst
granted, the thread before its effect, and the control instructions. -/

namespace Sys2Proof.Machine

open Sys2Proof

/-! ### The thread of a bank -/

theorem thr_setThr (s : State) (b : Bank) (t : Thread) : (getBank (setThr s b t) b).thr = t := by
  rw [setThr, getBank_setBank]

theorem setThr_setThr (s : State) (b : Bank) (t u : Thread) : setThr (setThr s b t) b u = setThr s b u := by
  cases b <;> rfl

theorem setThr_mem (s : State) (b : Bank) (t : Thread) : (setThr s b t).mem = s.mem := setBank_mem _ _ _

theorem getBank_grantLow (s : State) (l n : Nat) (b : Bank) : getBank (grantLow s l n) b = getBank s b := by
  cases b <;> rfl

theorem getBank_eccRead (s : State) (w : Nat) (b : Bank) : getBank (eccRead s w) b = getBank s b := by
  rw [eccRead_frame]
  cases b <;> rfl

/-! ### Reads of the engine beside its thread (R219, R220) -/

theorem eccAt_setThr (s : State) (b : Bank) (t : Thread) (w : Nat) : eccAt (setThr s b t) w = eccAt s w :=
  eccAt_congr (congrArg Arb.ecc (setBank_arb _ _ _)) w

theorem eccBad_setThr (s : State) (b : Bank) (t : Thread) (w : Nat) : eccBad (setThr s b t) w = eccBad s w := by
  rw [eccBad, eccAt_setThr, eccBad]

theorem detectUe_setThr (s : State) (b : Bank) (t : Thread) (w : Nat) :
    detectUe (setThr s b t) w = setThr (detectUe s w) b t := by
  have harb : (setThr s b t).arb = s.arb := setBank_arb _ _ _
  unfold detectUe
  dsimp only
  rw [harb]
  split <;> cases b <;> rfl

theorem eccRead_setThr (s : State) (b : Bank) (t : Thread) (w : Nat) :
    eccRead (setThr s b t) w = setThr (eccRead s w) b t := by
  unfold eccRead
  rw [eccAt_setThr]
  split
  · rfl
  · cases b <;> rfl
  · exact detectUe_setThr s b t w

theorem foldl_eccRead_setThr (l : List Nat) (s : State) (b : Bank) (t : Thread) :
    l.foldl eccRead (setThr s b t) = setThr (l.foldl eccRead s) b t := by
  induction l generalizing s with
  | nil => rfl
  | cons w l ih => rw [List.foldl_cons, List.foldl_cons, eccRead_setThr, ih]

/-- The engine's reads do not depend on what its thread holds. -/
theorem animRead_setThr (s : State) (b : Bank) (t : Thread) (o n : Nat) :
    animRead (setThr s b t) o n = ((animRead s o n).1, setThr (animRead s o n).2 b t) := by
  have hbad : eccBad (setThr s b t) = eccBad s := funext (eccBad_setThr s b t)
  unfold animRead
  rw [hbad, foldl_eccRead_setThr]
  cases b <;> rfl

theorem foldl_eccRead_frame (l : List Nat) (s : State) : l.foldl eccRead s = { s with
    arb := (l.foldl eccRead s).arb, err := (l.foldl eccRead s).err, irqStat := (l.foldl eccRead s).irqStat } := by
  induction l generalizing s with
  | nil => rfl
  | cons w l ih => rw [List.foldl_cons, ih, eccRead_frame]

theorem animRead_frame (s : State) (o n : Nat) : (animRead s o n).2 = { s with
    arb := (animRead s o n).2.arb, err := (animRead s o n).2.err, irqStat := (animRead s o n).2.irqStat } := by
  simp only [animRead]
  rw [foldl_eccRead_frame]
  rfl

theorem animWord_congr {s t : State} (h : t.mem = s.mem) (o : Nat) : animWord t o = animWord s o := by
  rw [animWord, readWord, h]
  rfl

theorem animWord_read (s : State) (b : Bank) (t : Thread) (o n x : Nat) :
    animWord (setThr (animRead s o n).2 b t) x = animWord s x := by
  refine animWord_congr ((setThr_mem _ b t).trans ?_) x
  rw [animRead_frame]

theorem animRead1_mem (s : State) (b : Bank) : (animRead1 s b).mem = s.mem := mem_eccRead s _

theorem getBank_animRead1 (s : State) (b b' : Bank) : getBank (animRead1 s b) b' = getBank s b' := by
  rw [animRead1, getBank_grantLow, getBank_eccRead]

/-! ### The row of an instruction -/

/-- A grant leaves the errors that the ECC words hold. -/
theorem ecc_arbServe {s u : State} {own : Grant} (h : arbServe s own = some u) : u.arb.ecc = s.arb.ecc := by
  rw [arbKept_arbServe h]

/-- The thread is about to do what its instruction says: the fetch is done, and the instruction is counted. -/
def animFetched (r : State) (b : Bank) : State :=
  setThr (animRead1 r b) b { (getBank r b).thr with execd := (getBank r b).thr.execd + 1 }

/-- An instruction without an error in its fetch or a reserved bit set does what its opcode says. -/
theorem animOne_body {r : State} {b : Bank} {lo n : Nat} (body : State → BitVec 64 → State)
    (hgood : eccBad r (animAddr (getBank r b).thr.pc.toNat) = false) (hrsv : ifld (animFetch r b) lo n = 0) :
    animOne r b lo n body = body (animFetched r b) (animFetch r b) := by
  unfold animOne
  dsimp only
  rw [hgood, if_neg Bool.false_ne_true, if_neg (not_not_intro hrsv)]
  change body (setThr (animRead1 r b) b { (getBank (animRead1 r b) b).thr with
    execd := (getBank (animRead1 r b) b).thr.execd + 1 }) (animFetch r b) = _
  rw [getBank_animRead1, animFetched]

section
variable {s u r : State} {ups : List Upset} {b : Bank} {op lo n : Nat} (hr : upsets u ups = r)
  (h : animReady s u ups b op lo n)
include hr h

/-- The grant and the upsets leave the thread. -/
theorem getBank_ready : getBank r b = getBank s b := by
  obtain ⟨-, hserve, -⟩ := h
  rw [← hr, getBank_upsets, arbServe_frame hserve]
  cases b <;> rfl

/-- The arbiter's grant does not change what the upsets leave of the Cellar. -/
theorem animFetch_ready : animFetch (upsets s ups) b = animFetch r b := by
  have hbank := getBank_ready hr h
  obtain ⟨-, hserve, -⟩ := h
  have hmem := (upsets_congr (mem_arbServe hserve) (ecc_arbServe hserve) ups).1
  rw [hr] at hmem
  rw [animFetch, animFetch, hmem, hbank, getBank_upsets]

/-- Table LAY-2: the row of an opcode comes to what the opcode's instruction does. -/
theorem animRun_ready {body : State → BitVec 64 → State} (hinstr : animInstr r b op = animOne r b lo n body) :
    animRun s b ups op = body (animFetched r b) (animFetch r b) := by
  have hbank := getBank_ready hr h
  have hfetch := animFetch_ready hr h
  obtain ⟨hreq, hserve, hgood, hop, hrsv⟩ := h
  rw [hr] at hgood hop hrsv
  have hu : getBank u b = getBank r b := by rw [← hr, getBank_upsets]
  rw [hu] at hgood
  unfold animRun
  dsimp only
  rw [if_pos ⟨hreq, .inr (by rw [animOp, hfetch, hop])⟩, granted_of hserve, hr, hinstr, animOne_body body hgood hrsv]

/-- The same of the command that stands for the row, with the effect of the instruction given. -/
theorem exec_ready {i : Instr} {t : State} (body : State → BitVec 64 → State)
    (hrow : exec i s = .next (animRun s b ups op)) (hinstr : animInstr r b op = animOne r b lo n body)
    (heffect : body (animFetched r b) (animFetch r b) = t) : exec i s = .next t := by
  rw [hrow, animRun_ready hr h hinstr, heffect]

end

/-- A thread that asks for its burst runs. -/
theorem running_of_threadReq {s : State} {b : Bank} (h : threadReq s b = true) : (getBank s b).thr.stat = 1 := by
  unfold threadReq at h
  simp only [Bool.and_eq_true, decide_eq_true_eq] at h
  exact h.2.1

/-! ### What the control instructions do to their thread (Table LAY-2) -/

section
variable (r : State) (b : Bank)

theorem thr_animFetched : (getBank (animFetched r b) b).thr =
    { (getBank r b).thr with execd := (getBank r b).thr.execd + 1 } := thr_setThr _ b _

theorem animFetched_mem : (animFetched r b).mem = r.mem := (setThr_mem _ b _).trans (animRead1_mem r b)

theorem animFault_setThr (t : Thread) (code : Nat) : animFault (setThr r b t) b code =
    setThr r b { t with stat := 3, fcode := code, bars := Vector.replicate 4 none } := by
  rw [animFault, thr_setThr, setThr_setThr]

theorem animNext_setThr (t : Thread) : animNext (setThr r b t) b = setThr r b { t with pc := t.pc + 8 } := by
  rw [animNext, animGo, thr_setThr, setThr_setThr, nextPc]

theorem animTarget_setThr (t : Thread) {w : BitVec 64} (h : ifld w 0 17 % 8 = 0) :
    animTarget (setThr r b t) b w = setThr r b { t with pc := BitVec.ofNat 17 (ifld w 0 17) } := by
  rw [animTarget, if_neg (not_not_intro h), animGo, thr_setThr, setThr_setThr]

theorem doEnd_setThr (t : Thread) : doEnd (setThr r b t) b =
    setThr r b { t with pc := t.pc + 8, stat := 0, bars := Vector.replicate 4 none } := by
  simp only [doEnd, animNext_setThr, thr_setThr, setThr_setThr]

theorem doWait_setThr (t : Thread) {w : BitVec 64} (h : ifld w 0 12 ≠ 0) : doWait (setThr r b t) b w =
    setThr r b { t with pc := t.pc + 8, stat := 2, waitN := ifld w 0 12, sync := none } := by
  rw [doWait, if_neg h]
  simp only [animNext_setThr, thr_setThr, setThr_setThr]

theorem doSync_setThr (t : Thread) (w : BitVec 64) : doSync (setThr r b t) b w =
    setThr r b { t with pc := t.pc + 8, stat := 2, waitN := 0
                        sync := some (ifld w 59 2, decide (ifld w 58 1 = 1)) } := by
  simp only [doSync, animNext_setThr, thr_setThr, setThr_setThr]

/-- LOOP with N 0 goes to TARGET for ever (log 40). -/
theorem doLoop_endless (t : Thread) {w : BitVec 64} (hrsv : ifld w 17 15 = 0) (htarget : ifld w 0 17 % 8 = 0)
    (hn : ifld w 32 12 = 0) :
    doLoop (setThr r b t) b w = setThr r b { t with pc := BitVec.ofNat 17 (ifld w 0 17) } := by
  rw [doLoop]
  dsimp only
  rw [if_neg (not_not_intro hrsv), if_neg (not_not_intro htarget), if_pos hn, animTarget_setThr r b t htarget]

/-- The counter of a LOOP after it: loaded with N where it is 0, and counted down. -/
def loopCount (t : Thread) (w : BitVec 64) : Nat :=
  (if vget t.loops (ifld w 59 2) = 0 then ifld w 32 12 else vget t.loops (ifld w 59 2)) - 1

theorem doLoop_counts (t : Thread) {w : BitVec 64} (hrsv : ifld w 17 15 = 0) (htarget : ifld w 0 17 % 8 = 0)
    (hn : ifld w 32 12 ≠ 0) : doLoop (setThr r b t) b w = setThr r b { t with
      loops := vset t.loops (ifld w 59 2) (loopCount t w)
      pc := if loopCount t w = 0 then t.pc + 8 else BitVec.ofNat 17 (ifld w 0 17) } := by
  rw [doLoop]
  dsimp only
  rw [if_neg (not_not_intro hrsv), if_neg (not_not_intro htarget), if_neg hn, thr_setThr, setThr_setThr,
    animNext_setThr, animTarget_setThr r b _ htarget]
  change (if loopCount t w = 0 then _ else _) = _
  split <;> rfl

theorem ifld_lt (w : BitVec 64) (lo n : Nat) : ifld w lo n < 2 ^ n := Nat.mod_lt _ (Nat.two_pow_pos n)

/-- LOOP, in either form: the thread alone changes, and its counter and PC as Table LAY-2 has them. -/
theorem doLoop_setThr (t : Thread) {w : BitVec 64} (hrsv : ifld w 17 15 = 0) (htarget : ifld w 0 17 % 8 = 0) :
    ∃ x : Thread, doLoop (setThr r b t) b w = setThr r b x ∧ x.stat = t.stat ∧ x.execd = t.execd ∧
      (ifld w 32 12 = 0 → x.loops = t.loops ∧ x.pc = BitVec.ofNat 17 (ifld w 0 17)) ∧
      (ifld w 32 12 ≠ 0 → vget x.loops (ifld w 59 2) = loopCount t w ∧
        x.pc = if vget x.loops (ifld w 59 2) = 0 then t.pc + 8 else BitVec.ofNat 17 (ifld w 0 17)) := by
  by_cases hn : ifld w 32 12 = 0
  · exact ⟨_, doLoop_endless r b t hrsv htarget hn, rfl, rfl, fun _ => ⟨rfl, rfl⟩, fun h => absurd hn h⟩
  · refine ⟨_, doLoop_counts r b t hrsv htarget hn, rfl, rfl, fun h => absurd h hn, fun _ => ?_⟩
    have hcounter : vget (vset t.loops (ifld w 59 2) (loopCount t w)) (ifld w 59 2) = loopCount t w :=
      vget_vset_same t.loops (ifld_lt w 59 2) _
    exact ⟨hcounter, by rw [hcounter]⟩

/-! ### BAR (R329) -/

theorem doBar_odd (t : Thread) {w : BitVec 64} (h : ifld w 0 17 % 2 = 1) : doBar (setThr r b t) b w =
    setThr r b { t with stat := 3, fcode := 3, bars := Vector.replicate 4 none } := by
  rw [doBar]
  dsimp only
  rw [if_pos h, animFault_setThr]

theorem doBar_stop (t : Thread) {w : BitVec 64} (heven : ifld w 0 17 % 2 = 0) (hstop : ifld w 53 1 = 1) :
    doBar (setThr r b t) b w =
      setThr r b { t with pc := t.pc + 8, bars := vset t.bars (ifld w 59 2) none } := by
  rw [doBar]
  dsimp only
  rw [if_neg (by omega), if_pos hstop, thr_setThr, setThr_setThr, animNext_setThr]

section
variable {r} (t : Thread) {w : BitVec 64} (heven : ifld w 0 17 % 2 = 0) (hstart : ifld w 53 1 = 0)
include heven hstart

/-- A list that cannot be read faults with FCODE 4. -/
theorem doBar_unreadable (hread : (animRead r (ifld w 0 17) 2).1 = true) : doBar (setThr r b t) b w =
    setThr (animRead r (ifld w 0 17) 2).2 b { t with stat := 3, fcode := 4, bars := Vector.replicate 4 none } := by
  rw [doBar]
  dsimp only
  rw [if_neg (by omega), if_neg (by omega), animRead_setThr, if_pos hread, animFault_setThr]

/-- LO not below HI faults with FCODE 2. -/
theorem doBar_disordered (hread : (animRead r (ifld w 0 17) 2).1 = false)
    (h : barNum (ifld w 56 3) (animWord r (ifld w 0 17 + 2)) ≤ barNum (ifld w 56 3) (animWord r (ifld w 0 17))) :
    doBar (setThr r b t) b w =
    setThr (animRead r (ifld w 0 17) 2).2 b { t with stat := 3, fcode := 2, bars := Vector.replicate 4 none } := by
  rw [doBar]
  dsimp only
  rw [if_neg (by omega), if_neg (by omega), animRead_setThr]
  dsimp only
  rw [hread, if_neg Bool.false_ne_true, animWord_read, animWord_read, if_pos h, animFault_setThr]

/-- The bar that a BAR begins, nothing of it rendered yet (R329). -/
def barBegun (w : BitVec 64) : BarSt :=
  { src := ifld w 56 3, mode := ifld w 54 2, count := ifld w 47 6 + 1, list := ifld w 0 17, shown := [] }

theorem doBar_start (hread : (animRead r (ifld w 0 17) 2).1 = false)
    (h : barNum (ifld w 56 3) (animWord r (ifld w 0 17)) < barNum (ifld w 56 3) (animWord r (ifld w 0 17 + 2))) :
    doBar (setThr r b t) b w = setThr (animRead r (ifld w 0 17) 2).2 b { t with
      pc := t.pc + 8, bars := vset t.bars (ifld w 59 2) (some (barBegun w)) } := by
  rw [doBar]
  dsimp only
  rw [if_neg (by omega), if_neg (by omega), animRead_setThr]
  dsimp only
  rw [hread, if_neg Bool.false_ne_true, animWord_read, animWord_read, if_neg (by omega), thr_setThr, setThr_setThr,
    animNext_setThr, barBegun]

end

end

/-! ### The statement -/

/-- Settles O36: the row of each instruction comes to its effect on the fetched thread, which is a change of the thread
alone. -/
theorem threadControlLoopAndBar : Obligations.ThreadControlLoopAndBar := by
  unfold Obligations.ThreadControlLoopAndBar
  refine ⟨fun b ups s u r hr => ⟨?ends, ?waits, ?syncs, ?jumps, ?limit⟩, fun b ups s u r w hr hw =>
    ⟨?loops, ?stops, ?starts, ?unreadable, ?odd⟩⟩
  case ends =>
    intro h
    rw [← getBank_ready hr h]
    exact exec_ready hr h (fun s _ => doEnd s b) rfl rfl (doEnd_setThr _ b _)
  case waits =>
    intro h hn
    rw [← getBank_ready hr h]
    exact exec_ready hr h (fun s w => doWait s b w) rfl rfl (doWait_setThr _ b _ hn)
  case syncs =>
    intro h
    rw [← getBank_ready hr h]
    exact exec_ready hr h (fun s w => doSync s b w) rfl rfl (doSync_setThr _ b _ _)
  case jumps =>
    intro h htarget
    rw [← getBank_ready hr h]
    exact exec_ready hr h (fun s w => animTarget s b w) rfl rfl (animTarget_setThr _ b _ htarget)
  case limit => exact fun hstat hrun => congrArg Host.Outcome.next (if_pos ⟨hstat, hrun⟩)
  case loops =>
    intro h hrsv htarget
    rw [← getBank_ready hr h]
    subst hw
    obtain ⟨x, hloop, hstat, hexecd, hendless, hcounts⟩ := doLoop_setThr (animRead1 r b) b
      { (getBank r b).thr with execd := (getBank r b).thr.execd + 1 } hrsv htarget
    have hrun : (getBank r b).thr.stat = 1 := by
      rw [getBank_ready hr h]
      exact running_of_threadReq h.1
    refine ⟨_, exec_ready hr h (fun s w => doLoop s b w) rfl rfl hloop, ?_⟩
    rw [thr_setThr]
    exact ⟨rfl, hstat.trans hrun, hexecd, hendless, hcounts⟩
  case stops =>
    intro h hstop heven
    rw [← getBank_ready hr h]
    subst hw
    exact exec_ready hr h (fun s w => doBar s b w) rfl rfl (doBar_stop _ b _ heven hstop)
  case starts =>
    intro h hstart heven hread
    rw [← getBank_ready hr h]
    subst hw
    refine ⟨_, exec_ready hr h (fun s w => doBar s b w) rfl rfl rfl, fun hlt => ?_, fun hle => ?_⟩
    · refine doBar_start b _ heven hstart hread ?_
      rwa [animWord_congr (animRead1_mem r b), animWord_congr (animRead1_mem r b)]
    · refine doBar_disordered b _ heven hstart hread ?_
      rwa [animWord_congr (animRead1_mem r b), animWord_congr (animRead1_mem r b)]
  case unreadable =>
    intro h hstart heven hread
    rw [← getBank_ready hr h]
    subst hw
    exact exec_ready hr h (fun s w => doBar s b w) rfl rfl (doBar_unreadable b _ heven hstart hread)
  case odd =>
    intro h hodd
    rw [← getBank_ready hr h]
    subst hw
    exact exec_ready hr h (fun s w => doBar s b w) rfl rfl (doBar_odd _ b _ hodd)

end Sys2Proof.Machine
end

section
/-! FILL and COPY (Table LAY-2, R325, R328, O37): one line of the Animation Decanter written, the lines of an instruction,
and the two instructions in an SRAM without ECC errors. -/

namespace Sys2Proof.Machine

open Sys2Proof

/-! ### Lines and words of the Cellar (R305) -/

theorem readLine_congr {s t : State} {a : Nat}
    (h : ∀ x, a ≤ x → x < a + 16 → Cellar.get t.mem x = Cellar.get s.mem x) : readLine t a = readLine s a := by
  unfold readLine Cellar.getLine
  rw [Cellar.getNat_congr h]

theorem readLine_storeLine {s : State} (hwf : Cellar.wf s.mem = true) (a : Nat) (v : BitVec 128) :
    readLine (storeLine s a v) a = v := by
  have hread : Cellar.getNat (storeLine s a v).mem a 16 = v.toNat % 256 ^ 16 :=
    Cellar.getNat_eq fun x h1 h2 => by rw [storeLine, storeEcc_get hwf, if_pos ⟨h1, h2⟩]
  rw [readLine, Cellar.getLine, hread, show (256 : Nat) ^ 16 = 2 ^ 128 by norm_num, Nat.mod_eq_of_lt v.isLt,
    BitVec.ofNat_toNat, BitVec.setWidth_eq]

/-- A stored line leaves the other lines of its Decanter. -/
theorem readLine_storeLine_ne {s : State} (hwf : Cellar.wf s.mem = true) (b : Bank) (l : Nat) {c i : Nat} (h : i ≠ c)
    (v : BitVec 128) : readLine (storeLine s (decLine b l c) v) (decLine b l i) = readLine s (decLine b l i) := by
  refine readLine_congr fun x h1 h2 => ?_
  rw [storeLine, storeEcc_get hwf, if_neg]
  unfold decLine at h1 h2 ⊢
  omega

theorem readLine_setThr (s : State) (b : Bank) (t : Thread) (a : Nat) : readLine (setThr s b t) a = readLine s a := by
  rw [readLine, setThr_mem, readLine]

/-- Words written with fresh check bits leave no error where none was (R220). -/
theorem storeEcc_clean {s : State} (h : s.arb.ecc = []) (w n v : Nat) : (storeEcc s w n v).arb.ecc = [] := by
  induction n generalizing s w v with
  | zero => exact h
  | succ n ih => exact ih (s := { eccWritten s w with mem := Cellar.setNat s.mem w 8 v }) (eccWritten_clean h w) _ _

/-- Bytes that are kept all around a place give the words around it. -/
theorem getWord_of_onlyBytes {s t : State} {a n x : Nat} (h : onlyBytes s t a n) (hx : x + 2 ≤ a ∨ a + n ≤ x) :
    Cellar.getWord t.mem x = Cellar.getWord s.mem x := by
  rw [Cellar.getWord, h x (by omega), h (x + 1) (by omega), Cellar.getWord]

/-- Table CEL-1: the Decanters lie below the Parameter cask and the Animation cask. -/
theorem decanter_below (b : Bank) : bufAddr b 2 0 + 0x100 ≤ 0x2000 := by cases b <;> decide

/-- R325: which pixels are locked is written in the Parameter cask and the regions' flags. -/
theorem lockedPixels_congr {s t : State} (hlock : t.disp.rlock = s.disp.rlock)
    (hpage : ∀ a, 0xC000 ≤ a → pg t a = pg s a) (b : Bank) (l c : Nat) : lockedPixels t b l c = lockedPixels s b l c := by
  have hregion (r : Fin 4) : regionPixels t r b l c = regionPixels s r b l c := by
    have hdescr : pg t (0xC8A0 + 8 * r.val) = pg s (0xC8A0 + 8 * r.val) := hpage _ (by omega)
    have hcolumns : pg t (0xC8A0 + 8 * r.val + 2) = pg s (0xC8A0 + 8 * r.val + 2) := hpage _ (by omega)
    exact if_congr (by simp only [regionOn, pgb, pgf, hlock, hdescr, hcolumns]) (by simp only [pgf, hcolumns]) rfl
  simp only [lockedPixels, hregion]

/-- A COPY's line comes from the words of the Animation cask. -/
theorem copyLine_congr {s t : State} (h : ∀ a, 0x10000 ≤ a → Cellar.getWord t.mem a = Cellar.getWord s.mem a)
    (src w0 n k : Nat) : copyLine t src w0 n k = copyLine s src w0 n k := by
  have hword (o : Nat) : animWord t o = animWord s o := h _ (Nat.le_add_right _ _)
  simp only [copyLine, hword]

/-! ### Work on the Animation Decanter (R325) -/

/-- The state t is s after lines of the bank's Animation Decanter were read and written: the lines to be carried and the
arbiter have moved, and no byte beside the Decanter; no word holds an error. -/
structure DecanterWorked (s : State) (b : Bank) (t : State) : Prop where
  rest : t = { setThr s b { (getBank s b).thr with changed := (getBank t b).thr.changed } with
    arb := t.arb, mem := t.mem }
  wf : Cellar.wf t.mem = true
  clean : t.arb.ecc = []
  other : onlyBytes s t (bufAddr b 2 0) 0x100

namespace DecanterWorked

variable {s t u : State} {b : Bank}

theorem refl (b : Bank) (hwf : Cellar.wf s.mem = true) (hclean : s.arb.ecc = []) : DecanterWorked s b s :=
  ⟨by cases b <;> rfl, hwf, hclean, fun _ _ => rfl⟩

theorem trans (h : DecanterWorked s b t) (k : DecanterWorked t b u) : DecanterWorked s b u := by
  refine ⟨?_, k.wf, k.clean, fun x hx => (k.other x hx).trans (h.other x hx)⟩
  have hk := k.rest
  rw [h.rest] at hk
  rw [hk]
  cases b <;> rfl

theorem thr (h : DecanterWorked s b t) :
    (getBank t b).thr = { (getBank s b).thr with changed := (getBank t b).thr.changed } := by
  rw [h.rest]
  cases b <;> rfl

theorem disp (h : DecanterWorked s b t) : t.disp = s.disp := by
  rw [h.rest]
  cases b <;> rfl

/-- The words above the Decanters are kept. -/
theorem words (h : DecanterWorked s b t) {a : Nat} (ha : 0x2000 ≤ a) :
    Cellar.getWord t.mem a = Cellar.getWord s.mem a :=
  getWord_of_onlyBytes h.other (.inr ((decanter_below b).trans ha))

theorem locked (h : DecanterWorked s b t) (c : Nat) : lockedPixels t b 2 c = lockedPixels s b 2 c :=
  lockedPixels_congr (congrArg Display.rlock h.disp) (fun a ha => h.words (by omega)) b 2 c

end DecanterWorked

section
variable {s : State} {b : Bank} (hwf : Cellar.wf s.mem = true) (hclean : s.arb.ecc = [])
include hwf hclean

/-- A line of the Decanter stored, to be carried at the next boundary. -/
theorem storeLine_worked {c : Nat} (hc : c < 16) (v : BitVec 128) (x : BitVec 16) :
    DecanterWorked s b (setThr (storeLine s (decLine b 2 c) v) b { (getBank s b).thr with changed := x }) := by
  refine ⟨?_, ?_, ?_, fun y hy => ?_⟩
  · rw [storeLine, storeEcc_frame]
    cases b <;> rfl
  · rw [setThr_mem]
    exact storeEcc_wf hwf _ _ _
  · exact (congrArg Arb.ecc (setBank_arb _ _ _)).trans (storeEcc_clean hclean _ _ _)
  · rw [setThr_mem, storeLine, storeEcc_get hwf, if_neg]
    unfold decLine
    omega

theorem grantLow_worked (l n : Nat) : DecanterWorked s b (grantLow s l n) :=
  ⟨by cases b <;> rfl, hwf, hclean, fun _ _ => rfl⟩

/-- A line written: its pixels are those of the value where the mask names them and no region locks them, and the other
lines are kept. -/
theorem animPut_worked {c : Nat} (hc : c < 16) (anew : Bool) (m v : BitVec 128) :
    DecanterWorked s b (animPut s b c anew m v) ∧ ∀ i, i < 16 → readLine (animPut s b c anew m v) (decLine b 2 i) =
      if i = c then mixLine (readLine s (decLine b 2 c)) v m (lockedPixels s b 2 c) else readLine s (decLine b 2 i) := by
  have hgrant := grantLow_worked (b := b) hwf hclean 5 1
  have hlines (a : Nat) : readLine (grantLow s 5 1) a = readLine s a := rfl
  unfold animPut
  dsimp only
  rw [eccReadN_clean hclean, ← mixLine]
  generalize mixLine (readLine s (decLine b 2 c)) v m (lockedPixels s b 2 c) = new
  generalize grantLow s 5 1 = g at hgrant hlines
  split
  · next hsame =>
    refine ⟨hgrant, fun i _ => ?_⟩
    rw [hlines]
    split
    · next hi => rw [hi, hsame.1]
    · rfl
  · have hthr : (getBank (storeLine g (decLine b 2 c) new) b).thr = (getBank g b).thr := by
      rw [storeLine, storeEcc_frame]
      cases b <;> rfl
    rw [hthr]
    refine ⟨hgrant.trans (storeLine_worked hgrant.wf hgrant.clean hc new _), fun i _ => ?_⟩
    rw [readLine_setThr]
    split
    · next hi => rw [hi, readLine_storeLine hgrant.wf]
    · next hi => rw [readLine_storeLine_ne hgrant.wf b 2 hi, hlines]

/-- The lines of an instruction, written one after the other from values that the writes do not touch. -/
theorem animPuts_worked {first n : Nat} {val : State → Nat → BitVec 128}
    (hval : ∀ t k, DecanterWorked s b t → val t k = val s k) (hn : first + n ≤ 16) (m : BitVec 128) {t : State}
    (ht : (List.range n).foldl (fun t k => animPut t b (first + k) false m (val t k)) s = t) :
    DecanterWorked s b t ∧ ∀ c, c < 16 → readLine t (decLine b 2 c) =
      if first ≤ c ∧ c < first + n then
        mixLine (readLine s (decLine b 2 c)) (val s (c - first)) m (lockedPixels s b 2 c)
      else readLine s (decLine b 2 c) := by
  subst ht
  refine foldl_range_rule (P := fun i t => DecanterWorked s b t ∧ ∀ c, c < 16 → readLine t (decLine b 2 c) =
      if first ≤ c ∧ c < first + i then
        mixLine (readLine s (decLine b 2 c)) (val s (c - first)) m (lockedPixels s b 2 c)
      else readLine s (decLine b 2 c))
    ⟨DecanterWorked.refl b hwf hclean, fun c _ => (if_neg (by omega)).symm⟩ fun i t hi ⟨hwork, hlines⟩ => ?_
  obtain ⟨hput, hline⟩ := animPut_worked (b := b) hwork.wf hwork.clean (show first + i < 16 by omega) false m (val t i)
  refine ⟨hwork.trans hput, fun c hc => ?_⟩
  rw [hline c hc, hlines c hc]
  by_cases hcur : c = first + i
  · subst hcur
    rw [if_pos rfl, if_pos (by omega), hlines _ hc, if_neg (by omega), hval t i hwork, hwork.locked,
      Nat.add_sub_cancel_left]
  · rw [if_neg hcur]
    exact if_congr (by omega) rfl rfl

end

/-! ### The two instructions -/

theorem animRead_clean {s : State} (h : s.arb.ecc = []) (o n : Nat) :
    ∃ k, animRead s o n = (false, grantLow s 5 k) := by
  refine ⟨((animWords o n).length + 7) / 8, ?_⟩
  have hreads : (animWords o n).foldl eccRead s = s := List.foldl_fixed' (fun w => eccRead_clean h w) _
  have hgood : (animWords o n).any (eccBad s) = false := by simp [eccBad_clean h]
  rw [animRead, hreads, hgood]

/-- What a drawing instruction leaves that has put m, from values by line, into the lines l0 to l1 of the Decanter. -/
def Drawn (s : State) (b : Bank) (l0 l1 : Nat) (val : Nat → BitVec 128) (m : BitVec 128) (t : State) : Prop :=
  (getBank t b).thr.pc = (getBank s b).thr.pc + 8 ∧ (getBank t b).thr.stat = (getBank s b).thr.stat ∧
    onlyBytes s t (bufAddr b 2 0) 0x100 ∧ ∀ c, c < 16 → readLine t (decLine b 2 c) =
      if l0 ≤ c ∧ c ≤ l1 then mixLine (readLine s (decLine b 2 c)) (val (c - l0)) m (lockedPixels s b 2 c)
      else readLine s (decLine b 2 c)

section
variable {s v : State} {b : Bank} {w : BitVec 64}

/-- The lines of an instruction and the step to the next one: v is s after the fetch and the reads of a source. -/
theorem drawn_lines {l0 l1 : Nat} {val : State → Nat → BitVec 128}
    (hval : ∀ t k, DecanterWorked v b t → val t k = val v k) (hle : l0 ≤ l1) (hlast : l1 < 16) (m : BitVec 128)
    (hclean : v.arb.ecc = []) (hwf : Cellar.wf v.mem = true) :
    Drawn v b l0 l1 (val v) m
      (animNext ((List.range (l1 + 1 - l0)).foldl (fun t k => animPut t b (l0 + k) false m (val t k)) v) b) := by
  obtain ⟨hwork, hlines⟩ := animPuts_worked hwf hclean hval (show l0 + (l1 + 1 - l0) ≤ 16 by omega) m rfl
  generalize (List.range (l1 + 1 - l0)).foldl (fun t k => animPut t b (l0 + k) false m (val t k)) v = t at hwork hlines
  have hmem : (animNext t b).mem = t.mem := setThr_mem _ _ _
  refine ⟨?_, ?_, fun x hx => ?_, fun c hc => ?_⟩
  · rw [animNext, animGo, thr_setThr, nextPc, hwork.thr]
  · rw [animNext, animGo, thr_setThr, hwork.thr]
  · rw [hmem, hwork.other x hx]
  · rw [readLine, hmem]
    exact (hlines c hc).trans (if_congr (by omega) rfl rfl)

/-- What is drawn in a state is drawn in one of the same Cellar, thread and locks. -/
theorem Drawn.congr {l0 l1 : Nat} {val : Nat → BitVec 128} {m : BitVec 128} {t : State} (h : Drawn v b l0 l1 val m t)
    (hmem : v.mem = s.mem) (hdisp : v.disp = s.disp) (hpc : (getBank v b).thr.pc = (getBank s b).thr.pc)
    (hstat : (getBank v b).thr.stat = (getBank s b).thr.stat) : Drawn s b l0 l1 val m t := by
  obtain ⟨htpc, htstat, hbytes, hlines⟩ := h
  refine ⟨htpc.trans (by rw [hpc]), htstat.trans hstat, fun x hx => (hbytes x hx).trans (by rw [hmem]), fun c hc => ?_⟩
  have hlocked : lockedPixels v b 2 c = lockedPixels s b 2 c :=
    lockedPixels_congr (by rw [hdisp]) (fun a _ => by rw [pg, hmem, pg]) b 2 c
  have hline : readLine v (decLine b 2 c) = readLine s (decLine b 2 c) := by rw [readLine, hmem, readLine]
  rw [hlines c hc, hlocked, hline]

theorem doFill_drawn (hl : ifld w 57 4 ≤ ifld w 53 4) (hx : ifld w 46 7 ≤ ifld w 39 7) (hclean : v.arb.ecc = [])
    (hwf : Cellar.wf v.mem = true) : Drawn v b (ifld w 57 4) (ifld w 53 4)
      (fun _ => if ifld w 38 1 = 1 then segRange (ifld w 46 7) (ifld w 39 7) else 0)
      (segRange (ifld w 46 7) (ifld w 39 7)) (doFill v b w) := by
  rw [doFill]
  dsimp only
  rw [if_neg (show ¬(ifld w 53 4 < ifld w 57 4 ∨ ifld w 39 7 < ifld w 46 7) by omega)]
  exact drawn_lines (val := fun _ _ => if ifld w 38 1 = 1 then segRange (ifld w 46 7) (ifld w 39 7) else 0)
    (fun _ _ _ => rfl) hl (ifld_lt w 53 4) _ hclean hwf

/-- R328: a FILL whose lines are upside down draws nothing. -/
theorem doFill_upsideDown (h : ifld w 53 4 < ifld w 57 4) : doFill v b w = animFault v b 2 := if_pos (.inl h)

theorem doCopy_drawn (hl : ifld w 57 4 ≤ ifld w 53 4) (hx : ifld w 50 3 ≤ ifld w 47 3) (heven : ifld w 0 17 % 2 = 0)
    (hclean : v.arb.ecc = []) (hwf : Cellar.wf v.mem = true) : Drawn v b (ifld w 57 4) (ifld w 53 4)
      (copyLine v (ifld w 0 17) (ifld w 50 3) (ifld w 47 3 + 1 - ifld w 50 3))
      (segRange (16 * ifld w 50 3) (16 * ifld w 47 3 + 15)) (doCopy v b w) := by
  obtain ⟨k, hread⟩ := animRead_clean hclean (ifld w 0 17)
    ((ifld w 53 4 + 1 - ifld w 57 4) * (ifld w 47 3 + 1 - ifld w 50 3))
  rw [doCopy]
  dsimp only
  rw [if_neg (by omega), if_neg (by omega), hread]
  dsimp only
  rw [if_neg Bool.false_ne_true]
  have hbank : getBank (grantLow v 5 k) b = getBank v b := getBank_grantLow v 5 k b
  exact (drawn_lines (v := grantLow v 5 k)
    (val := fun t j => copyLine t (ifld w 0 17) (ifld w 50 3) (ifld w 47 3 + 1 - ifld w 50 3) j)
    (fun t j hwork => copyLine_congr (fun a ha => hwork.words (by omega)) _ _ _ j) hl (ifld_lt w 53 4) _ hclean hwf).congr
    rfl rfl (by rw [hbank]) (by rw [hbank])

end

/-! ### The fetch in an SRAM without errors -/

section
variable {s u : State} {b : Bank} {op lo n : Nat} (hserve : arbServe s (.low 5) = some u) (hclean : s.arb.ecc = [])
include hserve

theorem animFetched_arbServe : (animFetched u b).mem = s.mem ∧ (animFetched u b).disp = s.disp ∧
    (getBank (animFetched u b) b).thr.pc = (getBank s b).thr.pc ∧
    (getBank (animFetched u b) b).thr.stat = (getBank s b).thr.stat := by
  have hu := arbServe_frame hserve
  have hbank : getBank u b = getBank s b := by
    rw [hu]
    cases b <;> rfl
  refine ⟨(animFetched_mem u b).trans (mem_arbServe hserve), ?_, ?_, ?_⟩
  · have hread : (animRead1 u b).disp = u.disp := by
      rw [animRead1, eccRead_frame]
      rfl
    exact (setBank_disp _ _ _).trans (hread.trans (by rw [hu]))
  · rw [thr_animFetched, hbank]
  · rw [thr_animFetched, hbank]

include hclean

theorem animFetched_clean : (animFetched u b).arb.ecc = [] := by
  have hecc : u.arb.ecc = [] := by rw [ecc_arbServe hserve, hclean]
  have hread : (animRead1 u b).arb.ecc = [] := by
    rw [animRead1, eccRead_clean hecc]
    exact hecc
  exact (congrArg Arb.ecc (setBank_arb _ _ _)).trans hread

end

/-- What is drawn behind the fetch is drawn in the state that the row meets, whose thread runs on. -/
theorem drawn_ready {s u t : State} {b : Bank} {op lo n l0 l1 : Nat} {val : Nat → BitVec 128} {m : BitVec 128}
    (h : animReady s u [] b op lo n) (hdrawn : Drawn (animFetched u b) b l0 l1 val m t) :
    Drawn s b l0 l1 val m t ∧ (getBank t b).thr.stat = 1 := by
  obtain ⟨hreq, hserve, -⟩ := h
  obtain ⟨hmem, hdisp, hpc, hstat⟩ := animFetched_arbServe (b := b) hserve
  have hrow := hdrawn.congr hmem hdisp hpc hstat
  exact ⟨hrow, hrow.2.1.trans (running_of_threadReq hreq)⟩

/-! ### The statement -/

/-- Settles O37: line by line a FILL and a COPY mix their value into the Decanter, and the words they copy lie elsewhere. -/
theorem drawingInstructionsWriteTheAnimationDecanter : Obligations.DrawingInstructionsWriteTheAnimationDecanter := by
  unfold Obligations.DrawingInstructionsWriteTheAnimationDecanter
  intro b s u w hw hclean hwf
  have hfetch {op lo n : Nat} (h : animReady s u [] b op lo n) : animFetch u b = w :=
    (animFetch_ready rfl h).symm.trans hw.symm
  have hwfu {op lo n : Nat} (h : animReady s u [] b op lo n) : Cellar.wf (animFetched u b).mem = true := by
    rw [(animFetched_arbServe h.2.1).1, hwf]
  refine ⟨fun h hl hx => ?fill, fun h hl hx heven => ?copy, fun h hl => ?fault⟩
  case fill =>
    obtain rfl := hfetch h
    obtain ⟨⟨hpc, -, hbytes, hlines⟩, hstat⟩ :=
      drawn_ready h (doFill_drawn hl hx (animFetched_clean h.2.1 hclean) (hwfu h))
    exact ⟨_, exec_ready rfl h (fun s w => doFill s b w) rfl rfl rfl, hpc, hstat, hbytes, hlines⟩
  case copy =>
    obtain rfl := hfetch h
    obtain ⟨⟨hpc, -, hbytes, hlines⟩, hstat⟩ :=
      drawn_ready h (doCopy_drawn hl hx heven (animFetched_clean h.2.1 hclean) (hwfu h))
    refine ⟨_, exec_ready rfl h (fun s w => doCopy s b w) rfl rfl rfl, hpc, hstat, hbytes, fun c hc => ?_⟩
    rw [← copyLine_congr (t := animFetched u b) fun a _ => by rw [(animFetched_arbServe h.2.1).1]]
    exact hlines c hc
  case fault =>
    obtain rfl := hfetch h
    obtain ⟨hmem, -, hpc, -⟩ := animFetched_arbServe (b := b) h.2.1
    refine ⟨_, exec_ready rfl h (fun s w => doFill s b w) rfl rfl (doFill_upsideDown hl), ?_⟩
    rw [animFault, thr_setThr, setThr_mem]
    exact ⟨rfl, rfl, hpc, hmem⟩

end Sys2Proof.Machine
end

section
/-! O40: an event at the key FIFO, which holds a marker, has room or is full, and the marker's removal (R349, R350). -/

namespace Sys2Proof.Machine

open Sys2Proof

/-! ### Events and the FIFO (R349, R350) -/

/-- The Trellis behind an event's number and its log entry, before the FIFO (R349, R351). -/
def keyNumbered (s : State) (e : Word) : Keys :=
  { s.keys with
    seqNext := s.keys.seqNext + 1
    logQ := if logEnabled s then s.keys.logQ ++ [keyLogEntry s e] else s.keys.logQ }

theorem keyPush_marked {s : State} (e : Word) (hmark : hasMarker s.keys.fifo = true) :
    keyPush s e = { s with keys := keyNumbered s e } := if_pos hmark

theorem keyPush_room {s : State} (e : Word) (hmark : hasMarker s.keys.fifo = false) (hroom : s.keys.fifo.length < 15) :
    keyPush s e = { s with
      keys := { keyNumbered s e with fifo := s.keys.fifo ++ [e] }
      irqStat := s.irqStat ||| 0x10 } :=
  (if_neg (by simp [hmark])).trans (if_pos hroom)

theorem keyPush_full {s : State} (e : Word) (hmark : hasMarker s.keys.fifo = false) (hfull : 15 ≤ s.keys.fifo.length) :
    keyPush s e = { s with
      keys := { keyNumbered s e with
        fifo := s.keys.fifo ++ [keyEvent tMARKER 0 0 s.keys.scanCnt]
        ovfSeq := s.keys.seqNext, ovf := true, ovfCnt := sat1 s.keys.ovfCnt }
      irqStat := s.irqStat ||| 0x30 } := by
  have hirq : s.irqStat ||| 0x30 = s.irqStat ||| 0x20 ||| 0x10 := (BitVec.or_assoc _ 0x20 0x10).symm
  rw [hirq]
  exact (if_neg (by simp [hmark])).trans (if_neg (by omega))

/-! ### The statement -/

/-- Settles O40, by the marker and the room in the FIFO; the marker's removal is the read of the oldest event. -/
theorem keyEventsEnterTheFifo : Obligations.KeyEventsEnterTheFifo := by
  unfold Obligations.KeyEventsEnterTheFifo
  refine ⟨fun e s => ⟨_, rfl, ?_⟩, fun p e rest s hread hfifo htype hmark hroom => ?_⟩
  · cases hmark : hasMarker s.keys.fifo with
    | true =>
      rw [keyPush_marked e hmark]
      exact ⟨rfl, rfl, nofun, nofun, fun _ => ⟨rfl, rfl⟩⟩
    | false =>
      by_cases hroom : s.keys.fifo.length < 15
      · rw [keyPush_room e hmark hroom]
        exact ⟨rfl, rfl, fun _ _ => ⟨rfl, rfl, rfl⟩, fun _ hfull => absurd hroom (by omega), nofun⟩
      · rw [keyPush_full e hmark (by omega)]
        exact ⟨rfl, rfl, fun _ h => absurd h hroom,
          fun _ _ => ⟨⟨_, rfl, keyType_marker _⟩, rfl, rfl, rfl, rfl⟩, nofun⟩
  · obtain ⟨-, holdest, -⟩ := keyScanControlAndKeyEventsLeave
    obtain ⟨t, hexec, -, -, hrest, hend⟩ := holdest p e rest s hread hfifo
    rw [if_pos htype] at hend
    refine ⟨t, hexec, hrest, hend, fun x => ?_⟩
    rw [keyPush_room x (by rwa [hrest]) (by rwa [hrest]), hrest]

end Sys2Proof.Machine
end

section
/-! O39 fails for a setting with a ninth return. The model's KINS is a natural number, and the statement quantifies over
all of them; KCTL's field of 3 bits (R185) gives no more than eight returns. Key 8 × l + 8, which the slot of line l then
samples, is the first key of line l + 1, and the statement says that no key of another line changes. -/

namespace Sys2Proof.Machine

open Sys2Proof

/-- The first line of the boot scan with nine returns set; the first key of the next line is closed, and two samples have
shown it open. -/
def nineReturns : State :=
  onKeys (fun k => { k with cur := { k.cur with kins := 8 }, kmap := keyBit 8, counts := vset k.counts 8 2 }) wRun

set_option maxRecDepth 20000 in
/-- The third sample of an open key ends its debounce in the slot of the line before its own. -/
theorem kmap_keySlotRun_nineReturns : (keySlotRun nineReturns 0 none).keys.kmap.getLsbD 8 = false := by decide

/-- Refutes O39: with nine returns the slot of line 0 opens key 8, which is on line 1. -/
theorem not_keySlotsDebounceTheirLine : ¬ Obligations.KeySlotsDebounceTheirLine := by
  unfold Obligations.KeySlotsDebounceTheirLine
  rintro ⟨-, hslots⟩
  obtain ⟨⟨t, hexec, -, -, -, -, hothers, -⟩, -⟩ := hslots 0 nineReturns _ (by decide) rfl (by decide)
  have hkey := hothers 8 (by decide) (by decide)
  have hclosed : (keyStays nineReturns (slotBegun nineReturns).keys 8 &&
    (slotBegun nineReturns).keys.kmap.getLsbD 8) = true := by decide
  obtain rfl : keySlotRun nineReturns 0 none = t := Host.Outcome.next.inj hexec
  rw [kmap_keySlotRun_nineReturns, hclosed] at hkey
  exact Bool.false_ne_true hkey

end Sys2Proof.Machine
end

section
/-! What no command but its own rows changes (R490, R499, R500): the OTP slots with the replay counter, the waiting
commands, and whether the Cellar's list is canonical, as one value, and the operations that keep it. -/

namespace Sys2Proof.Machine

open Sys2Proof

/-! ### The value -/

/-- The OTP and the counter cells, the waiting commands, and whether the Cellar's list is canonical. -/
structure Still where
  nv : Nv
  pending : List Instr
  canon : Bool

/-- What stands still of a machine. -/
def still (s : State) : Still := ⟨s.nv, s.pending, Cellar.wf s.mem⟩

/-- A state has the non-volatile cells and the waiting commands of `q`, and a canonical Cellar where `q` has one. -/
def Kept (q x : Still) : Prop := x.nv = q.nv ∧ x.pending = q.pending ∧ (q.canon = true → x.canon = true)

theorem Kept.refl (q : Still) : Kept q q := ⟨rfl, rfl, id⟩

@[simp] theorem Kept_ite (q : Still) (c : Prop) [Decidable c] (x y : Still) :
    Kept q (if c then x else y) ↔ if c then Kept q x else Kept q y := by split <;> rfl

/-! `still_mk` reads the value off a state written out, and `still_fold` reads it back as that of the state from which
its parts come. -/

@[simp] theorem still_mk (now freeCtr : Nat) (pw : Power) (clk : Clock) (irqStat : Word) (err : ErrRec)
    (portP portS : PortSt) (spi : SpiResp) (roles : Roles) (scratch : Word) (bankA bankB : BankSt) (disp : Display)
    (keys : Keys) (lamps : Lamps) (batA : BatA) (batB : BatB) (estA estB : Est) (pack : Pack) (auth : Auth) (nv : Nv)
    (aon : Aon) (bak : Backup) (arb : Arb) (tap : Tap) (mem : List Host.Cell) (pending : List Instr) :
    still ⟨now, freeCtr, pw, clk, irqStat, err, portP, portS, spi, roles, scratch, bankA, bankB, disp, keys, lamps,
      batA, batB, estA, estB, pack, auth, nv, aon, bak, arb, tap, mem, pending⟩ =
      ⟨nv, pending, Cellar.wf mem⟩ := (rfl)

@[simp] theorem still_fold (s : State) : Still.mk s.nv s.pending (Cellar.wf s.mem) = still s := (rfl)

@[simp] theorem still_ite (c : Prop) [Decidable c] (s t : State) :
    still (if c then s else t) = if c then still s else still t := apply_ite still c s t

@[simp] theorem still_foldl {α : Type} {f : State → α → State} (hf : ∀ s a, still (f s a) = still s) (l : List α)
    (s : State) : still (l.foldl f s) = still s := by
  induction l generalizing s with
  | nil => rfl
  | cons a l ih => exact (ih _).trans (hf s a)

@[simp] theorem still_setPort (s : State) (p : Port) (x : PortSt) : still (setPort s p x) = still s := by
  cases p <;> rfl

@[simp] theorem still_setBank (s : State) (b : Bank) (x : BankSt) : still (setBank s b x) = still s := by
  cases b <;> rfl

/-! ### Flags and records -/

@[simp] theorem still_setIrq (s : State) (i : Nat) : still (setIrq s i) = still s := by simp [setIrq]

@[simp] theorem still_setIrqIf (c : Bool) (s : State) (i : Nat) : still (setIrqIf c s i) = still s := by
  simp [setIrqIf]

@[simp] theorem still_clearIrq (s : State) (v : Word) : still (clearIrq s v) = still s := by simp [clearIrq]

@[simp] theorem still_record (s : State) (code : Byte) (src : Option Port) (ahi : BitVec 4) (cell : Bool)
    (info : Word) :
    still (record s code src ahi cell info) = still s := by simp [record]

@[simp] theorem still_recordInfo (s : State) (code : Byte) (src : Option Port) (info : Nat) :
    still (recordInfo s code src info) = still s := by simp [recordInfo]

@[simp] theorem still_recordCell (s : State) (code : Byte) (src : Option Port) (a : Nat) :
    still (recordCell s code src a) = still s := by simp [recordCell]

/-! ### Ports and the gate -/

@[simp] theorem still_setDrv (s : State) (b : Bank) (d : Drive) : still (setDrv s b d) = still s := by
  simp [setDrv]

@[simp] theorem still_setLed (s : State) (b : Bank) (l : Ledger) : still (setLed s b l) = still s := by
  simp [setLed]

@[simp] theorem still_setTrim (s : State) (b : Bank) (t : Trim) : still (setTrim s b t) = still s := by
  simp [setTrim]

@[simp] theorem still_setThr (s : State) (b : Bank) (t : Thread) : still (setThr s b t) = still s := by
  simp [setThr]

@[simp] theorem still_setCrack (s : State) (b : Bank) (c : Crack) : still (setCrack s b c) = still s := by
  simp [setCrack]

@[simp] theorem still_refuse (s : State) (p : Port) (code : Byte) (off : Nat) :
    still (refuse s p code off) = still s := by simp [refuse]

@[simp] theorem still_refuseCell (s : State) (p : Port) (code : Byte) (a : Nat) :
    still (refuseCell s p code a) = still s := by simp [refuseCell]

@[simp] theorem still_startWake (s : State) : still (startWake s) = still s := by simp [startWake]

@[simp] theorem still_gen1Ale (s : State) (p : Port) (ad : Byte) : still (gen1Ale s p ad) = still s := by
  simp [gen1Ale]

@[simp] theorem still_gen1Spent (s : State) (p : Port) (a : Fin 64) : still (gen1Spent s p a) = still s := by
  simp [gen1Spent]

@[simp] theorem still_bootFace (s : State) (p : Port) (a : Fin 64) (v : Word) :
    still (bootFace s p a v) = still s := by simp [bootFace]

@[simp] theorem still_gen1Empty (s : State) (p : Port) (a : Fin 64) : still (gen1Empty s p a) = still s := by
  simp [gen1Empty]

/-- A register write keeps of the value what its register's rule keeps of it. -/
theorem gate_keepsStill {P : Still → Prop} {s : State} {body : State → Word → State} (p : Port) (a : Fin 64) (v : Word)
    (hs : P (still s)) (hbody : ∀ t w, P (still t) → P (still (body t w))) : P (still (gate s p a v body)) := by
  unfold gate
  split_ifs
  · exact hs
  · rwa [still_bootFace]
  · rwa [still_gen1Spent]
  · split
    · rwa [still_refuse, still_gen1Ale]
    · dsimp only
      split_ifs
      · rwa [still_refuse, still_gen1Empty]
      · exact hbody _ _ (by rwa [still_gen1Empty])

@[simp] theorem still_gate {body : State → Word → State} (hbody : ∀ t w, still (body t w) = still t) (s : State)
    (p : Port) (a : Fin 64) (v : Word) : still (gate s p a v body) = still s :=
  gate_keepsStill (P := (· = still s)) p a v rfl fun t w ht => (hbody t w).trans ht

@[simp] theorem still_readDone (s : State) (p : Port) (a : Fin 64) (v : Word) :
    still (readDone s p a v) = still s := by simp [readDone]

@[simp] theorem still_faceTakesHeld (s : State) : still (faceTakesHeld s) = still s := by
  unfold faceTakesHeld
  dsimp only
  split <;> simp

/-- A register read keeps of the value what its register's rule keeps of it. -/
theorem readGate_keepsStill {P : Still → Prop} {s : State} {body : State → Word × State} (p : Port) (a : Fin 64)
    (hs : P (still s)) (hbody : P (still (body s).2)) : P (still (readGate s p a body)) := by
  unfold readGate
  split_ifs
  · exact hs
  · rwa [still_readDone]
  · rwa [still_readDone]

@[simp] theorem still_readGate {body : State → Word × State} (hbody : ∀ t, still (body t).2 = still t) (s : State)
    (p : Port) (a : Fin 64) : still (readGate s p a body) = still s :=
  readGate_keepsStill (P := (· = still s)) p a rfl (hbody s)

/-- A write of Port S keeps of the value what the write itself keeps of it. -/
theorem answered_keepsStill {P : Still → Prop} {s : State} {act : State → State} (a : Fin 64) (v : Word)
    (hs : P (still s)) (hact : ∀ t, P (still t) → P (still (act t))) : P (still (answered s a v act)) := by
  unfold answered
  split
  · exact hact s hs
  · exact hact { s with err := { s.err with src := probeSrc } } hs

@[simp] theorem still_answered {act : State → State} (hact : ∀ t, still (act t) = still t) (s : State)
    (a : Fin 64) (v : Word) : still (answered s a v act) = still s :=
  answered_keepsStill (P := (· = still s)) a v rfl fun t ht => (hact t).trans ht

/-! ### The Cellar and its arbiter -/

@[simp] theorem still_eccWritten (s : State) (w : Nat) : still (eccWritten s w) = still s := by simp [eccWritten]

@[simp] theorem still_detectCe (s : State) (w : Nat) : still (detectCe s w) = still s := by simp [detectCe]

@[simp] theorem still_detectUe (s : State) (w : Nat) : still (detectUe s w) = still s := by simp [detectUe]

@[simp] theorem still_eccRead (s : State) (w : Nat) : still (eccRead s w) = still s := by
  unfold eccRead
  split <;> simp

@[simp] theorem still_eccReadN (s : State) (w n : Nat) : still (eccReadN s w n) = still s := by
  induction n generalizing s w with
  | zero => rfl
  | succ n ih => simp [eccReadN, ih]

@[simp] theorem still_grantL1 (s : State) (p : Port) : still (grantL1 s p) = still s := by
  unfold grantL1
  split <;> simp

@[simp] theorem still_grantLow (s : State) (lvl n : Nat) : still (grantLow s lvl n) = still s := by
  simp [grantLow]

@[simp] theorem still_grantAhead (s : State) (lvl : Nat) : still (grantAhead s lvl) = still s := by
  simp [grantAhead]

@[simp] theorem still_grantWork (s : State) (lvl n : Nat) (first : Bool) :
    still (grantWork s lvl n first) = still s := by simp [grantWork, grantRest]

@[simp] theorem still_burstsFirst (own : Grant) (n : Nat) (s : State) :
    still (burstsFirst own n s) = still s := by
  induction n generalizing s with
  | zero => rfl
  | succ n ih =>
    unfold burstsFirst
    split
    · split
      · simp [ih]
      · rfl
    · rfl

theorem still_arbServe {s t : State} {own : Grant} (h : arbServe s own = some t) : still t = still s := by
  unfold arbServe at h
  dsimp only at h
  split at h
  · cases h
    exact still_burstsFirst own 32 s
  · cases h

/-- A row that the arbiter serves keeps of the value what its work keeps of it. -/
theorem granted_keepsStill {P : Still → Prop} {s : State} {act : State → State} (own : Grant) (hs : P (still s))
    (hact : ∀ t, P (still t) → P (still (act t))) : P (still (granted s own act)) := by
  cases h : arbServe s own with
  | none => rwa [granted_not h]
  | some t =>
    rw [granted_of h]
    exact hact t (by rwa [still_arbServe h])

@[simp] theorem still_granted {act : State → State} (hact : ∀ t, still (act t) = still t) (s : State)
    (own : Grant) : still (granted s own act) = still s :=
  granted_keepsStill (P := (· = still s)) own rfl fun t ht => (hact t).trans ht

/-! ### Lamps -/

@[simp] theorem still_setLamp (s : State) (n : Fin 8) (c : Lamp) : still (setLamp s n c) = still s := by
  simp [setLamp]

@[simp] theorem still_setCluster (s : State) (c : Fin 2) (x : Cluster) : still (setCluster s c x) = still s := by
  simp [setCluster]

@[simp] theorem still_switchOn (s : State) (n : Fin 8) : still (switchOn s n) = still s := by simp [switchOn]

@[simp] theorem still_followReq (s : State) (n : Fin 8) : still (followReq s n) = still s := by
  unfold followReq
  split <;> simp [switchOff]

@[simp] theorem still_lampsSettle (s : State) : still (lampsSettle s) = still s := by
  simp [lampsSettle, flasherFollow]

@[simp] theorem still_latchCause (s : State) (n : Fin 8) (i : Nat) : still (latchCause s n i) = still s := by
  simp [latchCause]

@[simp] theorem still_lampTrip (s : State) (n : Fin 8) (cause : Nat) : still (lampTrip s n cause) = still s := by
  simp [lampTrip]

@[simp] theorem still_secondTrip (s : State) (n : Fin 8) (cause : Nat) :
    still (secondTrip s n cause) = still s := by simp [secondTrip]

@[simp] theorem still_tryRetry (s : State) (n : Fin 8) : still (tryRetry s n) = still s := by simp [tryRetry]

@[simp] theorem still_periodStart (s : State) (n : Fin 8) : still (periodStart s n) = still s := by
  simp [periodStart]

@[simp] theorem still_takeGrid (s : State) (n : Fin 8) : still (takeGrid s n) = still s := by simp [takeGrid]

@[simp] theorem still_pwmBoundary (s : State) (n : Fin 8) : still (pwmBoundary s n) = still s := by
  simp [pwmBoundary]

@[simp] theorem still_pwmOnEnd (s : State) (n : Fin 8) (ion : Word) : still (pwmOnEnd s n ion) = still s := by
  simp [pwmOnEnd]

@[simp] theorem still_inrushEnds (s : State) (n : Fin 8) : still (inrushEnds s n) = still s := by
  simp [inrushEnds, eachMate]

@[simp] theorem still_shortArises (s : State) (n : Fin 8) (e : Nat) (applies : LampMode → Bool) :
    still (shortArises s n e applies) = still s := by
  unfold shortArises
  split <;> simp [shortEnergy]

@[simp] theorem still_absoluteShort (s : State) (n : Fin 8) (e : Nat) :
    still (absoluteShort s n e) = still s := by simp [absoluteShort]

@[simp] theorem still_desaturation (s : State) (n : Fin 8) (e : Nat) : still (desaturation s n e) = still s := by
  simp [desaturation]

@[simp] theorem still_overload (s : State) (n : Fin 8) (e : Nat) : still (overload s n e) = still s := by
  simp [overload]

@[simp] theorem still_overtemp (s : State) (n : Fin 8) : still (overtemp s n) = still s := by simp [overtemp]

@[simp] theorem still_overtempRelease (s : State) (n : Fin 8) : still (overtempRelease s n) = still s := by
  simp [overtempRelease]

@[simp] theorem still_retryDueAt (s : State) (n : Fin 8) : still (retryDueAt s n) = still s := by
  simp [retryDueAt]

@[simp] theorem still_retryReloads (s : State) (n : Fin 8) : still (retryReloads s n) = still s := by
  simp [retryReloads]

@[simp] theorem still_openOn (s : State) (n : Fin 8) : still (openOn s n) = still s := by simp [openOn]

@[simp] theorem still_openOff (s : State) (n : Fin 8) : still (openOff s n) = still s := by simp [openOff]

@[simp] theorem still_stuckHigh (s : State) (n : Fin 8) : still (stuckHigh s n) = still s := by simp [stuckHigh]

@[simp] theorem still_senseBad (s : State) (n : Fin 8) : still (senseBad s n) = still s := by simp [senseBad]

@[simp] theorem still_gangDerate (s : State) (k : Fin 4) (odd : Bool) (onMa : Nat) :
    still (gangDerate s k odd onMa) = still s := by simp [gangDerate]

@[simp] theorem still_derateStep (s : State) (k : Fin 2) : still (derateStep s k) = still s := by
  unfold derateStep
  dsimp only
  split <;> simp

@[simp] theorem still_clusterTick (s : State) (k : Fin 2) (e : Vector Nat 8) (t : Word) :
    still (clusterTick s k e t) = still s := by simp [clusterTick]

@[simp] theorem still_budgetTick (s : State) (e : Vector Nat 8) (t0 t1 : Word) (ion : Vector Word 8) :
    still (budgetTick s e t0 t1 ion) = still s := by simp [budgetTick, inrushMarks]

@[simp] theorem still_flasherOn (s : State) : still (flasherOn s) = still s := by simp [flasherOn]

@[simp] theorem still_flasherOff (s : State) (low : Byte) : still (flasherOff s low) = still s := by
  simp [flasherOff]

@[simp] theorem still_fullyOn (s : State) : still (fullyOn s) = still s := by simp [fullyOn]

@[simp] theorem still_lctlWrite (s : State) (p : Port) (v : Word) : still (lctlWrite s p v) = still s := by
  simp [lctlWrite]

@[simp] theorem still_lselWrite (s : State) (p : Port) (v : Word) : still (lselWrite s p v) = still s := by
  simp [lselWrite]

@[simp] theorem still_lparamWrite (s : State) (p : Port) (v : Word) : still (lparamWrite s p v) = still s := by
  unfold lparamWrite
  dsimp only
  (repeat' split) <;> simp

@[simp] theorem still_lfaultWrite (s : State) (v : Word) (kept : List (Fin 8)) :
    still (lfaultWrite s v kept) = still s := by simp [lfaultWrite, clearFault]

@[simp] theorem still_causeArises (s : State) (c : LampCause) : still (causeArises s c) = still s := by
  unfold causeArises
  split <;> simp

/-! ### The ledger -/

@[simp] theorem still_passBegins (s : State) (b : Bank) (boundary : Bool) :
    still (passBegins s b boundary) = still s := by simp [passBegins]

@[simp] theorem still_planSettle (s : State) (b : Bank) (k : Nat) (rs : List SlotRec) :
    still (planSettle s b k rs) = still s := by simp [planSettle]

/-! ### Layers -/

@[simp] theorem still_commitPlaced (s : State) (b : Bank) (v : Word) : still (commitPlaced s b v) = still s := by
  simp [commitPlaced]

@[simp] theorem still_heldPlaced (s : State) (b : Bank) : still (heldPlaced s b) = still s := by simp [heldPlaced]

@[simp] theorem still_commitEffect (s : State) (v : Word) : still (commitEffect s v) = still s := by
  simp [commitEffect, commitBank]

@[simp] theorem still_dlayerWrite (s : State) (p : Port) (v : Word) : still (dlayerWrite s p v) = still s := by
  simp [dlayerWrite]

@[simp] theorem still_dblinkWrite (s : State) (v : Word) : still (dblinkWrite s v) = still s := by
  simp [dblinkWrite]

/-! ### The animation engine -/

@[simp] theorem still_animRead (s : State) (o n : Nat) : still (animRead s o n).2 = still s := by simp [animRead]

@[simp] theorem still_animFault (s : State) (b : Bank) (code : Nat) : still (animFault s b code) = still s := by
  simp [animFault]

@[simp] theorem still_animResume (s : State) (b : Bank) (old : Vector BlinkSt 4) :
    still (animResume s b old) = still s := by
  unfold animResume
  dsimp only
  (repeat' split) <;> simp

@[simp] theorem still_animOne {body : State → BitVec 64 → State} (hbody : ∀ t w, still (body t w) = still t)
    (s : State) (b : Bank) (lo n : Nat) : still (animOne s b lo n body) = still s := by
  simp [animOne, hbody]

@[simp] theorem still_animGo (s : State) (b : Bank) (pc : BitVec 17) : still (animGo s b pc) = still s := by
  simp [animGo]

@[simp] theorem still_animNext (s : State) (b : Bank) : still (animNext s b) = still s := by simp [animNext]

@[simp] theorem still_animTarget (s : State) (b : Bank) (w : BitVec 64) : still (animTarget s b w) = still s := by
  simp [animTarget]

@[simp] theorem still_animLimit (s : State) (b : Bank) : still (animLimit s b) = still s := by simp [animLimit]

/-! ### Time and wake -/

@[simp] theorem still_latchWake (s : State) (i : Nat) : still (latchWake s i) = still s := by simp [latchWake]

@[simp] theorem still_declareMiss (s : State) : still (declareMiss s) = still s := by simp [declareMiss]

@[simp] theorem still_wakeEvent (s : State) (i : Nat) : still (wakeEvent s i) = still s := by
  simp [wakeEvent, abandonSleep]

@[simp] theorem still_setWakeLevel (s : State) (i : WakeIn) (l : Bool) :
    still (setWakeLevel s i l) = still s := by
  unfold setWakeLevel
  split <;> simp

@[simp] theorem still_wakeInput (s : State) (i : WakeIn) (l : Bool) : still (wakeInput s i l) = still s := by
  simp [wakeInput]

@[simp] theorem still_wakeEdge (s : State) (i : WakeIn) : still (wakeEdge s i) = still s := by simp [wakeEdge]

@[simp] theorem still_startSecond (s : State) (sec : BitVec 32) (cal : Bool) :
    still (startSecond s sec cal) = still s := by simp [startSecond]

@[simp] theorem still_backupFollow (s : State) : still (backupFollow s) = still s := by simp [backupFollow]

@[simp] theorem still_substituted (s : State) : still (substituted s) = still s := by simp [substituted]

@[simp] theorem still_rtcSecond (s : State) : still (rtcSecond s) = still s := by simp [rtcSecond]

@[simp] theorem still_aonEdge (s : State) : still (aonEdge s) = still s := by simp [aonEdge]

@[simp] theorem still_alarmFires (s : State) : still (alarmFires s) = still s := by simp [alarmFires]

@[simp] theorem still_backupSecond (s : State) : still (backupSecond s) = still s := by simp [backupSecond]

@[simp] theorem still_vbkupLoss (s : State) : still (vbkupLoss s) = still s := by simp [vbkupLoss]

@[simp] theorem still_vbkupReturn (s : State) : still (vbkupReturn s) = still s := by simp [vbkupReturn]

@[simp] theorem still_vlowTrips (s : State) : still (vlowTrips s) = still s := by simp [vlowTrips]

@[simp] theorem still_vlowReleases (s : State) : still (vlowReleases s) = still s := by simp [vlowReleases]

@[simp] theorem still_vlowLatches (s : State) : still (vlowLatches s) = still s := by simp [vlowLatches]

@[simp] theorem still_aonPush (s : State) (w : AonWrite) : still (aonPush s w) = still s := by simp [aonPush]

@[simp] theorem still_rtcLWrite (s : State) (p : Port) (v : Word) : still (rtcLWrite s p v) = still s := by
  simp [rtcLWrite]

@[simp] theorem still_rtcHWrite (s : State) (p : Port) (v : Word) : still (rtcHWrite s p v) = still s := by
  unfold rtcHWrite
  split <;> simp

@[simp] theorem still_rtcAlmWrite (s : State) (v : Word) : still (rtcAlmWrite s v) = still s := by
  simp [rtcAlmWrite]

@[simp] theorem still_wakectlWrite (s : State) (v : Word) : still (wakectlWrite s v) = still s := by
  simp [wakectlWrite]

@[simp] theorem still_wakestatWrite (s : State) (v : Word) : still (wakestatWrite s v) = still s := by
  simp [wakestatWrite]

@[simp] theorem still_aonArrive (s : State) : still (aonArrive s) = still s := by
  unfold aonArrive
  (repeat' split) <;> simp

@[simp] theorem still_rtcLReadOp (s : State) (p : Port) : still (rtcLReadOp s p).2 = still s := by
  simp [rtcLReadOp]

@[simp] theorem still_tempUpdate (s : State) (t : Word) : still (tempUpdate s t) = still s := by simp [tempUpdate]

/-! ### Segment drive -/

@[simp] theorem still_trimArrived (s : State) (b : Bank) : still (trimArrived s b) = still s := by
  simp [trimArrived]

@[simp] theorem still_trimRetarget (s : State) (b : Bank) : still (trimRetarget s b) = still s := by
  simp [trimRetarget]

@[simp] theorem still_trimStep (s : State) (b : Bank) : still (trimStep s b) = still s := by simp [trimStep]

@[simp] theorem still_tcBank (s : State) (b : Bank) : still (tcBank s b) = still s := by simp [tcBank]

@[simp] theorem still_dvlcdShow (s : State) (v : Word) : still (dvlcdShow s v) = still s := by simp [dvlcdShow]

@[simp] theorem still_trimTakes (s : State) (b : Bank) (w : ℤ × Nat × Bool) (arms : Bool) :
    still (trimTakes s b w arms) = still s := by simp [trimTakes]

@[simp] theorem still_dvlcdWrite (s : State) (v : Word) : still (dvlcdWrite s v) = still s := by
  simp [dvlcdWrite, dvlcdFields]

@[simp] theorem still_crackLearn (s : State) (b : Bank) : still (crackLearn s b) = still s := by simp [crackLearn]

@[simp] theorem still_keySlotGone (s : State) (b : Bank) : still (keySlotGone s b) = still s := by
  simp [keySlotGone]

@[simp] theorem still_enterGround (s : State) (b : Bank) (cut skip cap : Bool) :
    still (enterGround s b cut skip cap) = still s := by simp [enterGround]

@[simp] theorem still_enterBias (s : State) (b : Bank) : still (enterBias s b) = still s := by simp [enterBias]

@[simp] theorem still_bankUp (s : State) (b : Bank) : still (bankUp s b) = still s := by simp [bankUp]

@[simp] theorem still_enterOff (s : State) (b : Bank) : still (enterOff s b) = still s := by simp [enterOff]

@[simp] theorem still_enterRelease (s : State) (b : Bank) : still (enterRelease s b) = still s := by
  simp [enterRelease, settleSkipped]

@[simp] theorem still_noVlcd (s : State) (b : Bank) : still (noVlcd s b) = still s := by simp [noVlcd]

@[simp] theorem still_downAct (s : State) (b : Bank) (k : PendDown) : still (downAct s b k) = still s := by
  unfold downAct
  dsimp only
  split <;> simp

@[simp] theorem still_downEdge (s : State) (b : Bank) : still (downEdge s b) = still s := by simp [downEdge]

@[simp] theorem still_bankDown (s : State) (b : Bank) : still (bankDown s b) = still s := by simp [bankDown]

@[simp] theorem still_banksDown (s : State) : still (banksDown s) = still s := by simp [banksDown]

@[simp] theorem still_bankEmergency (s : State) (b : Bank) : still (bankEmergency s b) = still s := by
  simp [bankEmergency]

@[simp] theorem still_powerSet (s : State) (b : Bank) : still (powerSet s b) = still s := by
  unfold powerSet
  dsimp only
  split <;> simp

@[simp] theorem still_powerBit (s : State) (b : Bank) (v : Bool) : still (powerBit s b v) = still s := by
  simp [powerBit, powerClear]

@[simp] theorem still_dpwrWrite (s : State) (p : Port) (v : Word) : still (dpwrWrite s p v) = still s := by
  unfold dpwrWrite
  split <;> simp

@[simp] theorem still_dctlShow (s : State) (v : Word) : still (dctlShow s v) = still s := by simp [dctlShow]

@[simp] theorem still_dctlWrite (s : State) (p : Port) (v : Word) : still (dctlWrite s p v) = still s := by
  unfold dctlWrite
  split <;> simp [dctlFields]

@[simp] theorem still_crackMeasure (s : State) (b : Bank) (m : Nat) : still (crackMeasure s b m) = still s := by
  simp [crackMeasure]

@[simp] theorem still_dcrackWrite (s : State) (p : Port) (v : Word) : still (dcrackWrite s p v) = still s := by
  simp [dcrackWrite, crackEnable]

@[simp] theorem still_slotsStop (s : State) (b : Bank) (ckFrame : Bool) :
    still (slotsStop s b ckFrame) = still s := by simp [slotsStop]

@[simp] theorem still_waitsTaken (s : State) (b : Bank) : still (waitsTaken s b) = still s := by
  unfold waitsTaken
  dsimp only
  split <;> simp

@[simp] theorem still_reqTaken (s : State) (b : Bank) : still (reqTaken s b) = still s := by
  unfold reqTaken
  dsimp only
  split <;> simp

@[simp] theorem still_besideAfter (before : State) (bs : List Bank) (s : State) (w : Fin 64 × Word) :
    still (besideAfter before bs s w) = still s := by
  simp only [besideAfter]
  split <;> simp

@[simp] theorem still_powerOthers (s : State) (bs : List Bank) (v : Word) :
    still (powerOthers s bs v) = still s := by simp [powerOthers]

@[simp] theorem still_dpwrJudged (s : State) (wS wP : Word) : still (dpwrJudged s wS wP).1 = still s := by
  unfold dpwrJudged
  dsimp only
  (repeat' split) <;> simp

@[simp] theorem still_dpwrBoth (s : State) (wS wP : Word) : still (dpwrBoth s wS wP) = still s := by
  have h := still_dpwrJudged s wS wP
  unfold dpwrBoth
  split <;> next t _ heq => rw [heq] at h; simpa using h

@[simp] theorem still_dpwrBothWait (s : State) (bs : List Bank) (wS wP : Word) :
    still (dpwrBothWait s bs wS wP).1 = still s := by
  have h := still_dpwrJudged s wS wP
  unfold dpwrBothWait
  split <;> next t _ heq => rw [heq] at h; simpa using h

@[simp] theorem still_slotDrive (s : State) (b : Bank) : still (slotDrive s b) = still s := by
  unfold slotDrive
  dsimp only
  split <;> simp

@[simp] theorem still_vgoodRise (s : State) (b : Bank) : still (vgoodRise s b) = still s := by simp [vgoodRise]

@[simp] theorem still_vgoodFall (s : State) (b : Bank) : still (vgoodFall s b) = still s := by
  unfold vgoodFall
  dsimp only
  (repeat' split) <;> simp

@[simp] theorem still_novlcdTimer (s : State) (b : Bank) : still (novlcdTimer s b) = still s := by
  unfold novlcdTimer
  dsimp only
  split <;> simp

@[simp] theorem still_vlcdLost (s : State) (b : Bank) : still (vlcdLost s b) = still s := by simp [vlcdLost]

@[simp] theorem still_groundingEnds (s : State) (b : Bank) : still (groundingEnds s b) = still s := by
  simp [groundingEnds]

@[simp] theorem still_releaseEnds (s : State) (b : Bank) : still (releaseEnds s b) = still s := by
  simp [releaseEnds]

/-! ### Battery channels -/

@[simp] theorem still_clearEstimate (s : State) : still (clearEstimate s) = still s := by simp [clearEstimate]

@[simp] theorem still_dropAccepted (s : State) : still (dropAccepted s) = still s := by
  unfold dropAccepted
  split <;> simp

@[simp] theorem still_packClear (s : State) : still (packClear s) = still s := by simp [packClear]

@[simp] theorem still_dropRecord (s : State) : still (dropRecord s) = still s := by simp [dropRecord]

@[simp] theorem still_stopA (s : State) : still (stopA s) = still s := by simp [stopA, enaClear]

@[simp] theorem still_startA (s : State) : still (startA s) = still s := by simp [startA]

@[simp] theorem still_harvOff (s : State) : still (harvOff s) = still s := by simp [harvOff]

@[simp] theorem still_trigger (s : State) (i : Nat) : still (trigger s i) = still s := by simp [trigger]

@[simp] theorem still_conversion (s : State) (m : Sample) : still (conversion s m) = still s := by
  simp [conversion, harvestConv, setOra, intervalConv, endConversion]

@[simp] theorem still_bstatWrite (s : State) (v : Word) : still (bstatWrite s v) = still s := by simp [bstatWrite]

@[simp] theorem still_crankTrack (s : State) (v : Nat) : still (crankTrack s v) = still s := by
  unfold crankTrack
  dsimp only
  split <;> simp

@[simp] theorem still_crankStop (s : State) : still (crankStop s) = still s := by simp [crankStop]

@[simp] theorem still_sampleB (s : State) (raw : BitVec 12) : still (sampleB s raw) = still s := by simp [sampleB]

@[simp] theorem still_crankDip (s : State) : still (crankDip s) = still s := by simp [crankDip]

@[simp] theorem still_crankEnd (s : State) : still (crankEnd s) = still s := by simp [crankEnd]

/-! ### The pack -/

@[simp] theorem still_packSignal (old s : State) : still (packSignal old s) = still s := by simp [packSignal]

@[simp] theorem still_packTrigger (old s : State) : still (packTrigger old s) = still s := by simp [packTrigger]

@[simp] theorem still_beginSession (s : State) : still (beginSession s) = still s := by simp [beginSession]

@[simp] theorem still_presenceWake (s : State) : still (presenceWake s) = still s := by simp [presenceWake]

@[simp] theorem still_pilIdle (s : State) : still (pilIdle s) = still s := by simp [pilIdle]

@[simp] theorem still_packAbsent (s : State) (x : Nat) : still (packAbsent s x) = still s := by
  simp [packAbsent, removal]

@[simp] theorem still_restartInit (s : State) : still (restartInit s) = still s := by simp [restartInit]

@[simp] theorem still_packPresent (s : State) (x : Nat) : still (packPresent s x) = still s := by
  simp [packPresent]

@[simp] theorem still_bctlWrite (s : State) (p : Port) (v : Word) : still (bctlWrite s p v) = still s := by
  simp [bctlWrite, bctlFields, idmChange]

@[simp] theorem still_judgeFrame (s : State) (bits : List Bool) (len : Nat) :
    still (judgeFrame s bits len) = still s := by
  unfold judgeFrame
  split <;> simp [badFrame, goodFrame, digestSeen, verifyPack]

@[simp] theorem still_setPil (s : State) (d : Pil) : still (setPil s d) = still s := by simp [setPil]

@[simp] theorem still_frameEnds (s : State) : still (frameEnds s) = still s := by simp [frameEnds]

@[simp] theorem still_pulseEnds (s : State) (n : Nat) : still (pulseEnds s n) = still s := by
  unfold pulseEnds
  (repeat' split) <;> simp

@[simp] theorem still_pilRun (s : State) (level : Bool) (n : Nat) : still (pilRun s level n) = still s := by
  unfold pilRun
  dsimp only
  (repeat' split) <;> simp [pilHigh]

@[simp] theorem still_pilFrame (s : State) (wave : List (Bool × Nat)) : still (pilFrame s wave) = still s := by
  simp [pilFrame]

@[simp] theorem still_identityTimeout (s : State) : still (identityTimeout s) = still s := by
  simp [identityTimeout]

@[simp] theorem still_bpackWrite (s : State) (v : Word) : still (bpackWrite s v) = still s := by simp [bpackWrite]

/-! ### Models and estimators -/

@[simp] theorem still_setMstat (s : State) (c : BatCh) (v : Nat) : still (setMstat s c v) = still s := by
  unfold setMstat
  split <;> simp

@[simp] theorem still_modelFetch (s : State) (c : BatCh) (n : Nat) (first : Bool) :
    still (modelFetch s c n first).2 = still s := by simp [modelFetch]

@[simp] theorem still_modelRead (s : State) (c : BatCh) (first : Bool) :
    still (modelRead s c first).2 = still s := by
  unfold modelRead
  dsimp only
  (repeat' split) <;> simp

@[simp] theorem still_modelLoads (s : State) (c : BatCh) : still (modelLoads s c) = still s := by
  unfold modelLoads
  split <;> simp

@[simp] theorem still_validate (s : State) (c : BatCh) : still (validate s c).2 = still s := by
  unfold validate
  dsimp only
  (repeat' split) <;> simp

@[simp] theorem still_validated (s : State) (c : BatCh) : still (validated s c) = still s := by
  unfold validated
  split <;> simp

@[simp] theorem still_estWake (s : State) (t : Nat) (sub : Bool) : still (estWake s t sub) = still s := by
  simp [estWake]

/-! ### Boot and clocks -/

@[simp] theorem still_strapsConnect (s : State) : still (strapsConnect s) = still s := by simp [strapsConnect]

@[simp] theorem still_strapsRelease (s : State) : still (strapsRelease s) = still s := by simp [strapsRelease]

@[simp] theorem still_backupBoot (s : State) : still (backupBoot s) = still s := by simp [backupBoot]

@[simp] theorem still_faceLive (s : State) : still (faceLive s) = still s := by simp [faceLive]

@[simp] theorem still_rootConfirmed (s : State) (restarted : Bool) :
    still (rootConfirmed s restarted) = still s := by simp [rootConfirmed]

@[simp] theorem still_attemptTimeout (s : State) : still (attemptTimeout s) = still s := by simp [attemptTimeout]

@[simp] theorem still_newAttempt (s : State) : still (newAttempt s) = still s := by simp [newAttempt]

@[simp] theorem still_crystalRests (s : State) : still (crystalRests s) = still s := by simp [crystalRests]

@[simp] theorem still_dividersRelease (s : State) : still (dividersRelease s) = still s := by
  simp [dividersRelease]

@[simp] theorem still_bootWrites (s : State) : still (bootWrites s) = still s := by simp [bootWrites]

@[simp] theorem still_readyNow (s : State) : still (readyNow s) = still s := by simp [readyNow, presenceKnown]

@[simp] theorem still_bootAgain (s : State) (step : Nat) : still (bootAgain s step) = still s := by
  simp [bootAgain]

@[simp] theorem still_holdEnds (s : State) (restarted : Bool) : still (holdEnds s restarted) = still s := by
  simp [holdEnds]

@[simp] theorem still_resetPin (s : State) : still (resetPin s) = still s := by simp [resetPin]

/-! ### Modes and supply -/

@[simp] theorem still_quietOutputs (s : State) : still (quietOutputs s) = still s := by simp [quietOutputs]

@[simp] theorem still_restartA (s : State) : still (restartA s) = still s := by simp [restartA]

@[simp] theorem still_modeBegin (s : State) (m : Nat) : still (modeBegin s m) = still s := by
  unfold modeBegin
  split <;> simp

@[simp] theorem still_setExpert (s : State) (v : Word) : still (setExpert s v) = still s := by simp [setExpert]

@[simp] theorem still_sysctlWrite (s : State) (p : Port) (v : Word) : still (sysctlWrite s p v) = still s := by
  simp [sysctlWrite]

@[simp] theorem still_sysstatWrite (s : State) (v : Word) : still (sysstatWrite s v) = still s := by
  simp [sysstatWrite]

@[simp] theorem still_modeMerge (s : State) (vS vP : Word) : still (modeMerge s vS vP) = still s := by
  simp [modeMerge]

@[simp] theorem still_standbyReached (s : State) : still (standbyReached s) = still s := by simp [standbyReached]

@[simp] theorem still_sleepEntered (s : State) : still (sleepEntered s) = still s := by simp [sleepEntered]

@[simp] theorem still_reducedEntry (s : State) : still (reducedEntry s) = still s := by simp [reducedEntry]

@[simp] theorem still_reducedExit (s : State) : still (reducedExit s) = still s := by
  simp [reducedExit, bankReturns]

@[simp] theorem still_bankCollapses (s : State) (b : Bank) : still (bankCollapses s b) = still s := by
  simp [bankCollapses]

@[simp] theorem still_collapses (s : State) : still (collapses s) = still s := by
  unfold collapses
  dsimp only
  split <;> simp

@[simp] theorem still_corkBegins (s : State) (p : Port) : still (corkBegins s p) = still s := by simp [corkBegins]

@[simp] theorem still_vioLost (s : State) : still (vioLost s) = still s := by simp [vioLost]

@[simp] theorem still_vioBack (s : State) : still (vioBack s) = still s := by simp [vioBack]

/-! ### Authenticated commands -/

@[simp] theorem still_astatWrite (s : State) (v : Word) : still (astatWrite s v) = still s := by simp [astatWrite]

@[simp] theorem still_authDone (s : State) (result : Byte) : still (authDone s result) = still s := by
  simp [authDone]

@[simp] theorem still_authRefuse (s : State) (p : Port) (code : Byte) :
    still (authRefuse s p code) = still s := by simp [authRefuse]

@[simp] theorem still_authRefuseCell (s : State) (p : Port) (code : Byte) (a : Nat) :
    still (authRefuseCell s p code a) = still s := by simp [authRefuseCell]

@[simp] theorem still_authClaim (s : State) (p : Port) : still (authClaim s p) = still s := by simp [authClaim]

@[simp] theorem still_dropTag (s : State) : still (dropTag s) = still s := by simp [dropTag]

@[simp] theorem still_acmdWrite (s : State) (p : Port) (v : Word) : still (acmdWrite s p v) = still s := by
  unfold acmdWrite
  split <;> simp

@[simp] theorem still_acntWrite (s : State) (p : Port) (high : Bool) (v : Word) :
    still (acntWrite s p high v) = still s := by
  unfold acntWrite
  split <;> simp

@[simp] theorem still_wipeAsked (s : State) : still (wipeAsked s) = still s := by simp [wipeAsked]

@[simp] theorem still_accept (s : State) (c : AuthCmd) (p : Port) (m : AuthMsg) :
    still (accept s c p m) = still s := by simp [accept]

@[simp] theorem still_lastChecks (s : State) (c : AuthCmd) (p : Port) (m : AuthMsg) :
    still (lastChecks s c p m) = still s := by
  unfold lastChecks
  (repeat' split) <;> simp

@[simp] theorem still_authChecks (s : State) (p : Port) (m : AuthMsg) (tag : List Word) :
    still (authChecks s p m tag) = still s := by
  unfold authChecks
  split <;> simp [tagChecks, badTag, provisionChecks]

@[simp] theorem still_authVerdict (s : State) : still (authVerdict s) = still s := by
  unfold authVerdict
  (repeat' split) <;> simp

@[simp] theorem still_tagWord (s : State) (p : Port) (v : Word) : still (tagWord s p v) = still s := by
  unfold tagWord
  dsimp only
  (repeat' split) <;> simp [beginMessage]

@[simp] theorem still_lockoutEnds (s : State) : still (lockoutEnds s) = still s := by simp [lockoutEnds]

@[simp] theorem still_lockoutTick (s : State) : still (lockoutTick s) = still s := by simp [lockoutTick]

@[simp] theorem still_claimTimeout (s : State) : still (claimTimeout s) = still s := by simp [claimTimeout]

@[simp] theorem still_effect {body : State → Accepted → State} (hbody : ∀ t a, still (body t a) = still t)
    (s : State) (c : AuthCmd) : still (effect s c body) = still s := by
  unfold effect
  dsimp only
  split <;> simp [hbody]

@[simp] theorem still_regionUnlock (s : State) (v : Word) : still (regionUnlock s v) = still s := by
  simp [regionUnlock]

@[simp] theorem still_lampPolicy (s : State) (a : List Word) : still (lampPolicy s a) = still s := by
  simp [lampPolicy]

@[simp] theorem still_queueRestoreA (s : State) (a : Accepted) : still (queueRestoreA s a) = still s := by
  simp [queueRestoreA]

/-! ### Arbiter, scrub and TAP -/

@[simp] theorem still_windowStarts (s : State) (waits : Vector Nat 7) :
    still (windowStarts s waits) = still s := by simp [windowStarts]

@[simp] theorem still_arbstatWrite (s : State) (p : Port) (v : Word) : still (arbstatWrite s p v) = still s := by
  simp [arbstatWrite]

@[simp] theorem still_scrubUe (s : State) (w : Nat) : still (scrubUe s w) = still s := by simp [scrubUe]

@[simp] theorem still_scrubWord (s : State) (w : Nat) : still (scrubWord s w) = still s := by
  unfold scrubWord
  split <;> simp

@[simp] theorem still_scrubWords (s : State) (w n : Nat) : still (scrubWords s w n) = still s := by
  induction n generalizing s w with
  | zero => rfl
  | succ n ih => simp [scrubWords, ih]

@[simp] theorem still_tapSelect (s : State) (ir : BitVec 5) : still (tapSelect s ir) = still s := by
  simp [tapSelect]

@[simp] theorem still_vendorSelect (s : State) (code : BitVec 5) : still (vendorSelect s code) = still s := by
  simp [vendorSelect]

/-! ### Roles -/

@[simp] theorem still_heartbeat (s : State) : still (heartbeat s) = still s := by
  unfold heartbeat
  dsimp only
  (repeat' split) <;> simp

@[simp] theorem still_swapRoles (s : State) : still (swapRoles s) = still s := by simp [swapRoles]

@[simp] theorem still_portctlCore (s : State) (p : Port) (v : Word) (merged : Bool) :
    still (portctlCore s p v merged).1 = still s := by
  unfold portctlCore
  dsimp only
  (repeat' split) <;> simp

@[simp] theorem still_portctlWrite (s : State) (p : Port) (v : Word) : still (portctlWrite s p v) = still s := by
  simp [portctlWrite]

@[simp] theorem still_swapMerge (s : State) (vS vP : Word) : still (swapMerge s vS vP) = still s := by
  simp [swapMerge]

@[simp] theorem still_swapLapse (s : State) : still (swapLapse s) = still s := by
  unfold swapLapse
  split <;> simp

/-! ### The Trellis -/

@[simp] theorem still_scanStep (s : State) : still (scanStep s) = still s := by
  simp [scanStep]

@[simp] theorem still_keepSettings (s : State) : still (keepSettings s) = still s := by simp [keepSettings]

@[simp] theorem still_keysCapture (s : State) (a : Nat) (v : Word) : still (keysCapture s a v) = still s := by
  simp [keysCapture]

@[simp] theorem still_keyCountersClear (s : State) : still (keyCountersClear s) = still s := by
  simp [keyCountersClear]

@[simp] theorem still_waitsEnd (s : State) : still (waitsEnd s) = still s := by
  simp [waitsEnd, apply_ite Keys.fifo]

@[simp] theorem still_slotMeets (s : State) : still (slotMeets s) = still s := by simp [slotMeets, writesWait]

@[simp] theorem still_loadScan (s : State) : still (loadScan s) = still s := by
  simp [loadScan]

@[simp] theorem still_bookKey (s : State) (K cycles : Nat) : still (bookKey s K cycles) = still s := by
  simp [bookKey]

@[simp] theorem still_keySlotOver (s : State) : still (keySlotOver s) = still s := by simp [keySlotOver]

@[simp] theorem still_slotBegun (s : State) : still (slotBegun s) = still s := by simp [slotBegun]

@[simp] theorem still_kctlWrite (s : State) (p : Port) (v : Word) : still (kctlWrite s p v) = still s := by
  simp [kctlWrite]

@[simp] theorem still_scanEdge (s : State) : still (scanEdge s) = still s := by simp [scanEdge]

@[simp] theorem still_kstatWrite (s : State) (v : Word) : still (kstatWrite s v) = still s := by simp [kstatWrite]

/-! ### The Parameter cask -/

@[simp] theorem still_winRead (s : State) (p : Port) (a : Nat) : still (winRead s p a).2 = still s := by
  unfold winRead
  (repeat' split) <;> simp [takeRaw, takeSoc]

@[simp] theorem still_regionWritten (s : State) (r o : Nat) (v : Word) :
    still (regionWritten s r o v) = still s := by
  unfold regionWritten
  split <;> simp [lockRegion]

/-! ### The window and the registers -/

@[simp] theorem still_issueLoad (s : State) (p : Port) : still (issueLoad s p) = still s := by simp [issueLoad]

@[simp] theorem still_refuseRead (s : State) (p : Port) : still (refuseRead s p).2 = still s := by
  simp [refuseRead]

@[simp] theorem still_dropWrite (s : State) (p : Port) (off : Nat) : still (dropWrite s p off) = still s := by
  simp [dropWrite]

@[simp] theorem still_pageLost (s : State) (p : Port) : still (pageLost s p) = still s := by simp [pageLost]

@[simp] theorem still_loadWords (s : State) (p : Port) (a n : Nat) : still (loadWords s p a n).2 = still s := by
  induction n generalizing s a with
  | zero => rfl
  | succ n ih => simp [loadWords, ih]

@[simp] theorem still_loadPage (s : State) (p : Port) (a n : Nat) : still (loadPage s p a n).2 = still s := by
  unfold loadPage
  split <;> simp

@[simp] theorem still_waitTimeout (s : State) : still (waitTimeout s) = still s := by simp [waitTimeout]

@[simp] theorem still_clkstatWrite (s : State) (v : Word) : still (clkstatWrite s v) = still s := by
  simp [clkstatWrite]

@[simp] theorem still_errstatWrite (s : State) (v : Word) : still (errstatWrite s v) = still s := by
  simp [errstatWrite, clearErr]

@[simp] theorem still_irqenWrite (s : State) (p : Port) (v : Word) : still (irqenWrite s p v) = still s := by
  simp [irqenWrite]

@[simp] theorem still_gen1LowWrite (s : State) (a : Fin 64) (b : Byte) :
    still (gen1LowWrite s a b) = still s := by simp [gen1LowWrite]

/-! ### TAP rows -/

@[simp] theorem still_tapExtest (s : State) (scan : Option (BitVec 373 × BitVec 373)) :
    still (tapExtest s scan) = still s := by
  cases scan <;> simp [tapExtest]

@[simp] theorem still_tapSample (s : State) (board preload : BitVec 373) :
    still (tapSample s board preload) = still s := by
  simp [tapSample]

/-! ### The write-back queue and the write buffers (R115 to R119, R140, R219) -/

@[simp] theorem still_pushEntry (s : State) (p : Port) (e : BufEntry) : still (pushEntry s p e) = still s := by
  simp [pushEntry]

@[simp] theorem still_popEntry (s : State) (p : Port) (rest : List BufEntry) :
    still (popEntry s p rest) = still s := by simp [popEntry]

@[simp] theorem still_afterWrite (s : State) (p : Port) : still (afterWrite s p) = still s := by
  simp [afterWrite]

@[simp] theorem still_serveRead (s : State) (p : Port) (w : Word) (rest : List Word) :
    still (serveRead s p w rest).2 = still s := by
  unfold serveRead
  dsimp only
  (repeat' split) <;> simp

@[simp] theorem still_wdataReadOp (s : State) (p : Port) : still (wdataReadOp s p).2 = still s := by
  unfold wdataReadOp
  (repeat' split) <;> simp

@[simp] theorem still_waddrWriteOp (s : State) (p : Port) (high : Bool) (v : Word) :
    still (waddrWriteOp s p high v) = still s := by simp [waddrWriteOp]

@[simp] theorem still_wctlWriteOp (s : State) (p : Port) (v : Word) : still (wctlWriteOp s p v) = still s := by
  simp [wctlWriteOp]

@[simp] theorem still_wdataWriteOp (s : State) (p : Port) (v : Word) :
    still (wdataWriteOp s p v) = still s := by
  unfold wdataWriteOp
  dsimp only
  (repeat' split) <;> simp

@[simp] theorem still_dcommitWrite (s : State) (p : Port) (v : Word) :
    still (dcommitWrite s p v) = still s := by
  unfold dcommitWrite
  (repeat' split) <;> simp

@[simp] theorem still_atagWrite (s : State) (p : Port) (v : Word) : still (atagWrite s p v) = still s := by
  unfold atagWrite
  (repeat' split) <;> simp

@[simp] theorem still_pagePost (s : State) (p : Port) (a : CAddr) (v : Word) :
    still (pagePost s p a v) = still s := by
  unfold pagePost
  split <;> simp

/-- R118, R119: the access that WAIT# held is performed as it would have been. -/
@[simp] theorem still_resumeHeld (s : State) : still (resumeHeld s) = still s := by
  unfold resumeHeld
  dsimp only
  split
  · rfl
  · have h := still_wdataReadOp { s with portP := { s.portP with held := .none } } .portP
    split <;> next heq => simpa [heq] using h
  · simp
  · split <;> simp
  · simp
  · simp

@[simp] theorem still_commitServed (s : State) (p : Port) : still (commitServed s p) = still s := by
  unfold commitServed
  split <;> simp

@[simp] theorem still_frontFreed (s : State) (p : Port) : still (frontFreed s p) = still s := by
  simp [frontFreed]

@[simp] theorem still_commitLeaves (s : State) (p : Port) : still (commitLeaves s p) = still s := by
  unfold commitLeaves
  split <;> simp

/-! ### The key FIFO (R349, R350) -/

@[simp] theorem still_keyPush (s : State) (e : Word) : still (keyPush s e) = still s := by
  unfold keyPush
  dsimp only
  split_ifs <;> simp

@[simp] theorem still_reportKey (s : State) (old : BitVec 128) (l r : Nat) : still (reportKey s old l r) = still s := by
  simp [reportKey]

@[simp] theorem still_scanLine (s : State) (ret : Byte) : still (scanLine s ret) = still s := by simp [scanLine]

@[simp] theorem still_keySlotRuns (s : State) (ret : Byte) (cut : Option Nat) :
    still (keySlotRuns s ret cut) = still s := by
  cases cut <;> simp [keySlotRuns]

@[simp] theorem still_keySlotRun (s : State) (ret : Byte) (cut : Option Nat) :
    still (keySlotRun s ret cut) = still s := by
  unfold keySlotRun
  split_ifs <;> simp

@[simp] theorem still_kevtReadOp (s : State) : still (kevtReadOp s).2 = still s := by
  unfold kevtReadOp
  split <;> simp

end Sys2Proof.Machine
end

section
/-! The operations that write the Cellar keep the value `still`, but that they may bring its list to the canonical form;
the resets and the rows of the counter and the OTP. -/

namespace Sys2Proof.Machine

open Sys2Proof

/-! ### What a kept value says -/

section
variable {q : Still} {s : State} (hs : Kept q (still s))
include hs

theorem Kept.nv_eq : s.nv = q.nv := hs.1

theorem Kept.pending_eq : s.pending = q.pending := hs.2.1

theorem Kept.mem_wf (h : q.canon = true) : Cellar.wf s.mem = true := hs.2.2 h

end

/-! ### Writes of the Cellar -/

/-- What keeps the canonical form keeps the value. -/
theorem kept_mem {q : Still} {s : State} (hs : Kept q (still s)) {m : List Host.Cell}
    (hm : Cellar.wf s.mem = true → Cellar.wf m = true) : Kept q ⟨s.nv, s.pending, Cellar.wf m⟩ :=
  ⟨hs.1, hs.2.1, fun h => hm (hs.2.2 h)⟩

theorem kept_foldl {q : Still} {α : Type} {f : State → α → State}
    (hf : ∀ s a, Kept q (still s) → Kept q (still (f s a))) (l : List α) {s : State} (hs : Kept q (still s)) :
    Kept q (still (l.foldl f s)) := by
  induction l generalizing s with
  | nil => exact hs
  | cons a l ih => exact ih (hf s a hs)

theorem kept_granted {q : Still} {s : State} {act : State → State} (own : Grant) (hs : Kept q (still s))
    (hact : ∀ t, Kept q (still t) → Kept q (still (act t))) : Kept q (still (granted s own act)) :=
  granted_keepsStill own hs hact

section
variable {q : Still} {s : State} (hs : Kept q (still s))
include hs

@[simp] theorem kept_upset (y : Upset) : Kept q (still (upset s y)) :=
  upset_frame s y ▸ kept_mem hs (upset_wf · y)

@[simp] theorem kept_upsets (l : List Upset) : Kept q (still (upsets s l)) :=
  kept_foldl (fun _ y ht => kept_upset ht y) l hs

@[simp] theorem kept_storeWord (a : Nat) (v : Word) : Kept q (still (storeWord s a v)) :=
  kept_mem (s := eccWritten (eccRead s (eccWord a)) (eccWord a)) (by simpa using hs) (Cellar.wf_setWord · a v)

@[simp] theorem kept_storeEcc (w n v : Nat) : Kept q (still (storeEcc s w n v)) := by
  induction n generalizing s w v with
  | zero => exact hs
  | succ n ih =>
    exact ih (s := { eccWritten s w with mem := Cellar.setNat s.mem w 8 v })
      (kept_mem hs (Cellar.wf_setNat · w 8 v)) _ _

@[simp] theorem kept_storeLine (a : Nat) (v : BitVec 128) : Kept q (still (storeLine s a v)) := kept_storeEcc hs a 2 _

/-! ### The ledger -/

theorem kept_rmwPair (b : Bank) (c x : Nat) (f : Nat → BitVec 32 → BitVec 32) : Kept q (still (rmwPair s b c x f)) :=
  kept_mem (s := setLed (eccWritten (eccRead s (accAddr b c x)) (accAddr b c x)) b _) (by simpa using hs)
    (Cellar.wf_setNat · _ 8 _)

@[simp] theorem kept_rmwLine (b : Bank) (c : Nat) (f : Nat → BitVec 32 → BitVec 32) :
    Kept q (still (rmwLine s b c f)) := kept_foldl (fun _ _ ht => kept_rmwPair ht b c _ f) _ hs

@[simp] theorem kept_clearWords (b : Bank) : Kept q (still (clearWords s b)) := by
  have hlines := kept_foldl (fun _ c ht => kept_rmwLine ht b c (fun _ w => w &&& 0x3C000000)) (List.range 16)
    (s := grantLow s 2 (lineBursts 16)) (by simpa using hs)
  simpa [clearWords] using hlines

@[simp] theorem kept_passEnds (b : Bank) : Kept q (still (passEnds s b)) := by
  unfold passEnds
  dsimp only
  split
  · exact hs
  · next p rest hq =>
    have hused := kept_foldl (fun _ c ht => kept_rmwLine ht b c (fun k w =>
        passWord b (getBank s b).drv (getBank s b).led p (((getBank s b).led.passCnt + 1) % 0x10000) c k
          (decide (k < p.keyCols)) w)) (List.range (frameLines (getBank s b).drv))
      (s := setLed s b { (getBank s b).led with passes := rest, passCnt := ((getBank s b).led.passCnt + 1) % 0x10000 })
      (by simpa using hs)
    have hunused := kept_foldl (fun _ i ht => kept_rmwLine ht b (frameLines (getBank s b).drv + i) (fun _ w =>
        unusedWord (getBank s b).led p (((getBank s b).led.passCnt + 1) % 0x10000) w))
      (List.range (16 - frameLines (getBank s b).drv)) hused
    split_ifs <;> simp [setPeak, hused, hunused]

@[simp] theorem kept_markUnused (b : Bank) (old new : Nat) : Kept q (still (markUnused s b old new)) :=
  kept_foldl (fun _ _ ht => kept_rmwLine ht b _ _) _ (by simpa using hs)

/-! ### The Decanters -/

@[simp] theorem kept_intoIdle (b : Bank) (l i : Nat) (v : BitVec 128) : Kept q (still (intoIdle s b l i v)) :=
  kept_storeLine hs _ v

@[simp] theorem kept_animPut (b : Bank) (c : Nat) (anew : Bool) (m v : BitVec 128) :
    Kept q (still (animPut s b c anew m v)) := by simp [animPut, hs]

theorem kept_barDraw (b : Bank) (i : Nat) (r : BarSt) (lit : Nat → Bool) : Kept q (still (barDraw s b i r lit)) := by
  unfold barDraw
  rw [still_setThr]
  refine kept_foldl (fun t j ht => ?_) _ hs
  split
  · exact ht
  · exact kept_animPut ht _ _ _ _ _

@[simp] theorem kept_barRender (b : Bank) (i : Nat) : Kept q (still (barRender s b i)) := by
  unfold barRender
  split
  · exact hs
  · next r hr =>
    simp [kept_barDraw, hs]

theorem kept_animOne {body : State → BitVec 64 → State} (hbody : ∀ t w, Kept q (still t) → Kept q (still (body t w)))
    (b : Bank) (lo n : Nat) : Kept q (still (animOne s b lo n body)) := by
  unfold animOne
  dsimp only
  split_ifs
  · simpa using hs
  · simpa using hs
  · exact hbody _ _ (by simpa using hs)

theorem kept_doCopy (b : Bank) (w : BitVec 64) : Kept q (still (doCopy s b w)) := by
  unfold doCopy
  dsimp only
  split_ifs
  · simpa using hs
  · simpa using hs
  · simpa using hs
  · rw [still_animNext]
    exact kept_foldl (fun _ _ ht => kept_animPut ht _ _ _ _ _) _ (by simpa using hs)

theorem kept_doFill (b : Bank) (w : BitVec 64) : Kept q (still (doFill s b w)) := by
  unfold doFill
  dsimp only
  split_ifs
  · simpa using hs
  all_goals
    rw [still_animNext]
    exact kept_foldl (fun _ _ ht => kept_animPut ht _ _ _ _ _) _ hs

@[simp] theorem kept_animInstr (b : Bank) (y : Nat) : Kept q (still (animInstr s b y)) := by
  unfold animInstr
  split
  · exact kept_animOne hs (fun t w ht => by simpa [doEnd] using ht) b _ _
  · exact kept_animOne hs (fun t w ht => kept_doCopy ht b w) b _ _
  · exact kept_animOne hs (fun t w ht => kept_doFill ht b w) b _ _
  · exact kept_animOne hs (fun t w ht => by simpa [doWait] using ht) b _ _
  · exact kept_animOne hs (fun t w ht => by simpa [doLoop] using ht) b _ _
  · exact kept_animOne hs (fun t w ht => by simpa [doSync] using ht) b _ _
  · exact kept_animOne hs (fun t w ht => by simpa [doBar] using ht) b _ _
  · exact kept_animOne hs (fun t w ht => by simpa using ht) b _ _

@[simp] theorem kept_animRun (b : Bank) (ups : List Upset) (op : Nat) : Kept q (still (animRun s b ups op)) := by
  unfold animRun
  dsimp only
  split_ifs
  · exact kept_granted _ hs fun t ht => kept_animInstr (kept_upsets ht ups) b op
  · exact hs

/-! ### Slots and frames -/

theorem kept_rackLayer (b : Bank) (u : Burst) (l : Nat) : Kept q (still (rackLayer s b u l)) := by
  unfold rackLayer
  dsimp only
  split_ifs <;> simp [hs]

@[simp] theorem kept_l0Burst (b : Bank) (u : Burst) : Kept q (still (l0Burst s b u)) := by
  have hrack : Kept q (still (burstWork s b u)) :=
    kept_foldl (fun _ l ht => kept_rackLayer ht b u l) _ (by split <;> simp [fetchReads, hs])
  exact hrack

@[simp] theorem kept_burstRuns (b : Bank) : Kept q (still (burstRuns s b)) := by
  unfold burstRuns
  dsimp only
  split <;> simp [hs]

@[simp] theorem kept_burstSettled (b : Bank) : Kept q (still (burstSettled s b)) := by
  unfold burstSettled
  dsimp only
  split <;> simp [linesReturned, hs]

@[simp] theorem kept_burstEdge : Kept q (still (burstEdge s)) := by simp [burstEdge, hs]

theorem kept_animCarry (b : Bank) (c : Nat) : Kept q (still (animCarry s b c)) := by simp [animCarry, hs]

theorem kept_animBoundary (b : Bank) (old : Vector BlinkSt 4) : Kept q (still (animBoundary s b old)) := by
  have hbars (x : Thread) : Kept q (still ((List.range 4).foldl (fun s i => barRender s b i) (setThr s b x))) :=
    kept_foldl (fun _ i ht => kept_barRender ht b i) _ (by simpa using hs)
  have hcarry (x : Thread) := kept_foldl (fun _ c ht => kept_animCarry ht b c) (List.range 16) (hbars x)
  simp [animBoundary, hcarry]

@[simp] theorem kept_frameWork (b : Bank) (first : Bool) (cut : Option Nat) :
    Kept q (still (frameWork s b first cut)) := by
  have hburst : Kept q (still (burstSettled s b)) := kept_burstSettled hs b
  simp [frameWork, lampFrame, lampLocked, layersBoundary, masksInForce, blinkBoundary, kept_animBoundary,
    planFrame, fallbackBoundary, hburst]

@[simp] theorem kept_frameBoundary (b : Bank) : Kept q (still (frameBoundary s b)) := by simp [frameBoundary, hs]

@[simp] theorem kept_slotBoundary (b : Bank) (ups : List Upset) : Kept q (still (slotBoundary s b ups)) := by
  have hburst : Kept q (still (burstSettled s b)) := kept_burstSettled hs b
  simp [slotBoundary, linesTaken, burstDue, slotState, keySlotDue, hburst]

@[simp] theorem kept_biasEnds (b : Bank) : Kept q (still (biasEnds s b)) := by simp [biasEnds, crackEntry, hs]

@[simp] theorem kept_flushBurst (b : Bank) : Kept q (still (flushBurst s b)) :=
  kept_foldl (fun t r ht => by simp [recordFlushed, ht]) _ hs

@[simp] theorem kept_flushEdge : Kept q (still (flushEdge s)) := by simp [flushEdge, hs]

@[simp] theorem kept_dutyFlushEnds (b : Bank) : Kept q (still (dutyFlushEnds s b)) := by
  have hburst : Kept q (still (burstSettled s b)) := kept_burstSettled hs b
  unfold dutyFlushEnds
  dsimp only
  split_ifs
  · exact kept_frameWork (kept_markUnused (by simpa using hburst) _ _ _) _ _ _
  · exact hs

@[simp] theorem kept_edgeWork (y : BesideEdge) : Kept q (still (edgeWork s y)) := by
  cases y with
  | frame b => exact kept_frameBoundary hs b
  | first b => exact kept_biasEnds hs b
  | flush b => exact kept_dutyFlushEnds hs b

@[simp] theorem kept_besideBoundary (es : List BesideEdge) (l : List (Fin 64 × Word)) :
    Kept q (still (besideBoundary s es l)) := by
  have hedges := kept_foldl (fun _ y ht => kept_edgeWork ht y) es hs
  simpa [besideBoundary] using hedges

@[simp] theorem kept_slotsResume (b : Bank) : Kept q (still (slotsResume s b)) := by simp [slotsResume, hs]

@[simp] theorem kept_flasherEdge {edge : State → State} (hedge : ∀ t, still (edge t) = still t) (fb : FallbackChange) :
    Kept q (still (flasherEdge s edge fb)) := by
  cases fb <;> simp [flasherEdge, hedge, hs]

/-! ### Batteries -/

@[simp] theorem kept_recordWritten (r : HRec) (rest : List HRec) : Kept q (still (recordWritten s r rest)) := by
  have hring (v : Nat) : Kept q (still (storeEcc (grantLow s 4 1) (0x80000 + 16 * (s.batA.hwp % 32768)) 2 v)) :=
    kept_storeEcc (by simpa using hs) _ _ _
  simp [recordWritten, hring]

@[simp] theorem kept_harvestWrite : Kept q (still (harvestWrite s)) := by
  unfold harvestWrite
  split
  · exact hs
  · split
    · exact kept_granted _ hs fun t ht => kept_recordWritten ht _ _
    · exact hs

@[simp] theorem kept_validationDone (c : BatCh) (ups : List Upset) : Kept q (still (validationDone s c ups)) := by
  unfold validationDone
  split_ifs
  · exact kept_granted _ hs fun t ht => by simp [ht]
  · exact kept_upsets hs ups

@[simp] theorem kept_updateA (ups : List Upset) : Kept q (still (updateA s ups)) := by
  have hups : Kept q (still (upsets s ups)) := kept_upsets hs ups
  unfold updateA
  dsimp only
  split <;> simp [hups]

theorem kept_updateB (ups : List Upset) : Kept q (still (updateB s ups)) := by
  have hups : Kept q (still (upsets s ups)) := kept_upsets hs ups
  simp [updateB, hups]

@[simp] theorem kept_updateOf (c : BatCh) (ups : List Upset) : Kept q (still (updateOf s c ups)) := by
  have hact (t : State) (ht : Kept q (still t)) :
      Kept q (still (match c with | .chA => updateA t ups | .chB => updateB t ups)) := by
    cases c
    · exact kept_updateA ht ups
    · exact kept_updateB ht ups
  unfold updateOf
  dsimp only
  split_ifs
  · exact kept_granted _ hs hact
  · exact hact s hs

/-! ### The zero-fill, the Mailbox and the masks -/

@[simp] theorem kept_zeroFill : Kept q (still (zeroFill s)) := by
  unfold zeroFill
  split_ifs
  · exact kept_mem hs (Cellar.wf_filter _)
  · exact hs

@[simp] theorem kept_wipeMailbox : Kept q (still (wipeMailbox s)) := kept_storeEcc (by simpa using hs) _ _ _

@[simp] theorem kept_mailboxWiped : Kept q (still (mailboxWiped s)) := by
  unfold mailboxWiped
  split_ifs
  · exact kept_granted _ hs fun t ht => kept_wipeMailbox ht
  · exact hs

theorem kept_storeMask (x : Nat) (a : List Word) (w : Nat) : Kept q (still (storeMask s x a w)) :=
  kept_foldl (fun _ _ ht => kept_storeLine ht _ _) _ (by simpa using hs)

@[simp] theorem kept_ttPolicy (a : List Word) : Kept q (still (ttPolicy s a)) := by
  have hbank {t : State} (ht : Kept q (still t)) (b : Bank) : Kept q (still (if bit (rArg a 1) b.num then
      storeMask (storeMask (setBank t b { getBank t b with maskCopy := maskOf a (8 + 256 * b.num) }) (maskAddr b) a
        (8 + 256 * b.num)) (fbMaskAddr b) a (136 + 256 * b.num) else t)) := by
    split_ifs
    · exact kept_storeMask (kept_storeMask (by simpa using ht) _ _ _) _ _ _
    · exact ht
  exact hbank (hbank hs .bankA) .bankB

/-! ### The scrub and the write-backs -/

@[simp] theorem kept_scrubEight (ups : List Upset) : Kept q (still (scrubEight s ups)) := by
  have hups : Kept q (still (upsets s ups)) := kept_upsets hs ups
  simp [scrubEight, hups]

@[simp] theorem kept_scrubBurst (ups : List Upset) : Kept q (still (scrubBurst s ups)) := by
  unfold scrubBurst
  split_ifs
  · exact kept_granted _ hs fun t ht => kept_scrubEight ht ups
  · exact hs

@[simp] theorem kept_writebackServed (ups : List Upset) : Kept q (still (writebackServed s ups)) := by
  have hups : Kept q (still (upsets s ups)) := kept_upsets hs ups
  unfold writebackServed
  split
  · exact hs
  · dsimp only
    split <;> simp [hups]

@[simp] theorem kept_scrubWriteback (ups : List Upset) : Kept q (still (scrubWriteback s ups)) := by
  unfold scrubWriteback
  split_ifs
  · exact kept_granted _ hs fun t ht => kept_writebackServed ht ups
  · exact hs

/-! ### The Key log -/

@[simp] theorem kept_logServed (e : KeyLog) (rest : List KeyLog) : Kept q (still (logServed s e rest)) :=
  kept_storeEcc (by simpa using hs) _ _ _

@[simp] theorem kept_keyLogWrites : Kept q (still (keyLogWrites s)) := by
  unfold keyLogWrites
  split
  · exact hs
  · split
    · exact kept_granted _ hs fun t ht => kept_logServed ht _ _
    · exact hs

/-! ### The window and the write buffers -/

@[simp] theorem kept_pageAction (a : Nat) (v : Word) : Kept q (still (pageAction s a v)) := by
  unfold pageAction
  split <;> simp [harvestRestart, packCountersClear, eccCountersClear, ledgerClear, threadEn, bvbMinClear, hs]

@[simp] theorem kept_winStore (a : Nat) (v : Word) : Kept q (still (winStore s a v)) := by
  simp [winStore, modelHeld, modelTouched, mailboxTouched, keysStore, hs]

@[simp] theorem kept_loadServed (p : Port) (l : Load) (ups : List Upset) : Kept q (still (loadServed s p l ups)) := by
  have hups : Kept q (still (upsets s ups)) := kept_upsets hs ups
  unfold loadServed
  dsimp only
  (repeat' split) <;> simp [hups]

@[simp] theorem kept_workEnds (y : LongWork) : Kept q (still (workEnds s y)) := by
  cases y <;> simp [workEnds, hs]

@[simp] theorem kept_longServed (lvl : Nat) : Kept q (still (longServed s lvl)) := by
  unfold longServed
  split <;> simp [hs]

@[simp] theorem kept_entryServed (p : Port) (ups : List Upset) : Kept q (still (entryServed s p ups)) := by
  unfold entryServed
  split
  · exact kept_winStore (by simpa using kept_upsets (s := popEntry s p _) (by simpa using hs) ups) _ _
  · exact hs

@[simp] theorem kept_entryLeaves (p : Port) (ups : List Upset) : Kept q (still (entryLeaves s p ups)) := by
  unfold entryLeaves
  split
  · split
    · exact kept_granted _ hs fun t ht => by simp [ht]
    · exact hs
  · exact hs

@[simp] theorem kept_tagServed (p : Port) (ups : List Upset) : Kept q (still (tagServed s p ups)) := by
  unfold tagServed
  split <;> simp [hs]

@[simp] theorem kept_tagLeaves (p : Port) (ups : List Upset) : Kept q (still (tagLeaves s p ups)) := by
  have hact (t : State) (ht : Kept q (still t)) : Kept q (still (resumeHeld (tagServed t p ups))) := by simp [ht]
  unfold tagLeaves
  dsimp only
  split
  · split_ifs
    · exact hs
    · exact kept_granted _ hs hact
    · exact hact s hs
  · exact hs

@[simp] theorem kept_loadDone (p : Port) (ups : List Upset) : Kept q (still (loadDone s p ups)) := by
  unfold loadDone
  split
  · exact hs
  · split
    · exact kept_granted _ hs fun t ht => by simp [ht]
    · exact hs

@[simp] theorem kept_frontLeaves (p : Port) (ups : List Upset) : Kept q (still (frontLeaves s p ups)) := by
  unfold frontLeaves
  split <;> simp [hs]

/-! ### What the arbiter grants before an access (R140, R224) -/

@[simp] theorem kept_windowServed (p : Port) : Kept q (still (windowServed s p)) := by
  unfold windowServed
  split <;> simp [hs]

@[simp] theorem kept_lowServed (lvl : Nat) : Kept q (still (lowServed s lvl)) := by
  unfold lowServed
  (repeat' split) <;> simp [hs]

@[simp] theorem kept_servedFirst (own : Grant) (n : Nat) : Kept q (still (servedFirst own n s)) := by
  induction n generalizing s with
  | zero => exact hs
  | succ n ih =>
    unfold servedFirst
    split
    · split
      · exact hs
      · exact ih (kept_windowServed hs _)
    · split
      · exact hs
      · exact ih (kept_lowServed hs _)
    · exact hs

@[simp] theorem kept_arbWaits (own : Grant) : Kept q (still (arbWaits s own)) := kept_servedFirst hs own 32

@[simp] theorem kept_portSReady (n : Nat) : Kept q (still (portSReady n s)) := by
  induction n generalizing s with
  | zero => exact hs
  | succ n ih =>
    unfold portSReady
    split
    · exact ih (kept_entryServed (kept_arbWaits hs _) _ _)
    · exact ih (by simpa using hs)
    · exact ih (kept_tagServed (by split <;> simp [hs]) _ _)
    · split
      · exact ih (kept_loadServed (kept_arbWaits hs _) _ _ _)
      · exact hs

/-- R140: what Port S waits for at a capture. -/
@[simp] theorem kept_captured (p : Port) : Kept q (still (captured s p)) := by simp [captured, hs]

@[simp] theorem kept_pageRow (p : Port) (a : Nat) (set : Word → Word) : Kept q (still (pageRow s p a set)) := by
  have hcap : Kept q (still (captured (gen1Ale s p (hiAddr 0x0B)) p)) := kept_captured (by simpa using hs) p
  unfold pageRow
  split_ifs
  · exact hs
  · simpa using hs
  · dsimp only
    split
    · simpa using hcap
    · split
      · next hserve => exact kept_winStore (by simpa [still_arbServe hserve] using hcap) _ _
      · simpa using hcap

/-! ### Registers and what falls together with a write of one (R131, R159, R208) -/

@[simp] theorem kept_regWriteBody (p : Port) (off : Nat) (v : Word) : Kept q (still (regWriteBody p off s v)) := by
  unfold regWriteBody
  split <;> simp [hs]

@[simp] theorem kept_regWrite (p : Port) (a : Fin 64) (v : Word) : Kept q (still (regWrite s p a v)) :=
  gate_keepsStill p a v hs fun _ w ht => kept_regWriteBody ht p _ w

@[simp] theorem kept_regReadBody (p : Port) (off : Nat) : Kept q (still (regReadBody p off s).2) := by
  unfold regReadBody
  split <;> simp [hs]

@[simp] theorem kept_regRead (p : Port) (a : Fin 64) : Kept q (still (regRead s p a)) := by
  unfold regRead
  split
  · have h : Kept q (still (wdataReadOp (captured s p) p).2) := by simp [hs]
    split <;> next heq => simpa [heq] using h
  · exact readGate_keepsStill p a hs (kept_regReadBody hs p _)

@[simp] theorem kept_gen1Strobe {act : State → Byte → State}
    (hact : ∀ t ad, Kept q (still t) → Kept q (still (act t ad))) (ale : Option Byte) (cs : Bool) :
    Kept q (still (gen1Strobe s ale cs act)) := by
  unfold gen1Strobe
  dsimp only
  split_ifs
  · exact hact _ _ hs
  · exact hs
  · exact hs

@[simp] theorem kept_gen1Read (ad : Byte) : Kept q (still (gen1Read s ad)) := by simp [gen1Read, hs]

@[simp] theorem kept_gen1Write (ad b : Byte) : Kept q (still (gen1Write s ad b)) := by simp [gen1Write, hs]

@[simp] theorem kept_frameCaptured (a : Fin 64) : Kept q (still (frameCaptured s a)) := by simp [frameCaptured, hs]

@[simp] theorem kept_frameWrite (a : Fin 64) (v : Word) : Kept q (still (frameWrite s a v)) :=
  answered_keepsStill a v (kept_frameCaptured hs a) fun _ ht => kept_regWrite ht .portS a v

@[simp] theorem kept_writePair (aS : Fin 64) (vS : Word) (aP : Fin 64) (vP : Word) :
    Kept q (still (writePair s aS vS aP vP)) := by
  have hboth := kept_regWrite (kept_frameWrite hs aS vS) .portP aP vP
  unfold writePair
  split_ifs
  · simpa using hs
  · simpa using hs
  · unfold dpwrPair
    split
    · simpa using hs
    · simp [hs]
  · exact hboth

@[simp] theorem kept_besideWait {act : State → State} (hact : ∀ t, Kept q (still t) → Kept q (still (act t)))
    (p : Port) (bs : List Bank) (a : Fin 64) (v : Word) : Kept q (still (besideWait s p bs a v act).1) := by
  have hdone := hact s hs
  unfold besideWait
  dsimp only
  split
  · split
    · exact hdone
    · split <;> simpa using hs
  · split
    · simpa using hs
    · exact hdone
  · exact hs
  · split <;> simpa using hs
  · exact hdone

@[simp] theorem kept_writeWait (p : Port) (bs : List Bank) (a : Fin 64) (v : Word) :
    Kept q (still (writeWait s p bs a v).1) := by
  unfold writeWait
  split
  · split
    · exact kept_besideWait (by simpa using hs) (fun t ht => kept_regWriteBody ht _ _ _) _ _ _ _
    · exact kept_regWrite hs p a v
  · exact kept_regWrite hs p a v

@[simp] theorem kept_frameWait (bs : List Bank) (a : Fin 64) (v : Word) : Kept q (still (frameWait s bs a v).1) :=
  answered_keepsStill a v (kept_frameCaptured hs a) fun _ ht => kept_writeWait ht .portS bs a v

@[simp] theorem kept_pairWait (bs : List Bank) (aS : Fin 64) (vS : Word) (aP : Fin 64) (vP : Word) :
    Kept q (still (pairWait s bs aS vS aP vP).1) := by
  unfold pairWait
  split
  · simpa using hs
  · split
    · exact kept_writePair hs aS vS aP vP
    · exact kept_writeWait (kept_frameWait hs bs aS vS) .portP bs aP vP

@[simp] theorem kept_bothWrite (S P : Option (Fin 64 × Word)) : Kept q (still (bothWrite s S P)) := by
  cases S <;> cases P <;> simp [bothWrite, hs]

@[simp] theorem kept_bothWait (bs : List Bank) (S P : Option (Fin 64 × Word)) :
    Kept q (still (bothWait s bs S P).1) := by
  cases S <;> cases P <;> simp [bothWait, hs]

theorem kept_deviceLast {act rest : State → State} (hact : ∀ t, Kept q (still t) → Kept q (still (act t)))
    (hrest : ∀ t, Kept q (still t) → Kept q (still (rest t))) : Kept q (still (deviceLast s act rest)) := by
  have h : Kept q (still (rest { act { s with err := ErrRec.none } with err := s.err })) := hrest _ (hact _ hs)
  unfold deviceLast
  dsimp only
  split
  · exact h
  · exact h

theorem kept_writesBeside (p : Port) (a : Fin 64) (v : Word) (w : Beside) :
    Kept q (still (writesBeside s p a v w)) := by
  unfold writesBeside
  dsimp only
  refine kept_deviceLast (kept_bothWrite hs _ _) (fun t ht => ?leave) fun t ht => ?writes
  case leave =>
    split <;> simp [ht]
  case writes =>
    split
    · exact kept_bothWrite ht _ _
    · split <;> simp [ht]

@[simp] theorem kept_writeBeside (p : Port) (a : Fin 64) (v : Word) (w : Beside) :
    Kept q (still (writeBeside s p a v w)) := by
  unfold writeBeside
  split
  · exact kept_regWrite hs p a v
  · exact kept_writesBeside hs p a v w

@[simp] theorem kept_portSFrame (bits : List Bool) : Kept q (still (portSFrame s bits)) := by
  simp [portSFrame, readAnswer, hs]

/-! ### The commands that keep all of it -/

theorem kept_frameEdge : Kept q (still (frameEdge s)) := by simp [frameEdge, hs]

theorem kept_tick : Kept q (still (tick s)) := by
  have hisland : Kept q (still (lockoutTick (aonTick { s with now := s.now + 1 }))) := by simp [aonTick, hs]
  unfold tick
  dsimp only
  generalize lockoutTick (aonTick { s with now := s.now + 1 }) = u at hisland ⊢
  split_ifs
  · exact kept_frameEdge (kept_mailboxWiped (by simpa using hisland))
  · exact hisland

theorem kept_effect {body : State → Accepted → State} (hbody : ∀ t a, Kept q (still t) → Kept q (still (body t a)))
    (c : AuthCmd) : Kept q (still (effect s c body)) := by
  unfold effect
  dsimp only
  split
  · split_ifs
    · exact hbody _ _ (by simpa using hs)
    · simpa using hs
  · simpa using hs

@[simp] theorem kept_wakeCompletes : Kept q (still (wakeCompletes s)) := by simp [wakeCompletes, hs]

end

/-! ### Resets (Table PWR-3) -/

/-- R490: what a reset leaves of the value: the torn counter write, the waiting commands, and an empty list. -/
def resetStill (s : State) : Still := ⟨(tornCounter s).nv, s.pending, true⟩

theorem pending_tornCounter (s : State) : (tornCounter s).pending = s.pending := by
  unfold tornCounter
  split
  · split_ifs <;> rfl
  · rfl

theorem still_wiped (s : State) : still (wiped s) = resetStill s := by
  simp only [wiped, still_mk, resetStill, pending_tornCounter]
  rfl

theorem still_coldBoot (s : State) (cause : Nat) (running : Bool) : still (coldBoot s cause running) = resetStill s :=
  still_wiped s

theorem still_corkMode (s : State) : still (corkMode s) = resetStill s := still_wiped s

/-- What every command keeps, whatever it does to the counter cells: the UID, the key slots, the waiting commands and a
canonical Cellar. -/
def KeptKeys (q x : Still) : Prop :=
  x.nv.uid = q.nv.uid ∧ x.nv.kApp = q.nv.kApp ∧ x.nv.kSup = q.nv.kSup ∧ x.pending = q.pending ∧
    (q.canon = true → x.canon = true)

section
variable {q : Still} {s : State} (hs : Kept q (still s))
include hs

theorem Kept.keys : KeptKeys q (still s) := by
  obtain ⟨hnv, hpending, hcanon⟩ := hs
  exact ⟨by rw [hnv], by rw [hnv], by rw [hnv], hpending, hcanon⟩

theorem keptKeys_resetStill : KeptKeys q (resetStill s) := by
  obtain ⟨hnv, hpending, -⟩ := hs
  obtain ⟨happ, hsup, huid⟩ := tornCounter_keys s
  change s.nv = q.nv at hnv
  exact ⟨hnv ▸ huid, hnv ▸ happ, hnv ▸ hsup, hpending, fun _ => rfl⟩

theorem kept_ledgerBooked (b : Bank) : Kept q (still (ledgerBooked s b)) := by
  unfold ledgerBooked
  exact kept_markUnused (kept_foldl (fun _ _ ht => kept_passEnds ht b) _ (by split <;> simp [hs])) b _ _

/-- R294: a ledger that outlives a warm boot is a part of a canonical list. -/
theorem canon_ledgerKept (w : State) (h : q.canon = true) : Cellar.wf (ledgerKept s w).mem = true := by
  have hbooked := (kept_ledgerBooked (kept_ledgerBooked hs .bankA) .bankB).mem_wf h
  unfold ledgerKept
  generalize ledgerBooked (ledgerBooked s .bankA) .bankB = u at hbooked ⊢
  exact Cellar.wf_filter _ hbooked

theorem keptKeys_warmBoot (cause : Nat) : KeptKeys q (still (warmBoot s cause)) := by
  obtain ⟨huid, happ, hsup, hpending, -⟩ := keptKeys_resetStill (q := q) (s := faceTakesHeld s) (by simpa using hs)
  have hnv : (warmBoot s cause).nv = (tornCounter (faceTakesHeld s)).nv := by rw [warmBoot_frame, warmWiped_frame]; rfl
  have hqueue : (warmBoot s cause).pending = (faceTakesHeld s).pending := by
    rw [warmBoot_frame, warmWiped_frame]
    exact pending_tornCounter _
  have hmem : (warmBoot s cause).mem = (warmWiped s).mem := by rw [warmBoot_frame]
  refine ⟨(congrArg Nv.uid hnv).trans huid, (congrArg Nv.kApp hnv).trans happ, (congrArg Nv.kSup hnv).trans hsup,
    hqueue.trans hpending, fun h => ?_⟩
  change Cellar.wf (warmBoot s cause).mem = true
  rw [hmem]
  unfold warmWiped
  split
  · exact canon_ledgerKept hs _ h
  · rfl

theorem keptKeys_warmStarts : KeptKeys q (still (warmStarts s)) := by
  unfold warmStarts
  split
  · split
    · exact keptKeys_warmBoot hs 1
    · split_ifs
      · exact hs.keys
      · exact keptKeys_warmBoot hs 2
    · exact hs.keys
  · exact hs.keys

theorem keptKeys_powerOn (straps : Straps) : KeptKeys q (still (powerOn s straps)) := by
  unfold powerOn
  split_ifs
  · exact still_coldBoot (sampleStraps s straps) 0 s.clk.xtalRuns ▸ keptKeys_resetStill (s := sampleStraps s straps) hs
  · exact hs.keys

theorem keptKeys_corkExits (straps : Straps) : KeptKeys q (still (corkExits s straps)) := by
  unfold corkExits
  split_ifs
  · exact still_coldBoot (sampleStraps s straps) 4 false ▸ keptKeys_resetStill (s := sampleStraps s straps) hs
  · exact hs.keys

theorem keptKeys_powerLoss : KeptKeys q (still (powerLoss s)) := by
  unfold powerLoss
  split_ifs
  · exact hs.keys
  · exact still_wiped s ▸ keptKeys_resetStill hs

theorem keptKeys_corkShip : KeptKeys q (still (corkShip s)) := by
  unfold corkShip
  split_ifs
  · exact Kept.keys (by simp [hs])
  · exact still_corkMode s ▸ keptKeys_resetStill hs
  · exact hs.keys

/-- R45: the expiry reaction waits for a counter write, so that its clock-failure reset cuts none. -/
@[simp] theorem kept_expiryDone : Kept q (still (expiryDone s)) := by
  unfold expiryDone
  dsimp only
  split_ifs with h
  · obtain ⟨-, -, -, hdone⟩ := h
    have htorn : tornCounter s = s := by
      unfold tornCounter
      split
      · next a ha => simp_all
      · rfl
    rw [clockFailure, still_coldBoot, resetStill, htorn]
    exact ⟨hs.1, hs.2.1, fun _ => rfl⟩
  · exact hs

@[simp] theorem kept_enterHold : Kept q (still (enterHold s)) := by simp [enterHold, expiryBegins, hs]

@[simp] theorem kept_rootLost (pllToo : Bool) : Kept q (still (rootLost s pllToo)) := by
  unfold rootLost
  split
  · exact hs
  · dsimp only
    split <;> simp [hs]

@[simp] theorem kept_pllLost : Kept q (still (pllLost s)) := by
  unfold pllLost
  split
  · exact hs
  · dsimp only
    split <;> simp [hs]

theorem keptKeys_holdExpires : KeptKeys q (still (holdExpires s)) := by
  unfold holdExpires
  split_ifs
  · exact still_coldBoot s 3 s.clk.rootOk ▸ keptKeys_resetStill hs
  · exact Kept.keys (by simp [expiryBegins, hs])
  · exact hs.keys

/-- R490: the write of the counter changes the cells alone. -/
theorem keptKeys_counterWritten : KeptKeys q (still (counterWritten s)) := by
  have hverdict : Kept q (still (authVerdict s)) := by simpa using hs
  unfold counterWritten
  dsimp only
  split
  · next a ha =>
    split_ifs
    · exact hverdict.keys
    · obtain ⟨hnv, hpending, hcanon⟩ := hverdict
      change (authVerdict s).nv = q.nv at hnv
      have hcells (t : State) (hnv' : t.nv.uid = q.nv.uid ∧ t.nv.kApp = q.nv.kApp ∧ t.nv.kSup = q.nv.kSup)
          (hpending' : t.pending = q.pending) (hcanon' : q.canon = true → Cellar.wf t.mem = true) :
          KeptKeys q (still (expiryDone t)) := by
        obtain ⟨hn, hp, hc⟩ := kept_expiryDone (Kept.refl (still t))
        change (expiryDone t).nv = t.nv at hn
        obtain ⟨huid, happ, hsup⟩ := hnv'
        exact ⟨(congrArg Nv.uid hn).trans huid, (congrArg Nv.kApp hn).trans happ, (congrArg Nv.kSup hn).trans hsup,
          hp.trans hpending', fun h => hc (hcanon' h)⟩
      exact hcells _ ⟨by rw [← hnv], by rw [← hnv], by rw [← hnv]⟩ hpending hcanon
  · exact hverdict.keys

end

/-! ### The commands and the step -/

/-- The commands that can write the counter cells or a key slot (R490, R499, R500). -/
def writesNv : Instr → Bool
  | .provisioningRequest _ | .counterWriteDone | .powerOnReset _ | .powerOnResetAssertion | .corkExit _
  | .corkShipStep | .warmBootStart | .holdoverExpiry => true
  | _ => false

/-- Every other command keeps the OTP, the counter, the queue and a canonical Cellar. -/
theorem kept_exec {c : Instr} {s t : State} (h : exec c s = .next t) (hc : writesNv c = false) :
    Kept (still s) (still t) := by
  have hs := Kept.refl (still s)
  cases c with
  | provisioningRequest _ | counterWriteDone | powerOnReset _ | powerOnResetAssertion | corkExit _ | corkShipStep
  | warmBootStart | holdoverExpiry => cases hc
  | gen1LowByteWrite ale cs b => cases h; exact kept_gen1Strobe hs (fun t ad ht => kept_gen1Write ht ad b) ale cs
  | gen1LowByteRead ale cs => cases h; exact kept_gen1Strobe hs (fun t ad ht => kept_gen1Read ht ad) ale cs
  | wdataWrite p v => cases h; exact gate_keepsStill p 0x0B v hs fun t w ht => by simp [ht]
  | dcommit p v => cases h; exact gate_keepsStill p 0x10 v hs fun t w ht => by simp [ht]
  | atagWrite p v => cases h; exact gate_keepsStill p 0x28 v hs fun t w ht => by simp [ht]
  | bookingPassEnd b ups =>
    cases h
    split_ifs
    · exact kept_granted _ hs fun t ht => kept_passEnds (kept_upsets ht ups) b
    · exact hs
  | cork => cases h; exact kept_effect hs (fun t a ht => by split <;> simp [ht]) _
  | ttPolicy => cases h; exact kept_effect hs (fun t a ht => kept_granted _ ht fun u hu => by simp [hu]) _
  | _ => cases h; simp [hs]

/-- The non-volatile cells after a provisioning request (R499, R500). -/
def provisionedNv (s : State) (a : Accepted) (ok : Bool) : Nv :=
  let id := rArg a.args 2
  let slot := if ok then KeySlot.key (provisionKey (a.args.map (fun w => [loByte w, hiByte w])).flatten) id
    else KeySlot.failed id
  if rArg a.args 1 = 0 then { s.nv with kApp := slot } else { s.nv with kSup := slot }

theorem provisionedNv_keeps (s : State) (a : Accepted) (ok : Bool) : (provisionedNv s a ok).uid = s.nv.uid ∧
    (provisionedNv s a ok).cells = s.nv.cells ∧ (provisionedNv s a ok).acc = s.nv.acc := by
  unfold provisionedNv
  dsimp only
  split <;> exact ⟨rfl, rfl, rfl⟩

theorem kept_provisionEffect {q : Still} {s : State} (hs : Kept q (still s)) (a : Accepted) (ok : Bool) :
    Kept { q with nv := provisionedNv s a ok } (still (provisionEffect s a ok)) := by
  have hslot : Kept { q with nv := provisionedNv s a ok } (still { s with nv := provisionedNv s a ok }) :=
    ⟨rfl, hs.pending_eq, hs.mem_wf⟩
  have hwiped := kept_wipeMailbox hslot
  have heffect : provisionEffect s a ok = if ok then authDone (wipeMailbox { s with nv := provisionedNv s a ok }) 0
    else authRefuse (wipeMailbox { s with nv := provisionedNv s a ok }) a.port eSTATE := rfl
  rw [heffect]
  split <;> simpa using hwiped

theorem provisioningRequest_cases {ok : Bool} {s t : State} (h : exec (.provisioningRequest ok) s = .next t) :
    t = authVerdict s ∨
      ∃ a u, arbServe (authVerdict s) (.low 3) = some u ∧ t = provisionEffect u a ok := by
  cases h
  unfold effect granted
  dsimp only
  split
  · split
    · split
      · next hserve => exact .inr ⟨_, _, hserve, rfl⟩
      · exact .inl rfl
    · exact .inl rfl
  · exact .inl rfl

theorem keys_provisioningRequest {ok : Bool} {s t : State} (h : exec (.provisioningRequest ok) s = .next t) :
    t.nv.uid = s.nv.uid ∧ t.nv.cells = s.nv.cells ∧ t.nv.acc = s.nv.acc ∧ t.pending = s.pending ∧
      (Cellar.wf s.mem = true → Cellar.wf t.mem = true) := by
  have hverdict : Kept (still s) (still (authVerdict s)) := by simpa using Kept.refl (still s)
  rcases provisioningRequest_cases h with rfl | ⟨a, u, hserve, rfl⟩
  · have hnv := hverdict.nv_eq
    exact ⟨congrArg Nv.uid hnv, congrArg Nv.cells hnv, congrArg Nv.acc hnv, hverdict.pending_eq, hverdict.mem_wf⟩
  · have hu : Kept (still s) (still u) := by rwa [still_arbServe hserve]
    have hk := kept_provisionEffect hu a ok
    have hnv := hu.nv_eq
    obtain ⟨huid, hcells, hacc⟩ := provisionedNv_keeps u a ok
    exact ⟨(congrArg Nv.uid hk.nv_eq).trans (huid.trans (congrArg Nv.uid hnv)),
      (congrArg Nv.cells hk.nv_eq).trans (hcells.trans (congrArg Nv.cells hnv)),
      (congrArg Nv.acc hk.nv_eq).trans (hacc.trans (congrArg Nv.acc hnv)), hk.pending_eq, hk.mem_wf⟩

/-- Every command but the provisioning request keeps the UID, the key slots, the queue and a canonical Cellar. -/
theorem keptKeys_exec {c : Instr} {s t : State} (h : exec c s = .next t) (hc : ∀ ok, c ≠ .provisioningRequest ok) :
    KeptKeys (still s) (still t) := by
  have hs := Kept.refl (still s)
  cases hw : writesNv c with
  | false => exact (kept_exec h hw).keys
  | true =>
    cases c with
    | provisioningRequest ok => exact absurd rfl (hc ok)
    | counterWriteDone => cases h; exact keptKeys_counterWritten hs
    | powerOnReset x => cases h; exact keptKeys_powerOn hs x
    | powerOnResetAssertion => cases h; exact keptKeys_powerLoss hs
    | corkExit x => cases h; exact keptKeys_corkExits hs x
    | corkShipStep => cases h; exact keptKeys_corkShip hs
    | warmBootStart => cases h; exact keptKeys_warmStarts hs
    | holdoverExpiry => cases h; exact keptKeys_holdExpires hs
    | _ => cases hw

/-- Every command leaves the queue and a canonical Cellar. -/
theorem exec_queue_and_cellar {c : Instr} {s t : State} (h : exec c s = .next t) :
    t.pending = s.pending ∧ (Cellar.wf s.mem = true → Cellar.wf t.mem = true) := by
  by_cases hprov : ∃ ok, c = .provisioningRequest ok
  · obtain ⟨ok, rfl⟩ := hprov
    obtain ⟨-, -, -, hpending, hcanon⟩ := keys_provisioningRequest h
    exact ⟨hpending, hcanon⟩
  · obtain ⟨-, -, -, hpending, hcanon⟩ := keptKeys_exec h fun ok hc => hprov ⟨ok, hc⟩
    exact ⟨hpending, hcanon⟩

/-- Settles O5: a command keeps a canonical Cellar and so does an idle cycle; every write of a byte does. -/
theorem cellarStaysCanonical : Obligations.CellarStaysCanonical := by
  unfold Obligations.CellarStaysCanonical
  intro s t hs hstep
  unfold step at hstep
  split at hstep
  · cases hstep
    exact (kept_tick (Kept.refl (still s))).mem_wf hs
  · exact (exec_queue_and_cellar hstep).2 hs

/-- Settles O7: only the rows of `writesNv` reach the cells; of those the resets and the counter write leave the key slots
and the provisioning request the counter. -/
theorem otpAndCounterAreWrittenOnlyByTheirRules : Obligations.OtpAndCounterAreWrittenOnlyByTheirRules := by
  unfold Obligations.OtpAndCounterAreWrittenOnlyByTheirRules
  intro c s t h
  by_cases hprov : ∃ ok, c = .provisioningRequest ok
  · obtain ⟨ok, rfl⟩ := hprov
    obtain ⟨huid, hcells, hacc, -, -⟩ := keys_provisioningRequest h
    exact ⟨huid, fun hne => absurd rfl (hne ok), fun _ _ _ _ _ _ _ => ⟨hcells, hacc⟩⟩
  · have hne (ok : Bool) : c ≠ .provisioningRequest ok := fun hc => hprov ⟨ok, hc⟩
    obtain ⟨huid, happ, hsup, -, -⟩ := keptKeys_exec h hne
    refine ⟨huid, fun _ => ⟨happ, hsup⟩, fun hwrite hon hoff hexit hship hwarm hhold => ?_⟩
    have hc : writesNv c = false := by
      unfold writesNv
      split
      · exact absurd rfl (hne _)
      · exact absurd rfl hwrite
      · exact absurd rfl (hon _)
      · exact absurd rfl hoff
      · exact absurd rfl (hexit _)
      · exact absurd rfl hship
      · exact absurd rfl hwarm
      · exact absurd rfl hhold
      · rfl
    have hnv := (kept_exec h hc).nv_eq
    exact ⟨congrArg Nv.cells hnv, congrArg Nv.acc hnv⟩

end Sys2Proof.Machine
end

section
/-! The step, the dispatch and the state after reset (O1, O3, O4). -/

namespace Sys2Proof.Machine

open Sys2Proof

/-- Settles O1: it is the second equation of `step`. -/
theorem stepRunsFrontCommand : Obligations.StepRunsFrontCommand := by
  unfold Obligations.StepRunsFrontCommand
  intro c rest s
  rfl

/-- Every arm of the dispatch gives its command a next state. -/
theorem exec_next (c : Instr) (s : State) : ∃ t, exec c s = .next t := by
  cases c <;> exact ⟨_, rfl⟩

/-- Settles O4: a step is an idle cycle or a command, and each answers a next state. -/
theorem everyStepGoesOn : Obligations.EveryStepGoesOn := by
  unfold Obligations.EveryStepGoesOn
  refine ⟨exec_next, fun s => ?_⟩
  unfold stepsOn step
  split
  · exact ⟨_, rfl⟩
  · exact exec_next _ _

set_option maxRecDepth 20000 in
/-- Table REG-1: what the registers read after reset, on either port. -/
theorem regValue_reset (p : Port) : ∀ x ∈ ([(0x00, 0x4096), (0x02, 0x00B0), (0x04, 0x0001), (0x06, 0), (0x08, 1),
    (0x0A, 1), (0x0C, 0), (0x0E, 0), (0x12, 0), (0x14, 0), (0x18, 5), (0x1A, 0x00A7), (0x1C, 0), (0x1E, 0), (0x20, 0),
    (0x22, 0), (0x24, 0), (0x26, 0x0100), (0x28, 3), (0x2A, 0x7F34), (0x2C, 0), (0x30, 0), (0x32, 0), (0x34, 0),
    (0x36, 0x03E8), (0x38, 0), (0x3A, 0x0027), (0x3C, 0), (0x3E, 0xFFFF), (0x40, 0xFFFF), (0x42, 0), (0x44, 0x8000),
    (0x46, 0x8000), (0x4A, 0), (0x4C, 0), (0x4E, 0), (0x50, 0), (0x56, 0), (0x5A, 0), (0x5C, 0x0103), (0x62, 0),
    (0x66, 0)] : List (Nat × Word)), regValue State.reset p x.1 = x.2 := by
  cases p <;> decide

theorem queueBounds_reset : queueBounds State.reset := by
  unfold queueBounds
  decide

/-- Settles O3: the table by evaluation; the Cellar's list is empty after reset. -/
theorem resetReadsTableREG1 : Obligations.ResetReadsTableREG1 := by
  unfold Obligations.ResetReadsTableREG1
  exact ⟨⟨regValue_reset, rfl, fun _ => rfl⟩, rfl, queueBounds_reset⟩

end Sys2Proof.Machine
end

section
/-! An idle CK_FRAME cycle (R269, R492, R508, O2): what the bursts of its edge leave of the time, the island, the command
engine and the banks' sequences, and what the edge does to a power-down that waits in state 3. -/

namespace Sys2Proof.Machine

open Sys2Proof

/-! ### What the bursts of an edge leave -/

/-- The time, the island, the command engine, and where the sequence of each bank stands. -/
structure IdleView where
  now : Nat
  aon : Aon
  auth : Auth
  staA : Sta
  staB : Sta

/-- The value of a machine. -/
def idleView (s : State) : IdleView := ⟨s.now, s.aon, s.auth, s.bankA.drv.sta, s.bankB.drv.sta⟩

theorem idleView_sta (s : State) (b : Bank) : (getBank s b).drv.sta = match b with
    | .bankA => (idleView s).staA
    | .bankB => (idleView s).staB := by
  cases b <;> rfl

theorem idleView_setBank {s : State} {b : Bank} {x : BankSt} (h : x.drv.sta = (getBank s b).drv.sta) :
    idleView (setBank s b x) = idleView s := by
  cases b <;> simp only [getBank] at h <;> simp [idleView, setBank, h]

theorem idleView_foldl {α : Type} {f : State → α → State} (hf : ∀ s a, idleView (f s a) = idleView s) (l : List α)
    (s : State) : idleView (l.foldl f s) = idleView s := by
  induction l generalizing s with
  | nil => rfl
  | cons a l ih => exact (ih _).trans (hf s a)

theorem idleView_eccReadN (s : State) (w n : Nat) : idleView (eccReadN s w n) = idleView s := by
  rw [eccReadN_frame]
  rfl

theorem idleView_intoIdle (s : State) (b : Bank) (l i : Nat) (v : BitVec 128) :
    idleView (intoIdle s b l i v) = idleView s := by
  rw [intoIdle, storeLine, storeEcc_frame]
  rfl

theorem idleView_rackLayer (s : State) (b : Bank) (q : Burst) (l : Nat) :
    idleView (rackLayer s b q l) = idleView s := by
  unfold rackLayer
  dsimp only
  split_ifs <;> simp [idleView_intoIdle, idleView_eccReadN]

theorem idleView_l0Burst (s : State) (b : Bank) (q : Burst) : idleView (l0Burst s b q) = idleView s := by
  have hfetch : idleView (if q.shown then fetchReads s b q.line else s) = idleView s := by
    split
    · exact idleView_foldl (fun t l => idleView_eccReadN t _ 2) _ s
    · rfl
  exact (idleView_foldl (fun t l => idleView_rackLayer t b q l) _ _).trans hfetch

theorem idleView_burstRuns (s : State) (b : Bank) : idleView (burstRuns s b) = idleView s := by
  unfold burstRuns
  dsimp only
  split
  · rfl
  · rw [idleView_l0Burst]
    exact idleView_setBank rfl

theorem idleView_burstEdge (s : State) : idleView (burstEdge s) = idleView s := by
  unfold burstEdge
  split <;> exact idleView_burstRuns s _

theorem idleView_recordFlushed (b : Bank) (s : State) (r : Nat × Nat) :
    idleView (recordFlushed b s r) = idleView s := by
  unfold recordFlushed
  dsimp only
  refine (idleView_setBank (congrArg Drive.sta (setLayer_flush _ _ _).1)).trans ?_
  rw [idleView_intoIdle, idleView_eccReadN]

theorem idleView_flushEdge (s : State) : idleView (flushEdge s) = idleView s := by
  have hburst (b : Bank) : idleView (flushBurst s b) = idleView s :=
    idleView_foldl (fun t r => idleView_recordFlushed b t r) _ s
  unfold flushEdge
  split_ifs
  · rfl
  · exact hburst .bankA
  · exact hburst .bankB
  · rfl

theorem idleView_scanEdge (s : State) : idleView (scanEdge s) = idleView s := by
  unfold scanEdge
  split <;> rfl

theorem idleView_heldPlaced (s : State) (b : Bank) : idleView (heldPlaced s b) = idleView s := by
  obtain ⟨L, H, h⟩ := heldPlaced_bank s b
  rw [h]
  exact idleView_setBank rfl

/-! ### The edge (R269) -/

theorem onBank_downEdge (s : State) (b : Bank) : OnBank s b (downEdge s b) := by
  unfold downEdge
  dsimp only
  split
  · exact (onBank_enterGround s b true true false).trans (onBank_setDrv _ b _)
  · exact OnBank.refl s b

/-- R269: a power-down that waits in state 3 grounds its bank. -/
theorem downEdge_grounds {s : State} {b : Bank} (hsta : (getBank s b).drv.sta = .allOff)
    (hpend : (getBank s b).drv.pend ≠ .none) : (getBank (downEdge s b) b).drv.sta = .grounding := by
  unfold downEdge
  dsimp only
  rw [if_pos ⟨hsta, hpend⟩]
  simp [setDrv, enterGround_drv]

theorem OnBank.idle {s t : State} {b : Bank} (h : OnBank s b t) :
    t.now = s.now ∧ t.aon = s.aon ∧ t.auth = s.auth := by
  rw [h]
  cases b <;> exact ⟨rfl, rfl, rfl⟩

/-- An edge leaves the time, the island and the command engine, and grounds the banks whose power-down waits. -/
theorem frameEdge_idle (s : State) : (frameEdge s).now = s.now ∧ (frameEdge s).aon = s.aon ∧
    (frameEdge s).auth = s.auth ∧ ∀ b, (getBank s b).drv.sta = .allOff → (getBank s b).drv.pend ≠ .none →
      (getBank (frameEdge s) b).drv.sta = .grounding := by
  have hview : idleView (frameEdge s) = idleView (downEdge (downEdge s .bankA) .bankB) := by
    rw [frameEdge, idleView_scanEdge, idleView_flushEdge, idleView_burstEdge, idleView_heldPlaced, idleView_heldPlaced]
  have hdown : idleView (downEdge (downEdge s .bankA) .bankB) =
      { idleView s with staA := (downEdge (downEdge s .bankA) .bankB).bankA.drv.sta
                        staB := (downEdge (downEdge s .bankA) .bankB).bankB.drv.sta } := by
    obtain ⟨hnowA, haonA, hauthA⟩ := (onBank_downEdge s .bankA).idle
    obtain ⟨hnowB, haonB, hauthB⟩ := (onBank_downEdge (downEdge s .bankA) .bankB).idle
    simp only [idleView, hnowA, hnowB, haonA, haonB, hauthA, hauthB]
  rw [hdown] at hview
  refine ⟨congrArg IdleView.now hview, congrArg IdleView.aon hview, congrArg IdleView.auth hview,
    fun b hsta hpend => ?_⟩
  obtain ⟨u, hu, -, -, hboth⟩ := OnBank.both_getBank onBank_downEdge s b
  have hground : (getBank (downEdge (downEdge s .bankA) .bankB) b).drv.sta = .grounding := by
    rw [hboth]
    exact downEdge_grounds (hu ▸ hsta) (hu ▸ hpend)
  rw [idleView_sta, hview]
  cases b <;> exact hground

/-! ### The island and the lockout (R492, R508) -/

/-- R508, R47: an edge of CK_AON changes the island, and notes a substituted clock. -/
theorem aonEdge_frame (s : State) : aonEdge s = { s with
    clk := { s.clk with timeSub := (aonEdge s).clk.timeSub }, aon := (aonEdge s).aon } := rfl

/-- R508: the island's part of a cycle leaves everything that decides what runs. -/
theorem aonTick_frame (s : State) : aonTick s = { s with
    clk := { s.clk with timeSub := (aonTick s).clk.timeSub }, aon := (aonTick s).aon } := by
  unfold aonTick
  dsimp only
  split
  · split
    · rw [aonEdge_frame]
    · rfl
  · rfl

theorem aonTick_stopped {s : State} (h : ckAon s = false) : aonTick s = s := by
  unfold aonTick
  rw [h]
  rfl

/-- R508: 8/375 of a CK_AON cycle passes. -/
theorem aonTick_within {s : State} (h : ckAon s = true) (hphase : s.aon.phase < 367) :
    aonTick s = { s with aon := { s.aon with phase := s.aon.phase + 8 } } := by
  unfold aonTick
  dsimp only
  rw [if_pos h, if_neg (by omega)]

theorem aonTick_wraps {s : State} (h : ckAon s = true) (hphase : 367 ≤ s.aon.phase) :
    (aonTick s).aon.phase = s.aon.phase - 367 := by
  unfold aonTick
  dsimp only
  rw [if_pos h, if_pos (by omega)]
  show s.aon.phase + 8 - 375 = s.aon.phase - 367
  omega

/-- R492: a cycle of the lockout changes the command engine alone. -/
theorem lockoutTick_frame (s : State) : lockoutTick s = { s with auth := (lockoutTick s).auth } := by
  unfold lockoutTick lockoutEnds
  split_ifs <;> rfl

theorem lockoutTick_idle {s : State} (h : s.auth.lockOn = false ∨ ckAon s = false) : lockoutTick s = s := by
  unfold lockoutTick
  rw [if_neg]
  rintro ⟨hlock, haon⟩
  rcases h with h | h <;> simp_all

theorem lockoutTick_counts {s : State} (hlock : s.auth.lockOn = true) (haon : ckAon s = true)
    (hleft : 1 < s.auth.lockLeft) :
    lockoutTick s = { s with auth := { s.auth with lockLeft := s.auth.lockLeft - 1 } } := by
  unfold lockoutTick
  rw [if_pos ⟨hlock, haon⟩, if_neg (by omega)]

theorem lockoutTick_verdict (s : State) : (lockoutTick s).auth.verify = s.auth.verify ∧
    (lockoutTick s).auth.wipe = s.auth.wipe := by
  unfold lockoutTick lockoutEnds
  split_ifs <;> exact ⟨rfl, rfl⟩

/-! ### The tick -/

/-- What of a cycle comes before the CK_FRAME edge of the fast domains. -/
def islandTick (s : State) : State := lockoutTick (aonTick { s with now := s.now + 1 })

/-- An island without a clock, and a lockout with it, stand still. -/
theorem islandTick_stopped {s : State} (h : ckAon s = false) : islandTick s = { s with now := s.now + 1 } := by
  have haon : aonTick { s with now := s.now + 1 } = { s with now := s.now + 1 } := aonTick_stopped h
  rw [islandTick, haon]
  exact lockoutTick_idle (.inr h)

theorem islandTick_frame (s : State) : islandTick s = { s with
    now := s.now + 1, clk := { s.clk with timeSub := (islandTick s).clk.timeSub }, aon := (islandTick s).aon
    auth := (islandTick s).auth } := by
  unfold islandTick
  rw [lockoutTick_frame, aonTick_frame]

/-- A cycle in which the fast domains stand still is the island's part of it. -/
theorem tick_stopped {s : State} (h : domains s = false) : tick s = islandTick s := by
  have hdomains : domains (islandTick s) = false := by rw [islandTick_frame]; exact h
  show (if domains (islandTick s) then _ else islandTick s) = _
  rw [hdomains]
  rfl

/-- With no verification and no wipe, the rest of a cycle is the edge of the fast domains. -/
theorem tick_edge {s : State} (hverify : s.auth.verify = none) (hwipe : s.auth.wipe = false) (h : domains s = true) :
    tick s = frameEdge (islandTick s) := by
  have hdomains : domains (islandTick s) = true := by rw [islandTick_frame]; exact h
  have hauth : (islandTick s).auth.verify = none ∧ (islandTick s).auth.wipe = false := by
    have haon : (aonTick { s with now := s.now + 1 }).auth = s.auth := by rw [aonTick_frame]
    obtain ⟨hv, hw⟩ := lockoutTick_verdict (aonTick { s with now := s.now + 1 })
    rw [haon] at hv hw
    exact ⟨hv.trans hverify, hw.trans hwipe⟩
  show (if domains (islandTick s) then frameEdge (mailboxWiped (authVerdict (islandTick s))) else islandTick s) = _
  rw [hdomains, if_pos rfl, authVerdict, hauth.1, mailboxWiped, hauth.2]
  rfl

/-- What a cycle without a verification or a wipe does to the island, the command engine and the banks. -/
theorem tick_idle {s : State} (hverify : s.auth.verify = none) (hwipe : s.auth.wipe = false) :
    (tick s).now = s.now + 1 ∧ (tick s).aon = (islandTick s).aon ∧ (tick s).auth = (islandTick s).auth ∧
      (domains s = true → ∀ b, (getBank s b).drv.sta = .allOff → (getBank s b).drv.pend ≠ .none →
        (getBank (tick s) b).drv.sta = .grounding) := by
  have hnow : (islandTick s).now = s.now + 1 := by rw [islandTick_frame]
  cases hd : domains s with
  | false =>
    rw [tick_stopped hd]
    exact ⟨hnow, rfl, rfl, nofun⟩
  | true =>
    rw [tick_edge hverify hwipe hd]
    obtain ⟨hnow', haon, hauth, hdown⟩ := frameEdge_idle (islandTick s)
    have hbank (b : Bank) : getBank (islandTick s) b = getBank s b := by
      rw [islandTick_frame]
      cases b <;> rfl
    refine ⟨hnow'.trans hnow, haon, hauth, fun _ b hsta hpend => hdown b ?_ ?_⟩
    · rw [hbank]; exact hsta
    · rw [hbank]; exact hpend

theorem step_idle {s : State} (h : s.pending = []) : step s = .next (tick s) := by
  unfold step
  rw [h]

/-- Settles O2: a cycle is the island's part, then with the fast domains' clock the edge; every command leaves the queue
(`exec_queue_and_cellar`). -/
theorem idleStepTicksAndCommandsKeepTheQueue : Obligations.IdleStepTicksAndCommandsKeepTheQueue := by
  unfold Obligations.IdleStepTicksAndCommandsKeepTheQueue
  refine ⟨fun s hpending => ⟨fun haon hd => ?_, fun haon hd hphase hlock => ?_, fun hverify hwipe => ?_⟩,
    fun c s t h => (exec_queue_and_cellar h).1⟩
  · rw [step_idle hpending, tick_stopped hd, islandTick_stopped haon]
  · have hphase' := aonTick_within (s := { s with now := s.now + 1 }) haon hphase
    rw [step_idle hpending, tick_stopped hd, islandTick, hphase']
    exact congrArg _ (lockoutTick_idle (.inl hlock))
  · obtain ⟨hnow, haon, hauth, hdown⟩ := tick_idle hverify hwipe
    have hqueue : (tick s).pending = [] := (kept_tick (Kept.refl (still s))).pending_eq.trans hpending
    refine ⟨tick s, step_idle hpending, hnow, hqueue, hdown, fun hoff => ?_, fun hon hlock hleft => ?_,
      fun hon hphase => ?_⟩
    · rw [haon, hauth, islandTick_stopped hoff]
      exact ⟨rfl, rfl⟩
    · have hframe := aonTick_frame { s with now := s.now + 1 }
      rw [hauth, islandTick, lockoutTick_counts (by rw [hframe]; exact hlock) (by rw [hframe]; exact hon)
        (by rw [hframe]; exact hleft), hframe]
    · rw [haon, islandTick, lockoutTick_frame]
      exact aonTick_wraps (s := { s with now := s.now + 1 }) hon hphase

end Sys2Proof.Machine
end

section
/-! The report of an update (R436, R437, Table SOC-2, O50): by flow, that it moves only as the flow has it, and the two
cases that the table leaves open. -/

namespace Sys2Proof.Machine

open Sys2Proof

/-- Without a flow in, an empty channel reports 0. -/
theorem report_empty {flow : Nat} (r i : Nat) (h : flow ≠ 2) : report flow r i 0 = 0 := by
  simp [report, h]

/-- At rest, but for an empty channel, the report stands. -/
theorem report_rest (r i : Nat) {i' : Nat} (h : i' ≠ 0) : report 0 r i i' = r := by
  simp [report, h]

/-- In discharge the report falls or stands. -/
theorem report_discharge_le (r i i' : Nat) : report 1 r i i' ≤ r := by
  unfold report
  rw [if_pos rfl]
  split_ifs
  · exact Nat.zero_le r
  · exact Nat.min_le_left _ _
  · exact Nat.le_refl r
  · exact Nat.min_le_left _ _

/-- In charge the report rises or stands. -/
theorem report_charge_ge (r i i' : Nat) : r ≤ report 2 r i i' := by
  unfold report
  rw [if_neg (by omega), if_neg (by omega), if_pos rfl]
  split_ifs
  · exact Nat.le_max_left _ _
  · exact Nat.le_refl r
  · exact Nat.le_max_left _ _

/-- In charge the report stays within full scale. -/
theorem report_charge_le {r i i' : Nat} (hr : r ≤ socFull) (hi' : i' ≤ socFull) : report 2 r i i' ≤ socFull := by
  unfold report
  rw [if_neg (by omega), if_neg (by omega), if_pos rfl]
  split_ifs
  · exact Nat.max_le.mpr ⟨hr, hi'⟩
  · exact hr
  · exact Nat.max_le.mpr ⟨hr, Nat.sub_le _ _⟩

/-- A flow that is neither discharge nor charge leaves the report, or an empty channel takes it to 0. -/
theorem report_other {flow : Nat} (r i i' : Nat) (h1 : flow ≠ 1) (h2 : flow ≠ 2) : report flow r i i' ≤ r := by
  unfold report
  rw [if_neg h1, if_neg h2]
  split_ifs
  · exact Nat.zero_le r
  · exact Nat.le_refl r

theorem report_le_full {flow r i i' : Nat} (hr : r ≤ socFull) (hi' : i' ≤ socFull) :
    report flow r i i' ≤ socFull := by
  by_cases h1 : flow = 1
  · subst h1
    exact (report_discharge_le r i i').trans hr
  · by_cases h2 : flow = 2
    · subst h2
      exact report_charge_le hr hi'
    · exact (report_other r i i' h1 h2).trans hr

/-- R437: Table SOC-2 has no case for a discharge from an internal value of 0 below the report. -/
theorem report_discharge_open {r i' : Nat} (hr : 0 < r) (hi' : 0 < i') : report 1 r 0 i' = r := by
  unfold report
  rw [if_neg (by omega), if_pos rfl, if_neg (by omega), if_pos rfl]

/-- R437: nor for a charge from a full internal value above the report. -/
theorem report_charge_open {r i' : Nat} (hr : r < socFull) : report 2 r socFull i' = r := by
  unfold report
  rw [if_neg (by omega), if_neg (by omega), if_pos rfl, if_neg (by omega), if_pos (Nat.le_refl _)]

/-- Settles O50, by flow. -/
theorem reportMovesOnlyWithItsFlow : Obligations.ReportMovesOnlyWithItsFlow := by
  unfold Obligations.ReportMovesOnlyWithItsFlow
  intro flow r i i' hr _ hi'
  refine ⟨report_le_full hr hi', ?_, ?_, ?_, ?_, ?_, ?_⟩
  · rintro rfl
    exact report_discharge_le r i i'
  · rintro rfl
    exact report_charge_ge r i i'
  · rintro rfl hne
    exact report_rest r i hne
  · rintro hflow rfl
    exact report_empty r i hflow
  · rintro rfl rfl hpos hpos'
    exact report_discharge_open hpos hpos'
  · rintro rfl rfl hlt
    exact report_charge_open hlt

end Sys2Proof.Machine
end

section
/-! The effects of accepted commands (R486, R487, R494, R499, R500, Table SEC-2): DONE with its result, the effect of the
command that is held, the masks that TT_POLICY writes, the start of Cork mode, a provisioning request, and O55. -/

namespace Sys2Proof.Machine

open Sys2Proof

/-! ### DONE and the effect (R486, R487) -/

/-- R486: DONE with a result ends the claim; IRQSTAT.AUTH is set where DONE was clear. -/
theorem authDone_eq (s : State) (r : Byte) : authDone s r = { s with
    auth := { s.auth with done := true, result := r, claim := none, tag := [], msg := none, verify := none
                          accepted := none }
    irqStat := if s.auth.done then s.irqStat else s.irqStat ||| 0x200 } := by
  unfold authDone
  dsimp only
  split
  · rfl
  · rfl

theorem authVerdict_of_none {s : State} (h : s.auth.verify = none) : authVerdict s = s := by
  unfold authVerdict
  rw [h]

/-- R487: the effect of the command that the engine holds, once its counter is written. -/
theorem effect_held {s : State} {a : Accepted} (hverify : s.auth.verify = none) (ha : s.auth.accepted = some a)
    (hw : a.written = true) (body : State → Accepted → State) : effect s a.cmd body = body s a := by
  unfold effect
  dsimp only
  rw [authVerdict_of_none hverify, ha]
  simp [hw]

/-- R487: the row of another command, or before the counter is written, does nothing. -/
theorem effect_other {s : State} {a : Accepted} {c : AuthCmd} (hverify : s.auth.verify = none)
    (ha : s.auth.accepted = some a) (h : a.cmd ≠ c ∨ a.written = false) (body : State → Accepted → State) :
    effect s c body = s := by
  unfold effect
  dsimp only
  rw [authVerdict_of_none hverify, ha]
  dsimp only
  rw [if_neg]
  rintro ⟨hc, hw⟩
  rcases h with h | h
  · exact h hc
  · exact Bool.false_ne_true (h.symm.trans hw)

/-! ### The masks that TT_POLICY writes (R305, R494) -/

/-- The lines of a mask, written one after another. -/
def linesStored (s : State) (x n : Nat) (f : Nat → BitVec 128) : State :=
  (List.range n).foldl (fun s k => storeLine s (x + 16 * k) (f k)) s

theorem linesStored_succ (s : State) (x n : Nat) (f : Nat → BitVec 128) :
    linesStored s x (n + 1) f = storeLine (linesStored s x n f) (x + 16 * n) (f n) := by
  simp [linesStored, List.range_succ]

theorem linesStored_frame (s : State) (x n : Nat) (f : Nat → BitVec 128) :
    linesStored s x n f = { s with arb := (linesStored s x n f).arb, mem := (linesStored s x n f).mem } := by
  induction n with
  | zero => rfl
  | succ n ih => rw [linesStored_succ, storeLine, storeEcc_frame, ih]

theorem linesStored_wf {s : State} (hwf : Cellar.wf s.mem = true) (x n : Nat) (f : Nat → BitVec 128) :
    Cellar.wf (linesStored s x n f).mem = true := by
  induction n with
  | zero => exact hwf
  | succ n ih => rw [linesStored_succ]; exact storeEcc_wf ih _ _ _

/-- No byte changes but those of the lines. -/
theorem linesStored_around {s : State} (hwf : Cellar.wf s.mem = true) {x n y : Nat} (f : Nat → BitVec 128)
    (h : y < x ∨ x + 16 * n ≤ y) : Cellar.get (linesStored s x n f).mem y = Cellar.get s.mem y := by
  induction n with
  | zero => rfl
  | succ n ih =>
    rw [linesStored_succ, storeLine, storeEcc_get (linesStored_wf hwf x n f), if_neg (by omega)]
    exact ih (by omega)

theorem readLine_linesStored {s : State} (hwf : Cellar.wf s.mem = true) (x : Nat) {n k : Nat} (f : Nat → BitVec 128)
    (hk : k < n) : readLine (linesStored s x n f) (x + 16 * k) = f k := by
  induction n with
  | zero => exact absurd hk (Nat.not_lt_zero k)
  | succ n ih =>
    have hprev := linesStored_wf hwf x n f
    rw [linesStored_succ]
    rcases Nat.lt_or_eq_of_le (Nat.le_of_lt_succ hk) with hlt | rfl
    · rw [← ih hlt]
      refine readLine_congr fun y h1 h2 => ?_
      rw [storeLine, storeEcc_get hprev, if_neg (by omega)]
    · exact readLine_storeLine hprev _ _

/-- TT_POLICY's work on one bank (R494). -/
def policyBank (s : State) (a : List Word) (b : Bank) : State :=
  if bit (rArg a 1) b.num then
    let s := setBank s b { getBank s b with maskCopy := maskOf a (8 + 256 * b.num) }
    storeMask (storeMask s (maskAddr b) a (8 + 256 * b.num)) (fbMaskAddr b) a (136 + 256 * b.num)
  else s

theorem ttPolicy_eq (s : State) (a : List Word) : ttPolicy s a = policyBank (policyBank s a .bankA) a .bankB := rfl

theorem storeMask_eq (s : State) (x : Nat) (a : List Word) (w : Nat) :
    storeMask s x a w = linesStored (grantLow s 3 8) x 16 (maskLine a w) := rfl

/-- What TT_POLICY does to one bank's masks: it changes the bank's working copy, the two masks in the Cellar, and no other
byte. -/
structure PolicyDone (s t : State) (a : List Word) (b : Bank) : Prop where
  frame : t = { setBank s b { getBank s b with maskCopy := (getBank t b).maskCopy } with arb := t.arb, mem := t.mem }
  wf : Cellar.wf t.mem = true
  copy : (getBank t b).maskCopy =
    if bit (rArg a 1) b.num then maskOf a (8 + 256 * b.num) else (getBank s b).maskCopy
  mask : ∀ k, k < 16 → readLine t (maskAddr b + 16 * k) =
    if bit (rArg a 1) b.num then maskLine a (8 + 256 * b.num) k else readLine s (maskAddr b + 16 * k)
  fallback : ∀ k, k < 16 → readLine t (fbMaskAddr b + 16 * k) =
    if bit (rArg a 1) b.num then maskLine a (136 + 256 * b.num) k else readLine s (fbMaskAddr b + 16 * k)
  around : ∀ y, (y < maskAddr b ∨ maskAddr b + 0x100 ≤ y) → (y < fbMaskAddr b ∨ fbMaskAddr b + 0x100 ≤ y) →
    Cellar.get t.mem y = Cellar.get s.mem y

/-- The masks of the Cellar, the tell-tale mask at `x` and the fallback mask at `y` behind it, written one after the other
with the arbiter's grant of their lines at L3. -/
def masksStored (s : State) (x y : Nat) (f g : Nat → BitVec 128) : State :=
  linesStored (grantLow (linesStored (grantLow s 3 8) x 16 f) 3 8) y 16 g

theorem masksStored_frame (s : State) (x y : Nat) (f g : Nat → BitVec 128) :
    masksStored s x y f g = { s with arb := (masksStored s x y f g).arb, mem := (masksStored s x y f g).mem } := by
  unfold masksStored
  rw [linesStored_frame, grantLow_frame, linesStored_frame, grantLow_frame]

theorem grantLow_mem (s : State) (level lines : Nat) : (grantLow s level lines).mem = s.mem := by
  rw [grantLow_frame]

theorem masksStored_wf {s : State} (hwf : Cellar.wf s.mem = true) (x y : Nat) (f g : Nat → BitVec 128) :
    Cellar.wf (masksStored s x y f g).mem = true := by
  refine linesStored_wf ?_ _ _ _
  rw [grantLow_mem]
  exact linesStored_wf (by rw [grantLow_mem]; exact hwf) _ _ _

theorem masksStored_around {s : State} (hwf : Cellar.wf s.mem = true) {x y z : Nat} (f g : Nat → BitVec 128)
    (hx : z < x ∨ x + 0x100 ≤ z) (hy : z < y ∨ y + 0x100 ≤ z) :
    Cellar.get (masksStored s x y f g).mem z = Cellar.get s.mem z := by
  have hgrant : Cellar.wf (grantLow s 3 8).mem = true := by rw [grantLow_mem]; exact hwf
  have hfirst := linesStored_wf hgrant x 16 f
  rw [masksStored, linesStored_around (by rw [grantLow_mem]; exact hfirst) g (by omega), grantLow_mem,
    linesStored_around hgrant f (by omega), grantLow_mem]

theorem readLine_masksStored {s : State} (hwf : Cellar.wf s.mem = true) {x y k : Nat} (f g : Nat → BitVec 128)
    (hapart : x + 0x100 ≤ y) (hk : k < 16) :
    readLine (masksStored s x y f g) (x + 16 * k) = f k ∧ readLine (masksStored s x y f g) (y + 16 * k) = g k := by
  have hgrant : Cellar.wf (grantLow s 3 8).mem = true := by rw [grantLow_mem]; exact hwf
  have hfirst := linesStored_wf hgrant x 16 f
  have hsecond : Cellar.wf (grantLow (linesStored (grantLow s 3 8) x 16 f) 3 8).mem = true := by
    rw [grantLow_mem]; exact hfirst
  refine ⟨?_, readLine_linesStored hsecond y g hk⟩
  rw [← readLine_linesStored hgrant x f hk]
  refine readLine_congr fun z h1 h2 => ?_
  rw [masksStored, linesStored_around hsecond g (by omega), grantLow_mem]

/-- The bank with TT_POLICY's mask as its working copy (R494). -/
def maskTaken (s : State) (a : List Word) (b : Bank) : State :=
  setBank s b { getBank s b with maskCopy := maskOf a (8 + 256 * b.num) }

theorem maskTaken_mem (s : State) (a : List Word) (b : Bank) : (maskTaken s a b).mem = s.mem := by
  cases b <;> rfl

theorem policyBank_named {s : State} {a : List Word} {b : Bank} (h : bit (rArg a 1) b.num = true) :
    policyBank s a b = masksStored (maskTaken s a b) (maskAddr b) (fbMaskAddr b) (maskLine a (8 + 256 * b.num))
      (maskLine a (136 + 256 * b.num)) := by
  simp only [policyBank, h, if_true, storeMask_eq, masksStored, maskTaken]

theorem policyBank_other {s : State} {a : List Word} {b : Bank} (h : bit (rArg a 1) b.num = false) :
    policyBank s a b = s := by
  simp [policyBank, h]

theorem policyBank_done {s : State} (hwf : Cellar.wf s.mem = true) (a : List Word) (b : Bank) :
    PolicyDone s (policyBank s a b) a b := by
  cases hb : bit (rArg a 1) b.num with
  | false =>
    rw [policyBank_other hb]
    refine ⟨?_, hwf, by simp [hb], by simp [hb], by simp [hb], fun _ _ _ => rfl⟩
    cases b <;> rfl
  | true =>
    have hapart : maskAddr b + 0x100 ≤ fbMaskAddr b := by cases b <;> decide
    have htaken : Cellar.wf (maskTaken s a b).mem = true := by rw [maskTaken_mem]; exact hwf
    have hbank : (getBank (policyBank s a b) b).maskCopy = maskOf a (8 + 256 * b.num) := by
      rw [policyBank_named hb, masksStored_frame]
      cases b <;> rfl
    have hframe : policyBank s a b = { maskTaken s a b with
        arb := (policyBank s a b).arb, mem := (policyBank s a b).mem } := by
      rw [policyBank_named hb]
      exact masksStored_frame _ _ _ _ _
    have hmask := fun k hk => readLine_masksStored (k := k) htaken (maskLine a (8 + 256 * b.num))
      (maskLine a (136 + 256 * b.num)) hapart hk
    refine ⟨?_, ?_, by rw [hbank, if_pos hb], fun k hk => ?_, fun k hk => ?_, fun y h1 h2 => ?_⟩
    · rw [hbank]
      exact hframe
    · rw [policyBank_named hb]
      exact masksStored_wf htaken _ _ _ _
    · rw [if_pos hb, policyBank_named hb]
      exact (hmask k hk).1
    · rw [if_pos hb, policyBank_named hb]
      exact (hmask k hk).2
    · rw [policyBank_named hb, masksStored_around htaken _ _ h1 h2, maskTaken_mem]

theorem PolicyDone.getBank_same {s t : State} {a : List Word} {b : Bank} (h : PolicyDone s t a b) :
    getBank t b = { getBank s b with maskCopy := (getBank t b).maskCopy } := by
  conv_lhs => rw [h.frame]
  cases b <;> rfl

theorem PolicyDone.getBank_other {s t : State} {a : List Word} {b c : Bank} (h : PolicyDone s t a b) (hc : c ≠ b) :
    getBank t c = getBank s c := by
  rw [h.frame]
  cases b with
  | bankA =>
    cases c with
    | bankA => exact absurd rfl hc
    | bankB => rfl
  | bankB =>
    cases c with
    | bankA => rfl
    | bankB => exact absurd rfl hc

/-- The two banks' masks lie apart. -/
theorem PolicyDone.readLine_other {s t : State} {a : List Word} {b c : Bank} (h : PolicyDone s t a b) (hc : c ≠ b) {k : Nat}
    (hk : k < 16) : readLine t (maskAddr c + 16 * k) = readLine s (maskAddr c + 16 * k) ∧
      readLine t (fbMaskAddr c + 16 * k) = readLine s (fbMaskAddr c + 16 * k) := by
  have haddr : (maskAddr c + 0x100 ≤ maskAddr b ∨ maskAddr b + 0x100 ≤ maskAddr c) ∧
      (maskAddr c + 0x100 ≤ fbMaskAddr b) ∧ (maskAddr b + 0x100 ≤ fbMaskAddr c) ∧
      (fbMaskAddr c + 0x100 ≤ fbMaskAddr b ∨ fbMaskAddr b + 0x100 ≤ fbMaskAddr c) := by
    revert hc
    cases b <;> cases c <;> decide
  obtain ⟨h1, h2, h3, h4⟩ := haddr
  exact ⟨readLine_congr fun y hy hy' => h.around y (by omega) (by omega),
    readLine_congr fun y hy hy' => h.around y (by omega) (by omega)⟩

theorem PolicyDone.err_eq {s t : State} {a : List Word} {b : Bank} (h : PolicyDone s t a b) : t.err = s.err := by
  rw [h.frame]
  cases b <;> rfl

/-- What TT_POLICY leaves of one bank and its masks (R494). -/
structure BankPolicy (s t : State) (a : List Word) (b : Bank) : Prop where
  rest : getBank t b = { getBank s b with maskCopy := (getBank t b).maskCopy }
  copy : (getBank t b).maskCopy =
    if bit (rArg a 1) b.num then maskOf a (8 + 256 * b.num) else (getBank s b).maskCopy
  mask : ∀ k, k < 16 → readLine t (maskAddr b + 16 * k) =
    if bit (rArg a 1) b.num then maskLine a (8 + 256 * b.num) k else readLine s (maskAddr b + 16 * k)
  fallback : ∀ k, k < 16 → readLine t (fbMaskAddr b + 16 * k) =
    if bit (rArg a 1) b.num then maskLine a (136 + 256 * b.num) k else readLine s (fbMaskAddr b + 16 * k)

theorem ttPolicy_bank {s : State} (hwf : Cellar.wf s.mem = true) (a : List Word) (b : Bank) :
    BankPolicy s (ttPolicy s a) a b := by
  have hA := policyBank_done hwf a .bankA
  have hB := policyBank_done hA.wf a .bankB
  rw [← ttPolicy_eq] at hB
  cases b with
  | bankA =>
    have hne : Bank.bankA ≠ Bank.bankB := by decide
    have hsame := hB.getBank_other hne
    refine ⟨by rw [hsame]; exact hA.getBank_same, by rw [hsame]; exact hA.copy, fun k hk => ?_, fun k hk => ?_⟩
    · rw [(hB.readLine_other hne hk).1]
      exact hA.mask k hk
    · rw [(hB.readLine_other hne hk).2]
      exact hA.fallback k hk
  | bankB =>
    have hne : Bank.bankB ≠ Bank.bankA := by decide
    have hsame := hA.getBank_other hne
    refine ⟨by rw [← hsame]; exact hB.getBank_same, by rw [← hsame]; exact hB.copy, fun k hk => ?_, fun k hk => ?_⟩
    · rw [← (hA.readLine_other hne hk).1]
      exact hB.mask k hk
    · rw [← (hA.readLine_other hne hk).2]
      exact hB.fallback k hk

theorem ttPolicy_around {s : State} (hwf : Cellar.wf s.mem = true) (a : List Word) {x : Nat}
    (hA : x < maskAddr .bankA ∨ maskAddr .bankA + 0x100 ≤ x) (hB : x < maskAddr .bankB ∨ maskAddr .bankB + 0x100 ≤ x)
    (hfb : x < 0xCA00 ∨ 0xCC00 ≤ x) : Cellar.get (ttPolicy s a).mem x = Cellar.get s.mem x := by
  have hdoneA := policyBank_done hwf a .bankA
  have hdoneB := policyBank_done hdoneA.wf a .bankB
  have haddrA : fbMaskAddr .bankA = 0xCA00 := by decide
  have haddrB : fbMaskAddr .bankB = 0xCB00 := by decide
  rw [ttPolicy_eq, hdoneB.around x hB (by omega), hdoneA.around x hA (by omega)]

theorem ttPolicy_err {s : State} (hwf : Cellar.wf s.mem = true) (a : List Word) : (ttPolicy s a).err = s.err := by
  have hA := policyBank_done hwf a .bankA
  rw [ttPolicy_eq, (policyBank_done hA.wf a .bankB).err_eq, hA.err_eq]

theorem maskOf_getElem (a : List Word) (w : Nat) {k : Nat} (h : k < 16) : (maskOf a w)[k] = maskLine a w k := by
  simp [maskOf]

/-- DONE keeps the banks and the masks. -/
theorem BankPolicy.done {s t : State} {a : List Word} {b : Bank} (h : BankPolicy s t a b) (r : Byte) :
    BankPolicy s (authDone t r) a b := by
  have hbank : getBank (authDone t r) b = getBank t b := by rw [authDone_eq]; cases b <;> rfl
  have hline : ∀ x, readLine (authDone t r) x = readLine t x := fun x =>
    readLine_congr fun y _ _ => by rw [authDone_eq]
  exact ⟨by rw [hbank]; exact h.rest, by rw [hbank]; exact h.copy, fun k hk => by rw [hline]; exact h.mask k hk,
    fun k hk => by rw [hline]; exact h.fallback k hk⟩

theorem BankPolicy.copy_line {s t : State} {a : List Word} {b : Bank} (h : BankPolicy s t a b) {k : Nat} (hk : k < 16) :
    (getBank t b).maskCopy[k] = if bit (rArg a 1) b.num then maskLine a (8 + 256 * b.num) k
      else (getBank s b).maskCopy[k] := by
  cases hb : bit (rArg a 1) b.num with
  | true =>
    have hcopy : (getBank t b).maskCopy = maskOf a (8 + 256 * b.num) := by rw [h.copy, if_pos hb]
    simp only [hcopy, maskOf_getElem, if_true]
  | false =>
    have hcopy : (getBank t b).maskCopy = (getBank s b).maskCopy := by
      rw [h.copy, if_neg (by rw [hb]; exact Bool.false_ne_true)]
    simp only [hcopy, Bool.false_eq_true, if_false]

/-! ### CORK and a provisioning request (R80, R81, R499, R500) -/

theorem stopA_started (s : State) : (stopA s).batA.started = false := rfl

/-- The machine as CORK stops its line slots, its pack decoder and its mode, ahead of channel A and the outputs. -/
def corkHalted (s : State) (p : Port) : State :=
  { pilIdle (slotsStop (slotsStop s .bankA true) .bankB true) with
    pw := { s.pw with mode := .corkEntry, trans := .corkSeq, corkPort := p } }

theorem corkBegins_eq (s : State) (p : Port) : corkBegins s p = quietOutputs (crankStop (stopA (corkHalted s p))) := rfl

/-- CORK-ENTRY begins with every lamp off, both banks without a request and channel A stopped (R80, R81). -/
structure CorkBegun (s t : State) (p : Port) : Prop where
  pw : t.pw = { s.pw with mode := .corkEntry, trans := .corkSeq, corkPort := p }
  auth : t.auth = s.auth
  mem : t.mem = s.mem
  lamps : ∀ n, powered (getLamp t n) = false
  started : t.batA.started = false
  reqA : t.bankA.drv.req = false
  reqB : t.bankB.drv.req = false

theorem corkBegins_begun (s : State) (p : Port) : CorkBegun s (corkBegins s p) p := by
  have hstop := stopA_frame (corkHalted s p)
  have hstarted := stopA_started (corkHalted s p)
  rw [corkBegins_eq]
  generalize stopA (corkHalted s p) = u at hstop hstarted ⊢
  have hpw : u.pw = (corkHalted s p).pw := by rw [hstop]
  have hauth : u.auth = s.auth := by rw [hstop]; rfl
  have hmem : u.mem = s.mem := by rw [hstop]; rfl
  have hheld : lampsAllowed (crankStop u) = false := by
    unfold lampsAllowed
    rw [show (crankStop u).pw = u.pw from rfl, hpw]
    rfl
  obtain ⟨x, y, hquiet, -, hoff, hx, -, hy, -⟩ := quietOutputs_held hheld
  refine ⟨?_, ?_, ?_, hoff, ?_, ?_, ?_⟩
  · rw [hquiet]; exact hpw
  · rw [hquiet]; exact hauth
  · rw [hquiet]; exact hmem
  · rw [hquiet]; exact hstarted
  · rw [hquiet]; exact hx
  · rw [hquiet]; exact hy

/-- The Mailbox's first 24 bytes are wiped; no other byte changes (R499, R500). -/
theorem wipeMailbox_get {s : State} (hwf : Cellar.wf s.mem = true) (x : Nat) :
    Cellar.get (wipeMailbox s).mem x = if 0x34000 ≤ x ∧ x < 0x34018 then 0 else Cellar.get s.mem x := by
  have hgrant : (grantLow { s with auth := { s.auth with wipe := false } } 3 1).mem = s.mem := grantLow_mem _ _ _
  rw [wipeMailbox, storeEcc_get (by rw [hgrant]; exact hwf), hgrant, Nat.zero_div]
  rfl

theorem wipeMailbox_frame (s : State) : wipeMailbox s = { s with
    auth := { s.auth with wipe := false }, arb := (wipeMailbox s).arb, mem := (wipeMailbox s).mem } := by
  unfold wipeMailbox
  rw [storeEcc_frame, grantLow_frame]

theorem wipeMailbox_nv (s : State) : (wipeMailbox s).nv = s.nv := by rw [wipeMailbox_frame]

theorem wipeMailbox_err (s : State) : (wipeMailbox s).err = s.err := by rw [wipeMailbox_frame]

/-- R486: a refusal is DONE with its code, and a record with ERRINFO 0x4A. -/
theorem authRefuse_eq (s : State) (p : Port) (code : Byte) : authRefuse s p code = { s with
    auth := (authDone s code).auth, irqStat := (authRefuse s p code).irqStat
    err := { code := code, ahi := 0, cell := false, src := srcCode (some p)
             ovr := s.err.ovr || decide (s.err.code ≠ 0), info := 0x4A } } := by
  unfold authRefuse
  rw [authDone_eq]
  rfl

/-! ### The commands -/

theorem exec_ttPolicy {a : Accepted} {s u : State} (hverify : s.auth.verify = none) (ha : s.auth.accepted = some a)
    (hw : a.written = true) (hc : a.cmd = .ttPolicy) (hu : arbServe s (.low 3) = some u) :
    exec .ttPolicy s = .next (authDone (ttPolicy u a.args) 0) := by
  have heffect := effect_held hverify ha hw (fun s a => granted s (.low 3) (fun s => authDone (ttPolicy s a.args) 0))
  rw [hc, granted_of hu] at heffect
  exact congrArg Host.Outcome.next heffect

theorem exec_cork {a : Accepted} {s : State} (hverify : s.auth.verify = none) (ha : s.auth.accepted = some a)
    (hw : a.written = true) (hc : a.cmd = .cork) (hrst : s.pw.rst ≠ .pin) :
    exec .cork s = .next (corkBegins (authDone s 0) a.port) := by
  have heffect := effect_held hverify ha hw (fun s a => if s.pw.rst = .pin then s else corkBegins (authDone s 0) a.port)
  rw [hc, if_neg hrst] at heffect
  exact congrArg Host.Outcome.next heffect

theorem exec_provisioningRequest {a : Accepted} {s u : State} (ok : Bool) (hverify : s.auth.verify = none)
    (ha : s.auth.accepted = some a) (hw : a.written = true) (hc : a.cmd = .provision)
    (hu : arbServe s (.low 3) = some u) : exec (.provisioningRequest ok) s = .next (provisionEffect u a ok) := by
  have heffect := effect_held hverify ha hw (fun s a => granted s (.low 3) (fun s => provisionEffect s a ok))
  rw [hc, granted_of hu] at heffect
  exact congrArg Host.Outcome.next heffect

/-- The slot that a provisioning request programs, as the read-back says (R499, R500). -/
def provisionedSlot (a : Accepted) (ok : Bool) : KeySlot :=
  if ok then .key (provisionKey (a.args.map (fun w => [loByte w, hiByte w])).flatten) (rArg a.args 2)
  else .failed (rArg a.args 2)

/-- The OTP with the slot programmed. -/
def provisioned (s : State) (a : Accepted) (ok : Bool) : State :=
  { s with nv := if rArg a.args 1 = 0 then { s.nv with kApp := provisionedSlot a ok }
                 else { s.nv with kSup := provisionedSlot a ok } }

theorem provisionEffect_eq (s : State) (a : Accepted) (ok : Bool) : provisionEffect s a ok =
    if ok then authDone (wipeMailbox (provisioned s a ok)) 0
    else authRefuse (wipeMailbox (provisioned s a ok)) a.port eSTATE := rfl

/-- Settles O55: TT_POLICY bank by bank, CORK through the quiet outputs, a provisioning request by its read-back. -/
theorem tellTalePolicyCorkAndProvisioning : Obligations.TellTalePolicyCorkAndProvisioning := by
  unfold Obligations.TellTalePolicyCorkAndProvisioning
  refine ⟨fun a s u hverify ha hw hc hu hwf => ?_, fun a s hverify ha hw hc hrst => ?_,
    fun a ok s u hverify ha hw hc hu hwf => ?_⟩
  · have hframe := arbServe_frame hu
    have hmem : u.mem = s.mem := by rw [hframe]
    have hline : ∀ x, readLine u x = readLine s x := fun x => readLine_congr fun y _ _ => by rw [hmem]
    have hbank : ∀ b, getBank u b = getBank s b := fun b => by rw [hframe]; cases b <;> rfl
    have hwf' : Cellar.wf u.mem = true := by rw [hmem]; exact hwf
    have hdone := fun b => (ttPolicy_bank hwf' a.args b).done 0
    refine ⟨_, exec_ttPolicy hverify ha hw hc hu, by rw [authDone_eq], by rw [authDone_eq], ?_, fun b => ?_,
      fun b k hk => ⟨?_, ?_, ?_, fun x hA hB hfb => ?_⟩⟩
    · rw [authDone_eq]
      show (ttPolicy u a.args).err = s.err
      rw [ttPolicy_err hwf', hframe]
    · rw [← hbank]
      exact (hdone b).rest
    · simp only [← hbank]
      exact (hdone b).copy_line hk
    · rw [← hline]
      exact (hdone b).mask k hk
    · rw [← hline]
      exact (hdone b).fallback k hk
    · rw [authDone_eq, ← hmem]
      exact ttPolicy_around hwf' a.args hA hB hfb
  · obtain ⟨hpw, hauth, hmem, hlamps, hstarted, hreqA, hreqB⟩ := corkBegins_begun (authDone s 0) a.port
    refine ⟨_, exec_cork hverify ha hw hc hrst, by rw [hpw], by rw [hpw], by rw [hpw], ?_, ?_, hlamps, hstarted,
      hreqA, hreqB, ?_⟩
    · rw [hauth, authDone_eq]
    · rw [hauth, authDone_eq]
    · rw [hmem, authDone_eq]
  · have hframe := arbServe_frame hu
    have hmem : u.mem = s.mem := by rw [hframe]
    have hget := wipeMailbox_get (s := provisioned u a ok) (by rw [show (provisioned u a ok).mem = s.mem from hmem]; exact hwf)
    have hnv : (wipeMailbox (provisioned u a ok)).nv = (provisioned s a ok).nv := by
      rw [wipeMailbox_nv, provisioned, hframe, provisioned]
    have herr : (wipeMailbox (provisioned u a ok)).err = s.err := by
      rw [wipeMailbox_err, provisioned, hframe]
    refine ⟨_, provisionedSlot a ok, exec_provisioningRequest ok hverify ha hw hc hu, rfl, ?_⟩
    rw [provisionEffect_eq]
    rw [show (provisioned u a ok).mem = s.mem from hmem] at hget
    generalize wipeMailbox (provisioned u a ok) = w at hget hnv herr ⊢
    cases ok with
    | true =>
      rw [if_pos rfl, authDone_eq]
      exact ⟨rfl, rfl, hget, hnv, rfl, fun _ => herr, fun h => nomatch h⟩
    | false =>
      rw [if_neg Bool.false_ne_true, authRefuse_eq, authDone_eq]
      exact ⟨rfl, rfl, hget, hnv, rfl, (fun h => nomatch h), fun _ => ⟨rfl, rfl⟩⟩

end Sys2Proof.Machine
end

section
/-! What the lamp operations do to each channel and cluster (R368 to R371, R379, R388): one rule per operation, and O42. -/

namespace Sys2Proof.Machine

open Sys2Proof

/-! ### One channel set, or several -/

theorem getLamp_setLamp_eq (s : State) (n m : Fin 8) (c : Lamp) :
    getLamp (setLamp s n c) m = if m = n then c else getLamp s m := by
  split
  case isTrue h => rw [h, getLamp_setLamp]
  case isFalse h => rw [getLamp_setLamp_ne _ _ _ _ h]

theorem getCluster_setLamp (s : State) (n : Fin 8) (c : Lamp) (k : Fin 2) :
    getCluster (setLamp s n c) k = getCluster s k := rfl

/-- Channels that are set one after the other, each by its own rule. -/
theorem getLamp_setEach (f : Fin 8 → Lamp → Lamp) {l : List (Fin 8)} (hl : l.Nodup) (s : State) (m : Fin 8) :
    getLamp (l.foldl (fun t k => setLamp t k (f k (getLamp t k))) s) m =
      if m ∈ l then f m (getLamp s m) else getLamp s m := by
  induction l generalizing s with
  | nil => rfl
  | cons n l ih =>
    obtain ⟨hn, hnodup⟩ := List.nodup_cons.mp hl
    rw [List.foldl_cons, ih hnodup, getLamp_setLamp_eq]
    by_cases hm : m = n
    · subst hm
      simp [hn]
    · simp [hm]

/-- Setting channels changes the channels alone. -/
theorem setEach_frame (f : State → Fin 8 → Lamp) (l : List (Fin 8)) (s : State) :
    l.foldl (fun t k => setLamp t k (f t k)) s = { s with lamps := { s.lamps with
      ch := (l.foldl (fun t k => setLamp t k (f t k)) s).lamps.ch } } := by
  induction l generalizing s with
  | nil => rfl
  | cons n l ih => rw [List.foldl_cons, ih]; rfl

/-! ### The halves of a gang (R191) -/

theorem evenOf_pairOf (n : Fin 8) : evenOf (pairOf n) = evenOf n := by revert n; decide

theorem evenOf_eq (n : Fin 8) : evenOf n = n ∨ evenOf n = pairOf n := by revert n; decide

theorem clusterOf_pairOf (n : Fin 8) : clusterOf (pairOf n) = clusterOf n := by revert n; decide

theorem ganged_pairOf (s : State) (n : Fin 8) : ganged s (pairOf n) = ganged s n := by
  rw [ganged, ganged, evenOf_pairOf]

/-- The channels that switch with a channel are itself and, in a gang, its partner. -/
theorem mem_mates {s : State} {n m : Fin 8} : m ∈ mates s n ↔ m = n ∨ ganged s n = true ∧ m = pairOf n := by
  unfold mates
  cases ganged s n
  · simp
  · revert m n; decide

theorem mates_nodup (s : State) (n : Fin 8) : (mates s n).Nodup := by
  unfold mates
  cases ganged s n
  · exact List.nodup_singleton n
  · revert n; decide

theorem self_mem_mates (s : State) (n : Fin 8) : n ∈ mates s n := mem_mates.mpr (.inl rfl)

theorem ne_of_not_mates {s : State} {n m : Fin 8} (h : m ∉ mates s n) : m ≠ n := fun hm => h (mem_mates.mpr (.inl hm))

theorem clusterOf_mate {s : State} {n m : Fin 8} (h : m ∈ mates s n) : clusterOf m = clusterOf n := by
  rcases mem_mates.mp h with rfl | ⟨-, rfl⟩
  · rfl
  · exact clusterOf_pairOf n

/-- The mates are those of a state with the same gangs. -/
theorem mates_congr {s t : State} (h : ∀ n, (getLamp t n).gang = (getLamp s n).gang) (n : Fin 8) :
    mates t n = mates s n := by
  have hgang : ganged t n = ganged s n := h (evenOf n)
  rw [mates, mates, hgang]

/-! ### A cause latches (R379) -/

theorem latchCause_lamp (s : State) (n : Fin 8) (i : Nat) (m : Fin 8) : getLamp (latchCause s n i) m =
    if m = n then { getLamp s n with causes := (getLamp s n).causes ||| BitVec.ofNat 8 (2 ^ i), flt := true }
    else getLamp s m := by
  unfold latchCause
  dsimp only
  split <;> exact getLamp_setLamp_eq ..

theorem latchCause_irqStat (s : State) (n : Fin 8) (i : Nat) :
    (latchCause s n i).irqStat = if (getLamp s n).flt then s.irqStat else s.irqStat ||| 0x40 := by
  unfold latchCause
  dsimp only
  cases (getLamp s n).flt <;> rfl

theorem latchCause_cluster (s : State) (n : Fin 8) (i : Nat) (k : Fin 2) :
    getCluster (latchCause s n i) k = getCluster s k := by
  unfold latchCause
  dsimp only
  split <;> rfl

theorem latchCause_now (s : State) (n : Fin 8) (i : Nat) : (latchCause s n i).now = s.now := by
  rw [latchCause_frame]

/-! ### A trip (R368, R369, Table LMP-3) -/

/-- The channel that has met a fault, its switch opened, with the cause latched and counted. -/
def tripped (s : State) (n : Fin 8) (cause : Nat) : Lamp :=
  { openedBy s n n cause (getLamp s n) with
    fltCnt := sat1 (getLamp s n).fltCnt, causes := (getLamp s n).causes ||| BitVec.ofNat 8 (2 ^ cause), flt := true }

/-- The switch opens; the fault's latches and its count are as they were. -/
theorem openedBy_kept (s : State) (n m : Fin 8) (cause : Nat) (c : Lamp) :
    (openedBy s n m cause c).flt = c.flt ∧ (openedBy s n m cause c).causes = c.causes ∧
    (openedBy s n m cause c).fltCnt = c.fltCnt ∧ (openedBy s n m cause c).rleft = c.rleft ∧
    (openedBy s n m cause c).gang = c.gang := by
  unfold openedBy
  split <;> exact ⟨rfl, rfl, rfl, rfl, rfl⟩

theorem openedBy_powered {s : State} {n m : Fin 8} {cause : Nat} {c : Lamp} (h : powered c = true) :
    openedBy s n m cause c = { c with
      mode := afterTrip (getLamp s n), conducting := false, derlvl := 0, pwmRun := false, retryRdy := false
      tripAt := s.now, otWait := decide (m = n ∧ cause = cOT)
      cut := if c.conducting ∧ ¬ (m = n ∧ cause = cSHORT) then some c.mode else none } := if_pos h

/-- The halves of a gang are opened. -/
def halvesOpened (s : State) (n : Fin 8) (cause : Nat) : State :=
  (mates s n).foldl (fun t m => setLamp t m (openedBy s n m cause (getLamp t m))) s

theorem lampTrip_eq (s : State) (n : Fin 8) (cause : Nat) : lampTrip s n cause =
    latchCause (setLamp (halvesOpened s n cause) n { getLamp (halvesOpened s n cause) n with
      fltCnt := sat1 (getLamp (halvesOpened s n cause) n).fltCnt }) n cause := rfl

theorem halvesOpened_lamp (s : State) (n : Fin 8) (cause : Nat) (m : Fin 8) : getLamp (halvesOpened s n cause) m =
    if m ∈ mates s n then openedBy s n m cause (getLamp s m) else getLamp s m :=
  getLamp_setEach (fun m c => openedBy s n m cause c) (mates_nodup s n) s m

theorem lampTrip_lamp (s : State) (n : Fin 8) (cause : Nat) (m : Fin 8) : getLamp (lampTrip s n cause) m =
    if m = n then tripped s n cause
    else if m ∈ mates s n then openedBy s n m cause (getLamp s m) else getLamp s m := by
  have hself := halvesOpened_lamp s n cause n
  rw [if_pos (self_mem_mates s n)] at hself
  obtain ⟨-, hcauses, hcnt, -⟩ := openedBy_kept s n n cause (getLamp s n)
  rw [lampTrip_eq, latchCause_lamp, getLamp_setLamp, getLamp_setLamp_eq, hself]
  split
  · simp only [tripped, hcauses, hcnt]
  · exact halvesOpened_lamp s n cause m

/-- What a trip leaves of a half whose switch it opens. -/
structure HalfOpened (s : State) (n : Fin 8) (cause : Nat) (m : Fin 8) (d : Lamp) : Prop where
  mode : d.mode = afterTrip (getLamp s n)
  conducting : d.conducting = false
  tripAt : d.tripAt = s.now
  otWait : d.otWait = decide (m = n ∧ cause = cOT)
  cut : d.cut = if (getLamp s m).conducting ∧ ¬ (m = n ∧ cause = cSHORT) then some (getLamp s m).mode else none
  rleft : d.rleft = (getLamp s m).rleft

theorem lampTrip_half {s : State} {n m : Fin 8} (cause : Nat) (hm : m ∈ mates s n)
    (hon : powered (getLamp s m) = true) : HalfOpened s n cause m (getLamp (lampTrip s n cause) m) := by
  rw [lampTrip_lamp]
  by_cases h : m = n
  · subst h
    rw [if_pos rfl, tripped, openedBy_powered hon]
    exact ⟨rfl, rfl, rfl, rfl, rfl, rfl⟩
  · rw [if_neg h, if_pos hm, openedBy_powered hon]
    exact ⟨rfl, rfl, rfl, rfl, rfl, rfl⟩

theorem lampTrip_latched (s : State) (n : Fin 8) (cause : Nat) : (getLamp (lampTrip s n cause) n).causes =
      (getLamp s n).causes ||| BitVec.ofNat 8 (2 ^ cause) ∧ (getLamp (lampTrip s n cause) n).flt = true ∧
    (getLamp (lampTrip s n cause) n).fltCnt = sat1 (getLamp s n).fltCnt := by
  rw [lampTrip_lamp, if_pos rfl]
  exact ⟨rfl, rfl, rfl⟩

/-- A fault of channel `n` leaves the latches of the others. -/
theorem lampTrip_others (s : State) {n m : Fin 8} (cause : Nat) (hm : m ≠ n) :
    (getLamp (lampTrip s n cause) m).causes = (getLamp s m).causes ∧
    (getLamp (lampTrip s n cause) m).flt = (getLamp s m).flt ∧
    (getLamp (lampTrip s n cause) m).fltCnt = (getLamp s m).fltCnt := by
  obtain ⟨hflt, hcauses, hcnt, -⟩ := openedBy_kept s n m cause (getLamp s m)
  rw [lampTrip_lamp, if_neg hm]
  split
  · exact ⟨hcauses, hflt, hcnt⟩
  · exact ⟨rfl, rfl, rfl⟩

theorem lampTrip_irqStat (s : State) (n : Fin 8) (cause : Nat) :
    (lampTrip s n cause).irqStat = if (getLamp s n).flt then s.irqStat else s.irqStat ||| 0x40 := by
  have hself := halvesOpened_lamp s n cause n
  rw [if_pos (self_mem_mates s n)] at hself
  obtain ⟨hflt, -⟩ := openedBy_kept s n n cause (getLamp s n)
  have hirq : (halvesOpened s n cause).irqStat = s.irqStat :=
    (congrArg State.irqStat (setEach_frame (fun t m => openedBy s n m cause (getLamp t m)) (mates s n) s)).trans rfl
  rw [lampTrip_eq, latchCause_irqStat, getLamp_setLamp, hself, setLamp_irqStat, hirq]
  dsimp only
  rw [hflt]

theorem lampTrip_cluster (s : State) (n : Fin 8) (cause : Nat) (k : Fin 2) :
    getCluster (lampTrip s n cause) k = getCluster s k := by
  have hframe := setEach_frame (fun t m => openedBy s n m cause (getLamp t m)) (mates s n) s
  rw [lampTrip_eq, latchCause_cluster, getCluster_setLamp, halvesOpened, hframe]
  rfl

theorem lampTrip_now (s : State) (n : Fin 8) (cause : Nat) : (lampTrip s n cause).now = s.now := by
  rw [onLamps_lampTrip s n cause]

/-! ### A second cause of the cycle (R388, R556) -/

theorem secondTrip_lamp (s : State) (n : Fin 8) (cause : Nat) (m : Fin 8) : getLamp (secondTrip s n cause) m =
    if m = n then { getLamp s n with
      mode := afterTrip (getLamp s n), otWait := (getLamp s n).otWait || decide (cause = cOT)
      fltCnt := sat1 (getLamp s n).fltCnt, cut := if cause = cSHORT then none else (getLamp s n).cut
      causes := (getLamp s n).causes ||| BitVec.ofNat 8 (2 ^ cause), flt := true }
    else getLamp s m := by
  rw [secondTrip, latchCause_lamp, getLamp_setLamp, getLamp_setLamp_eq]
  split <;> rfl

theorem secondTrip_cluster (s : State) (n : Fin 8) (cause : Nat) (k : Fin 2) :
    getCluster (secondTrip s n cause) k = getCluster s k := by
  rw [secondTrip, latchCause_cluster, getCluster_setLamp]

/-! ### The energy of a short (R371) -/

theorem shortEnergy_lamp (s : State) (n : Fin 8) (e : Nat) (m : Fin 8) :
    getLamp (shortEnergy s n e) m = getLamp s m := rfl

theorem shortEnergy_shortE (s : State) (n : Fin 8) (e : Nat) :
    (getCluster (shortEnergy s n e) (clusterOf n)).shortE = (getCluster s (clusterOf n)).shortE + e := by
  unfold shortEnergy setCluster getCluster
  simp

/-- A short of a channel whose switch is closed, in a state that the short applies to, trips it. -/
theorem shortArises_closed {s : State} {n : Fin 8} {e : Nat} {applies : LampMode → Bool}
    (hpowered : powered (getLamp s n) = true) (hcond : (getLamp s n).conducting = true)
    (happlies : applies (getLamp s n).mode = true) :
    shortArises s n e applies = lampTrip (shortEnergy s n e) n cSHORT :=
  (if_pos ⟨hpowered, hcond⟩).trans (if_pos happlies)

/-- A channel that another cause of this cycle has switched off. -/
theorem shortArises_cut {s : State} {n : Fin 8} {e : Nat} {applies : LampMode → Bool} {k : LampMode}
    (hoff : powered (getLamp s n) = false) (hcut : cutNow s n = some k) (happlies : applies k = true) :
    shortArises s n e applies = secondTrip (shortEnergy s n e) n cSHORT := by
  refine (if_neg (fun h => ?_)).trans ?_
  · exact Bool.false_ne_true (hoff.symm.trans h.1)
  · rw [hcut]
    exact if_pos happlies

theorem overtemp_closed {s : State} {n : Fin 8} (hpowered : powered (getLamp s n) = true) :
    overtemp s n = lampTrip (setLamp s n { getLamp s n with hot := true }) n cOT := by
  refine if_pos ?_
  rw [getLamp_setLamp]
  exact hpowered

/-- A fault of this cycle has switched the channel off, and it does not wait for its sensor yet. -/
theorem overtemp_second {s : State} {n : Fin 8} (hoff : powered (getLamp s n) = false) (htrips : tripsNow s n = true)
    (hot : (getLamp s n).otWait = false) :
    overtemp s n = secondTrip (setLamp s n { getLamp s n with hot := true }) n cOT := by
  refine (if_neg ?_).trans (if_pos ?_)
  · rw [getLamp_setLamp]
    show ¬powered (getLamp s n) = true
    rw [hoff]
    exact Bool.false_ne_true
  · simp only [tripsNow, getLamp_setLamp]
    refine ⟨htrips, ?_⟩
    simp [hot]

theorem powered_afterTrip (c : Lamp) {d : Lamp} (h : d.mode = afterTrip c) : powered d = false := by
  unfold powered
  rw [h, afterTrip]
  split <;> rfl

theorem tripsNow_of {s : State} {n : Fin 8} (c : Lamp) (hmode : (getLamp s n).mode = afterTrip c)
    (hat : (getLamp s n).tripAt = s.now) : tripsNow s n = true := by
  unfold tripsNow
  dsimp only
  rw [hmode, hat, afterTrip]
  split <;> simp

theorem cutNow_of {s : State} {n : Fin 8} (h : tripsNow s n = true) : cutNow s n = (getLamp s n).cut := if_pos h

/-! ### The statement -/

/-- What a trip of channel `n` for the cause `bitNo` leaves of a machine that charges `e` to the channel's cluster. -/
structure Tripped (s t : State) (n : Fin 8) (bitNo e : Nat) : Prop where
  frame : t = { s with lamps := t.lamps, irqStat := t.irqStat }
  halves : ∀ m, m ∈ mates s n → powered (getLamp s m) = true → (getLamp t m).conducting = false ∧
    (getLamp t m).mode = if (getLamp s n).rleft = 0 then .latched else .wait
  causes : (getLamp t n).causes = (getLamp s n).causes ||| BitVec.ofNat 8 (2 ^ bitNo)
  flt : (getLamp t n).flt = true
  fltCnt : (getLamp t n).fltCnt = sat1 (getLamp s n).fltCnt
  shortE : (getCluster t (clusterOf n)).shortE = (getCluster s (clusterOf n)).shortE + e
  irqStat : t.irqStat = if (getLamp s n).flt then s.irqStat else s.irqStat ||| 0x40
  others : ∀ m, m ≠ n → (getLamp t m).causes = (getLamp s m).causes ∧ (getLamp t m).flt = (getLamp s m).flt
  apart : ∀ m, m ∉ mates s n → getLamp t m = getLamp s m

theorem lampTrip_tripped (s : State) (n : Fin 8) (cause : Nat) :
    Tripped s (lampTrip s n cause) n cause 0 where
  frame := onLamps_lampTrip s n cause
  halves := fun m hm hon => ⟨(lampTrip_half cause hm hon).conducting, (lampTrip_half cause hm hon).mode⟩
  causes := (lampTrip_latched s n cause).1
  flt := (lampTrip_latched s n cause).2.1
  fltCnt := (lampTrip_latched s n cause).2.2
  shortE := by rw [lampTrip_cluster]; rfl
  irqStat := lampTrip_irqStat s n cause
  others := fun m hm => ⟨(lampTrip_others s cause hm).1, (lampTrip_others s cause hm).2.1⟩
  apart := fun m hm => by rw [lampTrip_lamp, if_neg (ne_of_not_mates hm), if_neg hm]

/-- A short trips its channel and charges its energy. -/
theorem short_tripped (s : State) (n : Fin 8) (e : Nat) :
    Tripped s (lampTrip (shortEnergy s n e) n cSHORT) n cSHORT e := by
  have h := lampTrip_tripped (shortEnergy s n e) n cSHORT
  refine ⟨(onLamps_shortEnergy s n e).trans h.frame, h.halves, h.causes, h.flt, h.fltCnt, ?_, h.irqStat, h.others, h.apart⟩
  rw [h.shortE, shortEnergy_shortE]
  rfl

/-- An overtemperature trips its channel, and its sensor is hot. -/
theorem overtemp_tripped (s : State) (n : Fin 8) :
    Tripped s (lampTrip (setLamp s n { getLamp s n with hot := true }) n cOT) n cOT 0 := by
  have hlamp := getLamp_setLamp_eq s n (c := { getLamp s n with hot := true })
  have hkept (m : Fin 8) : ((getLamp (setLamp s n { getLamp s n with hot := true }) m).causes = (getLamp s m).causes ∧
      (getLamp (setLamp s n { getLamp s n with hot := true }) m).flt = (getLamp s m).flt) ∧
      powered (getLamp (setLamp s n { getLamp s n with hot := true }) m) = powered (getLamp s m) ∧
      (getLamp (setLamp s n { getLamp s n with hot := true }) m).gang = (getLamp s m).gang := by
    rw [hlamp]
    split
    case isTrue hm => rw [hm]; exact ⟨⟨rfl, rfl⟩, rfl, rfl⟩
    case isFalse => exact ⟨⟨rfl, rfl⟩, rfl, rfl⟩
  have hmates := mates_congr (fun m => (hkept m).2.2) n
  have h := lampTrip_tripped (setLamp s n { getLamp s n with hot := true }) n cOT
  obtain ⟨hframe, hhalves, hcauses, hflt, hcnt, hshort, hirq, hothers, hapart⟩ := h
  rw [hmates] at hhalves hapart
  simp only [getLamp_setLamp] at hhalves hcauses hcnt hirq
  refine ⟨(onLamps_setLamp s n _).trans hframe, fun m hm hon => hhalves m hm ((hkept m).2.1.trans hon), hcauses, hflt, hcnt,
    hshort, hirq, fun m hm => ?_, fun m hm => ?_⟩
  · obtain ⟨h1, h2⟩ := hothers m hm
    exact ⟨h1.trans (hkept m).1.1, h2.trans (hkept m).1.2⟩
  · rw [hapart m hm, hlamp, if_neg (ne_of_not_mates hm)]

/-- The command that trips a conducting channel for a cause, and the energy it charges. -/
theorem exec_trips {n : Fin 8} {c : Instr} {e bitNo : Nat} {s : State} (hcond : (getLamp s n).conducting = true)
    (hpowered : powered (getLamp s n) = true)
    (hc : (c = .lampAbsoluteShort n e ∧ bitNo = cSHORT) ∨
      (c = .lampDesaturation n e ∧ bitNo = cSHORT ∧ (getLamp s n).senseless = false) ∨
      (c = .lampOverload n e ∧ bitNo = cSHORT ∧ (getLamp s n).mode = .on ∧ (getLamp s n).senseless = false) ∨
      (c = .lampOvertemp n ∧ bitNo = cOT ∧ e = 0)) : ∃ t, exec c s = .next t ∧ Tripped s t n bitNo e := by
  rcases hc with ⟨rfl, rfl⟩ | ⟨rfl, rfl, hsense⟩ | ⟨rfl, rfl, hmode, hsense⟩ | ⟨rfl, rfl, rfl⟩
  · exact ⟨_, congrArg Host.Outcome.next (shortArises_closed hpowered hcond rfl), short_tripped s n e⟩
  · exact ⟨_, congrArg Host.Outcome.next (shortArises_closed hpowered hcond (by simp [hsense])), short_tripped s n e⟩
  · exact ⟨_, congrArg Host.Outcome.next (shortArises_closed hpowered hcond (by simp [hsense, hmode])),
      short_tripped s n e⟩
  · exact ⟨_, congrArg Host.Outcome.next (overtemp_closed hpowered), overtemp_tripped s n⟩

theorem exec_absoluteShort_closed {s : State} {n : Fin 8} (e : Nat) (hpowered : powered (getLamp s n) = true)
    (hcond : (getLamp s n).conducting = true) :
    exec (.lampAbsoluteShort n e) s = .next (lampTrip (shortEnergy s n e) n cSHORT) :=
  congrArg Host.Outcome.next (shortArises_closed hpowered hcond rfl)

theorem exec_overtemp_closed {s : State} {n : Fin 8} (hpowered : powered (getLamp s n) = true) :
    exec (.lampOvertemp n) s = .next (lampTrip (setLamp s n { getLamp s n with hot := true }) n cOT) :=
  congrArg Host.Outcome.next (overtemp_closed hpowered)

theorem causes_both (c : Byte) : (c ||| BitVec.ofNat 8 (2 ^ cSHORT)) ||| BitVec.ofNat 8 (2 ^ cOT) = c ||| 0x11 ∧
    (c ||| BitVec.ofNat 8 (2 ^ cOT)) ||| BitVec.ofNat 8 (2 ^ cSHORT) = c ||| 0x11 := by
  rw [BitVec.or_assoc, BitVec.or_assoc]
  exact ⟨rfl, rfl⟩

/-- Settles O42: each trip by the rule of lampTrip, the second cause of a cycle by that of secondTrip. -/
theorem lampTripsOpenTheSwitch : Obligations.LampTripsOpenTheSwitch := by
  unfold Obligations.LampTripsOpenTheSwitch
  refine ⟨fun n c e bitNo s hcond hpowered hc => ?trip, fun n e s hcond hpowered => ?shortFirst,
    fun n e s hcond hpowered => ?overtempFirst, fun n e e' s hgang hcond hpowered hpcond hppowered => ?gang⟩
  case trip =>
    obtain ⟨t, hrow, h⟩ := exec_trips hcond hpowered hc
    exact ⟨t, hrow, h.frame, h.halves, h.causes, h.flt, h.fltCnt, h.shortE, h.irqStat, h.others, h.apart⟩
  case shortFirst =>
    refine ⟨_, exec_absoluteShort_closed e hpowered hcond, ?_⟩
    have hhalf := lampTrip_half (s := shortEnergy s n e) cSHORT (self_mem_mates _ n) hpowered
    have hcauses := (lampTrip_latched (shortEnergy s n e) n cSHORT).1
    have hnow := lampTrip_now (shortEnergy s n e) n cSHORT
    generalize lampTrip (shortEnergy s n e) n cSHORT = t at hhalf hcauses hnow ⊢
    refine ⟨_, congrArg Host.Outcome.next (overtemp_second (powered_afterTrip _ hhalf.mode)
      (tripsNow_of _ hhalf.mode (hhalf.tripAt.trans hnow.symm)) (hhalf.otWait.trans (by simp))), ?_⟩
    rw [secondTrip_lamp, if_pos rfl, getLamp_setLamp]
    refine ⟨?_, Bool.or_true _, ?_⟩
    · dsimp only
      rw [hcauses]
      exact (causes_both _).1
    · show afterTrip (getLamp t n) = _
      rw [hhalf.mode, afterTrip, hhalf.rleft]
      rfl
  case overtempFirst =>
    refine ⟨_, exec_overtemp_closed hpowered, ?_⟩
    have hhot : getLamp (setLamp s n { getLamp s n with hot := true }) n = { getLamp s n with hot := true } :=
      getLamp_setLamp ..
    have hhalf := lampTrip_half (s := setLamp s n { getLamp s n with hot := true }) cOT (self_mem_mates _ n)
      (by rw [hhot]; exact hpowered)
    have hcauses := (lampTrip_latched (setLamp s n { getLamp s n with hot := true }) n cOT).1
    have hnow := lampTrip_now (setLamp s n { getLamp s n with hot := true }) n cOT
    have hcluster := lampTrip_cluster (setLamp s n { getLamp s n with hot := true }) n cOT (clusterOf n)
    have hcut := hhalf.cut
    have hrleft := hhalf.rleft
    have hmode := hhalf.mode
    rw [hhot] at hcauses hcut hrleft hmode
    rw [if_pos ⟨hcond, fun h => absurd h.2 (by decide)⟩] at hcut
    have hot : (getLamp (lampTrip (setLamp s n { getLamp s n with hot := true }) n cOT) n).otWait = true :=
      hhalf.otWait.trans (by simp)
    have htrips := tripsNow_of _ hmode (hhalf.tripAt.trans hnow.symm)
    generalize lampTrip (setLamp s n { getLamp s n with hot := true }) n cOT = t at *
    refine ⟨_, congrArg Host.Outcome.next (shortArises_cut (powered_afterTrip _ hmode)
      ((cutNow_of htrips).trans hcut) rfl), ?_⟩
    rw [secondTrip_lamp, if_pos rfl, secondTrip_cluster, shortEnergy_shortE, shortEnergy_lamp, hcluster]
    refine ⟨?_, ?_, ?_, rfl⟩
    · dsimp only
      rw [hcauses]
      exact (causes_both _).2
    · dsimp only
      rw [hot]
      rfl
    · rw [hmode, afterTrip, afterTrip, hrleft]
  case gang =>
    refine ⟨_, exec_absoluteShort_closed e hpowered hcond, ?_⟩
    have hhalf := lampTrip_half (s := shortEnergy s n e) (m := pairOf n) cSHORT (mem_mates.mpr (.inr ⟨hgang, rfl⟩)) hppowered
    obtain ⟨hcauses, -, hcnt⟩ := lampTrip_others (shortEnergy s n e) cSHORT (pairOf_ne n)
    have hnow := lampTrip_now (shortEnergy s n e) n cSHORT
    have hcluster := lampTrip_cluster (shortEnergy s n e) n cSHORT (clusterOf n)
    have hshort := shortEnergy_shortE s n e
    have hcut := hhalf.cut
    rw [shortEnergy_lamp, if_pos ⟨hpcond, fun h => pairOf_ne n h.1⟩] at hcut
    have hrleft := hhalf.rleft
    rw [shortEnergy_lamp] at hrleft hcauses hcnt
    have htrips := tripsNow_of _ hhalf.mode (hhalf.tripAt.trans hnow.symm)
    have hoff := powered_afterTrip _ hhalf.mode
    generalize lampTrip (shortEnergy s n e) n cSHORT = t at hcauses hcnt hcluster hcut hrleft htrips hoff ⊢
    refine ⟨_, congrArg Host.Outcome.next (shortArises_cut hoff ((cutNow_of htrips).trans hcut) rfl), ?_⟩
    have hcharge := shortEnergy_shortE t (pairOf n) e'
    rw [clusterOf_pairOf] at hcharge
    have hself := secondTrip_lamp (shortEnergy t (pairOf n) e') (pairOf n) cSHORT (pairOf n)
    rw [if_pos rfl, shortEnergy_lamp] at hself
    rw [secondTrip_lamp, if_neg (pairOf_ne n).symm, hself, secondTrip_cluster, hcharge, hcluster, hshort]
    refine ⟨rfl, ?_, rfl, ?_, ?_, rfl⟩
    · dsimp only
      rw [hcauses]
      rfl
    · dsimp only
      rw [hcnt]
    · dsimp only
      rw [afterTrip, hrleft]

end Sys2Proof.Machine
end

section
/-! Retries, inrush windows and PWM (R365 to R370, R376 to R378, R381): what each event leaves of the channels, and O43. -/

namespace Sys2Proof.Machine

open Sys2Proof

/-! ### Changes of the channels alone -/

/-- The state t is s but for the channels. -/
def OnChannels (s t : State) : Prop := t = { s with lamps := { s.lamps with ch := t.lamps.ch } }

theorem OnChannels.refl (s : State) : OnChannels s s := rfl

theorem OnChannels.trans {s t u : State} (h : OnChannels s t) (k : OnChannels t u) : OnChannels s u := by
  unfold OnChannels at h k ⊢
  rw [k, h]

theorem onChannels_setLamp (s : State) (n : Fin 8) (c : Lamp) : OnChannels s (setLamp s n c) := rfl

theorem onChannels_foldl {α : Type} {f : State → α → State} (hf : ∀ s a, OnChannels s (f s a)) (l : List α) (s : State) :
    OnChannels s (l.foldl f s) := by
  induction l generalizing s with
  | nil => rfl
  | cons a l ih => exact (hf s a).trans (ih _)

theorem onChannels_ite {c : Prop} [Decidable c] {s t : State} (h : OnChannels s t) : OnChannels s (if c then t else s) := by
  split
  · exact h
  · rfl

section
variable {s t : State} (h : OnChannels s t)
include h

theorem OnChannels.frame : t = { s with lamps := t.lamps } := by
  unfold OnChannels at h
  rw [h]

theorem OnChannels.now_eq : t.now = s.now := by rw [h.frame]

theorem OnChannels.cluster (k : Fin 2) : getCluster t k = getCluster s k := by
  unfold OnChannels at h
  rw [h]
  rfl

theorem OnChannels.claimed_eq (n : Fin 8) : claimed t n = claimed s n := by
  unfold OnChannels at h
  rw [h]
  rfl

theorem OnChannels.budgetHolds_eq (n : Fin 8) : budgetHolds t n = budgetHolds s n := by
  rw [budgetHolds, budgetHolds, budgetLow, budgetLow, h.claimed_eq, h.cluster]

theorem OnChannels.reqView_eq (hgang : ∀ n, (getLamp t n).gang = (getLamp s n).gang)
    (hflash : ∀ n, (getLamp t n).flash = (getLamp s n).flash) : reqView t = reqView s := by
  have hallowed : lampsAllowed t = lampsAllowed s := by rw [h.frame]; rfl
  have hroles : t.roles = s.roles := by rw [h.frame]
  simp only [reqView, hallowed, hroles, hgang, hflash]
  unfold OnChannels at h
  rw [h]

end

/-! ### A retry (R369, R370, R374) -/

/-- A channel that waits, whose retry time has run and which the budget does not hold back. -/
def retryDue (s : State) (n : Fin 8) : Prop :=
  (getLamp s n).mode = .wait ∧ ((getLamp s n).retryRdy ∨ retryTimeOver s (getLamp s n)) ∧ !budgetHolds s n

/-- One half of a gang, or the channel alone, starts again where its retry is due. -/
def retryStep (s : State) (n : Fin 8) : State :=
  if (getLamp s n).mode = .wait ∧ ((getLamp s n).retryRdy ∨ retryTimeOver s (getLamp s n)) ∧ !budgetHolds s n then
    switchOn (setLamp s n { getLamp s n with rleft := (getLamp s n).rleft - 1 }) n
  else s

/-- A channel that has started again, with one retry less. -/
structure Restarted (c d : Lamp) : Prop where
  mode : d.mode = .inrush
  conducting : d.conducting = true
  rleft : d.rleft = c.rleft - 1
  hot : d.hot = c.hot

theorem retryStep_onChannels (s : State) (n : Fin 8) : OnChannels s (retryStep s n) := onChannels_ite rfl

theorem retryStep_self {s : State} {n : Fin 8} (h : retryDue s n) :
    Restarted (getLamp s n) (getLamp (retryStep s n) n) := by
  have hstep : retryStep s n = switchOn (setLamp s n { getLamp s n with rleft := (getLamp s n).rleft - 1 }) n := if_pos h
  rw [hstep, switchOn, getLamp_setLamp, getLamp_setLamp]
  exact ⟨rfl, rfl, rfl, rfl⟩

theorem retryStep_undue {s : State} {n : Fin 8} (h : ¬retryDue s n) : retryStep s n = s := if_neg h

theorem retryStep_other (s : State) {n m : Fin 8} (h : m ≠ n) : getLamp (retryStep s n) m = getLamp s m := by
  unfold retryStep
  split
  · rw [switchOn, getLamp_setLamp_ne _ _ _ _ h, getLamp_setLamp_ne _ _ _ _ h]
  · rfl

/-- A retry leaves a channel's gang and flasher settings. -/
theorem retryStep_settings (s : State) (n m : Fin 8) : (getLamp (retryStep s n) m).gang = (getLamp s m).gang ∧
    (getLamp (retryStep s n) m).flash = (getLamp s m).flash := by
  by_cases hm : m = n
  · subst hm
    unfold retryStep
    split
    · rw [switchOn, getLamp_setLamp, getLamp_setLamp]
      exact ⟨rfl, rfl⟩
    · exact ⟨rfl, rfl⟩
  · rw [retryStep_other s hm]
    exact ⟨rfl, rfl⟩

/-- Whether a retry is due asks for the channel, its claim and its cluster alone. -/
theorem retryDue_congr {s t : State} (h : OnChannels s t) {n : Fin 8} (hn : getLamp t n = getLamp s n) :
    retryDue t n ↔ retryDue s n := by
  rw [retryDue, retryDue, hn, h.budgetHolds_eq, retryTimeOver, retryTimeOver, h.now_eq]

theorem retrySteps_onChannels (l : List (Fin 8)) (s : State) : OnChannels s (l.foldl retryStep s) :=
  onChannels_foldl retryStep_onChannels l s

theorem retrySteps_settings (l : List (Fin 8)) (s : State) (m : Fin 8) :
    (getLamp (l.foldl retryStep s) m).gang = (getLamp s m).gang ∧
    (getLamp (l.foldl retryStep s) m).flash = (getLamp s m).flash := by
  induction l generalizing s with
  | nil => exact ⟨rfl, rfl⟩
  | cons n l ih =>
    obtain ⟨hgang, hflash⟩ := retryStep_settings s n m
    obtain ⟨hgang', hflash'⟩ := ih (retryStep s n)
    exact ⟨hgang'.trans hgang, hflash'.trans hflash⟩

/-- Of several channels each starts again where its own retry is due, and no other changes. -/
theorem retrySteps_lamp {l : List (Fin 8)} (hl : l.Nodup) (s : State) (m : Fin 8) :
    (m ∈ l ∧ retryDue s m → Restarted (getLamp s m) (getLamp (l.foldl retryStep s) m)) ∧
    (¬(m ∈ l ∧ retryDue s m) → getLamp (l.foldl retryStep s) m = getLamp s m) := by
  induction l generalizing s with
  | nil => exact ⟨fun h => absurd h.1 List.not_mem_nil, fun _ => rfl⟩
  | cons n l ih =>
    obtain ⟨hn, hnodup⟩ := List.nodup_cons.mp hl
    obtain ⟨hdue, hundue⟩ := ih hnodup (retryStep s n)
    rw [List.foldl_cons]
    by_cases hm : m = n
    · subst hm
      have hlater := hundue fun h => hn h.1
      rw [hlater]
      refine ⟨fun h => retryStep_self h.2, fun h => ?_⟩
      rw [retryStep_undue fun hd => h ⟨List.mem_cons_self, hd⟩]
    · rw [retryDue_congr (retryStep_onChannels s n) (retryStep_other s hm), retryStep_other s hm] at hdue hundue
      have hmem : m ∈ n :: l ↔ m ∈ l := by simp [hm]
      rw [hmem]
      exact ⟨hdue, hundue⟩

theorem tryRetry_eq (s : State) (n : Fin 8) : tryRetry s n =
    if (getLamp s n).mode = .wait ∧ (getLamp s n).retryRdy then
      if (mates s n).any (fun m => (getLamp s m).otWait && (getLamp s m).hot) ∨ budgetHolds s n ∨ !effReq s n then s
      else (mates s n).foldl retryStep s
    else s := rfl

theorem tryRetry_onChannels (s : State) (n : Fin 8) : OnChannels s (tryRetry s n) := by
  rw [tryRetry_eq]
  refine onChannels_ite ?_
  split
  · rfl
  · exact retrySteps_onChannels _ s

theorem tryRetry_settings (s : State) (n m : Fin 8) : (getLamp (tryRetry s n) m).gang = (getLamp s m).gang ∧
    (getLamp (tryRetry s n) m).flash = (getLamp s m).flash := by
  rw [tryRetry_eq]
  split
  · split
    · exact ⟨rfl, rfl⟩
    · exact retrySteps_settings _ s m
  · exact ⟨rfl, rfl⟩

theorem tryRetry_reqView (s : State) (n : Fin 8) : reqView (tryRetry s n) = reqView s :=
  (tryRetry_onChannels s n).reqView_eq (fun m => (tryRetry_settings s n m).1) fun m => (tryRetry_settings s n m).2

/-- A retry leaves the channels that do not switch with its own. -/
theorem tryRetry_apart (s : State) {n m : Fin 8} (h : m ∉ mates s n) : getLamp (tryRetry s n) m = getLamp s m := by
  rw [tryRetry_eq]
  split
  · split
    · rfl
    · exact (retrySteps_lamp (mates_nodup s n) s m).2 fun hm => h hm.1
  · rfl

/-- A retry that request, sensors and budget permit starts the mates whose own retries are due. -/
theorem tryRetry_permitted {s : State} {n : Fin 8} (hmode : (getLamp s n).mode = .wait) (hrdy : (getLamp s n).retryRdy = true)
    (hhot : ∀ m, m ∈ mates s n → (getLamp s m).otWait = false ∨ (getLamp s m).hot = false)
    (hbudget : budgetHolds s n = false) (hreq : effReq s n = true) : tryRetry s n = (mates s n).foldl retryStep s := by
  have hcool : (mates s n).any (fun m => (getLamp s m).otWait && (getLamp s m).hot) = false := by
    rw [List.any_eq_false]
    intro m hm
    rcases hhot m hm with h | h <;> simp [h]
  rw [tryRetry_eq, if_pos ⟨hmode, hrdy⟩, if_neg (by simp [hcool, hbudget, hreq])]

/-- The channel with its retry due. -/
def retryReady (s : State) (n : Fin 8) : State := setLamp s n { getLamp s n with retryRdy := true }

theorem retryDueAt_waits {s : State} {n : Fin 8} (hmode : (getLamp s n).mode = .wait)
    (hover : retryTimeOver s (getLamp s n) = true) : retryDueAt s n = tryRetry (retryReady s n) n := if_pos ⟨hmode, hover⟩

/-- A channel set in fields that no request, gang or budget asks for. -/
theorem setLamp_keeps {s : State} {n : Fin 8} {c : Lamp} (hgang : c.gang = (getLamp s n).gang)
    (hflash : c.flash = (getLamp s n).flash) : (∀ m, mates (setLamp s n c) m = mates s m) ∧
    (∀ m, budgetHolds (setLamp s n c) m = budgetHolds s m) ∧ ∀ m, effReq (setLamp s n c) m = effReq s m := by
  have hg (m : Fin 8) : (getLamp (setLamp s n c) m).gang = (getLamp s m).gang := by
    rw [getLamp_setLamp_eq]
    split
    case isTrue h => rw [h]; exact hgang
    case isFalse => rfl
  have hf (m : Fin 8) : (getLamp (setLamp s n c) m).flash = (getLamp s m).flash := by
    rw [getLamp_setLamp_eq]
    split
    case isTrue h => rw [h]; exact hflash
    case isFalse => rfl
  exact ⟨fun m => mates_congr hg m, fun m => (onChannels_setLamp s n c).budgetHolds_eq m,
    fun m => effReq_of_reqView ((onChannels_setLamp s n c).reqView_eq hg hf) m⟩

/-- What a retry whose time has run leaves of the channels. -/
theorem retryDueAt_lamp {s : State} {n : Fin 8} (hmode : (getLamp s n).mode = .wait)
    (hover : retryTimeOver s (getLamp s n) = true) (hreq : effReq s n = true)
    (hhot : ∀ m, m ∈ mates s n → (getLamp s m).otWait = false ∨ (getLamp s m).hot = false)
    (hbudget : budgetHolds s n = false) (m : Fin 8) :
    (m = n ∨ m ∈ mates s n ∧ m ≠ n ∧ retryDue s m → Restarted (getLamp s m) (getLamp (retryDueAt s n) m)) ∧
    (m ≠ n → ¬(m ∈ mates s n ∧ retryDue s m) → getLamp (retryDueAt s n) m = getLamp s m) := by
  obtain ⟨hmates, hholds, heff⟩ := setLamp_keeps (s := s) (n := n) (c := { getLamp s n with retryRdy := true }) rfl rfl
  have hself : getLamp (retryReady s n) n = { getLamp s n with retryRdy := true } := getLamp_setLamp ..
  have hother (k : Fin 8) (hk : k ≠ n) : getLamp (retryReady s n) k = getLamp s k := getLamp_setLamp_ne _ _ _ _ hk
  have hcool : ∀ k, k ∈ mates (retryReady s n) n →
      (getLamp (retryReady s n) k).otWait = false ∨ (getLamp (retryReady s n) k).hot = false := fun k hk => by
    by_cases hkn : k = n
    · rw [hkn, hself]
      exact hhot n (self_mem_mates s n)
    · rw [hother k hkn]
      exact hhot k (by rwa [retryReady, hmates] at hk)
  have hpermitted := tryRetry_permitted (s := retryReady s n) (n := n) (by rw [hself]; exact hmode) (by rw [hself]) hcool
    ((hholds n).trans hbudget) ((heff n).trans hreq)
  obtain ⟨hdue, hundue⟩ := retrySteps_lamp (mates_nodup (retryReady s n) n) (retryReady s n) m
  rw [← hpermitted, ← retryDueAt_waits hmode hover, retryReady, hmates, ← retryReady] at hdue hundue
  have hcongr (hm : m ≠ n) : retryDue (retryReady s n) m ↔ retryDue s m :=
    retryDue_congr (onChannels_setLamp s n _) (hother m hm)
  refine ⟨fun h => ?_, fun hm h => ?_⟩
  · by_cases hm : m = n
    · subst hm
      have hready : retryDue (retryReady s m) m := by
        refine ⟨by rw [hself]; exact hmode, .inl (by rw [hself]), ?_⟩
        rw [show budgetHolds (retryReady s m) m = false from (hholds m).trans hbudget]
        rfl
      have hrestarted := hdue ⟨self_mem_mates s m, hready⟩
      rw [hself] at hrestarted
      exact ⟨hrestarted.mode, hrestarted.conducting, hrestarted.rleft, hrestarted.hot⟩
    · obtain ⟨hmem, -, hd⟩ := h.resolve_left hm
      have hrestarted := hdue ⟨hmem, (hcongr hm).mpr hd⟩
      rwa [hother m hm] at hrestarted
  · rw [hundue (by rwa [hcongr hm]), hother m hm]

theorem retryDueAt_onChannels (s : State) (n : Fin 8) : OnChannels s (retryDueAt s n) :=
  onChannels_ite ((onChannels_setLamp s n _).trans (tryRetry_onChannels _ n))

/-- The sensor has cooled: a retry that only it held back starts the channel. -/
theorem overtempRelease_lamp {s : State} {n : Fin 8} (hmode : (getLamp s n).mode = .wait)
    (hrdy : (getLamp s n).retryRdy = true) (hreq : effReq s n = true)
    (hhot : ∀ m, m ∈ mates s n → m ≠ n → (getLamp s m).otWait = false ∨ (getLamp s m).hot = false)
    (hbudget : budgetHolds s n = false) :
    Restarted { getLamp s n with hot := false } (getLamp (overtempRelease s n) n) := by
  obtain ⟨hmates, hholds, heff⟩ := setLamp_keeps (s := s) (n := n) (c := { getLamp s n with hot := false }) rfl rfl
  have hself : getLamp (setLamp s n { getLamp s n with hot := false }) n = { getLamp s n with hot := false } :=
    getLamp_setLamp ..
  have hother (k : Fin 8) (hk : k ≠ n) :
      getLamp (setLamp s n { getLamp s n with hot := false }) k = getLamp s k := getLamp_setLamp_ne _ _ _ _ hk
  have hcool : ∀ k, k ∈ mates (setLamp s n { getLamp s n with hot := false }) n →
      (getLamp (setLamp s n { getLamp s n with hot := false }) k).otWait = false ∨
      (getLamp (setLamp s n { getLamp s n with hot := false }) k).hot = false := fun k hk => by
    by_cases hkn : k = n
    · rw [hkn, hself]
      exact .inr rfl
    · rw [hother k hkn]
      exact hhot k (by rwa [hmates] at hk) hkn
  have hpermitted := tryRetry_permitted (s := setLamp s n { getLamp s n with hot := false }) (n := n)
    (by rw [hself]; exact hmode) (by rw [hself]; exact hrdy) hcool ((hholds n).trans hbudget) ((heff n).trans hreq)
  have hready : retryDue (setLamp s n { getLamp s n with hot := false }) n := by
    refine ⟨by rw [hself]; exact hmode, .inl (by rw [hself]; exact hrdy), ?_⟩
    rw [hholds, hbudget]
    rfl
  have hmem := self_mem_mates (setLamp s n { getLamp s n with hot := false }) n
  have hrestarted := (retrySteps_lamp (mates_nodup (setLamp s n { getLamp s n with hot := false }) n) _ n).1 ⟨hmem, hready⟩
  rw [hself, ← hpermitted] at hrestarted
  exact hrestarted

/-! ### The inrush window's end (R365, R367) -/

/-- A channel that its window's end takes to ON. -/
def windowEnds (x c : Lamp) : Lamp :=
  if x.mode = .inrush ∧ c.mode = .inrush ∧ windowOver c ≤ windowOver x
    then { c with mode := .on, derlvl := 0, conducting := true, pwmRun := false } else c

theorem inrushEnds_lamp (s : State) (n m : Fin 8) : getLamp (inrushEnds s n) m =
    if m ∈ mates s n then windowEnds (getLamp s n) (getLamp s m) else getLamp s m :=
  getLamp_setEach (fun _ c => windowEnds (getLamp s n) c) (mates_nodup s n) s m

theorem inrushEnds_onChannels (s : State) (n : Fin 8) : OnChannels s (inrushEnds s n) :=
  onChannels_foldl (fun t m => onChannels_setLamp t m _) _ s

/-! ### PWM (R376 to R378, R381) -/

/-- A gang's cap lets no more than 0.75 A pass on average (R381). -/
theorem gangCapOf_mul_le (P i : Nat) : P * gangCapOf i / 1000 * i ≤ 750 * P := by
  have hcap : gangCapOf i * i ≤ 750 * 1000 := by
    unfold gangCapOf
    split
    · omega
    · exact Nat.div_mul_le_self _ _
  calc P * gangCapOf i / 1000 * i ≤ P * gangCapOf i * i / 1000 := by
        rw [Nat.mul_comm, Nat.mul_comm _ i]
        exact Nat.mul_div_le_mul_div_assoc _ _ _
    _ = P * (gangCapOf i * i) / 1000 := by rw [Nat.mul_assoc]
    _ ≤ P * (750 * 1000) / 1000 := Nat.div_le_div_right (Nat.mul_le_mul_left P hcap)
    _ = 750 * P := by omega

/-- A period starts with the duty in force, and in a derated half with the cap of the measured on-current. -/
def lampDutyTaken (s : State) (n : Fin 8) : State :=
  setLamp s n { getLamp s n with
    dutyNow := (getLamp s (leader s n)).duty
    gangCap := if (getLamp s n).gangDer then gangCapOf (getLamp s n).iOn.toNat else (getLamp s n).gangCap }

theorem lampDutyTaken_leader (s : State) (n : Fin 8) : leader (lampDutyTaken s n) n = leader s n := by
  have hgang : (getLamp (lampDutyTaken s n) (evenOf n)).gang = (getLamp s (evenOf n)).gang := by
    rw [lampDutyTaken, getLamp_setLamp_eq]
    split
    case isTrue h => rw [h]
    case isFalse => rfl
  rw [leader, leader, ganged, ganged, hgang]

theorem periodStart_pwm {s : State} {n : Fin 8} (hmode : (getLamp s n).mode = .on)
    (hpwm : bit s.lamps.lctl ((leader s n).val + 8) = true) : periodStart s n =
      setLamp (lampDutyTaken s n) n { getLamp (lampDutyTaken s n) n with
        pwmRun := true, conducting := decide (0 < onTime (lampDutyTaken s n) n) } := by
  refine if_pos ⟨?_, ?_⟩
  · rw [getLamp_setLamp]
    exact hmode
  · show pwmOn (lampDutyTaken s n) n = true
    unfold pwmOn
    rw [lampDutyTaken_leader, show (lampDutyTaken s n).lamps.lctl = s.lamps.lctl from rfl, hpwm]
    rfl

theorem pwmBoundary_same {s : State} {n : Fin 8} (hedge : gridEdge s n = true)
    (hP : periodOf s n = 0 ∨ periodOf s n = (getLamp s n).pwmP) : pwmBoundary s n = periodStart s n := by
  have hsame : ¬(periodOf s n ≠ 0 ∧ periodOf s n ≠ (getLamp s n).pwmP) := fun h => hP.elim h.1 h.2
  unfold pwmBoundary
  rw [if_neg (by simp [hedge])]
  dsimp only
  rw [if_neg hsame, if_neg fun h => hsame h.2]

theorem pwmBoundary_new {s : State} {n : Fin 8} (hedge : gridEdge s n = true)
    (hpwm : bit s.lamps.lctl ((leader s n).val + 8) = true) (h0 : periodOf s n ≠ 0)
    (hP : periodOf s n ≠ (getLamp s n).pwmP) : pwmBoundary s n = takeGrid s n := by
  unfold pwmBoundary
  rw [if_neg (by simp [hedge])]
  dsimp only
  rw [if_pos ⟨hpwm, h0, hP⟩, if_pos ⟨h0, hP⟩]

theorem takeGrid_on {s : State} {n : Fin 8} (hmode : (getLamp s n).mode = .on)
    (hpwm : bit s.lamps.lctl ((leader s n).val + 8) = true) : takeGrid s n = setLamp s n { getLamp s n with
      pwmP := periodOf s n, pwmHz := hzOf s n, dutyNow := (getLamp s (leader s n)).duty
      conducting := false, pwmRun := true } := congrArg (setLamp s n) (if_pos ⟨hpwm, hmode⟩)

theorem onTime_mean {s : State} {n : Fin 8} {i : Nat} (hder : (getLamp s n).gangDer = true)
    (hcap : (getLamp s n).gangCap = gangCapOf i) : onTime s n * i ≤ 750 * periodInForce s n := by
  have hle : onTime s n ≤ ((periodInForce s n * gangCapOf i / 1000 : Nat) : Int) := by
    unfold onTime
    dsimp only
    rw [if_pos hder, hcap]
    exact Int.min_le_right _ _
  calc onTime s n * i ≤ ((periodInForce s n * gangCapOf i / 1000 : Nat) : Int) * i :=
        Int.mul_le_mul_of_nonneg_right hle (Int.natCast_nonneg i)
    _ ≤ ((750 * periodInForce s n : Nat) : Int) := by
        rw [← Int.natCast_mul]
        exact Int.ofNat_le.mpr (gangCapOf_mul_le _ _)
    _ = 750 * periodInForce s n := by push_cast; rfl

/-- Settles O43: retries by the rule of retryStep, the window's end half by half, PWM by the period in force. -/
theorem lampRetriesWindowsAndPwm : Obligations.LampRetriesWindowsAndPwm := by
  unfold Obligations.LampRetriesWindowsAndPwm
  refine ⟨⟨fun n s hover => ?early, fun n s hmode hover hreq hhot hbudget => ?due,
      fun n s hmode hrdy hreq hhot hbudget => ?cooled, fun n s => ?reload⟩,
    fun n s => ?window, fun n s hedge => ?noEdge, fun n P s u hedge hmode hpwm hP hu => ?period,
    fun n i s hmode hrun hcond => ?onEnd, fun n i s hder hcap => onTime_mean hder hcap⟩
  case early => exact congrArg Host.Outcome.next (if_neg fun h => by simp [hover] at h)
  case due =>
    have hlamp := retryDueAt_lamp hmode hover hreq hhot hbudget
    refine ⟨_, rfl, (retryDueAt_onChannels s n).frame, fun m hm hwait hdue => ?_, fun m hm => ?_⟩
    · have hrestarted := (hlamp m).1 <| by
        by_cases hmn : m = n
        · exact .inl hmn
        · obtain ⟨htime, hholds⟩ := hdue.resolve_left hmn
          exact .inr ⟨hm, hmn, hwait, htime, by simp [hholds]⟩
      exact ⟨hrestarted.mode, hrestarted.conducting, hrestarted.rleft⟩
    · have hmn : m ≠ n := by
        rintro rfl
        rcases hm with h | h | h
        · exact h (self_mem_mates s m)
        · exact h hmode
        · exact h.1 rfl
      refine (hlamp m).2 hmn fun ⟨hmem, hwait, htime, hholds⟩ => ?_
      rcases hm with h | h | ⟨-, ⟨hrdy, hover'⟩ | h⟩
      · exact h hmem
      · exact h hwait
      · simp [hrdy, hover'] at htime
      · simp [h] at hholds
  case cooled =>
    have hrestarted := overtempRelease_lamp hmode hrdy hreq hhot hbudget
    exact ⟨_, rfl, ((onChannels_setLamp s n _).trans (tryRetry_onChannels _ n)).frame, hrestarted.hot, hrestarted.mode,
      hrestarted.rleft⟩
  case reload =>
    refine ⟨retryReloads s n, rfl, (onChannels_ite (onChannels_setLamp s n _)).frame, fun m => ?_⟩
    by_cases hon : (getLamp s n).mode = .on
    · rw [show retryReloads s n = setLamp s n { getLamp s n with rleft := (getLamp s n).retryN } from if_pos hon,
        getLamp_setLamp_eq]
      by_cases hm : m = n
      · subst hm
        rw [if_pos rfl, if_pos ⟨rfl, hon⟩]
      · rw [if_neg hm, if_neg fun h => hm h.1]
    · rw [show retryReloads s n = s from if_neg hon, if_neg]
      rintro ⟨rfl, h⟩
      exact hon h
  case window =>
    refine ⟨_, rfl, (inrushEnds_onChannels s n).frame, fun m => ?_⟩
    rw [inrushEnds_lamp, windowEnds]
    by_cases hm : m ∈ mates s n
    · simp only [hm, true_and, if_true]
    · simp only [hm, false_and, and_false, if_false]
  case noEdge => exact congrArg Host.Outcome.next (if_pos (by simp [hedge]))
  case period =>
    subst hu hP
    refine ⟨fun h => ?_, fun h0 h => ?_⟩
    · exact congrArg Host.Outcome.next ((pwmBoundary_same hedge h).trans (periodStart_pwm hmode hpwm))
    · exact congrArg Host.Outcome.next ((pwmBoundary_new hedge hpwm h0 h).trans (takeGrid_on hmode hpwm))
  case onEnd => exact congrArg Host.Outcome.next (if_pos ⟨hmode, hrun, hcond⟩)

end Sys2Proof.Machine
end

section
/-! Diagnostics and the derating of a gang (R367, R379 to R382, Table LMP-6): the causes that latch, the limits that a
derated half takes, when its derating ends, and O44. -/

namespace Sys2Proof.Machine

open Sys2Proof

/-! ### A diagnostic event (R379, Table LMP-6) -/

/-- A cause that latches for channel `n` leaves its switch and the other channels. -/
structure Diagnosed (s t : State) (n : Fin 8) (i : Nat) : Prop where
  onLamps : OnLamps s t
  causes : (getLamp t n).causes = (getLamp s n).causes ||| BitVec.ofNat 8 (2 ^ i)
  flt : (getLamp t n).flt = true
  mode : (getLamp t n).mode = (getLamp s n).mode
  conducting : (getLamp t n).conducting = (getLamp s n).conducting
  irqStat : t.irqStat = if (getLamp s n).flt then s.irqStat else s.irqStat ||| 0x40
  others : ∀ m, m ≠ n → getLamp t m = getLamp s m

/-- A cause latches with a channel whose fault and switch are as they were. -/
theorem latchCause_diagnosed {s : State} {n : Fin 8} {c : Lamp} (i : Nat) (hflt : c.flt = (getLamp s n).flt)
    (hcauses : c.causes = (getLamp s n).causes) (hmode : c.mode = (getLamp s n).mode)
    (hcond : c.conducting = (getLamp s n).conducting) : Diagnosed s (latchCause (setLamp s n c) n i) n i := by
  have hself := latchCause_lamp (setLamp s n c) n i n
  rw [if_pos rfl, getLamp_setLamp] at hself
  refine ⟨(onLamps_setLamp s n c).trans (onLamps_latchCause _ n i), ?_, ?_, ?_, ?_, ?_, fun m hm => ?_⟩
  · rw [hself, ← hcauses]
  · rw [hself]
  · rw [hself, ← hmode]
  · rw [hself, ← hcond]
  · rw [latchCause_irqStat, getLamp_setLamp, hflt, setLamp_irqStat]
  · rw [latchCause_lamp, if_neg hm, getLamp_setLamp_ne _ _ _ _ hm]

theorem setLamp_getLamp (s : State) (n : Fin 8) : setLamp s n (getLamp s n) = s := by
  have hch : s.lamps.ch.set n (getLamp s n) = s.lamps.ch := by
    unfold getLamp
    exact Vector.set_getElem_self _
  rw [setLamp, hch]

theorem latchCause_diagnosed_self (s : State) (n : Fin 8) (i : Nat) : Diagnosed s (latchCause s n i) n i := by
  have h := latchCause_diagnosed (s := s) (n := n) (c := getLamp s n) i rfl rfl rfl rfl
  rwa [setLamp_getLamp] at h

theorem openOn_on {s : State} {n : Fin 8} (hmode : (getLamp s n).mode = .on) (hsense : (getLamp s n).senseless = false) :
    openOn s n = latchCause (setLamp s n { getLamp s n with openNow := true }) n cOPENON :=
  if_pos ⟨hmode, by simp [hsense]⟩

theorem openOn_senseless {s : State} {n : Fin 8} (h : (getLamp s n).senseless = true) : openOn s n = s :=
  if_neg fun hn => by simp [h] at hn

theorem openOff_off {s : State} {n : Fin 8} (hmode : (getLamp s n).mode = .off) (hdiag : (getLamp s n).offDiag = true)
    (hslots : slotsRun s = true) : openOff s n = latchCause s n cOPENOFF := if_pos ⟨hmode, hdiag, hslots⟩

theorem stuckHigh_off {s : State} {n : Fin 8} (hactive : active s = true) (hoff : powered (getLamp s n) = false) :
    stuckHigh s n = latchCause s n cSTB := if_pos ⟨hactive, by simp [hoff]⟩

theorem senseBad_closed {s : State} {n : Fin 8} (hon : powered (getLamp s n) = true)
    (hcond : (getLamp s n).conducting = true) :
    senseBad s n = latchCause (setLamp s n { getLamp s n with senseless := true }) n cSENSE := if_pos ⟨hon, hcond⟩

/-- The command of a diagnostic event, in a state in which it is made. -/
theorem exec_diagnoses {n : Fin 8} {c : Instr} {k : Nat} {s : State}
    (hc : (c = .openLoadOn n ∧ k = cOPENON ∧ (getLamp s n).mode = .on ∧ (getLamp s n).senseless = false) ∨
      (c = .openLoadOff n ∧ k = cOPENOFF ∧ (getLamp s n).mode = .off ∧ (getLamp s n).offDiag = true ∧ slotsRun s = true) ∨
      (c = .shortToBattery n ∧ k = cSTB ∧ active s = true ∧ powered (getLamp s n) = false) ∨
      (c = .senseImplausible n ∧ k = cSENSE ∧ powered (getLamp s n) = true ∧ (getLamp s n).conducting = true)) :
    ∃ t, exec c s = .next t ∧ Diagnosed s t n k ∧ (c = .senseImplausible n → (getLamp t n).senseless = true) := by
  rcases hc with ⟨rfl, rfl, hmode, hsense⟩ | ⟨rfl, rfl, hmode, hdiag, hslots⟩ | ⟨rfl, rfl, hactive, hoff⟩ |
    ⟨rfl, rfl, hon, hcond⟩
  · exact ⟨_, congrArg Host.Outcome.next (openOn_on hmode hsense), latchCause_diagnosed _ rfl rfl rfl rfl, nofun⟩
  · exact ⟨_, congrArg Host.Outcome.next (openOff_off hmode hdiag hslots), latchCause_diagnosed_self _ _ _, nofun⟩
  · exact ⟨_, congrArg Host.Outcome.next (stuckHigh_off hactive hoff), latchCause_diagnosed_self _ _ _, nofun⟩
  · refine ⟨_, congrArg Host.Outcome.next (senseBad_closed hon hcond), latchCause_diagnosed _ rfl rfl rfl rfl, fun _ => ?_⟩
    rw [latchCause_lamp, if_pos rfl, getLamp_setLamp]

/-! ### The derating of a gang (R367, R381) -/

/-- A derated half takes both halves' limits added together, while its partner is switched on. -/
theorem currentLimit_derated {s : State} {n : Fin 8} (hder : (getLamp s n).gangDer = true)
    (hmode : (getLamp s (pairOf n)).mode = .inrush ∨ (getLamp s (pairOf n)).mode = .on) :
    currentLimit s n = (ownLimit (getLamp s n) s.now).add (ownLimit (getLamp s (pairOf n)) s.now) :=
  (if_pos hder).trans (congrArg _ (if_pos hmode))

theorem pairOf_halves {k : Fin 4} {e o : Fin 8} (he : e.val = 2 * k.val) (ho : o.val = 2 * k.val + 1) :
    pairOf e = o ∧ pairOf o = e := by revert k e o; decide

/-- The half `h` of a gang conducts alone: it is derated, and GANGDR latches in both halves. -/
theorem gangDerate_eq {s : State} {k : Fin 4} {odd : Bool} {ma : Nat} {e o h : Fin 8} (he : e.val = 2 * k.val)
    (ho : o.val = 2 * k.val + 1) (hh : h = if odd then o else e) (hgang : (getLamp s e).gang = true)
    (hemode : (getLamp s e).mode = .on) (homode : (getLamp s o).mode = .on) (hes : (getLamp s e).senseless = false)
    (hos : (getLamp s o).senseless = false) : gangDerate s k odd ma =
      latchCause (latchCause (setLamp s h { getLamp s h with gangDer := true, gangCap := gangCapOf ma }) e cGANGDR) o
        cGANGDR := by
  have heven : (⟨2 * k.val, by omega⟩ : Fin 8) = e := Fin.ext he.symm
  have hodd : (⟨2 * k.val + 1, by omega⟩ : Fin 8) = o := Fin.ext ho.symm
  unfold gangDerate
  dsimp only
  rw [heven, hodd, ← hh]
  exact if_pos ⟨hgang, hemode, homode, by simp [hes], by simp [hos]⟩

/-- What a derating leaves of each channel. -/
theorem gangDerated_lamp {s : State} {e o h : Fin 8} (heo : e ≠ o) (ma : Nat) (m : Fin 8) :
    getLamp (latchCause (latchCause (setLamp s h { getLamp s h with gangDer := true, gangCap := gangCapOf ma }) e cGANGDR)
        o cGANGDR) m =
      { getLamp s m with
        gangDer := if m = h then true else (getLamp s m).gangDer
        gangCap := if m = h then gangCapOf ma else (getLamp s m).gangCap
        causes := if m = e ∨ m = o then (getLamp s m).causes ||| 0x40 else (getLamp s m).causes
        flt := if m = e ∨ m = o then true else (getLamp s m).flt } := by
  rw [latchCause_lamp, latchCause_lamp, latchCause_lamp, getLamp_setLamp_eq, getLamp_setLamp_eq, getLamp_setLamp_eq]
  by_cases hmo : m = o
  · subst hmo
    rw [if_pos rfl, if_neg heo.symm]
    by_cases hmh : m = h
    · subst hmh; simp; rfl
    · simp [hmh]; rfl
  · by_cases hme : m = e
    · subst hme
      rw [if_neg hmo, if_pos rfl]
      by_cases hmh : m = h
      · subst hmh; simp; rfl
      · simp [hmh]; rfl
    · rw [if_neg hmo, if_neg hme]
      by_cases hmh : m = h
      · subst hmh; simp [hmo, hme]
      · simp [hmo, hme, hmh]

/-! ### The derating ends with the even channel's FLT (R381) -/

theorem evenOf_evenOf (n : Fin 8) : evenOf (evenOf n) = evenOf n := by revert n; decide

theorem evenOf_eq_iff {n m : Fin 8} (h : n.val % 2 = 0) : n = evenOf m ↔ m = n ∨ m = pairOf n := by
  revert n m; decide

theorem evenOf_even (m : Fin 8) : (evenOf m).val % 2 = 0 := by revert m; decide

theorem fltFreed_gangDer (s : State) (n m : Fin 8) : (getLamp (fltFreed s n) m).gangDer = (getLamp s m).gangDer := by
  obtain ⟨hown, hpair, hothers⟩ := fltFreed_lamps s n
  by_cases hm : m = n
  · rw [hm, hown]; rfl
  · by_cases hp : m = pairOf n
    · rw [hp, hpair]
    · rw [hothers m hm hp]

theorem derateEnded_gangDer (s : State) {n : Fin 8} (h : n.val % 2 = 0) (m : Fin 8) :
    (getLamp (derateEnded s n) m).gangDer = ((getLamp s m).gangDer && !decide (n = evenOf m)) := by
  obtain ⟨hown, hpair, hothers⟩ := derateEnded_lamps s n
  have hiff := evenOf_eq_iff (m := m) h
  by_cases hm : m = n
  · subst hm
    rw [hown, decide_eq_true (hiff.mpr (.inl rfl))]
    exact (Bool.and_false _).symm
  · by_cases hp : m = pairOf n
    · subst hp
      rw [hpair, decide_eq_true (hiff.mpr (.inr rfl))]
      exact (Bool.and_false _).symm
    · rw [hothers m hm hp, decide_eq_false fun hn => (hiff.mp hn).elim hm hp]
      exact (Bool.and_true _).symm

/-- A clear of channel `n` ends the derating of its gang where it is the even channel and its FLT stands. -/
theorem clearFault_gangDer (s : State) (n m : Fin 8) : (getLamp (clearFault s n) m).gangDer =
    ((getLamp s m).gangDer && !(decide (n = evenOf m) && (getLamp s n).flt)) := by
  cases hflt : (getLamp s n).flt with
  | false => rw [clearFault_unset hflt]; simp
  | true =>
    rw [clearFault_set hflt]
    split
    case isTrue h => rw [derateEnded_gangDer _ h, fltFreed_gangDer, Bool.and_true]
    case isFalse h =>
      have hne : n ≠ evenOf m := fun hn => h (hn ▸ evenOf_even m)
      rw [fltFreed_gangDer, decide_eq_false hne]
      simp

theorem faultsCleared_gangDer (clears : Fin 8 → Bool) {l : List (Fin 8)} (hl : l.Nodup) (s : State) (m : Fin 8) :
    (getLamp (faultsCleared clears l s) m).gangDer = ((getLamp s m).gangDer &&
      !(decide (evenOf m ∈ l) && clears (evenOf m) && (getLamp s (evenOf m)).flt)) := by
  induction l generalizing s with
  | nil => simp [faultsCleared]
  | cons n l ih =>
    obtain ⟨hn, hnodup⟩ := List.nodup_cons.mp hl
    rw [faultsCleared_cons, ih hnodup]
    by_cases hm : n = evenOf m
    · subst hm
      rw [decide_eq_false hn]
      cases hc : clears (evenOf m) with
      | false => simp
      | true => simp [clearFault_gangDer]
    · have hflt : (getLamp (if clears n then clearFault s n else s) (evenOf m)).flt = (getLamp s (evenOf m)).flt := by
        split
        · exact (clearFault_beside s (.inl (Ne.symm hm))).flt
        · rfl
      have hder : (getLamp (if clears n then clearFault s n else s) m).gangDer = (getLamp s m).gangDer := by
        split
        · rw [clearFault_gangDer, decide_eq_false hm]; simp
        · rfl
      rw [hflt, hder]
      simp [Ne.symm hm]

/-- A channel that is set with its derating keeps every derating. -/
theorem setLamp_gangDer {s : State} {n : Fin 8} {c : Lamp} (h : c.gangDer = (getLamp s n).gangDer) (m : Fin 8) :
    (getLamp (setLamp s n c) m).gangDer = (getLamp s m).gangDer := by
  rw [getLamp_setLamp_eq]
  split
  case isTrue hm => rw [hm, h]
  case isFalse => rfl

theorem followReq_gangDer (s : State) (n m : Fin 8) : (getLamp (followReq s n) m).gangDer = (getLamp s m).gangDer := by
  unfold followReq
  split
  case h_5 => rfl
  all_goals exact setLamp_gangDer (by rfl) m

theorem flasherFollow_gangDer (s : State) (n : Fin 8) : (getLamp (flasherFollow s) n).gangDer = (getLamp s n).gangDer := by
  have hmap : (s.lamps.ch.map (fun c => { c with openNow := false }))[n] = { getLamp s n with openNow := false } :=
    Vector.getElem_map _ _
  unfold flasherFollow
  dsimp only
  split
  · split
    · rfl
    · simp only [getLamp] at hmap ⊢
      rw [hmap]
  · rfl

theorem foldl_gangDer {f : State → Fin 8 → State} (hf : ∀ s n m, (getLamp (f s n) m).gangDer = (getLamp s m).gangDer)
    (l : List (Fin 8)) (s : State) (m : Fin 8) : (getLamp (l.foldl f s) m).gangDer = (getLamp s m).gangDer := by
  induction l generalizing s with
  | nil => rfl
  | cons n l ih => rw [List.foldl_cons, ih, hf]

/-- Lamps that conduct fully and settle keep their derating. -/
theorem settled_gangDer (s : State) (n : Fin 8) :
    (getLamp (lampsSettle (fullyOn s)) n).gangDer = (getLamp s n).gangDer := by
  unfold lampsSettle
  rw [foldl_gangDer followReq_gangDer, flasherFollow_gangDer]
  refine foldl_gangDer (fun t k m => ?_) _ s n
  dsimp only
  split
  · exact setLamp_gangDer (by rfl) m
  · rfl

theorem lfaultWrite_gangDer (s : State) (w : Word) (n : Fin 8) : (getLamp (lfaultWrite s w []) n).gangDer =
    ((getLamp s n).gangDer && !(bit w (evenOf n).val && (getLamp s (evenOf n)).flt)) := by
  rw [lfaultWrite_eq, settled_gangDer, faultsCleared_gangDer _ (List.nodup_finRange 8),
    decide_eq_true (List.mem_finRange _)]
  simp [lfaultClears]

/-- Settles O44: each event by the rule of latchCause, the limits by currentLimit, the end of a derating by the fold of
the clears. -/
theorem lampDiagnosticsAndGangs : Obligations.LampDiagnosticsAndGangs := by
  unfold Obligations.LampDiagnosticsAndGangs
  refine ⟨fun n c k s => ⟨fun hc => ?event, fun hsense => congrArg Host.Outcome.next (openOn_senseless hsense)⟩,
    fun k odd ma e o s he ho hgang hemode homode hes hos => ?derate,
    fun n s hder _ hpair => currentLimit_derated hder (.inl hpair), fun p v w n s hreach => ?clear⟩
  case event =>
    obtain ⟨t, hrow, h, hsense⟩ := exec_diagnoses hc
    exact ⟨t, hrow, h.onLamps, h.causes, h.flt, h.mode, h.conducting, hsense, h.irqStat, h.others⟩
  case derate =>
    obtain ⟨h, hh⟩ : ∃ h, h = if odd then o else e := ⟨_, rfl⟩
    have heo : e ≠ o := fun hn => by rw [hn] at he; omega
    have hpair : pairOf h = if odd then e else o := by
      obtain ⟨hpe, hpo⟩ := pairOf_halves he ho
      subst hh
      cases odd
      · exact hpe
      · exact hpo
    have hrow := gangDerate_eq (ma := ma) he ho hh hgang hemode homode hes hos
    have honLamps : OnLamps s (gangDerate s k odd ma) := by
      rw [hrow]
      exact ((onLamps_setLamp s h _).trans (onLamps_latchCause _ e _)).trans (onLamps_latchCause _ o _)
    have hlamp := gangDerated_lamp (s := s) (h := h) heo ma
    rw [← hrow] at hlamp
    rw [← hh, ← hpair]
    refine ⟨_, rfl, honLamps, ?_, ?_, ?_, ?_, fun m hme hmo => ?_, ?_⟩
    · exact (congrArg Lamp.causes (hlamp e)).trans (if_pos (.inl rfl))
    · exact (congrArg Lamp.causes (hlamp o)).trans (if_pos (.inr rfl))
    · exact (congrArg Lamp.gangDer (hlamp h)).trans (if_pos rfl)
    · exact (congrArg Lamp.gangCap (hlamp h)).trans (if_pos rfl)
    · have hmh : m ≠ h := by rw [hh]; split <;> assumption
      rw [hlamp m, if_neg hmh, if_neg hmh, if_neg (not_or.mpr ⟨hme, hmo⟩), if_neg (not_or.mpr ⟨hme, hmo⟩)]
    · refine currentLimit_derated ((congrArg Lamp.gangDer (hlamp h)).trans (if_pos rfl)) (.inr ?_)
      rw [hlamp, hpair]
      split
      · exact hemode
      · exact homode
  case clear =>
    have hlamp := getLamp_gen1Empty s p 0x1C
    refine ⟨_, exec_reach_to rfl hreach rfl, ?_⟩
    rw [List.map_nil, lfaultWrite_gangDer, hlamp, hlamp]

end Sys2Proof.Machine
end

section
/-! The clusters' budgets and the flasher (R371 to R374, R383, R384, R388, R393): what a millisecond leaves of each cluster,
when the flasher runs, what its edges do, and O45. -/

namespace Sys2Proof.Machine

open Sys2Proof

/-! ### What a millisecond may change -/

/-- The state t is s but for the channels, the clusters and IRQSTAT. -/
def OnTick (s t : State) : Prop :=
  t = { s with lamps := { s.lamps with ch := t.lamps.ch, cl := t.lamps.cl }, irqStat := t.irqStat }

theorem OnTick.refl (s : State) : OnTick s s := rfl

theorem OnTick.trans {s t u : State} (h : OnTick s t) (k : OnTick t u) : OnTick s u := by
  unfold OnTick at h k ⊢
  rw [k, h]

theorem OnTick.onLamps {s t : State} (h : OnTick s t) : OnLamps s t := by
  unfold OnTick at h
  unfold OnLamps
  rw [h]

theorem OnTick.lctl {s t : State} (h : OnTick s t) : t.lamps.lctl = s.lamps.lctl := by
  unfold OnTick at h
  rw [h]

theorem OnTick.mem {s t : State} (h : OnTick s t) : t.mem = s.mem := by
  unfold OnTick at h
  rw [h]

theorem OnChannels.onTick {s t : State} (h : OnChannels s t) : OnTick s t := by
  unfold OnChannels at h
  unfold OnTick
  rw [h]

theorem onTick_foldl {α : Type} {f : State → α → State} (hf : ∀ s a, OnTick s (f s a)) (l : List α) (s : State) :
    OnTick s (l.foldl f s) := by
  induction l generalizing s with
  | nil => rfl
  | cons a l ih => exact (hf s a).trans (ih _)

theorem onTick_setCluster (s : State) (k : Fin 2) (x : Cluster) : OnTick s (setCluster s k x) := rfl

theorem onTick_latchCause (s : State) (n : Fin 8) (i : Nat) : OnTick s (latchCause s n i) := by
  unfold latchCause
  dsimp only
  split
  · rfl
  · rfl

/-! ### One cluster set -/

theorem getCluster_setCluster (s : State) (k j : Fin 2) (x : Cluster) :
    getCluster (setCluster s k x) j = if j = k then x else getCluster s j := by
  unfold setCluster getCluster
  by_cases h : j = k
  · subst h
    simp
  · rw [if_neg h]
    exact Vector.getElem_set_ne k.isLt j.isLt fun hv => h (Fin.ext hv.symm)

theorem getLamp_setCluster (s : State) (k : Fin 2) (x : Cluster) (n : Fin 8) :
    getLamp (setCluster s k x) n = getLamp s n := rfl

/-! ### A derating step (R372) -/

/-- What a derating step leaves of the clusters' budgets and of the channels' marks. -/
structure TickKept (s t : State) : Prop where
  onTick : OnTick s t
  cluster : ∀ k, (getCluster t k).b = (getCluster s k).b ∧ (getCluster t k).shortE = (getCluster s k).shortE ∧
    (getCluster t k).tCl = (getCluster s k).tCl
  inr : ∀ n, (getLamp t n).inr = (getLamp s n).inr

theorem derateStep_kept (s : State) (k : Fin 2) : TickKept s (derateStep s k) := by
  unfold derateStep
  dsimp only
  split
  case h_1 => exact ⟨rfl, fun _ => ⟨rfl, rfl, rfl⟩, fun _ => rfl⟩
  case h_2 n _ =>
    refine ⟨?_, fun j => ?_, fun m => ?_⟩
    · exact (((onChannels_setLamp s n _).onTick).trans (onTick_setCluster _ k _)).trans (onTick_latchCause _ n _)
    · rw [latchCause_cluster, getCluster_setCluster]
      split
      case isTrue hj => rw [hj]; exact ⟨rfl, rfl, rfl⟩
      case isFalse => exact ⟨rfl, rfl, rfl⟩
    · rw [latchCause_lamp, getLamp_setCluster, getLamp_setCluster, getLamp_setLamp, getLamp_setLamp_eq]
      split
      case isTrue hm => rw [hm]
      case isFalse => rfl

/-! ### A cluster's millisecond (R371) -/

/-- The retries of one cluster that waited for its budget. -/
def clusterRetries (s : State) (k : Fin 2) : State :=
  (List.finRange 8).foldl (fun s n => if clusterOf n = k then tryRetry s n else s) s

theorem clusterRetries_onChannels (s : State) (k : Fin 2) : OnChannels s (clusterRetries s k) :=
  onChannels_foldl (fun t n => onChannels_ite (tryRetry_onChannels t n)) _ s

/-- A retry of the other cluster leaves a channel as it is. -/
theorem clusterRetries_apart (s : State) {k : Fin 2} {m : Fin 8} (h : clusterOf m ≠ k) :
    getLamp (clusterRetries s k) m = getLamp s m := by
  unfold clusterRetries
  generalize List.finRange 8 = l
  induction l generalizing s with
  | nil => rfl
  | cons n l ih =>
    rw [List.foldl_cons, ih]
    split
    case isTrue hn => exact tryRetry_apart s fun hm => h ((clusterOf_mate hm).trans hn)
    case isFalse => rfl

/-- The budget that a millisecond leaves (R371). -/
def budgetAfter (s : State) (k : Fin 2) (e : Vector Nat 8) (t : Word) : Nat :=
  (clampInt 0 ((pg s (clusterPage k)).toNat * mJ) (((getCluster s k).b : Int) - tickCharge s k e + refillOf s k t)).toNat

/-- The cluster charged and refilled. -/
def clusterCharged (s : State) (k : Fin 2) (e : Vector Nat 8) (t : Word) : State :=
  setCluster s k { getCluster s k with
    b := budgetAfter s k e t, bPrev := (getCluster s k).b, sinceStep := (getCluster s k).sinceStep + 1
    eMax := (pg s (clusterPage k)).toNat, shortE := 0, tCl := t }

theorem clusterTick_eq (s : State) (k : Fin 2) (e : Vector Nat 8) (t : Word) : clusterTick s k e t = clusterRetries
    (if budgetLow (clusterCharged s k e t) k ∧ budgetAfter s k e t < (getCluster s k).b ∧ 10 ≤ (getCluster s k).sinceStep + 1
      then derateStep (clusterCharged s k e t) k else clusterCharged s k e t) k := rfl

/-- What a cluster's millisecond leaves: its own budget, the other cluster, and the marks of the other's channels. -/
structure Ticked (s u : State) (k : Fin 2) (e : Vector Nat 8) (t : Word) : Prop where
  onTick : OnTick s u
  b : (getCluster u k).b = budgetAfter s k e t
  shortE : (getCluster u k).shortE = 0
  tCl : (getCluster u k).tCl = t
  other : ∀ j, j ≠ k → (getCluster u j).b = (getCluster s j).b ∧ (getCluster u j).shortE = (getCluster s j).shortE ∧
    (getCluster u j).tCl = (getCluster s j).tCl
  inr : ∀ n, clusterOf n ≠ k → (getLamp u n).inr = (getLamp s n).inr

theorem clusterTick_ticked (s : State) (k : Fin 2) (e : Vector Nat 8) (t : Word) : Ticked s (clusterTick s k e t) k e t := by
  have hkept : TickKept (clusterCharged s k e t) (if budgetLow (clusterCharged s k e t) k ∧
      budgetAfter s k e t < (getCluster s k).b ∧ 10 ≤ (getCluster s k).sinceStep + 1
      then derateStep (clusterCharged s k e t) k else clusterCharged s k e t) := by
    split
    · exact derateStep_kept _ k
    · exact ⟨rfl, fun _ => ⟨rfl, rfl, rfl⟩, fun _ => rfl⟩
  rw [clusterTick_eq]
  generalize (if budgetLow (clusterCharged s k e t) k ∧ budgetAfter s k e t < (getCluster s k).b ∧
      10 ≤ (getCluster s k).sinceStep + 1 then derateStep (clusterCharged s k e t) k else clusterCharged s k e t) = u
    at hkept ⊢
  have hretries := clusterRetries_onChannels u k
  have hcluster (j : Fin 2) : getCluster (clusterCharged s k e t) j = _ := getCluster_setCluster ..
  have hown := hkept.cluster k
  rw [hcluster k, if_pos rfl] at hown
  refine ⟨((onTick_setCluster s k _).trans hkept.onTick).trans hretries.onTick, ?_, ?_, ?_, fun j hj => ?_, fun n hn => ?_⟩
  · rw [hretries.cluster]; exact hown.1
  · rw [hretries.cluster]; exact hown.2.1
  · rw [hretries.cluster]; exact hown.2.2
  · have hother := hkept.cluster j
    rw [hcluster j, if_neg hj] at hother
    rw [hretries.cluster]
    exact hother
  · rw [clusterRetries_apart u hn]
    exact hkept.inr n

theorem tickCharge_congr {s t : State} {k : Fin 2} (e : Vector Nat 8)
    (hshort : (getCluster t k).shortE = (getCluster s k).shortE)
    (hinr : ∀ n, clusterOf n = k → (getLamp t n).inr = (getLamp s n).inr) : tickCharge t k e = tickCharge s k e := by
  unfold tickCharge
  rw [hshort]
  congr 1
  funext a n
  by_cases hn : clusterOf n = k
  · rw [hinr n hn]
  · simp [hn]

theorem budgetAfter_congr {s t : State} {k : Fin 2} (e : Vector Nat 8) (x : Word) (hmem : t.mem = s.mem)
    (hb : (getCluster t k).b = (getCluster s k).b) (hshort : (getCluster t k).shortE = (getCluster s k).shortE)
    (hinr : ∀ n, clusterOf n = k → (getLamp t n).inr = (getLamp s n).inr) : budgetAfter t k e x = budgetAfter s k e x := by
  simp only [budgetAfter, tickCharge_congr e hshort hinr, hb, refillOf, pg, pgf, hmem]

/-- The on-currents of the channels without PWM are taken. -/
def currentsTaken (s : State) (ion : Vector Word 8) : State :=
  (List.finRange 8).foldl (fun s n => if (getLamp s n).pwmRun then s else setLamp s n { getLamp s n with iOn := ion[n] }) s

theorem currentsTaken_onChannels (s : State) (ion : Vector Word 8) : OnChannels s (currentsTaken s ion) := by
  refine onChannels_foldl (fun t n => ?_) _ s
  split
  · rfl
  · exact onChannels_setLamp t n _

theorem currentsTaken_inr (s : State) (ion : Vector Word 8) (m : Fin 8) :
    (getLamp (currentsTaken s ion) m).inr = (getLamp s m).inr := by
  unfold currentsTaken
  generalize List.finRange 8 = l
  induction l generalizing s with
  | nil => rfl
  | cons n l ih =>
    rw [List.foldl_cons, ih]
    split
    · rfl
    · rw [getLamp_setLamp_eq]
      split
      case isTrue hm => rw [hm]
      case isFalse => rfl

theorem budgetTick_eq {s : State} (h : active s = true) (e : Vector Nat 8) (t0 t1 : Word) (ion : Vector Word 8) :
    budgetTick s e t0 t1 ion = inrushMarks (clusterTick (clusterTick (currentsTaken s ion) 0 e t0) 1 e t1) := if_pos h

theorem inrushMarks_onTick (s : State) : OnTick s (inrushMarks s) := rfl

theorem inrushMarks_cluster (s : State) (k : Fin 2) : getCluster (inrushMarks s) k = getCluster s k := rfl

/-! ### The flasher (R383, R384) -/

/-- What the channels' wish for the flasher asks for. -/
def askView (s : State) : ReqView := { reqView s with allowed := false, flOut := false }

theorem askView_of_reqView {s t : State} (h : reqView t = reqView s) : askView t = askView s := by
  rw [askView, askView, h]

theorem reqSrc_of_askView {s t : State} (h : askView t = askView s) (n : Fin 8) : reqSrc t n = reqSrc s n := by
  have hfallbk : t.roles.fallbk = s.roles.fallbk := congrArg ReqView.fallbk h
  have hclaim : t.lamps.ttClaim = s.lamps.ttClaim := congrArg ReqView.claim h
  have hmode : t.lamps.ttMode = s.lamps.ttMode := congrArg ReqView.mode h
  have hfb : t.lamps.ttFb = s.lamps.ttFb := congrArg ReqView.fb h
  have hflash : (getLamp t n).flash = (getLamp s n).flash := congrFun (congrArg ReqView.flash h) n
  simp only [reqSrc, policySrc, plainSrc, claimed, ttModeOf, ttFbOf, hfallbk, hclaim, hmode, hfb, hflash]
  rfl

theorem leader_of_askView {s t : State} (h : askView t = askView s) (n : Fin 8) : leader t n = leader s n := by
  have hgang : (getLamp t (evenOf n)).gang = (getLamp s (evenOf n)).gang := congrFun (congrArg ReqView.gang h) _
  rw [leader, leader, ganged, ganged, hgang]

theorem wantsFlasher_of_askView {s t : State} (h : askView t = askView s) (n : Fin 8) :
    wantsFlasher t n = wantsFlasher s n := by
  have hflash : (getLamp t n).flash = (getLamp s n).flash := congrFun (congrArg ReqView.flash h) n
  have hlctl : t.lamps.lctl = s.lamps.lctl := congrArg ReqView.lctl h
  rw [wantsFlasher, wantsFlasher, leader_of_askView h, reqSrc_of_askView h, hflash, hlctl]

/-- The flasher runs where a channel asks for it, in RUN. -/
def flasherWanted (s : State) : Bool := s.pw.mode == .run && !lampsHeld s && (List.finRange 8).any (wantsFlasher s)

theorem flasherFollow_unwanted {s : State} (h : flasherWanted s = false) :
    flasherFollow s = { s with lamps := { s.lamps with flRun := false, flOut := false } } :=
  if_neg fun hw => Bool.false_ne_true (h.symm.trans hw)

theorem flasherFollow_running {s : State} (h : flasherWanted s = true) (hrun : s.lamps.flRun = true) :
    flasherFollow s = s := (if_pos h).trans (if_pos hrun)

theorem flasherFollow_flRun (s : State) : (flasherFollow s).lamps.flRun = flasherWanted s := by
  cases hwant : flasherWanted s with
  | false => rw [flasherFollow_unwanted hwant]
  | true =>
    refine (congrArg (fun t : State => t.lamps.flRun) (if_pos hwant)).trans ?_
    dsimp only
    split
    case isTrue h => exact h
    case isFalse => rfl

theorem flasherFollow_askView (s : State) : askView (flasherFollow s) = askView s := by
  have hview := fun n => (flasherFollow_lamp s n).2.2
  have hgang (n : Fin 8) : (getLamp (flasherFollow s) n).gang = (getLamp s n).gang := congrArg LampView.gang (hview n)
  have hflash (n : Fin 8) : (getLamp (flasherFollow s) n).flash = (getLamp s n).flash := congrArg LampView.flash (hview n)
  have hrest : (flasherFollow s).roles = s.roles ∧ (flasherFollow s).lamps.lctl = s.lamps.lctl ∧
      (flasherFollow s).lamps.ttClaim = s.lamps.ttClaim ∧ (flasherFollow s).lamps.ttMode = s.lamps.ttMode ∧
      (flasherFollow s).lamps.ttFb = s.lamps.ttFb := by
    unfold flasherFollow
    dsimp only
    split_ifs <;> exact ⟨rfl, rfl, rfl, rfl, rfl⟩
  obtain ⟨hroles, hlctl, hclaim, hmode, hfb⟩ := hrest
  simp only [askView, reqView, hgang, hflash, hroles, hlctl, hclaim, hmode, hfb]

/-- The parts of the lamp block that the flasher's own state is. -/
structure FlasherView where
  run : Bool
  out : Bool
  period : Nat
  bout : Bool

def flasherView (s : State) : FlasherView := ⟨s.lamps.flRun, s.lamps.flOut, s.lamps.flPeriod, s.lamps.bout⟩

theorem followReq_flasherView (s : State) (n : Fin 8) : flasherView (followReq s n) = flasherView s := by
  unfold followReq
  split <;> rfl

/-- Channels that follow leave the flasher. -/
theorem lampsSettle_flasherView (s : State) : flasherView (lampsSettle s) = flasherView (flasherFollow s) := by
  unfold lampsSettle
  generalize flasherFollow s = t
  generalize List.finRange 8 = l
  induction l generalizing t with
  | nil => rfl
  | cons n l ih => rw [List.foldl_cons, ih, followReq_flasherView]

theorem lampsSettle_flRun (s : State) : (lampsSettle s).lamps.flRun = flasherWanted s := by
  have h := congrArg FlasherView.run (lampsSettle_flasherView s)
  simp only [flasherView] at h
  rw [h, flasherFollow_flRun]

theorem lampsSettle_flOut (s : State) : (lampsSettle s).lamps.flOut = (flasherFollow s).lamps.flOut := by
  have h := congrArg FlasherView.out (lampsSettle_flasherView s)
  simpa only [flasherView] using h

theorem lampsSettle_flPeriod (s : State) : (lampsSettle s).lamps.flPeriod = (flasherFollow s).lamps.flPeriod := by
  have h := congrArg FlasherView.period (lampsSettle_flasherView s)
  simpa only [flasherView] using h

theorem lampsSettle_bout (s : State) : (lampsSettle s).lamps.bout = (flasherFollow s).lamps.bout := by
  have h := congrArg FlasherView.bout (lampsSettle_flasherView s)
  simpa only [flasherView] using h

theorem lampsSettle_reqView (s : State) : reqView (lampsSettle s) = reqView (flasherFollow s) :=
  (followAll_lamp (List.finRange 8) (List.nodup_finRange 8) (flasherFollow s) 0).1

theorem lampsSettle_askView (s : State) : askView (lampsSettle s) = askView s :=
  (askView_of_reqView (lampsSettle_reqView s)).trans (flasherFollow_askView s)

theorem lampsHeld_congr {s t : State} (hpw : t.pw = s.pw) (hclk : t.clk = s.clk) : lampsHeld t = lampsHeld s := by
  rw [lampsHeld, lampsHeld, hpw, hclk]

theorem flasherWanted_congr {s t : State} (hpw : t.pw = s.pw) (hclk : t.clk = s.clk) (h : askView t = askView s) :
    flasherWanted t = flasherWanted s := by
  rw [flasherWanted, flasherWanted, hpw, lampsHeld_congr hpw hclk, funext (wantsFlasher_of_askView h)]

theorem flasherWanted_settled (s : State) : flasherWanted (lampsSettle s) = flasherWanted s := by
  have hframe := lampsSettle_frame s
  exact flasherWanted_congr (by rw [hframe]) (by rw [hframe]) (lampsSettle_askView s)

/-- A flasher that has stopped and that nobody asks for keeps every request. -/
theorem flasherFollow_stopped {s : State} (h : flasherWanted s = false) (hout : s.lamps.flOut = false) :
    reqView (flasherFollow s) = reqView s := by
  rw [flasherFollow_unwanted h]
  exact reqView_of_lamps (s := s) (t := { s with lamps := { s.lamps with flRun := false, flOut := false } })
    (fun _ => rfl) rfl rfl rfl hout.symm rfl rfl rfl

/-- Lamps that have settled stay settled: the flasher does not move again. -/
theorem flasherFollow_settled (s : State) : reqView (flasherFollow (lampsSettle s)) = reqView (lampsSettle s) := by
  cases hwant : flasherWanted s with
  | true => rw [flasherFollow_running ((flasherWanted_settled s).trans hwant) ((lampsSettle_flRun s).trans hwant)]
  | false =>
    refine flasherFollow_stopped ((flasherWanted_settled s).trans hwant) ?_
    rw [lampsSettle_flOut, flasherFollow_unwanted hwant]

theorem effReq_resettled (s : State) (n : Fin 8) : effReq (lampsSettle (lampsSettle s)) n = effReq (lampsSettle s) n :=
  effReq_of_reqView ((lampsSettle_reqView _).trans (flasherFollow_settled s)) n

/-- A channel in ON that is asked for once all has settled has stayed on. -/
theorem resettled_on {s : State} {n : Fin 8} (hmode : (getLamp s n).mode = .on)
    (hreq : effReq (lampsSettle (lampsSettle s)) n = true) : (getLamp (lampsSettle (lampsSettle s)) n).mode = .on := by
  have honce := hreq
  rw [effReq_resettled] at honce
  have hfirst := (lampsSettle_lamp s n).2.1
  have hsecond := (lampsSettle_lamp (lampsSettle s) n).2.1
  rw [honce, hmode] at hfirst
  rw [hreq, hfirst] at hsecond
  exact hsecond

/-! ### The flasher's edges (R383, R384, R393) -/

/-- The state of an on phase that begins. -/
def phaseOn (s : State) : State := { s with lamps := { s.lamps with
  flOut := true, boutSeen := false
  flPeriod := if s.lamps.bout then (pg s 0xD140).toNat else 2 * (pg s 0xD140).toNat
  flDuty := pgf s 0xD142 0 8
  ch := s.lamps.ch.map (fun c => { c with openNow := false }) } }

theorem phaseOn_lamp (s : State) (n : Fin 8) : getLamp (phaseOn s) n = { getLamp s n with openNow := false } :=
  Vector.getElem_map _ _

theorem flasherOn_off {s : State} (hrun : s.lamps.flRun = true) (hout : s.lamps.flOut = false) : flasherOn s = phaseOn s :=
  if_pos ⟨hrun, by simp [hout]⟩

theorem flasherOn_frame (s : State) : flasherOn s = { s with lamps := (flasherOn s).lamps } := by
  unfold flasherOn
  split <;> rfl

theorem flasherOn_mode (s : State) (n : Fin 8) : (getLamp (flasherOn s) n).mode = (getLamp s n).mode := by
  unfold flasherOn
  split
  · show (getLamp (phaseOn s) n).mode = _
    rw [phaseOn_lamp]
  · rfl

/-- Whether the on phase that ends has met an outage (R384). -/
def outageMet (s : State) (low : Byte) : Bool :=
  (List.finRange 8).any (fun n => onFlasher s n && ((getLamp s n).openNow
    || (low.getLsbD n.val && !(getLamp s n).senseless && decide ((getLamp s n).boutI ≠ 0))))

theorem flasherOff_on {s : State} (hrun : s.lamps.flRun = true) (hout : s.lamps.flOut = true) (low : Byte) :
    flasherOff s low = { s with lamps := { s.lamps with
      flOut := false, bout := outageMet s low, boutSeen := outageMet s low } } := if_pos ⟨hrun, hout⟩

theorem flasherOff_frame (s : State) (low : Byte) : flasherOff s low = { s with lamps := (flasherOff s low).lamps } := by
  unfold flasherOff
  split <;> rfl

theorem flasherOff_mode (s : State) (low : Byte) (n : Fin 8) : (getLamp (flasherOff s low) n).mode = (getLamp s n).mode := by
  unfold flasherOff
  split <;> rfl

/-- The flasher follows no more than its requests: an output that is off stays off while the flasher runs. -/
theorem flasherFollow_out {s : State} (hrun : s.lamps.flRun = true) (hout : s.lamps.flOut = false) :
    (flasherFollow s).lamps.flOut = false ∧ (flasherFollow s).lamps.bout = s.lamps.bout := by
  cases hwant : flasherWanted s with
  | true => rw [flasherFollow_running hwant hrun]; exact ⟨hout, rfl⟩
  | false => rw [flasherFollow_unwanted hwant]; exact ⟨rfl, rfl⟩

theorem followMode_unasked (m : LampMode) : followMode m false = .off ∨ followMode m false = .latched := by
  cases m <;> simp [followMode]

/-- R383: while the flasher's output is off a channel whose request comes from the flasher is not powered. -/
theorem settled_unflashed {s : State} {n : Fin 8} (hout : (lampsSettle s).lamps.flOut = false)
    (hsrc : reqSrc s (leader s n) = .flasher ∨ reqSrc s (leader s n) = .lctlFlasher) :
    powered (getLamp (lampsSettle s) n) = false := by
  have hask := lampsSettle_askView s
  have hreq : effReq (lampsSettle s) n = false := by
    rw [effReq, srcValue, leader_of_askView hask, reqSrc_of_askView hask, hout]
    rcases hsrc with h | h <;> simp [h]
  have hmode := (lampsSettle_lamp s n).2.1
  rw [hreq] at hmode
  unfold powered
  rcases followMode_unasked (getLamp s n).mode with h | h <;> rw [hmode, h] <;> rfl

/-- R393: a miss in the cycle of a flasher edge is declared with the edge made. -/
theorem flasherEdge_miss {s : State} {edge : State → State} (h : hbOverdue s = true) :
    flasherEdge s edge .miss = lampsSettle (declareMiss (edge s)) := congrArg lampsSettle (if_pos h)

theorem flasherEdge_running {s : State} {edge : State → State} (h : s.lamps.flRun = true) :
    flasherEdge s edge .none = lampsSettle (edge s) := if_pos h

theorem flasherEdge_stopped {s : State} {edge : State → State} (h : s.lamps.flRun = false) :
    flasherEdge s edge .none = s := if_neg (by simp [h])

/-- The fallback as a miss begins it. -/
def missBegun (s : State) : State :=
  setIrq { s with roles := { s.roles with fallbk := true, hbMissed := true, fbEnding := false, fbBeat := none } } irqHB

/-- What an edge with a miss leaves: the fallback with IRQSTAT.HB, the Cellar, and a channel in ON that is still asked for.
-/
theorem missEdge {s x : State} (hframe : x = { s with lamps := x.lamps })
    (hmode : ∀ n, (getLamp x n).mode = (getLamp s n).mode) : (lampsSettle (declareMiss x)).roles.fallbk = true ∧
      bit (lampsSettle (declareMiss x)).irqStat 15 = true ∧ (lampsSettle (declareMiss x)).mem = s.mem ∧
      ∀ n, (getLamp s n).mode = .on → effReq (lampsSettle (declareMiss x)) n = true →
        (getLamp (lampsSettle (declareMiss x)) n).mode = .on := by
  have hdef : declareMiss x = lampsSettle (missBegun x) := rfl
  have honce := lampsSettle_frame (missBegun x)
  have htwice := lampsSettle_frame (declareMiss x)
  rw [hdef] at htwice ⊢
  refine ⟨?_, ?_, ?_, fun n hn hreq => resettled_on ((hmode n).trans hn) hreq⟩
  · rw [htwice, honce]; rfl
  · rw [htwice, honce]
    show bit (x.irqStat ||| 0x8000) 15 = true
    rw [bit, BitVec.getLsbD_or]
    exact Bool.or_true _
  · rw [htwice, honce]
    show x.mem = s.mem
    rw [hframe]

/-! ### The statement -/

/-- What an accepted LCTL write of the Supervisor leaves of the flasher in RUN (R383). -/
theorem lctlWrite_flasher {s u : State} {new : Word} (hmode : s.pw.mode = .run) (hheld : lampsHeld s = false)
    (hu : u = lampsSettle (fullyOn { s with lamps := { s.lamps with lctl := new } })) :
    (u.lamps.flRun = true ↔ ∃ n, wantsFlasher u n = true) ∧
    ∀ n, leader s n = n → (getLamp s n).flash = true → bit u.lamps.lctl n.val = true → u.lamps.flRun = true := by
  have hframe := settled_frame { s with lamps := { s.lamps with lctl := new } }
  have hview := fun n => (settled_lamp { s with lamps := { s.lamps with lctl := new } } n).1
  have hrun : u.lamps.flRun = flasherWanted u := by rw [hu, flasherWanted_settled, lampsSettle_flRun]
  rw [← hu] at hframe hview
  have hwanted : flasherWanted u = (List.finRange 8).any (wantsFlasher u) := by
    have hpw : u.pw = s.pw := by rw [hframe]
    have hclk : u.clk = s.clk := by rw [hframe]
    rw [flasherWanted, hpw, lampsHeld_congr hpw hclk, hmode, hheld]
    rfl
  have hiff : u.lamps.flRun = true ↔ ∃ n, wantsFlasher u n = true := by
    rw [hrun, hwanted, List.any_eq_true]
    exact ⟨fun ⟨n, _, h⟩ => ⟨n, h⟩, fun ⟨n, h⟩ => ⟨n, List.mem_finRange n, h⟩⟩
  refine ⟨hiff, fun n hlead hflash hbit => hiff.mpr ⟨n, ?_⟩⟩
  have hgang : (getLamp u (evenOf n)).gang = (getLamp s (evenOf n)).gang := congrArg LampView.gang (hview _)
  have hlead' : leader u n = n := by rw [leader, ganged, hgang]; exact hlead
  have hflash' : (getLamp u n).flash = true := (congrArg LampView.flash (hview n)).trans hflash
  rw [wantsFlasher, hlead', hflash', hbit]
  simp

/-- Settles O45: the budgets cluster by cluster, the flasher by what asks for it, and its edges with and without a miss. -/
theorem clusterBudgetsAndFlasher : Obligations.ClusterBudgetsAndFlasher := by
  unfold Obligations.ClusterBudgetsAndFlasher
  refine ⟨fun e t0 t1 ion s hactive => ?budget, fun p v w s hreach hsup hmode hheld => ?lctl,
    fun s hrun hout hmode hheld hwants => ?onEdge, fun low s hrun hout => ?offEdge, fun low s hover => ?miss,
    fun low s hrun => ⟨congrArg Host.Outcome.next (flasherEdge_stopped hrun),
      congrArg Host.Outcome.next (flasherEdge_stopped hrun)⟩⟩
  case budget =>
    have htaken := currentsTaken_onChannels s ion
    have hinr := currentsTaken_inr s ion
    have hfirst := clusterTick_ticked (currentsTaken s ion) 0 e t0
    have hsecond := clusterTick_ticked (clusterTick (currentsTaken s ion) 0 e t0) 1 e t1
    have hrow : exec (.budgetTick e t0 t1 ion) s =
        .next (inrushMarks (clusterTick (clusterTick (currentsTaken s ion) 0 e t0) 1 e t1)) :=
      congrArg Host.Outcome.next (budgetTick_eq hactive e t0 t1 ion)
    generalize currentsTaken s ion = a at htaken hinr hfirst hsecond hrow
    generalize clusterTick a 0 e t0 = b at hfirst hsecond hrow
    generalize clusterTick b 1 e t1 = c at hsecond hrow
    have honTick : OnTick s (inrushMarks c) :=
      ((htaken.onTick.trans hfirst.onTick).trans hsecond.onTick).trans (inrushMarks_onTick c)
    obtain ⟨hb1, hshort1, -⟩ := hfirst.other 1 (by decide)
    obtain ⟨hb0, hshort0, htcl0⟩ := hsecond.other 0 (by decide)
    have hafter0 : budgetAfter a 0 e t0 = budgetAfter s 0 e t0 :=
      budgetAfter_congr e t0 htaken.onTick.mem (by rw [htaken.cluster]) (by rw [htaken.cluster]) fun n _ => hinr n
    have hafter1 : budgetAfter b 1 e t1 = budgetAfter s 1 e t1 :=
      budgetAfter_congr e t1 (htaken.onTick.trans hfirst.onTick).mem (by rw [hb1, htaken.cluster])
        (by rw [hshort1, htaken.cluster]) fun n hn => (hfirst.inr n (by rw [hn]; decide)).trans (hinr n)
    refine ⟨_, hrow, honTick.onLamps, ?_⟩
    simp only [inrushMarks_cluster]
    exact ⟨(hb0.trans hfirst.b).trans hafter0, hsecond.b.trans hafter1, hshort0.trans hfirst.shortE, hsecond.shortE,
      htcl0.trans hfirst.tCl, hsecond.tCl, honTick.lctl⟩
  case lctl =>
    have hpw := gen1Empty_pw s p 0x18
    have hrow := lctlWrite_kept (s := gen1Empty s p 0x18) (p := p) (w := w) rfl (.inl (by simpa using hsup))
      fun h => by rw [hpw, hmode] at h; cases h
    obtain ⟨hiff, hflash⟩ := lctlWrite_flasher (s := gen1Empty s p 0x18) (hpw ▸ hmode)
      ((lampsHeld_congr hpw (gen1Empty_clk s p _)).trans hheld) rfl
    refine ⟨_, exec_reach_to rfl hreach hrow, hiff, fun n hlead hf => hflash n ?_ ?_⟩
    · rw [leader, ganged, getLamp_gen1Empty]; exact hlead
    · rw [getLamp_gen1Empty]; exact hf
  case onEdge =>
    obtain ⟨n, hn⟩ := hwants
    have hlamp := phaseOn_lamp s
    have hask : askView (phaseOn s) = askView s := by
      have hgang (m : Fin 8) : (getLamp (phaseOn s) m).gang = (getLamp s m).gang := by rw [hlamp]
      have hflash (m : Fin 8) : (getLamp (phaseOn s) m).flash = (getLamp s m).flash := by rw [hlamp]
      simp only [askView, reqView, hgang, hflash]
      rfl
    have hwant : flasherWanted (phaseOn s) = true := by
      rw [flasherWanted_congr (s := s) (t := phaseOn s) rfl rfl hask, flasherWanted, hmode, hheld]
      exact List.any_eq_true.mpr ⟨n, List.mem_finRange n, hn⟩
    have hfollow := flasherFollow_running hwant hrun
    have hframe := lampsSettle_frame (phaseOn s)
    refine ⟨lampsSettle (phaseOn s), ?_, hframe, ?_, ?_, ?_, lampsSettle_lctl _⟩
    · exact congrArg Host.Outcome.next ((flasherEdge_running hrun).trans (congrArg lampsSettle (flasherOn_off hrun hout)))
    · rw [lampsSettle_flOut, hfollow]; rfl
    · rw [lampsSettle_flRun, hwant]
    · rw [lampsSettle_flPeriod, hfollow]; rfl
  case offEdge =>
    have hoff := flasherOff_on hrun hout low
    obtain ⟨u, hu⟩ : ∃ u, u = flasherOff s low := ⟨_, rfl⟩
    have hurun : u.lamps.flRun = true := by rw [hu, hoff]; exact hrun
    obtain ⟨hfout, hfbout⟩ := flasherFollow_out hurun (by rw [hu, hoff])
    have hframe := lampsSettle_frame u
    have hstopped := (lampsSettle_flOut u).trans hfout
    have hbout : (lampsSettle u).lamps.bout = outageMet s low := by rw [lampsSettle_bout, hfbout, hu, hoff]
    have hask : askView u = askView s := by rw [hu, hoff]; rfl
    refine ⟨lampsSettle u, ?_, ?_, hstopped, hbout, fun n hsrc => settled_unflashed hstopped ?_⟩
    · rw [hu]
      exact congrArg Host.Outcome.next (flasherEdge_running hrun)
    · rw [hframe, hu, hoff]
    · rwa [leader_of_askView hask, reqSrc_of_askView hask]
  case miss =>
    obtain ⟨hfb, hirq, hmem, hon⟩ := missEdge (flasherOff_frame s low) (flasherOff_mode s low)
    obtain ⟨hfb', hirq', -, hon'⟩ := missEdge (flasherOn_frame s) (flasherOn_mode s)
    exact ⟨_, congrArg Host.Outcome.next (flasherEdge_miss hover), _, congrArg Host.Outcome.next (flasherEdge_miss hover),
      hfb, hirq, hmem, hfb', hirq', fun n hn => ⟨hon n hn, hon' n hn⟩⟩

end Sys2Proof.Machine
end

section
/-! The counter write, the ends of a lockout and of a claim, and the effects of accepted commands (R481, R487, R490 to R498,
O54). -/

namespace Sys2Proof.Machine

open Sys2Proof

/-! ### A lamp that waits for its retry (R374, R385, R497) -/

/-- The lamp policy of a LAMP_POLICY command, ahead of the channels. -/
def policyTaken (s : State) (a : List Word) : State := { s with lamps := { s.lamps with
  ttClaim := loByte (rArg a 1), ttMode := rArg a 2, ttFb := rArg a 3 } }

/-- The retries of the claimed channels among a list. -/
def claimedRetries (l : List (Fin 8)) (s : State) : State := l.foldl (fun s n => if claimed s n then tryRetry s n else s) s

theorem lampPolicy_eq (s : State) (a : List Word) :
    lampPolicy s a = claimedRetries (List.finRange 8) (lampsSettle (policyTaken s a)) := rfl

/-- What the retries of claimed channels leave: all but the channels, and every request. -/
theorem claimedRetries_kept (l : List (Fin 8)) (s : State) :
    OnChannels s (claimedRetries l s) ∧ reqView (claimedRetries l s) = reqView s := by
  induction l generalizing s with
  | nil => exact ⟨rfl, rfl⟩
  | cons n l ih =>
    obtain ⟨hframe, hview⟩ := ih (if claimed s n then tryRetry s n else s)
    refine ⟨(onChannels_ite (tryRetry_onChannels s n)).trans hframe, hview.trans ?_⟩
    split
    · exact tryRetry_reqView s n
    · rfl

theorem ganged_of_reqView {s t : State} (h : reqView t = reqView s) (n : Fin 8) : ganged t n = ganged s n :=
  congrFun (congrArg ReqView.gang h) (evenOf n)

/-- The retry of another channel leaves one that is in no gang. -/
theorem not_mem_mates_of_alone {s : State} {n m : Fin 8} (halone : ganged s n = false) (h : n ≠ m) : n ∉ mates s m := by
  intro hm
  rcases mem_mates.mp hm with hnm | ⟨hgang, hpair⟩
  · exact h hnm
  · rw [hpair, ganged_pairOf, hgang] at halone
    exact Bool.noConfusion halone

theorem claimedRetries_apart {l : List (Fin 8)} {n : Fin 8} (hn : n ∉ l) {s : State} (halone : ganged s n = false) :
    getLamp (claimedRetries l s) n = getLamp s n := by
  induction l generalizing s with
  | nil => rfl
  | cons m l ih =>
    obtain ⟨hnm, hnl⟩ := List.ne_and_not_mem_of_not_mem_cons hn
    have hstep : getLamp (if claimed s m then tryRetry s m else s) n = getLamp s n ∧
        ganged (if claimed s m then tryRetry s m else s) n = false := by
      split
      · exact ⟨tryRetry_apart s (not_mem_mates_of_alone halone hnm),
          (ganged_of_reqView (tryRetry_reqView s m) n).trans halone⟩
      · exact ⟨rfl, halone⟩
    exact (ih hnl hstep.2).trans hstep.1

/-- A claimed channel that is in no gang, whose retry was due and which its sensor does not hold, starts again. -/
theorem claimedRetries_restarts {l : List (Fin 8)} {n : Fin 8} (hl : l.Nodup) (hn : n ∈ l) {s : State}
    (halone : ganged s n = false) (hclaim : claimed s n = true) (hmode : (getLamp s n).mode = .wait)
    (hrdy : (getLamp s n).retryRdy = true) (hot : (getLamp s n).otWait = false) (hreq : effReq s n = true) :
    Restarted (getLamp s n) (getLamp (claimedRetries l s) n) := by
  obtain ⟨l1, l2, rfl⟩ := List.append_of_mem hn
  have hn1 : n ∉ l1 := fun h => (List.nodup_append.mp hl).2.2 n h n List.mem_cons_self rfl
  have hn2 : n ∉ l2 := (List.nodup_cons.mp (List.nodup_append.mp hl).2.1).1
  obtain ⟨hframe, hview⟩ := claimedRetries_kept l1 s
  have hbefore := claimedRetries_apart hn1 halone
  have hsplit : claimedRetries (l1 ++ n :: l2) s = claimedRetries l2 (if claimed (claimedRetries l1 s) n
      then tryRetry (claimedRetries l1 s) n else claimedRetries l1 s) := by
    unfold claimedRetries
    rw [List.foldl_append, List.foldl_cons]
  rw [hsplit, ← hbefore]
  rw [← hbefore] at hmode hrdy hot
  rw [← hframe.claimed_eq] at hclaim
  rw [← effReq_of_reqView hview] at hreq
  rw [← ganged_of_reqView hview] at halone
  generalize claimedRetries l1 s = x at hmode hrdy hot hclaim hreq halone ⊢
  have hbudget : budgetHolds x n = false := by rw [budgetHolds, hclaim]; rfl
  have hdue : retryDue x n := ⟨hmode, .inl hrdy, by rw [hbudget]; rfl⟩
  have hmates : mates x n = [n] := by rw [mates, halone]; rfl
  have hcool : ∀ m, m ∈ mates x n → (getLamp x m).otWait = false ∨ (getLamp x m).hot = false := fun m hm => by
    rw [hmates, List.mem_singleton] at hm
    rw [hm]
    exact .inl hot
  have hretry := tryRetry_permitted hmode hrdy hcool hbudget hreq
  rw [hmates] at hretry
  rw [if_pos hclaim, claimedRetries_apart hn2 ((ganged_of_reqView (tryRetry_reqView x n) n).trans halone), hretry]
  exact retryStep_self hdue

theorem followReq_waiting {s : State} {n : Fin 8} (hmode : (getLamp s n).mode = .wait) (hreq : effReq s n = true) :
    followReq s n = s := by
  unfold followReq
  rw [hmode, hreq]

/-- A channel that waits and is still asked for stays as it is while all follow. -/
theorem followAll_waiting (l : List (Fin 8)) {s : State} {n : Fin 8} (hmode : (getLamp s n).mode = .wait)
    (hreq : effReq s n = true) : getLamp (l.foldl followReq s) n = getLamp s n := by
  induction l generalizing s with
  | nil => rfl
  | cons m l ih =>
    have hsame : getLamp (followReq s m) n = getLamp s n := by
      by_cases hm : n = m
      · rw [← hm, followReq_waiting hmode hreq]
      · exact followReq_getLamp_ne s hm
    rw [List.foldl_cons, ih (by rw [hsame]; exact hmode) ((effReq_of_reqView (followReq_reqView s m) n).trans hreq), hsame]

theorem flasherFollow_openNow (s : State) (n : Fin 8) :
    ∃ b, getLamp (flasherFollow s) n = { getLamp s n with openNow := b } := by
  have hmap : (s.lamps.ch.map (fun c => { c with openNow := false }))[n] = { getLamp s n with openNow := false } :=
    Vector.getElem_map _ _
  unfold flasherFollow
  dsimp only
  split
  · split
    · exact ⟨_, rfl⟩
    · exact ⟨false, hmap⟩
  · exact ⟨_, rfl⟩

/-- Settling keeps a channel that waits and is still asked for, but for the marks of the flasher's phase. -/
theorem lampsSettle_waiting {s : State} {n : Fin 8} (hmode : (getLamp s n).mode = .wait)
    (hreq : effReq (lampsSettle s) n = true) : ∃ b, getLamp (lampsSettle s) n = { getLamp s n with openNow := b } := by
  obtain ⟨b, hb⟩ := flasherFollow_openNow s n
  refine ⟨b, (followAll_waiting _ ?_ ?_).trans hb⟩
  · rw [hb]; exact hmode
  · rw [← hreq]
    exact (effReq_of_reqView (lampsSettle_reqView s) n).symm

/-- R497: the policy that a LAMP_POLICY command leaves. -/
theorem lampPolicy_policy (s : State) (a : List Word) : (lampPolicy s a).lamps.ttClaim = loByte (rArg a 1) ∧
    (lampPolicy s a).lamps.ttMode = rArg a 2 ∧ (lampPolicy s a).lamps.ttFb = rArg a 3 := by
  have h : askView (lampPolicy s a) = askView (policyTaken s a) :=
    (askView_of_reqView (claimedRetries_kept (List.finRange 8) (lampsSettle (policyTaken s a))).2).trans
      (lampsSettle_askView _)
  have hclaim := congrArg ReqView.claim h
  have hmode := congrArg ReqView.mode h
  have hfb := congrArg ReqView.fb h
  simp only [askView, reqView] at hclaim hmode hfb
  exact ⟨hclaim, hmode, hfb⟩

theorem loByte_bit (w : Word) (n : Fin 8) : (loByte w).getLsbD n.val = bit w n.val := by
  have hn := n.isLt
  simp [loByte, bit, hn]

theorem ganged_settled (s : State) (n : Fin 8) : ganged (lampsSettle s) n = ganged s n := by
  have h := congrArg LampView.gang (lampsSettle_lamp s (evenOf n)).1
  simp only [lampView] at h
  exact h

/-- R374, R385: a claimed channel whose retry only the budget held back is started by the policy that claims it. -/
theorem lampPolicy_restarts {s : State} {a : List Word} {n : Fin 8} (hclaim : bit (rArg a 1) n.val = true)
    (halone : ganged s n = false) (hmode : (getLamp s n).mode = .wait) (hrdy : (getLamp s n).retryRdy = true)
    (hot : (getLamp s n).otWait = false) (hreq : effReq (lampPolicy s a) n = true) :
    (getLamp (lampPolicy s a) n).mode = .inrush ∧ (getLamp (lampPolicy s a) n).rleft = (getLamp s n).rleft - 1 := by
  have hview := (claimedRetries_kept (List.finRange 8) (lampsSettle (policyTaken s a))).2
  rw [lampPolicy_eq, effReq_of_reqView hview] at hreq
  obtain ⟨b, hb⟩ := lampsSettle_waiting (s := policyTaken s a) hmode hreq
  have hask := lampsSettle_askView (policyTaken s a)
  have hclaimed : claimed (lampsSettle (policyTaken s a)) n = true := by
    have h : (lampsSettle (policyTaken s a)).lamps.ttClaim = loByte (rArg a 1) := by
      have hclaims := congrArg ReqView.claim hask
      simp only [askView, reqView] at hclaims
      exact hclaims
    rw [claimed, h, loByte_bit, hclaim]
  have halone' : ganged (lampsSettle (policyTaken s a)) n = false := by
    rw [ganged_settled]
    exact halone
  have h := claimedRetries_restarts (List.nodup_finRange 8) (List.mem_finRange n) halone' hclaimed (by rw [hb]; exact hmode)
    (by rw [hb]; exact hrdy) (by rw [hb]; exact hot) hreq
  rw [← lampPolicy_eq] at h
  refine ⟨h.mode, h.rleft.trans ?_⟩
  rw [hb]
  rfl

/-! ### The counter write (R487, R490) -/

theorem expiryDone_not_expiring {s : State} (h : s.clk.expiring = false) : expiryDone s = s :=
  if_neg fun hn => by simp [h] at hn

/-- The state with the counter of the command in its cell. -/
def counterStored (s : State) (a : Accepted) : State :=
  { s with
    nv := { s.nv with cells := vset s.nv.cells s.nv.nextCell (a.counter, true)
                      nextCell := (s.nv.nextCell + 1) % 16, acc := s.nv.acc + 1 }
    auth := { s.auth with accepted := some { a with written := true } } }

theorem counterWritten_held {s : State} {a : Accepted} (hverify : s.auth.verify = none) (ha : s.auth.accepted = some a)
    (hw : a.written = false) (hexp : s.clk.expiring = false) : counterWritten s = counterStored s a := by
  unfold counterWritten
  dsimp only
  rw [authVerdict_of_none hverify, ha]
  simp only [hw]
  exact expiryDone_not_expiring (s := counterStored s a) hexp

/-! ### Effects (R487) -/

/-- R486: DONE leaves all but the command engine and IRQSTAT. -/
theorem authDone_frame (s : State) (r : Byte) :
    authDone s r = { s with auth := (authDone s r).auth, irqStat := (authDone s r).irqStat } := by
  rw [authDone_eq]

theorem authDone_auth (s : State) (r : Byte) : (authDone s r).auth = { s.auth with
    done := true, result := r, claim := none, tag := [], msg := none, verify := none, accepted := none } := by
  rw [authDone_eq]

/-- The rows of commands and the command that each belongs to. -/
theorem exec_effect {c : Instr} {k : AuthCmd}
    (h : (c, k) ∈ ([(.cork, .cork), (.restoreA, .restoreA), (.restoreB, .restoreB), (.ttPolicy, .ttPolicy),
      (.regionUnlock, .regionUnlock), (.cfgLock, .cfgLock), (.lampPolicy, .lampPolicy), (.debugUnlock, .debugUnlock),
      (.provisioningRequest true, .provision), (.provisioningRequest false, .provision)] : List (Instr × AuthCmd))) :
    ∃ body, ∀ s, exec c s = .next (effect s k body) := by
  simp only [List.mem_cons, Prod.mk.injEq, List.not_mem_nil, or_false] at h
  rcases h with ⟨rfl, rfl⟩ | ⟨rfl, rfl⟩ | ⟨rfl, rfl⟩ | ⟨rfl, rfl⟩ | ⟨rfl, rfl⟩ | ⟨rfl, rfl⟩ | ⟨rfl, rfl⟩ | ⟨rfl, rfl⟩ |
    ⟨rfl, rfl⟩ | ⟨rfl, rfl⟩ <;> exact ⟨_, fun _ => rfl⟩

section
variable {s : State} {a : Accepted} (hverify : s.auth.verify = none) (ha : s.auth.accepted = some a)
  (hw : a.written = true)
include hverify ha hw

theorem exec_restoreA (hc : a.cmd = .restoreA) : exec .restoreA s = .next (queueRestoreA s a) := by
  have h := effect_held hverify ha hw queueRestoreA
  rw [hc] at h
  exact congrArg Host.Outcome.next h

theorem exec_restoreB (hc : a.cmd = .restoreB) :
    exec .restoreB s = .next (authDone { s with estB := { s.estB with restore := some a.args } } 0) := by
  have h := effect_held hverify ha hw (fun s a => authDone { s with estB := { s.estB with restore := some a.args } } 0)
  rw [hc] at h
  exact congrArg Host.Outcome.next h

theorem exec_regionUnlock (hc : a.cmd = .regionUnlock) :
    exec .regionUnlock s = .next (authDone (regionUnlock s (rArg a.args 0)) 0) := by
  have h := effect_held hverify ha hw (fun s a => authDone (regionUnlock s (rArg a.args 0)) 0)
  rw [hc] at h
  exact congrArg Host.Outcome.next h

theorem exec_cfgLock (hc : a.cmd = .cfgLock) :
    exec .cfgLock s = .next (authDone { s with auth := { s.auth with cfgLock := true } } 0) := by
  have h := effect_held hverify ha hw (fun s _ => authDone { s with auth := { s.auth with cfgLock := true } } 0)
  rw [hc] at h
  exact congrArg Host.Outcome.next h

theorem exec_lampPolicy (hc : a.cmd = .lampPolicy) :
    exec .lampPolicy s = .next (authDone (lampPolicy s a.args) 0) := by
  have h := effect_held hverify ha hw (fun s a => authDone (lampPolicy s a.args) 0)
  rw [hc] at h
  exact congrArg Host.Outcome.next h

theorem exec_debugUnlock (hc : a.cmd = .debugUnlock) :
    exec .debugUnlock s = .next (authDone { s with auth := { s.auth with
      dbgBs := s.auth.dbgBs || bit (rArg a.args 1) 0, dbgTest := s.auth.dbgTest || bit (rArg a.args 1) 1 } } 0) := by
  have h := effect_held hverify ha hw (fun s a => authDone { s with auth := { s.auth with
    dbgBs := s.auth.dbgBs || bit (rArg a.args 1) 0, dbgTest := s.auth.dbgTest || bit (rArg a.args 1) 1 } } 0)
  rw [hc] at h
  exact congrArg Host.Outcome.next h

end

theorem queueRestoreA_dropped {s : State} {a : Accepted} (h : s.auth.restoreDrop = true) :
    queueRestoreA s a = authDone s 0 := by
  rw [queueRestoreA, if_pos h]

theorem queueRestoreA_queued {s : State} {a : Accepted} (h : s.auth.restoreDrop = false) :
    queueRestoreA s a = authDone { s with estA := { s.estA with restore := some a.args } } 0 := by
  rw [queueRestoreA, if_neg (by simp [h])]

/-- R495: the regions that the word names are unlocked. -/
theorem regionUnlock_rlock (s : State) (v : Word) (r : Fin 4) :
    (regionUnlock s v).disp.rlock[r] = (s.disp.rlock[r] && !bit v r.val) := Vector.getElem_mapIdx ..

/-- Settles O54: the counter write, the ends of a lockout and of a claim, and each effect by the command that is held. -/
theorem counterLockoutAndAcceptedCommands : Obligations.CounterLockoutAndAcceptedCommands := by
  unfold Obligations.CounterLockoutAndAcceptedCommands
  refine ⟨⟨fun a s hverify ha hw hexp => congrArg Host.Outcome.next (counterWritten_held hverify ha hw hexp),
      fun s hlock hisland => congrArg Host.Outcome.next (if_pos ⟨hlock, hisland⟩),
      fun s hbusy => congrArg Host.Outcome.next (if_neg (by simp [hbusy])),
      fun s hbusy => congrArg Host.Outcome.next (if_pos (by simp [hbusy]))⟩,
    fun a s hverify ha => ⟨fun c k hck hother => ?other, fun hw => ⟨fun hc hdrop => ?dropped, fun hc hdrop => ?restoreA,
      fun hc => ?restoreB, fun hc => ?region, fun hc => ?cfg, fun hc => ?lamp, fun hc => ?debug⟩⟩⟩
  case other =>
    obtain ⟨body, hrow⟩ := exec_effect hck
    rw [hrow, effect_other hverify ha hother]
  case dropped =>
    have hauth := authDone_auth s 0
    refine ⟨_, exec_restoreA hverify ha hw hc, ?_⟩
    rw [queueRestoreA_dropped hdrop]
    exact ⟨authDone_frame s 0, by rw [hauth], by rw [hauth], by rw [hauth]⟩
  case restoreA =>
    refine ⟨_, exec_restoreA hverify ha hw hc, ?_⟩
    rw [queueRestoreA_queued hdrop, authDone_eq]
    exact ⟨rfl, rfl, rfl, rfl, rfl, rfl⟩
  case restoreB =>
    refine ⟨_, exec_restoreB hverify ha hw hc, ?_⟩
    rw [authDone_eq]
    exact ⟨rfl, rfl, rfl⟩
  case region =>
    refine ⟨_, exec_regionUnlock hverify ha hw hc, ?_⟩
    rw [authDone_eq]
    exact ⟨rfl, rfl, rfl, fun r => regionUnlock_rlock s _ r⟩
  case cfg =>
    refine ⟨_, exec_cfgLock hverify ha hw hc, ?_⟩
    rw [authDone_eq]
    exact ⟨rfl, rfl, rfl, rfl⟩
  case lamp =>
    have hframe := lampPolicy_frame s a.args
    obtain ⟨hclaim, hmode, hfb⟩ := lampPolicy_policy s a.args
    have hrestart := fun n => lampPolicy_restarts (s := s) (a := a.args) (n := n)
    refine ⟨_, exec_lampPolicy hverify ha hw hc, ?_⟩
    generalize lampPolicy s a.args = u at hframe hclaim hmode hfb hrestart ⊢
    rw [authDone_eq]
    refine ⟨rfl, rfl, ?_, hclaim, hmode, hfb, fun n hbit halone hwait hrdy hot hreq => ?_⟩
    · rw [hframe]
    · exact hrestart n hbit halone hwait hrdy hot ((effReq_of_reqView rfl n).symm.trans hreq)
  case debug =>
    refine ⟨_, exec_debugUnlock hverify ha hw hc, ?_⟩
    rw [authDone_eq]
    exact ⟨rfl, rfl, rfl, rfl, rfl⟩

end Sys2Proof.Machine
end

section
/-! Tag words, the verification and its verdict (R482, R485 to R488, R492, R493, R500, R506, Table SEC-3, O53). -/

namespace Sys2Proof.Machine

open Sys2Proof

/-! ### A tag word takes effect (R482, R485) -/

/-- A row that leaves the entry at the front: the tag word takes effect, and no access waits. -/
theorem tagServed_eq {s : State} {p : Port} {v : Word} {rest : List BufEntry} (h : (getPort s p).buf = .atag v :: rest)
    (ups : List Upset) : tagServed s p ups = tagWord (upsets (popEntry s p rest) ups) p v := by
  unfold tagServed
  rw [h]

theorem popEntry_frame (s : State) (p : Port) (rest : List BufEntry) :
    popEntry s p rest = setPort s p { getPort s p with
      buf := rest, load := (getPort s p).load.map (fun l => { l with behind := l.behind - 1 }) } := rfl

/-- What the entry's leaving and the upsets beside it leave: the arbiter, the memory and the port apart, nothing. -/
theorem popped_frame (s : State) (p : Port) (rest : List BufEntry) (ups : List Upset) :
    upsets (popEntry s p rest) ups = { setPort s p { getPort s p with
      buf := rest, load := (getPort s p).load.map (fun l => { l with behind := l.behind - 1 }) } with
        arb := (upsets s ups).arb, mem := (upsets s ups).mem } := by
  rw [popEntry_frame, upsets_setPort]
  have h := upsets_frame s ups
  generalize upsets s ups = u at h ⊢
  rw [h]
  cases p <;> rfl

/-- The facts of a popped entry that a tag word asks for. -/
structure Popped (s x : State) (p : Port) (rest : List BufEntry) (ups : List Upset) : Prop where
  auth : x.auth = s.auth
  pw : x.pw = s.pw
  clk : x.clk = s.clk
  aon : x.aon = s.aon
  err : x.err = s.err
  nv : x.nv = s.nv
  mem : x.mem = (upsets s ups).mem
  buf : (getPort x p).buf = rest
  held : x.portP.held = s.portP.held

theorem popped (s : State) (p : Port) (rest : List BufEntry) (ups : List Upset) :
    Popped s (upsets (popEntry s p rest) ups) p rest ups := by
  rw [popped_frame]
  cases p <;> exact ⟨rfl, rfl, rfl, rfl, rfl, rfl, rfl, rfl, rfl⟩

/-- R482: the message that the first word begins is ACMD and the counter as they stand. -/
theorem beginMessage_frame (s : State) : ∃ a e i m, beginMessage s = { s with
    arb := a, err := e, irqStat := i, auth := { s.auth with msg := some m } } ∧
    m.cmd = s.auth.acmd ∧ m.cnt = s.auth.acntH ++ s.auth.acntL := by
  unfold beginMessage
  dsimp only
  rw [eccReadN_frame, grantLow_frame]
  exact ⟨_, _, _, _, rfl, rfl, rfl⟩

theorem exec_tagWordEffect_first {s u : State} {p : Port} {v : Word} {rest : List BufEntry} (ups : List Upset)
    (hbuf : (getPort s p).buf = .atag v :: rest) (hdomains : domains s = true) (hbusy : authBusy s = false)
    (htag : s.auth.tag = []) (hu : arbServe s (.low 3) = some u) :
    exec (.tagWordEffect p ups) s = .next (resumeHeld (tagServed u p ups)) := by
  have hreq : messageReq s p = true := by simp [messageReq, hbuf, htag, hbusy]
  refine congrArg Host.Outcome.next ?_
  unfold tagLeaves
  rw [hbuf]
  simp only [hdomains, hreq, if_true, Bool.not_true, Bool.false_eq_true, if_false]
  exact granted_of hu

theorem exec_tagWordEffect_later {s : State} {p : Port} {v : Word} {rest : List BufEntry} (ups : List Upset)
    (hbuf : (getPort s p).buf = .atag v :: rest) (hdomains : domains s = true) (htag : s.auth.tag ≠ []) :
    exec (.tagWordEffect p ups) s = .next (resumeHeld (tagServed s p ups)) := by
  have hreq : messageReq s p = false := by
    unfold messageReq
    rw [hbuf]
    cases h : s.auth.tag with
    | nil => exact absurd h htag
    | cons w l => rfl
  refine congrArg Host.Outcome.next ?_
  unfold tagLeaves
  rw [hbuf]
  simp only [hdomains, hreq, Bool.not_true, Bool.false_eq_true, if_false]

/-- A word that is not the fourth only gathers. -/
theorem tagWord_gathers {s : State} {p : Port} {v : Word} (hbusy : authBusy s = false) (hlen : s.auth.tag.length < 3) :
    tagWord s p v = (let t := if s.auth.tag.isEmpty then beginMessage s else s
      { t with auth := { t.auth with tag := s.auth.tag ++ [v] } }) := by
  have hshort : ¬4 ≤ (s.auth.tag ++ [v]).length := by simp; omega
  have htag : (if s.auth.tag.isEmpty then beginMessage s else s).auth.tag = s.auth.tag := by
    split
    · obtain ⟨_, _, _, _, h, -⟩ := beginMessage_frame s
      rw [h]
    · rfl
  unfold tagWord
  simp only [hbusy, Bool.false_eq_true, if_false]
  generalize (if s.auth.tag.isEmpty = true then beginMessage s else s) = t at htag ⊢
  rw [htag]
  cases t.auth.msg with
  | none => rfl
  | some m => simp only [hshort, if_false]

/-- The fourth word starts the verification. -/
theorem tagWord_fourth {s : State} {p : Port} {v : Word} {m : AuthMsg} (hbusy : authBusy s = false)
    (hlen : s.auth.tag.length = 3) (hmsg : s.auth.msg = some m) : tagWord s p v = { s with auth := { s.auth with
      tag := s.auth.tag ++ [v], verify := some { port := p, early := earlyRefusal s m } } } := by
  have hne : s.auth.tag.isEmpty = false := by
    cases h : s.auth.tag with
    | nil => rw [h] at hlen; simp at hlen
    | cons w l => rfl
  unfold tagWord
  simp only [hbusy, hne, Bool.false_eq_true, if_false, hmsg]
  rw [if_pos (by simp [hlen])]
  rfl

theorem authBusy_false {s : State} (h : authBusy s = false) : s.auth.accepted = none ∧ s.auth.verify = none := by
  unfold authBusy at h
  rw [Bool.or_eq_false_iff] at h
  exact ⟨by simpa using h.1, by simpa using h.2⟩

/-- Steps 1 and 2 of Table SEC-3 ask for the mode, the clock, the island and the lockout alone. -/
theorem earlyRefusal_congr {s t : State} (hpw : t.pw = s.pw) (hclk : t.clk = s.clk) (haon : t.aon = s.aon)
    (hauth : t.auth = s.auth) (m : AuthMsg) : earlyRefusal t m = earlyRefusal s m := by
  simp only [earlyRefusal, lockHolds, ckAon, islandOn, aonLeft, hpw, hclk, haon, hauth]
  rfl

theorem earlyRefusal_debug {s : State} {m : AuthMsg} (hmode : s.pw.mode = .run) (hc : cmdOf m.cmd = some .debugUnlock) :
    earlyRefusal s m = some eSTATE := by
  simp [earlyRefusal, hmode, hc]

theorem earlyRefusal_expiring {s : State} {m : AuthMsg} (h : s.clk.expiring = true) :
    earlyRefusal s m = some eSTATE := by
  simp [earlyRefusal, h]

theorem earlyRefusal_allowed {s : State} {m : AuthMsg}
    (hmode : s.pw.mode = .standby ∨ (s.pw.mode = .run ∧ cmdOf m.cmd ≠ some .debugUnlock)) (hexp : s.clk.expiring = false) :
    earlyRefusal s m = if s.auth.lockOn = true ∧ (ckAon s = false ∨ aonLeft s < s.auth.lockLeft) then some eLOCKED
      else none := by
  have hallowed : ((s.pw.mode == .standby || (s.pw.mode == .run && cmdOf m.cmd != some .debugUnlock)) &&
      !s.clk.expiring) = true := by
    rcases hmode with h | ⟨h, hc⟩ <;> simp [*]
  have hlock : lockHolds s = true ↔ s.auth.lockOn = true ∧ (ckAon s = false ∨ aonLeft s < s.auth.lockLeft) := by
    unfold lockHolds
    cases ckAon s <;> simp
  unfold earlyRefusal
  dsimp only
  rw [hallowed]
  simp only [hlock, Bool.not_true, Bool.false_eq_true, if_false]

/-! ### The verdict (R485, R488) -/

/-- The machine with the verification at its end. -/
def verdictTaken (s : State) : State := { s with auth := { s.auth with verify := none } }

theorem authVerdict_early {s : State} {v : Verify} {m : AuthMsg} {e : Byte} (hv : s.auth.verify = some v)
    (hm : s.auth.msg = some m) (he : v.early = some e) : authVerdict s = authRefuse (verdictTaken s) v.port e := by
  unfold authVerdict
  rw [hv, hm]
  dsimp only
  rw [he]
  rfl

theorem authVerdict_checks {s : State} {v : Verify} {m : AuthMsg} (hv : s.auth.verify = some v)
    (hm : s.auth.msg = some m) (he : v.early = none) :
    authVerdict s = authChecks (verdictTaken s) v.port m s.auth.tag := by
  unfold authVerdict
  rw [hv, hm]
  dsimp only
  rw [he]
  rfl

/-- A refusal ends the command. -/
theorem authRefuse_auth (s : State) (p : Port) (code : Byte) : (authRefuse s p code).auth = { s.auth with
    done := true, result := code, claim := none, tag := [], msg := none, verify := none, accepted := none } := by
  rw [authRefuse_eq, authDone_auth]

theorem authRefuseCell_auth (s : State) (p : Port) (code : Byte) (a : Nat) :
    (authRefuseCell s p code a).auth = (authDone s code).auth := rfl

theorem accept_auth (s : State) (c : AuthCmd) (p : Port) (m : AuthMsg) : (accept s c p m).auth = { s.auth with
    accepted := some { cmd := c, port := p, code := m.cmd, counter := m.cnt, args := argWords m.args
                       written := decide (c = .provision) }
    restoreDrop := false
    lastCmd := if c = .provision then s.auth.lastCmd else m.cmd
    lockLvl := if c = .provision then s.auth.lockLvl else 0 } := by
  unfold accept
  dsimp only
  split <;> rfl

section
variable (s : State) (p : Port) (m : AuthMsg)

theorem provisionChecks_verify (h : s.auth.verify = none) : (provisionChecks s p m).auth.verify = none := by
  have hite (c : Prop) [Decidable c] {x y : State} (hx : x.auth.verify = none) (hy : y.auth.verify = none) :
      (if c then x else y).auth.verify = none := by
    split
    · exact hx
    · exact hy
  have hrefused (code : Byte) : (wipeAsked (authRefuse s p code)).auth.verify = none :=
    congrArg Auth.verify (authRefuse_auth s p code)
  unfold provisionChecks
  refine hite _ (hrefused _) (hite _ (hrefused _) (hite _ (hrefused _) ?_))
  rw [accept_auth]
  exact h

theorem lastChecks_verify (c : AuthCmd) (h : s.auth.verify = none) : (lastChecks s c p m).auth.verify = none := by
  unfold lastChecks
  split
  · rw [authRefuse_auth]
  · split
    · rw [authRefuseCell_auth, authDone_auth]
    · rw [authRefuse_auth]
    · rw [accept_auth]; exact h

theorem tagChecks_verify (c : AuthCmd) (keys : List (BitVec 128)) (tag : List Word) (h : s.auth.verify = none) :
    (tagChecks s c p m keys tag).auth.verify = none := by
  unfold tagChecks
  dsimp only
  split_ifs
  · rw [authRefuseCell_auth, authDone_auth]
  · rw [authDone_auth]
  · exact provisionChecks_verify _ p m h
  · exact lastChecks_verify _ p m c h
  · exact congrArg Auth.verify (authRefuse_auth (badTag s) p eTAG)
  · rw [authRefuse_auth]

theorem authChecks_verify (tag : List Word) (h : s.auth.verify = none) : (authChecks s p m tag).auth.verify = none := by
  unfold authChecks
  split
  · rw [authRefuse_auth]
  · exact tagChecks_verify s p m _ _ _ h
  · dsimp only
    split_ifs
    · rw [authRefuse_auth]
    · rw [authRefuse_auth]
    · rw [authRefuse_auth]
    · exact tagChecks_verify s p m _ _ _ h

end

/-- Once the verdict has fallen no verification runs. -/
theorem authVerdict_verify {s : State} {v : Verify} {m : AuthMsg} (hv : s.auth.verify = some v)
    (hm : s.auth.msg = some m) : (authVerdict s).auth.verify = none := by
  cases he : v.early with
  | some e => rw [authVerdict_early hv hm he, authRefuse_auth]
  | none =>
    rw [authVerdict_checks hv hm he]
    exact authChecks_verify _ _ m _ rfl

/-- A row that begins with the verdict does what it does once the verdict has fallen. -/
theorem effect_verdict {s : State} (h : (authVerdict s).auth.verify = none) (c : AuthCmd)
    (body : State → Accepted → State) : effect s c body = effect (authVerdict s) c body := by
  unfold effect
  dsimp only
  rw [authVerdict_of_none h]

theorem counterWritten_verdict {s : State} (h : (authVerdict s).auth.verify = none) :
    counterWritten s = counterWritten (authVerdict s) := by
  unfold counterWritten
  dsimp only
  rw [authVerdict_of_none h]

/-! ### The verdict at the next edge (R488, R500) -/

/-- R500: the wipe changes the engine's own mark, and is made where the arbiter grants it. -/
theorem mailboxWiped_auth (s : State) : ((mailboxWiped s).auth = { s.auth with wipe := (mailboxWiped s).auth.wipe }) ∧
    (mailboxWiped s).nv = s.nv ∧ (s.auth.wipe = false → (mailboxWiped s).auth.wipe = false) ∧
    (s.auth.wipe = true → arbServe s (.low 3) ≠ none → (mailboxWiped s).auth.wipe = false) := by
  cases hw : s.auth.wipe with
  | false =>
    have hsame : mailboxWiped s = s := if_neg (by simp [hw])
    rw [hsame]
    exact ⟨rfl, rfl, fun _ => hw, nofun⟩
  | true =>
    have hrow : mailboxWiped s = granted s (.low 3) wipeMailbox := if_pos hw
    rw [hrow]
    cases hu : arbServe s (.low 3) with
    | none =>
      rw [granted_not hu]
      exact ⟨rfl, rfl, nofun, fun _ h => absurd rfl h⟩
    | some u =>
      have hframe := arbServe_frame hu
      rw [granted_of hu, wipeMailbox_nv]
      have hauth : (wipeMailbox u).auth = { s.auth with wipe := false } := by rw [wipeMailbox_frame, hframe]
      rw [hauth]
      exact ⟨rfl, by rw [hframe], nofun, fun _ _ => rfl⟩

theorem frameEdge_nv (s : State) : (frameEdge s).nv = s.nv := (kept_frameEdge (Kept.refl (still s))).nv_eq

theorem lockoutTick_message (s : State) : (lockoutTick s).auth.msg = s.auth.msg := by
  unfold lockoutTick lockoutEnds
  split_ifs <;> rfl

/-- An idle cycle of a machine that verifies brings the verdict. -/
theorem step_verdict {s x : State} {v : Verify} {m : AuthMsg} (hv : s.auth.verify = some v) (hm : s.auth.msg = some m)
    (hpending : s.pending = []) (hx : x = islandTick s) (hdomains : domains x = true) :
    step s = .next (frameEdge (mailboxWiped (authVerdict x))) ∧ (authVerdict x).auth.verify = none := by
  have haon : (aonTick { s with now := s.now + 1 }).auth = s.auth := by rw [aonTick_frame]
  have hxv : x.auth.verify = some v := by
    rw [hx, islandTick, (lockoutTick_verdict _).1, haon]
    exact hv
  have hxm : x.auth.msg = some m := by
    rw [hx, islandTick, lockoutTick_message, haon]
    exact hm
  refine ⟨(step_idle hpending).trans (congrArg Host.Outcome.next ?_), authVerdict_verify hxv hxm⟩
  subst hx
  exact if_pos hdomains

/-! ### A command that its keys may verify (R485 to R487, R492, R493) -/

/-- The run of good tags begins anew. -/
def tagVerified (s : State) : State := { s with auth := { s.auth with verify := none, badRun := 0 } }

theorem authChecks_keyed {s : State} {p : Port} {m : AuthMsg} {tag : List Word} {c : AuthCmd} {k : BitVec 128}
    (hc : cmdOf m.cmd = some c) (hne : c ≠ .provision) (hkeys : (portSlots s p c).filterMap slotKey = [k])
    (hworn : worn s.nv = false) : authChecks s p m tag = tagChecks s c p m [k] tag := by
  have hslots : (portSlots s p c).isEmpty = false := by
    cases h : portSlots s p c with
    | nil => rw [h] at hkeys; cases hkeys
    | cons x l => rfl
  unfold authChecks
  rw [hc]
  cases c
  case provision => exact absurd rfl hne
  all_goals
    dsimp only
    rw [hslots, hkeys, hworn]
    rfl

section
variable {s : State} {p : Port} {m : AuthMsg} {tag : List Word} {c : AuthCmd} {k : BitVec 128}
  (hlen : m.alen = cmdLen c) (hue : m.ue = false) (hne : c ≠ .provision)
include hlen hue hne

theorem tagChecks_bad (htag : tagWords k (messageBytes s.nv.uid m) ≠ tag) :
    tagChecks s c p m [k] tag = authRefuse (badTag s) p eTAG := by
  unfold tagChecks
  rw [if_neg (by simp [hlen]), if_neg (by simp [hue]), if_neg (by simp [htag])]
  dsimp only
  rw [if_neg hne]

theorem tagChecks_good (htag : tagWords k (messageBytes s.nv.uid m) = tag) :
    tagChecks s c p m [k] tag = lastChecks { s with auth := { s.auth with badRun := 0 } } c p m := by
  unfold tagChecks
  rw [if_neg (by simp [hlen]), if_neg (by simp [hue]), if_pos (by simp [htag])]
  dsimp only
  rw [if_neg hne]

end

theorem badTag_frame (s : State) : badTag s = { s with auth := (badTag s).auth } := by
  unfold badTag
  dsimp only
  split <;> rfl

/-- R492: a bad tag is counted; the eighth in a row begins a lockout. -/
theorem badTag_auth (s : State) : (badTag s).auth.tagFail = sat1 s.auth.tagFail ∧
    (s.auth.badRun < 7 → (badTag s).auth.badRun = s.auth.badRun + 1 ∧ (badTag s).auth.lockOn = s.auth.lockOn) ∧
    (7 ≤ s.auth.badRun → (badTag s).auth.lockOn = true ∧ (badTag s).auth.badRun = 0 ∧
      (badTag s).auth.lockLvl = min 7 (s.auth.lockLvl + 1) ∧
      (badTag s).auth.lockLeft = 2 ^ ((badTag s).auth.lockLvl - 1) * 1000 * msCycles) := by
  unfold badTag
  dsimp only
  split
  · exact ⟨rfl, fun h => by omega, fun _ => ⟨rfl, rfl, rfl, rfl⟩⟩
  · exact ⟨rfl, fun _ => ⟨rfl, rfl⟩, fun h => by omega⟩

theorem lastChecks_counter {s : State} {c : AuthCmd} {p : Port} {m : AuthMsg}
    (h : m.cnt.toNat ≤ (scnt s.nv).toNat) : lastChecks s c p m =
      authRefuse { s with auth := { s.auth with cntFail := sat1 s.auth.cntFail } } p eCOUNTER := if_pos h

theorem lastChecks_accepted {s : State} {c : AuthCmd} {p : Port} {m : AuthMsg} (h : (scnt s.nv).toNat < m.cnt.toNat)
    (h11 : step11 s c (argWords m.args) = none) : lastChecks s c p m = accept s c p m := by
  unfold lastChecks
  rw [if_neg (by omega), h11]

/-- Step 11 asks nothing of the tag that has verified. -/
theorem step11_tagVerified (s : State) (c : AuthCmd) (a : List Word) : step11 (tagVerified s) c a = step11 s c a := by
  cases c <;> rfl

theorem accept_frame (s : State) (c : AuthCmd) (p : Port) (m : AuthMsg) : accept s c p m = { s with
    auth := (accept s c p m).auth, pw := { s.pw with trans := if c = .cork then .corkSeq else s.pw.trans } } := by
  unfold accept
  dsimp only
  split <;> rfl

/-- Settles O53: the words one by one, the verdict once, then the checks in Table SEC-3's order. -/
theorem tagWordsJudgeTheCommand : Obligations.TagWordsJudgeTheCommand := by
  unfold Obligations.TagWordsJudgeTheCommand
  refine ⟨fun p ups v rest s u hbuf hdomains hheld hbusy hu hlen => ?gathers,
    fun p ups v m rest s hbuf hdomains hheld hbusy hlen hmsg => ?fourth, fun v m s x hv hm => ?verdict,
    fun c k v m s t hv hm he hacc hc hne hkeys hworn hlen hue ht => ?judged⟩
  case gathers =>
    have hframe : u = { s with arb := u.arb } := by
      split at hu
      · exact arbServe_frame hu
      · rw [hu]
    have hubuf : (getPort u p).buf = .atag v :: rest := by rw [hframe]; cases p <;> exact hbuf
    have hrow : exec (.tagWordEffect p ups) s = .next (resumeHeld (tagServed u p ups)) := by
      split at hu
      case isTrue h => exact exec_tagWordEffect_first ups hbuf hdomains hbusy h hu
      case isFalse h => rw [hu]; exact exec_tagWordEffect_later ups hbuf hdomains h
    rw [tagServed_eq hubuf] at hrow
    have hpop := popped u p rest ups
    generalize upsets (popEntry u p rest) ups = y at hpop hrow
    have huauth : u.auth = s.auth := by rw [hframe]
    have hauth := hpop.auth.trans huauth
    have hybusy : authBusy y = false := by unfold authBusy; rw [hauth]; exact hbusy
    rw [tagWord_gathers hybusy (by rw [hauth]; exact hlen)] at hrow
    obtain ⟨hacc, hverify⟩ := authBusy_false hbusy
    have hyheld : y.portP.held = .none := hpop.held.trans (by rw [hframe]; exact hheld)
    rw [hauth] at hrow
    have hbegin : ∃ z, (if s.auth.tag.isEmpty then beginMessage y else y) = z ∧ z.portP = y.portP ∧
        (getPort z p).buf = rest ∧ z.mem = y.mem ∧ z.auth = { s.auth with msg := z.auth.msg } ∧
        (s.auth.tag = [] → ∃ m, z.auth.msg = some m ∧ m.cmd = s.auth.acmd ∧ m.cnt = s.auth.acntH ++ s.auth.acntL) := by
      refine ⟨_, rfl, ?_⟩
      split
      case isTrue h =>
        obtain ⟨a, e, i, m, hm, hcmd, hcnt⟩ := beginMessage_frame y
        rw [hm]
        rw [hauth] at hcmd hcnt ⊢
        exact ⟨rfl, by cases p <;> exact hpop.buf, rfl, rfl, fun _ => ⟨m, rfl, hcmd, hcnt⟩⟩
      case isFalse h => exact ⟨rfl, hpop.buf, rfl, by rw [hauth], fun hnil => absurd (by rw [hnil]; rfl) h⟩
    obtain ⟨z, hz, hport, hbuf', hmem, hzauth, hmsg⟩ := hbegin
    simp only [hz] at hrow
    rw [resumeHeld_none (by rw [← hyheld, ← hport])] at hrow
    refine ⟨_, hrow, by cases p <;> exact hbuf', rfl, ?_, ?_, hmem.trans hpop.mem, hmsg⟩
    · show z.auth.accepted = none
      rw [hzauth]; exact hacc
    · show z.auth.verify = none
      rw [hzauth]; exact hverify
  case fourth =>
    have hne : s.auth.tag ≠ [] := fun h => by rw [h] at hlen; cases hlen
    have hrow := exec_tagWordEffect_later ups hbuf hdomains hne
    rw [tagServed_eq hbuf] at hrow
    have hpop := popped s p rest ups
    generalize upsets (popEntry s p rest) ups = y at hpop hrow
    have hybusy : authBusy y = false := by unfold authBusy; rw [hpop.auth]; exact hbusy
    have hword := tagWord_fourth (p := p) (v := v) hybusy (by rw [hpop.auth]; exact hlen) (by rw [hpop.auth]; exact hmsg)
    rw [earlyRefusal_congr hpop.pw hpop.clk hpop.aon hpop.auth, hpop.auth] at hword
    have hzheld : (tagWord y p v).portP.held = .none := by rw [hword]; exact hpop.held.trans hheld
    rw [resumeHeld_none hzheld, hword] at hrow
    refine ⟨_, hrow, by cases p <;> exact hpop.buf, hpop.err, hpop.nv, rfl, ?_, earlyRefusal_debug, earlyRefusal_expiring,
      earlyRefusal_allowed⟩
    exact Bool.or_true _
  case verdict =>
    have hdone := authVerdict_verify hv hm
    refine ⟨fun hpending hx hdomains => ?_, congrArg Host.Outcome.next (counterWritten_verdict hdone),
      congrArg Host.Outcome.next (effect_verdict hdone _ _), congrArg Host.Outcome.next (effect_verdict hdone _ _),
      congrArg Host.Outcome.next (effect_verdict hdone _ _), congrArg Host.Outcome.next (effect_verdict hdone _ _),
      congrArg Host.Outcome.next (effect_verdict hdone _ _), congrArg Host.Outcome.next (effect_verdict hdone _ _),
      congrArg Host.Outcome.next (effect_verdict hdone _ _), congrArg Host.Outcome.next (effect_verdict hdone _ _),
      fun ok => congrArg Host.Outcome.next (effect_verdict hdone _ _), fun e he => ?_⟩
    · obtain ⟨hstep, hnone⟩ := step_verdict hv hm hpending hx hdomains
      obtain ⟨-, -, hedge, -⟩ := frameEdge_idle (mailboxWiped (authVerdict x))
      obtain ⟨hauth, hnv, hkeep, hwipe⟩ := mailboxWiped_auth (authVerdict x)
      refine ⟨_, hstep, ?_, ?_, ?_, ?_, ?_⟩
      · rw [hedge]; exact hauth
      · rw [frameEdge_nv, hnv]
      · rw [hedge, hauth]; exact hnone
      · rw [hedge]; exact hkeep
      · rw [hedge]; exact hwipe
    · rw [authVerdict_early hv hm he, authRefuse_eq, authDone_auth]
      exact ⟨rfl, rfl, rfl, rfl, rfl, rfl, rfl⟩
  case judged =>
    rw [authVerdict_checks hv hm he, authChecks_keyed (s := verdictTaken s) hc hne hkeys hworn] at ht
    refine ⟨fun htag => ?_, fun htag => ⟨fun hcnt => ?_, fun hcnt h11 => ?_⟩⟩
    · rw [tagChecks_bad (s := verdictTaken s) hlen hue hne htag, authRefuse_eq, authDone_auth, badTag_frame] at ht
      obtain ⟨hfail, hrun, hlock⟩ := badTag_auth (verdictTaken s)
      generalize (badTag (verdictTaken s)).auth = a at ht hfail hrun hlock
      subst ht
      exact ⟨rfl, rfl, rfl, hfail, rfl, rfl, rfl, hrun, hlock⟩
    · rw [tagChecks_good (s := verdictTaken s) hlen hue hne htag, lastChecks_counter (s := { verdictTaken s with
        auth := { (verdictTaken s).auth with badRun := 0 } }) hcnt, authRefuse_eq, authDone_auth] at ht
      subst ht
      exact ⟨rfl, rfl, rfl, rfl, rfl, rfl⟩
    · have hlast : t = accept (tagVerified s) c v.port m := by
        rw [ht, tagChecks_good (s := verdictTaken s) hlen hue hne htag]
        exact lastChecks_accepted (s := tagVerified s) hcnt ((step11_tagVerified s c _).trans h11)
      have hframe := accept_frame (tagVerified s) c v.port m
      have hauth := accept_auth (tagVerified s) c v.port m
      rw [← hlast] at hframe hauth
      rw [decide_eq_false hne, if_neg hne, if_neg hne] at hauth
      exact ⟨by rw [hauth], by rw [hauth], by rw [hauth]; rfl, by rw [hauth], hframe⟩

end Sys2Proof.Machine
end

section
/-! Page words that act, Harvest records, the snapshots of a window read, channel B's samples and crank dips (R102, R403 to
R408, R412, R415, R417, R435, R445, R470): O47 and O48. -/

namespace Sys2Proof.Machine

open Sys2Proof

/-! ### A page word that acts (R214) -/

/-- A page word whose bit `i` sets off `act`, written 1: the word is stored, in the two bytes of its address, and `act` is
made. -/
theorem pageRow_acts {s u : State} {p : Port} {a : Nat} (i : Nat) {set : Word → Word} {act : State → State}
    (h : pageAccepted s u p a set) (hpage : isPage a = true) (hro : (pageWord a).ro ≠ 0xFFFF) (harb : a ≠ 0xE802)
    (hkeys : keysWord a = false) (hset : ∀ w, bit (set w) i = true)
    (hact : ∀ s v, bit v i = true → pageAction s a v = act s) :
    ∃ x, pageRow s p a set = act x ∧ onlyBytes u x a 2 ∧
      x = { u with mem := x.mem, arb := x.arb, err := x.err, irqStat := x.irqStat } := by
  obtain ⟨v, hv, hrow⟩ := pageRow_stored h hpage hro harb hkeys
  refine ⟨pageStored u p a v, ?_, fun b hb => ?_, pageStored_frame u p a v⟩
  · rw [hrow, hact _ _ (by rw [hv]; exact hset _)]
  · rw [pageStored_mem, Cellar.get_setWord_ne _ _ hb]

theorem bit_or (w m : Word) {i : Nat} (h : bit m i = true) : bit (w ||| m) i = true := by
  rw [bit, BitVec.getLsbD_or]
  unfold bit at h
  rw [h, Bool.or_true]

/-- R408: HCLR restarts the Harvest. -/
theorem harvestClear_accepted {s u : State} {p : Port} (h : pageAccepted s u p 0xD416 (fun w => w ||| 0x8000)) :
    ∃ x, pageRow s p 0xD416 (fun w => w ||| 0x8000) = harvestRestart x ∧ onlyBytes u x 0xD416 2 ∧
      x = { u with mem := x.mem, arb := x.arb, err := x.err, irqStat := x.irqStat } :=
  pageRow_acts 15 h (by decide) (by decide) (by decide) (by decide) (fun w => bit_or w _ (by decide)) fun _ _ hv => if_pos hv

/-- R404: the clear of BVB_MIN. -/
theorem bvbMinClear_accepted {s u : State} {p : Port} (h : pageAccepted s u p 0xD808 (fun w => w ||| 1)) :
    ∃ x, pageRow s p 0xD808 (fun w => w ||| 1) = bvbMinClear x ∧ onlyBytes u x 0xD808 2 ∧
      x = { u with mem := x.mem, arb := x.arb, err := x.err, irqStat := x.irqStat } :=
  pageRow_acts 0 h (by decide) (by decide) (by decide) (by decide) (fun w => bit_or w _ (by decide)) fun _ _ hv => if_pos hv

/-! ### A Harvest record (R406, R407, R417) -/

/-- The number whose bytes a record's place holds. -/
def recordNum (r : HRec) : Nat := r.w0.toNat + 2 ^ 32 * r.w1.toNat + 2 ^ 64 * r.w2.toNat + 2 ^ 96 * r.w3.toNat

theorem recordNum_words (r : HRec) : recordNum r / 256 ^ 0 % 256 ^ 4 = r.w0.toNat ∧
    recordNum r / 256 ^ 4 % 256 ^ 4 = r.w1.toNat ∧ recordNum r / 256 ^ 8 % 256 ^ 4 = r.w2.toNat ∧
    recordNum r / 256 ^ 12 % 256 ^ 4 = r.w3.toNat := by
  have h0 := r.w0.isLt
  have h1 := r.w1.isLt
  have h2 := r.w2.isLt
  have h3 := r.w3.isLt
  unfold recordNum
  omega

/-- The record's words in its place, and no other byte. -/
theorem recordStored {s : State} (hwf : Cellar.wf s.mem = true) (a : Nat) (r : HRec) :
    onlyBytes s (storeEcc s a 2 (recordNum r)) a 16 ∧
    ∀ k, k ≤ 12 → Cellar.getNat (storeEcc s a 2 (recordNum r)).mem (a + k) 4 = recordNum r / 256 ^ k % 256 ^ 4 := by
  refine ⟨fun x hx => ?_, fun k hk => Cellar.getNat_eq fun x h1 h2 => ?_⟩
  · rw [storeEcc_get hwf, if_neg (by omega)]
  · rw [storeEcc_get hwf, if_pos (by omega), Nat.div_div_eq_div_mul, ← Nat.pow_add]
    congr 3
    omega

/-- The ring behind a record: the pointer goes on and wraps, and what the wrap overwrites is marked. -/
def ringAfter (a : BatA) (rest : List HRec) : BatA :=
  let wraps := decide (32767 ≤ a.hwp)
  { a with
    hQ := rest, hwp := if wraps then 0 else a.hwp + 1
    hwrapCnt := if wraps then a.hwrapCnt + 1 else a.hwrapCnt, hfull := a.hfull || wraps
    hwrap := a.hwrap || a.hfull, trig := a.trig.map (· - 1) }

/-- A record with no countdown in progress. -/
theorem recordWritten_untriggered {s : State} (r : HRec) (rest : List HRec) (h : s.batA.trig = none) :
    recordWritten s r rest =
      { storeEcc (grantLow s 4 1) (0x80000 + 16 * (s.batA.hwp % 32768)) 2 (recordNum r) with
        batA := ringAfter s.batA rest } := by
  refine if_neg ?_
  dsimp only
  rw [h]
  exact nofun

/-- R406: the oldest waiting record is written in the state of its grant. -/
theorem exec_harvestRecordWrite {s u : State} {r : HRec} {rest : List HRec} (hq : s.batA.hQ = r :: rest)
    (hdomains : domains s = true) (hu : arbServe s (.low 4) = some u) :
    exec .harvestRecordWrite s = .next (recordWritten u r rest) := by
  refine congrArg Host.Outcome.next ?_
  unfold harvestWrite
  rw [hq]
  simp only [hdomains, if_true]
  exact granted_of hu

theorem exec_harvestRecordWrite_not {s : State} (hu : arbServe s (.low 4) = none) :
    exec .harvestRecordWrite s = .next s := by
  refine congrArg Host.Outcome.next ?_
  unfold harvestWrite
  split
  · rfl
  · split
    · exact granted_not hu
    · rfl

/-! ### The snapshots of a window read (R102, R415, R445) -/

/-- A finished read keeps the snapshots of its port. -/
theorem readDone_snaps (s : State) (p : Port) (a : Fin 64) (v : Word) :
    (getPort (readDone s p a v) p).rawSnap = (getPort s p).rawSnap ∧
    (getPort (readDone s p a v) p).socSnap = (getPort s p).socSnap := by
  cases p with
  | portP => unfold readDone; dsimp only; split <;> exact ⟨rfl, rfl⟩
  | portS => exact ⟨rfl, rfl⟩

theorem pageRead_VRAW (s : State) (p : Port) : pageRead s p aVRAW = s.batA.rawV.truncate 16 := by
  have hstored : (pageWord aVRAW).stored = 0 := by decide
  rw [pageRead, hstored, show wordOf 0 = 0#16 from rfl, BitVec.and_zero, BitVec.zero_or]
  rfl

theorem pageRead_INTSOC (s : State) (p : Port) : pageRead s p aINTSOC = intSocWord s.estA := by
  have hstored : (pageWord aINTSOC).stored = 0 := by decide
  rw [pageRead, hstored, show wordOf 0 = 0#16 from rfl, BitVec.and_zero, BitVec.zero_or]
  rfl

/-- R415: a read of V_RAW_L. -/
theorem exec_rawSnapshotRead {s : State} {p : Port} (h : readable s p) :
    exec (.rawSnapshotRead p) s = .next (readDone (takeRaw s p) p 0x0B (s.batA.rawV.truncate 16)) := by
  have hrow := readGate_read (a := 0x0B) (body := fun s => winRead s p aVRAW) h
  have hread : winRead s p aVRAW = (s.batA.rawV.truncate 16, takeRaw s p) := by
    rw [← pageRead_VRAW s p]
    rfl
  rw [hread] at hrow
  exact congrArg Host.Outcome.next hrow

/-- R445: a read of INTSOC. -/
theorem exec_socSnapshotRead {s : State} {p : Port} (h : readable s p) :
    exec (.socSnapshotRead p) s = .next (readDone (takeSoc s p) p 0x0B (intSocWord s.estA)) := by
  have hrow := readGate_read (a := 0x0B) (body := fun s => winRead s p aINTSOC) h
  have hread : winRead s p aINTSOC = (intSocWord s.estA, takeSoc s p) := by
    rw [← pageRead_INTSOC s p]
    rfl
  rw [hread] at hrow
  exact congrArg Host.Outcome.next hrow

/-- A read of a port whose snapshot alone has been changed changes that port alone. -/
theorem readDone_setPort (s : State) (p : Port) (x : PortSt) (a : Fin 64) (v : Word) :
    readDone (setPort s p x) p a v = setPort s p (getPort (readDone (setPort s p x) p a v) p) := by
  have h := readDone_frame (setPort s p x) p a v
  rwa [setPort_setPort] at h

/-- Settles O47: a record by the store of its number, HCLR as a page word that acts, the snapshots by their reads. -/
theorem harvestRecordsAndSnapshots : Obligations.HarvestRecordsAndSnapshots := by
  unfold Obligations.HarvestRecordsAndSnapshots
  refine ⟨⟨fun r rest s u hq hdomains hlt hu htrig hwf => ?record, fun s _ hu => exec_harvestRecordWrite_not hu,
      fun p s u h hwf => ?clear⟩, fun p s hread => ⟨?raw, ?soc⟩⟩
  case record =>
    have hframe := arbServe_frame hu
    have hmem : u.mem = s.mem := by rw [hframe]
    have hbat : u.batA = s.batA := by rw [hframe]
    obtain ⟨hbytes, hwords⟩ := recordStored (s := grantLow u 4 1) (by rw [grantLow_mem, hmem]; exact hwf)
      (0x80000 + 16 * s.batA.hwp) r
    obtain ⟨h0, h1, h2, h3⟩ := recordNum_words r
    refine ⟨_, _, exec_harvestRecordWrite hq hdomains hu, rfl, ?_⟩
    rw [recordWritten_untriggered r rest (by rw [hbat]; exact htrig), hbat, Nat.mod_eq_of_lt hlt]
    have hsame (x : Nat) : Cellar.get (grantLow u 4 1).mem x = Cellar.get s.mem x := by rw [grantLow_mem, hmem]
    generalize storeEcc (grantLow u 4 1) (0x80000 + 16 * s.batA.hwp) 2 (recordNum r) = z at hbytes hwords ⊢
    have hwraps : (decide (32767 ≤ s.batA.hwp) = true) ↔ s.batA.hwp = 32767 := by
      rw [decide_eq_true_iff]
      omega
    refine ⟨fun x hx => ?_, (hwords 0 (by omega)).trans h0, (hwords 4 (by omega)).trans h1,
      (hwords 8 (by omega)).trans h2, (hwords 12 (by omega)).trans h3, rfl, ?_, ?_, rfl, ?_⟩
    · rw [← hsame]
      exact hbytes x hx
    · simp only [ringAfter, hwraps]
    · simp only [ringAfter, hwraps]
    · exact congrArg (s.batA.hfull || ·) (decide_eq_decide.mpr (by omega))
  case clear =>
    obtain ⟨x, hrow, hbytes, hframe⟩ := harvestClear_accepted h
    have hbat : x.batA = u.batA := by rw [hframe]
    refine ⟨_, congrArg Host.Outcome.next hrow, hbytes, ?_⟩
    rw [harvestRestart, dropRecord, hbat]
  case raw =>
    have hframe := readDone_setPort s p { getPort s p with rawSnap := some (s.batA.rawV, s.batA.rawI, s.batA.rawT) } 0x0B
      (s.batA.rawV.truncate 16)
    have hsnap := (readDone_snaps (takeRaw s p) p 0x0B (s.batA.rawV.truncate 16)).1
    have hdata := readDone_rdata (takeRaw s p) p 0x0B (s.batA.rawV.truncate 16)
    rw [takeRaw, getPort_setPort] at hsnap
    rw [show (takeRaw s p).pw = s.pw from setPort_pw _ _ _] at hdata
    refine ⟨_, exec_rawSnapshotRead hread, hframe, hsnap, hdata, ?_⟩
    rw [rawWords, takeRaw, hsnap]
  case soc =>
    have hframe := readDone_setPort s p { getPort s p with socSnap := some (socNow s.estA) } 0x0B (intSocWord s.estA)
    have hsnap := (readDone_snaps (takeSoc s p) p 0x0B (intSocWord s.estA)).2
    have hdata := readDone_rdata (takeSoc s p) p 0x0B (intSocWord s.estA)
    rw [takeSoc, getPort_setPort] at hsnap
    rw [show (takeSoc s p).pw = s.pw from setPort_pw _ _ _] at hdata
    refine ⟨_, exec_socSnapshotRead hread, hframe, hsnap, hdata, ?_⟩
    rw [socWords, takeSoc, hsnap]

/-! ### Channel B (R403, R404, R435) -/

/-- A sample while line slots run: the raw code, the minimum and the sums. -/
def sampleTaken (s : State) (raw : BitVec 12) : State :=
  { s with batB := { s.batB with raw := raw, bvbMin := min s.batB.bvbMin (scaleB s raw)
                                 sumN := s.batB.sumN + 1, sumV := s.batB.sumV + scaleB s raw } }

theorem sampleB_running {s : State} {raw : BitVec 12} (hslots : slotsRun s = true) (haon : ckAon s = true) :
    sampleB s raw = crankTrack (sampleTaken s raw) (scaleB s raw) := by
  unfold sampleB
  rw [if_pos ⟨.inl hslots, haon⟩]
  dsimp only
  rw [if_pos hslots]
  rfl

theorem sampleB_sleep {s : State} {raw : BitVec 12} (hmode : s.pw.mode = .sleep) (haon : ckAon s = true) :
    sampleB s raw = { s with batB := { s.batB with
      raw := raw, bvbMin := min s.batB.bvbMin (scaleB s raw), bvb := scaleB s raw, sumN := 1, sumV := scaleB s raw } } := by
  have hslots : slotsRun s = false := by simp [slotsRun, hmode]
  unfold sampleB
  rw [if_pos ⟨.inr hmode, haon⟩]
  dsimp only
  rw [if_neg (by simp [hslots])]

/-- The dip detector leaves the sample's own fields. -/
theorem crankTrack_frame (s : State) (v : Nat) : ∃ b, crankTrack s v = { s with batB := b } ∧ b.raw = s.batB.raw ∧
    b.bvbMin = s.batB.bvbMin ∧ b.sumN = s.batB.sumN ∧ b.sumV = s.batB.sumV ∧ b.bvb = s.batB.bvb := by
  unfold crankTrack
  dsimp only
  split
  · split <;> exact ⟨_, rfl, rfl, rfl, rfl, rfl, rfl⟩
  · split
    · exact ⟨_, rfl, rfl, rfl, rfl, rfl, rfl⟩
    · split <;> exact ⟨_, rfl, rfl, rfl, rfl, rfl, rfl⟩

/-- R435: a dip whose samples have stayed low for long enough. -/
theorem crankDip_declared {s : State} (hslots : slotsRun s = true) (hdip : s.batB.dipU ≠ none)
    (hcrank : s.batB.inCrank = false) (hspan : sampleSpan s.batB.dipLen s.batB.crkT = true) :
    crankDip s = (let t : State := { s with batB := { s.batB with
        inCrank := true, crank := true, aboveRun := 0, crkCnt := sat1 s.batB.crkCnt } }
      if s.batB.crank then t else trigger (setIrq t irqBAT) trCRANK) :=
  if_pos ⟨hslots, Option.isSome_iff_ne_none.mpr hdip, by simp [hcrank], hspan⟩

/-- Settles O48: a sample by its mode, the clear of BVB_MIN as a page word that acts, a dip and its end by their spans. -/
theorem channelBSamplesAndDips : Obligations.ChannelBSamplesAndDips := by
  unfold Obligations.ChannelBSamplesAndDips
  refine ⟨fun r s hslots haon => ?sample, fun r s hmode haon => congrArg Host.Outcome.next (sampleB_sleep hmode haon),
    fun p s u h hwf => ?clear, fun s hslots hdip hcrank hspan => ?dip, fun s hslots hcrank hspan => ?ends⟩
  case sample =>
    obtain ⟨b, hb, hraw, hmin, hn, hv, hbvb⟩ := crankTrack_frame (sampleTaken s r) (scaleB s r)
    refine ⟨_, congrArg Host.Outcome.next ((sampleB_running hslots haon).trans hb), rfl, hraw, hmin, hn, hv, hbvb⟩
  case clear =>
    obtain ⟨x, hrow, hbytes, hframe⟩ := bvbMinClear_accepted h
    have hbat : x.batB = u.batB := by rw [hframe]
    refine ⟨_, congrArg Host.Outcome.next hrow, ?_, hbytes⟩
    rw [bvbMinClear, hbat]
  case dip =>
    refine ⟨_, congrArg Host.Outcome.next (crankDip_declared hslots hdip hcrank hspan), ?_⟩
    dsimp only
    cases s.batB.crank with
    | true => exact ⟨rfl, rfl, rfl, rfl⟩
    | false =>
      rw [if_neg Bool.false_ne_true, trigger_frame]
      exact ⟨rfl, rfl, rfl, rfl⟩
  case ends => exact ⟨_, congrArg Host.Outcome.next (if_pos ⟨hslots, hcrank, hspan⟩), rfl, rfl, rfl, rfl, rfl⟩

end Sys2Proof.Machine
end

section
/-! The boundary register as the TAP captures it (R566, R568, Table PKG-8). -/

namespace Sys2Proof.Machine

open Sys2Proof

/-! ### What a capture holds, cell by cell -/

/-- The bits of `f` added up one by one are the bits of the sum. -/
theorem flagSum_bits (f : Nat → Bool) (m : Nat) :
    let n := (List.range m).foldl (fun n i => n + flag (f i) i) 0
    n < 2 ^ m ∧ ∀ i, i < m → n.testBit i = f i := by
  refine foldl_range_rule (P := fun k n => n < 2 ^ k ∧ ∀ i, i < k → n.testBit i = f i)
    ⟨Nat.one_pos, fun i hi => absurd hi (Nat.not_lt_zero i)⟩ fun k n _ ⟨hlt, hbits⟩ => ?_
  have hsum : n + flag (f k) k = 2 ^ k * (f k).toNat + n := by rw [flag_eq, Nat.mul_comm, Nat.add_comm]
  rw [hsum]
  refine ⟨?_, fun i hi => ?_⟩
  · have := Bool.toNat_le (f k)
    rw [Nat.pow_succ]
    nlinarith
  · rw [Nat.testBit_two_pow_mul_add _ hlt]
    split
    · exact hbits i ‹_›
    · obtain rfl : i = k := by omega
      cases f i <;> simp

theorem boundaryCapture_bit (s : State) (x : BitVec 373) {i : Nat} (hi : i < 373) :
    (boundaryCapture s x).getLsbD i = cellCapture s x i := by
  rw [boundaryCapture, BitVec.getLsbD_ofNat, decide_eq_true hi, Bool.true_and]
  exact (flagSum_bits (cellCapture s x) 373).2 i hi

theorem boundaryCells_length : boundaryCells.length = 373 := by
  rw [boundaryCells, List.length_append, List.length_flatMap]
  rfl

theorem boundaryCapture_observe (s : State) (x : BitVec 373) {q : Ball} {i : Nat}
    (h : boundaryCells[i]? = some (.observe q)) :
    (boundaryCapture s x).getLsbD i = (ballLevel s x q).getD (x.getLsbD i) := by
  have hi : i < 373 := boundaryCells_length ▸ (List.getElem?_eq_some_iff.mp h).1
  rw [boundaryCapture_bit s x hi, cellCapture, h]

/-! ### The glass balls of a bank that is not driven (R240, R258, R261) -/

theorem keyOrNot_still {s : State} (h : scanning s.keys = false) (f : Bool → Option Bool) : keyOrNot s f = f false := by
  rw [keyOrNot, h, Bool.false_and, Bool.false_and, if_neg Bool.false_ne_true]

theorem ballLevel_com_undriven {s : State} {b : Bank} (hscan : scanning s.keys = false)
    (hdrv : driven (getBank s b).drv = false) (x : BitVec 373) (n : Nat) : ballLevel s x (.com b n) = some false := by
  simp [ballLevel, keyOrNot_still hscan, comOut, hdrv, glassBall]

theorem ballLevel_seg_undriven {s : State} {b : Bank} (hscan : scanning s.keys = false)
    (hdrv : driven (getBank s b).drv = false) (x : BitVec 373) (n : Nat) : ballLevel s x (.seg b n) = some false := by
  simp [ballLevel, keyOrNot_still hscan, segOut, hdrv, glassBall]

/-! ### The instructions -/

theorem tapSelect_open {s : State} (h : tapOpen s = true) (ir : BitVec 5) :
    tapSelect s ir = { s with tap := { s.tap with ir := ir } } := if_pos h

theorem tapSelect_closed {s : State} (h : tapOpen s = false) (ir : BitVec 5) : tapSelect s ir = s :=
  if_neg (Bool.eq_false_iff.mp h)

/-- Each instruction of Table PKG-8 that scans no boundary register selects its own. -/
theorem exec_tapSelect {c : Instr} {ir : BitVec 5} (s : State)
    (h : (c = .extest none ∧ ir = 0) ∨ (c = .idcode ∧ ir = 2) ∨ (c = .clamp ∧ ir = 3) ∨ (c = .highz ∧ ir = 4) ∨
      (c = .bypass ∧ ir = 0x1F)) : exec c s = .next (tapSelect s ir) := by
  obtain ⟨rfl, rfl⟩ | ⟨rfl, rfl⟩ | ⟨rfl, rfl⟩ | ⟨rfl, rfl⟩ | ⟨rfl, rfl⟩ := h <;> rfl

theorem tapSample_open {s : State} (h : tapOpen s = true) (x y : BitVec 373) : tapSample s x y =
    { s with tap := { s.tap with
        ir := 1, boundary := boundaryCapture { s with tap := { s.tap with ir := 1 } } x, latch := y } } := by
  rw [tapSample, tapSelect_open h]
  exact if_pos h

theorem tapSample_closed {s : State} (h : tapOpen s = false) (x y : BitVec 373) : tapSample s x y = s := by
  rw [tapSample, tapSelect_closed h]
  exact if_neg (Bool.eq_false_iff.mp h)

theorem tapExtest_open {s : State} (h : tapOpen s = true) (x y : BitVec 373) : tapExtest s (some (x, y)) =
    { s with tap := { s.tap with
        ir := 0, boundary := boundaryCapture { s with tap := { s.tap with ir := 0 } } x, latch := y } } := by
  rw [tapExtest, tapSelect_open h]
  exact if_pos h

theorem tapExtest_closed {s : State} (h : tapOpen s = false) (x y : BitVec 373) : tapExtest s (some (x, y)) = s := by
  rw [tapExtest, tapSelect_closed h]
  exact if_neg (Bool.eq_false_iff.mp h)

/-- A code that is neither the standard's nor an open vendor's selects BYPASS (R566). -/
theorem vendorSelect_bypass {s : State} {c : BitVec 5} (hc : 4 < c.toNat)
    (h : s.auth.dbgTest = false ∨ vendorCode c = false) : vendorSelect s c = tapSelect s 0x1F := by
  rw [vendorSelect, if_neg (Nat.not_le.mpr hc), if_neg]
  obtain h | h := h <;> simp [h]

theorem vendorSelect_vendor {s : State} {c : BitVec 5} (htest : s.auth.dbgTest = true) (hc : vendorCode c = true) :
    vendorSelect s c = if s.pw.vio then { s with tap := { s.tap with ir := c }, freeCtr := s.freeCtr + 1 } else s := by
  have hlow : ¬ c.toNat ≤ 4 := fun h => by
    have := of_decide_eq_true hc
    omega
  rw [vendorSelect, if_neg hlow, if_pos (by simp [htest, hc]), tapTest, htest, Bool.true_and]

/-- Settles O56: a capture cell by cell, and the instructions by the code that they select. -/
theorem tapInstructionsSelectTheirRegister : Obligations.TapInstructionsSelectTheirRegister := by
  unfold Obligations.TapInstructionsSelectTheirRegister
  refine ⟨fun c ir s h => ⟨fun ho => ?_, fun hc => ?_⟩, fun x y s => ⟨fun ho => ⟨?_, ?_⟩, fun hc => ⟨?_, ?_⟩⟩,
    fun x q i s h => boundaryCapture_observe s x h, fun x b n i s hscan hdrv h => ?_, fun x n i s h => ?_,
    fun c s hc h => ?_, fun c s htest hc => congrArg Host.Outcome.next (vendorSelect_vendor htest hc),
    fun c s hc => congrArg Host.Outcome.next (if_pos hc), fun s h => ?_, fun s => rfl⟩
  · rw [exec_tapSelect s h, tapSelect_open ho]
  · rw [exec_tapSelect s h, tapSelect_closed hc]
  · exact congrArg Host.Outcome.next (tapSample_open ho x y)
  · exact congrArg Host.Outcome.next (tapExtest_open ho x y)
  · exact congrArg Host.Outcome.next (tapSample_closed hc x y)
  · exact congrArg Host.Outcome.next (tapExtest_closed hc x y)
  · obtain h | h := h
    · rw [boundaryCapture_observe s x h, ballLevel_com_undriven hscan hdrv, Option.getD_some]
    · rw [boundaryCapture_observe s x h, ballLevel_seg_undriven hscan hdrv, Option.getD_some]
  · rw [boundaryCapture_observe s x h, ballLevel]
    cases (vget s.lamps.ch n).conducting <;> rfl
  · exact congrArg Host.Outcome.next (vendorSelect_bypass hc h)
  · rw [tapData, h]
    rfl

end Sys2Proof.Machine
end

section
/-! Wake latches and wake events (R47, R77, R512 to R516, R523). -/

namespace Sys2Proof.Machine

open Sys2Proof

/-! ### A wake event (R86, R514) -/

theorem latchWake_irqStat (s : State) (i : Nat) : (latchWake s i).irqStat =
    if s.aon.latch.getLsbD i then s.irqStat else s.irqStat ||| 0x800 := by
  unfold latchWake
  dsimp only
  split <;> rfl

theorem latchWake_wake (s : State) (i : Nat) : bit (latchWake s i).irqStat irqWAKE =
    (bit s.irqStat irqWAKE || !s.aon.latch.getLsbD i) := by
  rw [latchWake_irqStat]
  cases s.aon.latch.getLsbD i with
  | true => exact (Bool.or_false _).symm
  | false => exact BitVec.getLsbD_or

theorem abandonSleep_wake (s : State) : bit (abandonSleep s).irqStat irqWAKE = true := by
  have hset : bit (setIrq { s with pw := { s.pw with trans := .idle } } irqWAKE).irqStat irqWAKE = true :=
    (BitVec.getLsbD_or).trans (Bool.or_true _)
  unfold abandonSleep
  dsimp only
  split
  · exact declareMiss_irq hset
  · exact hset

/-- R86, R514: IRQSTAT.WAKE rises with a wake event only where the event abandons a SLEEP entry. -/
theorem wakeEvent_wake (s : State) (i : Nat) : bit (wakeEvent s i).irqStat irqWAKE =
    (bit s.irqStat irqWAKE || (s.pw.trans == .toSleep && bit s.aon.wakeIs i)) := by
  unfold wakeEvent
  cases hen : bit s.aon.wakeIs i with
  | false => rw [if_neg Bool.false_ne_true, Bool.and_false, Bool.or_false]
  | true =>
    rw [if_pos rfl, Bool.and_true]
    split
    · rw [abandonSleep_wake, beq_iff_eq.mpr ‹_›, Bool.or_true]
    · rw [startWake_frame, beq_eq_false_iff_ne.mpr ‹_›, Bool.or_false]

/-- R79, R514: in SLEEP a wake event of an enabled source begins the exit. -/
theorem wakeEvent_sleep {s : State} (hmode : s.pw.mode = .sleep) (hidle : s.pw.trans = .idle) (i : Nat) :
    (wakeEvent s i).pw = if bit s.aon.wakeIs i then { s.pw with trans := .wake } else s.pw := by
  unfold wakeEvent
  cases bit s.aon.wakeIs i with
  | false => rfl
  | true =>
    rw [if_pos rfl, if_pos rfl, if_neg (by rw [hidle]; decide), startWake, if_pos ⟨hmode, hidle⟩]

/-! ### The wake inputs (R512 to R514, R523) -/

/-- The state with the input's level moved and latched. -/
def wakeMoved (s : State) (i : WakeIn) (l : Bool) : State := latchWake (setWakeLevel s i l) (wakeBit i)

theorem wakeIn_beq_kwake (i : WakeIn) : (i == .kwake) = decide (i = .kwake) := by cases i <;> rfl

theorem wakeBit_lt (i : WakeIn) : wakeBit i < 8 := by cases i <;> decide

/-- The level that wakes, as KW_POL stands at the change (R523). -/
def wakesAt (s : State) (i : WakeIn) (l : Bool) : Bool := if i = .kwake then l != pgb s 0xEC0A 0 else l

/-- What a moved and latched level leaves of the machine. -/
theorem wakeMoved_frame (s : State) (i : WakeIn) (l : Bool) :
    wakeLevel (wakeMoved s i l) i = l ∧ (wakeMoved s i l).pw = s.pw ∧ (wakeMoved s i l).mem = s.mem ∧
    (wakeMoved s i l).aon.wakeIs = s.aon.wakeIs ∧ isWakeLevel (wakeMoved s i l) i l = wakesAt s i l := by
  unfold wakeMoved
  rw [latchWake_frame]
  cases i <;> exact ⟨rfl, rfl, rfl, rfl, rfl⟩

theorem wakeMoved_wake (s : State) (i : WakeIn) (l : Bool) : bit (wakeMoved s i l).irqStat irqWAKE =
    (bit s.irqStat irqWAKE || !s.aon.latch.getLsbD (wakeBit i)) := by
  rw [wakeMoved, latchWake_wake]
  cases i <;> rfl

theorem wakeInput_moves {s : State} {i : WakeIn} {l : Bool} (hck : ckAon s = true) (hl : wakeLevel s i ≠ l) :
    wakeInput s i l =
      if wakesAt s i l then wakeEvent (wakeMoved s i l) (wakeBit i) else wakeMoved s i l := by
  obtain ⟨-, -, -, -, hwakes⟩ := wakeMoved_frame s i l
  rw [← hwakes]
  exact if_pos ⟨hck, hl⟩

/-- A filtered change moves the level, latches it, and wakes where it is a change to the wake level. -/
theorem wakeInput_change {s : State} {i : WakeIn} {l : Bool} (hck : ckAon s = true) (hl : wakeLevel s i ≠ l) :
    wakeLevel (wakeInput s i l) i = l ∧ (wakeInput s i l).aon.latch.getLsbD (wakeBit i) = true ∧
    (wakeInput s i l).mem = s.mem ∧
    bit (wakeInput s i l).irqStat irqWAKE = (bit s.irqStat irqWAKE || !s.aon.latch.getLsbD (wakeBit i) ||
      (s.pw.trans == .toSleep && wakesAt s i l && bit s.aon.wakeIs (wakeBit i))) ∧
    (s.pw.mode = .sleep → s.pw.trans = .idle → (wakeInput s i l).pw =
      if wakesAt s i l && bit s.aon.wakeIs (wakeBit i) then { s.pw with trans := .wake } else s.pw) := by
  obtain ⟨hlevel, hpw, hmem, hen, -⟩ := wakeMoved_frame s i l
  have hlatch : (wakeMoved s i l).aon.latch.getLsbD (wakeBit i) = true := latchWake_latched _ (wakeBit_lt i)
  have hirq := wakeMoved_wake s i l
  rw [wakeInput_moves hck hl]
  generalize wakeMoved s i l = u at *
  cases wakesAt s i l with
  | false =>
    rw [if_neg Bool.false_ne_true]
    exact ⟨hlevel, hlatch, hmem, by simpa using hirq, fun _ _ => by simpa using hpw⟩
  | true =>
    rw [if_pos rfl]
    have hwake := wakeEvent_wake u (wakeBit i)
    have hsleep := fun hmode hidle => wakeEvent_sleep (s := u) hmode hidle (wakeBit i)
    rw [hpw, hen] at hwake hsleep
    rw [hirq] at hwake
    refine ⟨?_, ?_, ?_, ?_, fun hmode hidle => ?_⟩
    · rw [wakeEvent_frame]
      cases i <;> exact hlevel
    · rw [wakeEvent_frame]
      exact hlatch
    · rw [wakeEvent_frame]
      exact hmem
    · rw [hwake, Bool.and_true]
    · rw [hsleep hmode hidle, Bool.true_and]

/-- R47, R77: without its clock the island latches an edge unfiltered. -/
theorem wakeEdge_latches {s : State} (hon : islandOn s = true) (hck : ckAon s = false) (i : WakeIn) :
    wakeEdge s i = latchWake s (wakeBit i) := if_pos ⟨hon, by rw [hck]; rfl⟩

theorem wakeEdge_clocked {s : State} (hck : ckAon s = true) (i : WakeIn) : wakeEdge s i = s :=
  if_neg fun h => by simp [hck] at h

/-! ### VSUP low and the alarm (R510, R516) -/

theorem vlowLatches_idle {s : State} (h : s.aon.vlowTrip = false ∨ s.aon.vlowTimer = false) : vlowLatches s = s :=
  if_neg fun ⟨_, htrip, htimer⟩ => by obtain h | h := h <;> simp_all

/-- R516: VSUP low for its time latches VLOW and ends the timer. -/
theorem vlowLatches_due {s : State} (hon : islandOn s = true) (htrip : s.aon.vlowTrip = true)
    (htimer : s.aon.vlowTimer = true) : (vlowLatches s).aon.latch.getLsbD wkVLOW = true ∧
    (vlowLatches s).aon.vlowTimer = false ∧ (vlowLatches s).mem = s.mem := by
  have hdue : vlowLatches s = wakeEvent (latchWake { s with aon := { s.aon with vlowTimer := false } } wkVLOW) wkVLOW :=
    if_pos ⟨hon, htrip, htimer⟩
  have hlatch := latchWake_latched { s with aon := { s.aon with vlowTimer := false } } (i := wkVLOW) (by decide)
  rw [hdue, wakeEvent_frame]
  refine ⟨hlatch, ?_, ?_⟩
  · rw [latchWake_frame]
  · rw [latchWake_frame]

/-- R510, R514: an alarm that fires in SLEEP begins the exit where WAKECTL enables it. -/
theorem alarmFires_sleep {s : State} (h : s.aon.alarm = some 0) (hon : islandOn s = true)
    (hmode : s.pw.mode = .sleep) (hidle : s.pw.trans = .idle) (hen : bit s.aon.wakeIs wkALARM = true) :
    (alarmFires s).pw = { s.pw with trans := .wake } := by
  have hfires : alarmFires s = wakeEvent (setIrq (latchWake { s with aon := { s.aon with alarm := none } } wkALARM) irqALARM)
      wkALARM := if_pos ⟨h, hon⟩
  have hpw : (setIrq (latchWake { s with aon := { s.aon with alarm := none } } wkALARM) irqALARM).pw = s.pw := by
    rw [setIrq_pw, latchWake_pw]
  have hwake : (setIrq (latchWake { s with aon := { s.aon with alarm := none } } wkALARM) irqALARM).aon.wakeIs =
      s.aon.wakeIs := by rw [setIrq_aon, latchWake_frame]
  rw [hfires]
  generalize setIrq _ irqALARM = u at *
  rw [wakeEvent_sleep (hpw ▸ hmode) (hpw ▸ hidle), hwake, hen, if_pos rfl, hpw]

/-- Settles O60: a change of an input as it is moved, latched and wakes; the comparator and the alarm by their guards. -/
theorem wakeEventsLatchAndWake : Obligations.WakeEventsLatchAndWake := by
  unfold Obligations.WakeEventsLatchAndWake
  refine ⟨fun i l s hck hl => ?change, fun i l s hl => ?same, fun i s hon hck => ?edge,
    fun i s hck => congrArg Host.Outcome.next (wakeEdge_clocked hck i),
    fun s h => congrArg Host.Outcome.next (vlowLatches_idle h), fun s htrip => ?again, fun s hon htrip => ?trip,
    fun s hon => congrArg Host.Outcome.next (if_pos hon), fun s hon htrip htimer => ?low,
    fun s hon h0 => ?alarm,
    fun s h => congrArg Host.Outcome.next (alarmFires_off h)⟩
  case change =>
    obtain ⟨hlevel, hlatch, hmem, hirq, hsleep⟩ := wakeInput_change hck hl
    refine ⟨_, rfl, hlevel, hlatch, hirq.trans ?_, fun hmode hidle hi hl hen => ?_, fun hmode hidle hi hen => ?_, hmem⟩
    · rw [bne, wakeIn_beq_kwake]
      by_cases hi : i = .kwake <;> simp [wakesAt, hi]
    · rw [hsleep hmode hidle, hen, wakesAt, if_neg hi, hl]
      rfl
    · subst hi
      rw [hsleep hmode hidle, wakesAt, if_pos rfl]
      change (if ((l != pgb s 0xEC0A 0) && bit s.aon.wakeIs wkKWAKE) = true then _ else _) = _
      rw [hen, Bool.and_true]
      by_cases hp : l = pgb s 0xEC0A 0
      · rw [if_pos hp, if_neg (by simp [hp])]
      · rw [if_neg hp, if_pos (bne_iff_ne.mpr hp)]
  case same => exact congrArg Host.Outcome.next (if_neg fun h => h.2 hl)
  case edge =>
    refine ⟨_, congrArg Host.Outcome.next (wakeEdge_latches hon hck i), latchWake_frame s _, latchWake_irqStat s _⟩
  case again => exact congrArg Host.Outcome.next (if_neg fun h => by simp [htrip] at h)
  case trip => exact congrArg Host.Outcome.next (if_pos ⟨hon, by rw [htrip]; rfl⟩)
  case low => exact ⟨_, rfl, vlowLatches_due hon htrip htimer⟩
  case alarm =>
    obtain ⟨haon, hirq⟩ := alarmFires_due h0 hon
    refine ⟨_, rfl, ?_, ?_, hirq, alarmFires_sleep h0 hon⟩
    · rw [haon]
    · rw [haon]
      exact (BitVec.getLsbD_or).trans (Bool.or_true _)

end Sys2Proof.Machine
end

section
/-! The strap pull-ups and the steps of the boot up to READY (R31, R34, R36, R69, R73, R75, R77, R216, R562). -/

namespace Sys2Proof.Machine

open Sys2Proof

/-! ### The steps of the boot -/

theorem faceLive_dead {s : State} (hmode : s.pw.mode = .boot) (hface : s.pw.face = .dead) : faceLive s =
    { s with pw := { s.pw with face := .bootFace, bstep := if s.pw.bstep = 1 then 2 else s.pw.bstep } } :=
  if_pos ⟨hmode, hface⟩

/-- R31: in BOOT a confirmation of the root moves BSTEP on. -/
theorem rootConfirmed_boot {s : State} (hmode : s.pw.mode = .boot) (hroot : s.clk.rootOk = false) (r : Bool) :
    rootConfirmed s r = { s with
      pw := { s.pw with bstep := 3 }
      clk := { s.clk with rootOk := true, attempting := false, sleepLost := false, xtalRuns := !s.clk.src
                          fsUsed := s.clk.fsUsed || (r && !s.clk.src) } } := by
  have hisland : islandOn s = true := by rw [islandOn, hmode]; rfl
  rw [rootConfirmed, if_neg (by simp [hroot, hisland])]
  exact if_pos hmode

/-- R34: the rest ends with a new attempt, which a warm boot does not count. -/
theorem crystalRests_rested {s : State} (hmode : s.pw.mode = .boot) (hsrc : s.clk.src = false)
    (hroot : s.clk.rootOk = false) (hatt : s.clk.attempting = false) : crystalRests s =
    { s with clk := { s.clk with
        attempting := true, fsUsed := true
        starts := if warmRunning s then s.clk.starts else min 15 (s.clk.starts + 1) } } := by
  rw [crystalRests, if_pos ⟨hmode, by simp [hsrc], by simp [hroot], by simp [hatt]⟩, newAttempt, hsrc]
  simp

theorem zeroFill_boot {s : State} (hmode : s.pw.mode = .boot) (hrel : s.clk.released = true) (hstep : s.pw.bstep = 4) :
    zeroFill s = { s with
      mem := s.mem.filter (fun c => fillKeeps s c.1)
      arb := { s.arb with ecc := s.arb.ecc.filter (fun e => fillKeeps s e.1) }, pw := { s.pw with bstep := 5 } } :=
  if_pos ⟨hmode, hrel, hstep⟩

theorem fillKeeps_cold {s : State} (h : warmRunning s = false) (a : Nat) : fillKeeps s a = false := by
  rw [fillKeeps, h, Bool.and_false, Bool.false_and]

/-! ### READY (R73, R75, R77) -/

/-- READY itself, before presence, channel A and the discarded writes. -/
def readyHead (s : State) : State :=
  { s with pw := { s.pw with mode := .standby, bstep := 0, face := .full }
           irqStat := wordOf (1 + flag (decide (s.aon.latch &&& 7 ≠ 0)) irqWAKE)
           roles := Roles.ready (!s.pw.roleStrap) s.now }

/-- READY with presence known, channel A started and the backup count following; the discarded writes not reported. -/
def readyStarted (s : State) : State :=
  let s := presenceKnown (readyHead s)
  backupFollow (startA (if s.pack.pres = 1 ∧ !s.pack.open_ then beginSession s else s))

theorem readyNow_due {s : State} (hmode : s.pw.mode = .boot) (hrel : s.clk.released = true) (hstep : s.pw.bstep = 5)
    (hrst : s.pw.rst = .noReset) : readyNow s = bootWrites (readyStarted s) := if_pos ⟨hmode, hrel, hstep, hrst⟩

/-- What starts at READY leaves the mode, IRQSTAT and the ports. -/
theorem readyStarted_frame (s : State) : (readyStarted s).pw = (readyHead s).pw ∧
    (readyStarted s).irqStat = (readyHead s).irqStat ∧ (readyStarted s).portP = s.portP ∧
    (readyStarted s).portS = s.portS := by
  unfold readyStarted
  dsimp only
  rw [backupFollow_frame]
  split <;> exact ⟨rfl, rfl, rfl, rfl⟩

theorem readyHead_irq (s : State) : bit (readyHead s).irqStat irqREADY = true ∧
    bit (readyHead s).irqStat irqWAKE = decide (s.aon.latch &&& 7 ≠ 0) := by
  change bit (wordOf (1 + flag (decide (s.aon.latch &&& 7 ≠ 0)) irqWAKE)) 0 = true ∧
    bit (wordOf (1 + flag (decide (s.aon.latch &&& 7 ≠ 0)) irqWAKE)) 11 = _
  cases decide (s.aon.latch &&& 7 ≠ 0) <;> decide

/-- R73: the discarded writes of both ports are reported in one record. -/
theorem bootWrites_reports {s : State} (h : s.portP.disc + s.portS.disc ≠ 0) : (bootWrites s).err.code = eBOOTWR ∧
    (bootWrites s).err.info = wordOf (flag (decide (0 < s.portS.disc)) 15 + flag (decide (0 < s.portP.disc)) 14
      + min 0x3FFF (s.portP.disc + s.portS.disc)) := by
  unfold bootWrites
  dsimp only
  rw [if_neg h]
  exact ⟨rfl, rfl⟩

theorem bootWrites_wake (s : State) : bit (bootWrites s).irqStat irqWAKE = bit s.irqStat irqWAKE := by
  unfold bootWrites
  dsimp only
  split
  · rfl
  · exact bit_setOther s.irqStat (i := irqERR) (by decide)

theorem readyNow_reads {s : State} (hmode : s.pw.mode = .boot) (hrel : s.clk.released = true) (hstep : s.pw.bstep = 5)
    (hrst : s.pw.rst = .noReset) : (readyNow s).pw = (readyHead s).pw ∧ bit (readyNow s).irqStat irqREADY = true ∧
    bit (readyNow s).irqStat irqWAKE = decide (s.aon.latch &&& 7 ≠ 0) := by
  obtain ⟨hpw, hirq, -, -⟩ := readyStarted_frame s
  obtain ⟨hready, hwake⟩ := readyHead_irq s
  rw [← hirq] at hready hwake
  rw [readyNow_due hmode hrel hstep hrst]
  refine ⟨?_, bootWrites_irq hready, (bootWrites_wake _).trans hwake⟩
  rw [bootWrites_frame]
  exact hpw

/-- Settles O9: each step of the boot by its guard, the zero-fill as a filter of the bytes, and READY as its head with
the discarded writes reported. -/
theorem strapAndBootStepsAdvance : Obligations.StrapAndBootStepsAdvance := by
  unfold Obligations.StrapAndBootStepsAdvance
  refine ⟨⟨fun s h => congrArg Host.Outcome.next (if_pos h), fun s h => congrArg Host.Outcome.next (if_neg h),
      fun s hoff hcork => congrArg Host.Outcome.next (if_neg fun h => h.elim hoff hcork),
      fun s h => congrArg Host.Outcome.next (if_pos h)⟩,
    ⟨fun s hmode hface => congrArg Host.Outcome.next (faceLive_dead hmode hface),
      fun s hmode hroot r => congrArg Host.Outcome.next (rootConfirmed_boot hmode hroot r),
      fun s hmode hsrc hroot hatt => congrArg Host.Outcome.next
        (if_pos ⟨hmode, by rw [hsrc]; rfl, by rw [hroot]; rfl, hatt⟩),
      fun s hmode hsrc hroot hatt => congrArg Host.Outcome.next (crystalRests_rested hmode hsrc hroot hatt),
      fun s hmode hroot hrel => congrArg Host.Outcome.next (if_pos ⟨hmode, hroot, by rw [hrel]; rfl⟩),
      fun s hmode hrel hstep => ?fill⟩,
    fun s hmode hrel hstep hrst => ?ready⟩
  case fill =>
    refine ⟨_, congrArg Host.Outcome.next (zeroFill_boot hmode hrel hstep), rfl, fun hcold => ?_,
      fun x => Cellar.get_filter s.mem (fillKeeps s) x⟩
    simp only [fillKeeps_cold hcold, List.filter_false, and_self]
  case ready =>
    obtain ⟨hpw, hready, hwake⟩ := readyNow_reads hmode hrel hstep hrst
    have hdue := readyNow_due hmode hrel hstep hrst
    obtain ⟨hdiscP, hdiscS⟩ := bootWrites_disc (readyStarted s)
    obtain ⟨-, -, hportP, hportS⟩ := readyStarted_frame s
    have hreports := bootWrites_reports (s := readyStarted s)
    rw [hportP, hportS, ← hdue] at hreports
    rw [← hdue] at hdiscP hdiscS
    refine ⟨_, rfl, ?_, ?_, ?_, hready, hwake, hdiscP, hdiscS, hreports⟩ <;> exact hpw ▸ rfl

end Sys2Proof.Machine
end

section
/-! Pack presence (R453 to R457, R470) and the PIL decoder with its frames (R459 to R467, Table PAK-2). -/

namespace Sys2Proof.Machine

open Sys2Proof

/-! ### What a change of the pack signals (Table REG-5) -/

theorem packSignal_frame (old s : State) : packSignal old s = { s with irqStat := (packSignal old s).irqStat } :=
  setIrqIf_frame _ s irqPACK

theorem packSignal_raised {old s : State} (h : old.pack.pres ≠ s.pack.pres ∨ old.pack.verif ≠ s.pack.verif) :
    packSignal old s = setIrq s irqPACK := by
  have hc : (decide (old.pack.pres ≠ s.pack.pres) || old.pack.verif != s.pack.verif) = true := by
    obtain h | h := h <;> simp [h]
  unfold packSignal
  simp only [hc, Bool.true_or]
  rfl

theorem packSignal_pres {old s : State} (h : old.pack.pres ≠ s.pack.pres) :
    bit (packSignal old s).irqStat irqPACK = true := by
  rw [packSignal_raised (.inl h)]
  exact (BitVec.getLsbD_or).trans (Bool.or_true _)

theorem presenceWake_frame (s : State) : presenceWake s =
    { s with pw := (presenceWake s).pw, roles := (presenceWake s).roles, irqStat := (presenceWake s).irqStat
             lamps := (presenceWake s).lamps
             aon := { s.aon with latch := s.aon.latch ||| BitVec.ofNat 8 (2 ^ wkPACK) } } := by
  unfold presenceWake
  rw [wakeEvent_frame, latchWake_frame]

theorem presenceWake_irq {s : State} {i : Nat} (h : bit s.irqStat i = true) :
    bit (presenceWake s).irqStat i = true := by
  refine wakeEvent_irq ?_ _
  unfold latchWake
  dsimp only
  split
  · exact h
  · exact setIrq_keeps h _

theorem presenceWake_latched (s : State) : (presenceWake s).aon.latch.getLsbD wkPACK = true := by
  have h := latchWake_latched s (i := wkPACK) (by decide)
  unfold presenceWake
  rw [wakeEvent_frame]
  exact h

/-! ### Absence (R455, R457, R459) -/

theorem xAbsent_iff (x : Nat) : xAbsent x = true ↔ 98 * 2 ^ 24 < 100 * x ∨ 100 * x < 2 * 2 ^ 24 := by simp [xAbsent]

theorem xPresent_iff (x : Nat) : xPresent x = true ↔ 3 * 2 ^ 24 ≤ 100 * x ∧ 100 * x ≤ 97 * 2 ^ 24 := by simp [xPresent]

/-- A removal's pack. -/
def removedPack (p : Pack) : Pack :=
  { p with pil := p.pil.outside, pres := 0, rem := true, verif := false, frozen := false, open_ := false, candN := 0
           remCnt := sat1 p.remCnt }

/-- A removal before its wake event. -/
def removalSignalled (s : State) : State :=
  packTrigger s (packSignal s (packClear { s with pack := removedPack s.pack }))

theorem removal_eq (s : State) : removal s =
    if s.pack.pres = 1 then presenceWake (removalSignalled s) else removalSignalled s := rfl

theorem removalSignalled_pack (s : State) : (removalSignalled s).pack = removedPack s.pack ∧
    (removalSignalled s).mem = s.mem ∧ (removalSignalled s).estA.valid = false ∧
    (removalSignalled s).estA.fcc = 0 := by
  obtain ⟨hvalid, hfcc, -⟩ := packClear_est { s with pack := removedPack s.pack }
  unfold removalSignalled
  rw [packTrigger_frame, packSignal_frame]
  refine ⟨?_, ?_, hvalid, hfcc⟩
  · rw [packClear_frame]
  · rw [packClear_frame]

theorem removalSignalled_irq {s : State} (h : s.pack.pres ≠ 0) : bit (removalSignalled s).irqStat irqPACK = true := by
  unfold removalSignalled
  rw [packTrigger_frame]
  refine packSignal_pres ?_
  rw [packClear_frame]
  exact h

/-- R455: a removal ends the session and clears channel A's estimate. -/
theorem removal_rule {s : State} (h : s.pack.pres ≠ 0) : (removal s).pack = removedPack s.pack ∧
    (removal s).mem = s.mem ∧ (removal s).estA.valid = false ∧ (removal s).estA.fcc = 0 ∧
    bit (removal s).irqStat irqPACK = true := by
  obtain ⟨hpack, hmem, hvalid, hfcc⟩ := removalSignalled_pack s
  have hirq := removalSignalled_irq h
  rw [removal_eq]
  split
  · refine ⟨?_, ?_, ?_, ?_, presenceWake_irq hirq⟩ <;> rw [presenceWake_frame]
    · exact hpack
    · exact hmem
    · exact hvalid
    · exact hfcc
  · exact ⟨hpack, hmem, hvalid, hfcc, hirq⟩

/-- The decoder and the line at an absence, before it is a removal. -/
def absenceSeen (s : State) : State :=
  if s.pack.idm = 2 then pilIdle { s with pack := { s.pack with line := false } } else s

theorem packAbsent_seen {s : State} {x : Nat} (hck : ckAon s = true)
    (h : s.pack.idm = 2 ∨ s.pack.idm = 1 ∧ (98 * 2 ^ 24 < 100 * x ∨ 100 * x < 2 * 2 ^ 24)) :
    packAbsent s x = if (absenceSeen s).pack.pres ≠ 0 then removal (absenceSeen s) else absenceSeen s :=
  if_pos ⟨hck, h.symm.imp (fun ⟨hidm, hx⟩ => ⟨hidm, (xAbsent_iff x).mpr hx⟩) id⟩

theorem Pil.outside_outside (d : Pil) : d.outside.outside = d.outside := by
  unfold Pil.outside Pil.idle
  rw [Bool.false_or]

/-- What an absence leaves of the pack: what a removal reads is as before, whatever the mode. -/
theorem absenceSeen_pack (s : State) : (absenceSeen s).pack.pres = s.pack.pres ∧
    (absenceSeen s).pack.remCnt = s.pack.remCnt ∧ (absenceSeen s).pack.swap = s.pack.swap ∧
    (absenceSeen s).pack.pil.outside = s.pack.pil.outside ∧ (absenceSeen s).mem = s.mem := by
  unfold absenceSeen
  split
  · exact ⟨rfl, rfl, rfl, Pil.outside_outside _, rfl⟩
  · exact ⟨rfl, rfl, rfl, rfl, rfl⟩

theorem packAbsent_none {s : State} (x : Nat) (h : s.pack.idm = 0) : packAbsent s x = s :=
  if_neg fun hn => by simp [h] at hn

theorem packAbsent_ratio {s : State} {x : Nat} (h : s.pack.idm = 1) (hlo : 2 * 2 ^ 24 ≤ 100 * x)
    (hhi : 100 * x ≤ 98 * 2 ^ 24) : packAbsent s x = s :=
  if_neg fun ⟨_, hn⟩ => by
    rw [xAbsent_iff, h] at hn
    omega

/-! ### Presence (R453, R457, R459) -/

/-- Presence before its signal and its wake event: in thermistor mode with a new session. -/
def presenceSeen (s : State) : State :=
  let t := restartInit { s with pack := { s.pack with pres := 1, line := s.pack.line || decide (s.pack.idm = 2) } }
  if s.pack.idm = 1 then beginSession t else t

theorem packPresent_seen {s : State} {x : Nat} (hck : ckAon s = true)
    (h : s.pack.idm = 2 ∨ s.pack.idm = 1 ∧ (3 * 2 ^ 24 ≤ 100 * x ∧ 100 * x ≤ 97 * 2 ^ 24)) (hpres : s.pack.pres ≠ 1) :
    packPresent s x = if s.pack.pres = 0 then presenceWake (packSignal s (presenceSeen s))
      else packSignal s (presenceSeen s) :=
  if_pos ⟨hck, hpres, h.symm.imp (fun ⟨hidm, hx⟩ => ⟨hidm, (xPresent_iff x).mpr hx⟩) id⟩

theorem presenceSeen_pack (s : State) : (presenceSeen s).pack.pres = 1 ∧
    (presenceSeen s).pack.idseq = (if s.pack.idm = 1 then s.pack.idseq + 1 else s.pack.idseq) ∧
    (s.pack.idm = 1 → (presenceSeen s).pack.open_ = true) := by
  unfold presenceSeen
  dsimp only
  by_cases h : s.pack.idm = 1
  · rw [if_pos h, if_pos h]
    exact ⟨rfl, rfl, fun _ => rfl⟩
  · rw [if_neg h, if_neg h]
    exact ⟨rfl, rfl, fun hn => absurd hn h⟩

/-- R453, R457: presence is set and signalled, and after an absence it is a wake event. -/
theorem packPresent_rule {s : State} {x : Nat} (hck : ckAon s = true)
    (h : s.pack.idm = 2 ∨ s.pack.idm = 1 ∧ (3 * 2 ^ 24 ≤ 100 * x ∧ 100 * x ≤ 97 * 2 ^ 24)) (hpres : s.pack.pres ≠ 1) :
    (packPresent s x).pack = (presenceSeen s).pack ∧ bit (packPresent s x).irqStat irqPACK = true ∧
    (s.pack.pres = 0 → (packPresent s x).aon.latch.getLsbD wkPACK = true) := by
  have hirq : bit (packSignal s (presenceSeen s)).irqStat irqPACK = true :=
    packSignal_pres ((presenceSeen_pack s).1 ▸ hpres)
  have hpack : (packSignal s (presenceSeen s)).pack = (presenceSeen s).pack := by rw [packSignal_frame]
  rw [packPresent_seen hck h hpres]
  split
  · refine ⟨?_, presenceWake_irq hirq, fun _ => presenceWake_latched _⟩
    rw [presenceWake_frame]
    exact hpack
  · exact ⟨hpack, hirq, fun h0 => absurd h0 ‹_›⟩

theorem packPresent_none {s : State} (x : Nat) (h : s.pack.idm = 0) : packPresent s x = s :=
  if_neg fun hn => by simp [h] at hn

theorem packPresent_ratio {s : State} {x : Nat} (h : s.pack.idm = 1)
    (hx : 100 * x < 3 * 2 ^ 24 ∨ 97 * 2 ^ 24 < 100 * x) : packPresent s x = s :=
  if_neg fun ⟨_, _, hn⟩ => by
    rw [xPresent_iff, h] at hn
    omega

/-- R470: CNTCLR of the pack page. -/
theorem packCounterClear_accepted {s u : State} {p : Port} (h : pageAccepted s u p 0xDC20 (fun w => w ||| 1)) :
    ∃ x, pageRow s p 0xDC20 (fun w => w ||| 1) = packCountersClear x ∧ onlyBytes u x 0xDC20 2 ∧
      x = { u with mem := x.mem, arb := x.arb, err := x.err, irqStat := x.irqStat } :=
  pageRow_acts 0 h (by decide) (by decide) (by decide) (by decide) (fun w => bit_or w _ (by decide)) fun _ _ hv => if_pos hv

end Sys2Proof.Machine
end

section
/-! The PIL decoder and its frames (R459 to R467, Table PAK-2): O51. -/

namespace Sys2Proof.Machine

open Sys2Proof

/-! ### A low pulse and one cycle high -/

/-- The decoder with a low pulse of n cycles that ends now. -/
def pulseAt (s : State) (n : Nat) : State :=
  { s with pack := { s.pack with line := true, pil := { s.pack.pil with low := some n } } }

section
variable {s : State} {n : Nat} (hidm : s.pack.idm = 2) (hslots : slotsRun s = true) (hlow : s.pack.pil.low = none)
  (hseen : s.pack.pil.seen = true)
include hidm hslots hlow

omit hslots in
theorem pilRun_high : pilRun s true n = pilHigh { s with pack := { s.pack with line := true } } n := by
  unfold pilRun
  rw [if_neg (not_not_intro hidm)]
  simp only [if_true, hlow]

theorem pilFrame_high : exec (.pilFrame [(true, n)]) s = .next (pilHigh { s with pack := { s.pack with line := true } } n) :=
  congrArg Host.Outcome.next ((if_pos hslots).trans (pilRun_high hidm hlow))

include hseen

omit hslots in
theorem pilRun_falls : pilRun s false n =
    { s with pack := { s.pack with line := false, pil := { s.pack.pil with low := some n } } } := by
  unfold pilRun
  rw [if_neg (not_not_intro hidm)]
  simp only [Bool.false_eq_true, if_false, hlow, hseen, if_true]
  rfl

theorem pilFrame_pulse : exec (.pilFrame [(false, n), (true, 1)]) s = .next (pilHigh (pulseEnds (pulseAt s n) n) 1) := by
  refine congrArg Host.Outcome.next ((if_pos hslots).trans ?_)
  rw [List.foldl_cons, List.foldl_cons, List.foldl_nil, pilRun_falls hidm hlow hseen]
  unfold pilRun
  rw [if_neg (not_not_intro hidm)]
  rfl

end

/-! ### PIL high (R462) -/

/-- The decoder after n more cycles high. -/
def Pil.risen (d : Pil) (n : Nat) : Pil :=
  { d with seen := true, high := d.high + n, since := d.since + n, barred := d.barred && decide (d.high + n < 40) }

/-- PIL high with no frame that ends of it. -/
theorem pilHigh_on {s : State} {n : Nat}
    (h : s.pack.pil.inFrame = true → s.pack.pil.since + n ≤ if s.pack.pil.bits = [] then 39 else 23) :
    pilHigh s n = setPil s (s.pack.pil.risen n) := by
  refine if_neg fun ⟨hin, hlt⟩ => ?_
  have hle := h hin
  cases hbits : s.pack.pil.bits <;> simp [hbits] at hle hlt <;> omega

/-- What the end of a frame leaves of the decoder. -/
def Pil.ended (d : Pil) : Pil := { d with inFrame := false, bits := [], high := 0, barred := true }

/-- PIL high until the frame ends of it. -/
theorem pilHigh_ends {s : State} {n : Nat} (hin : s.pack.pil.inFrame = true) (hbits : s.pack.pil.bits ≠ [])
    (hlt : 23 < s.pack.pil.since + n) : ∃ left, pilHigh s n =
      (let t := judgeFrame (setPil s (s.pack.pil.risen n).ended) s.pack.pil.bits s.pack.pil.len
       setPil t { t.pack.pil with high := left, barred := decide (left < 40) }) := by
  have hempty : s.pack.pil.bits.isEmpty = false := by simpa using hbits
  refine ⟨_, if_pos ⟨hin, ?_⟩⟩
  rw [hempty]
  exact hlt

/-! ### A frame's verdict (R463 to R466) -/

/-- The pack after a discarded frame. -/
def badPack (p : Pack) (cause : Nat) : Pack :=
  let run := satAdd 255 p.badRun 1
  let p := { p with badRun := run, candN := 0
                    crcCnt := if cause = 0 then sat1 p.crcCnt else p.crcCnt
                    shortCnt := if cause = 1 then sat1 p.shortCnt else p.shortCnt
                    longCnt := if cause = 2 then sat1 p.longCnt else p.longCnt
                    syncCnt := if cause = 3 then sat1 p.syncCnt else p.syncCnt }
  if run = 3 then { p with verif := false, frozen := true } else p

/-- R463: a discarded frame changes the pack and leaves its record. -/
theorem badFrame_frame (s : State) (c : Nat) : badFrame s c =
    { s with pack := badPack s.pack c, err := (badFrame s c).err, irqStat := (badFrame s c).irqStat } ∧
    (badFrame s c).err.code = ePILFRAME ∧
    (badFrame s c).err.info = wordOf (c + 256 * satAdd 255 s.pack.badRun 1) := by
  have h := packSignal_frame s { s with pack := badPack s.pack c }
  have hbad : badFrame s c = recordInfo (packSignal s { s with pack := badPack s.pack c }) ePILFRAME none
      (c + 256 * satAdd 255 s.pack.badRun 1) := rfl
  rw [hbad]
  generalize packSignal s _ = t at h
  rw [h]
  exact ⟨rfl, rfl, rfl⟩

theorem badPack_pack (p : Pack) (c : Nat) : (badPack p c).line = p.line ∧ (badPack p c).pil = p.pil ∧
    (badPack p c).badRun = satAdd 255 p.badRun 1 ∧ (badPack p c).candN = 0 ∧ (badPack p c).goodCnt = p.goodCnt ∧
    (badPack p c).crcCnt = (if c = 0 then sat1 p.crcCnt else p.crcCnt) ∧
    (badPack p c).shortCnt = (if c = 1 then sat1 p.shortCnt else p.shortCnt) := by
  unfold badPack
  dsimp only
  split <;> exact ⟨rfl, rfl, rfl, rfl, rfl, rfl, rfl⟩

/-- R466: the third discarded frame in a row freezes the identity, and no other does. -/
theorem badPack_frozen {p : Pack} (c : Nat) (h : p.badRun < 255) :
    (p.badRun = 2 → (badPack p c).frozen = true ∧ (badPack p c).verif = false) ∧
    (p.badRun ≠ 2 → (badPack p c).frozen = p.frozen ∧ (badPack p c).verif = p.verif) := by
  have hrun : satAdd 255 p.badRun 1 = p.badRun + 1 := Nat.min_eq_right (by omega)
  unfold badPack
  dsimp only
  rw [hrun]
  refine ⟨fun h2 => ?_, fun h2 => ?_⟩
  · rw [if_pos (by omega)]
    exact ⟨rfl, rfl⟩
  · rw [if_neg (by omega)]
    exact ⟨rfl, rfl⟩

/-- What the digest of a good frame leaves: the run, the counts, the payload and the decoder. -/
def frameView (s : State) : Nat × Word × Vector Byte 32 × Pil × ErrRec :=
  (s.pack.badRun, s.pack.goodCnt, s.pack.payload, s.pack.pil, s.err)

theorem frameView_packClear (s : State) : frameView (packClear s) = frameView s := by
  unfold frameView
  rw [packClear_frame]

theorem frameView_verifyPack (s : State) (d : BitVec 32) : frameView (verifyPack s d) = frameView s := by
  have hbegin (t : State) : frameView (beginSession t) = frameView t := rfl
  unfold verifyPack
  dsimp only
  rw [apply_ite frameView, hbegin, ite_self, apply_ite frameView, frameView_packClear, ite_self]
  rfl

theorem frameView_digestSeen (s : State) (d : BitVec 32) : frameView (digestSeen s d) = frameView s := by
  have hinit (t : State) : frameView (restartInit t) = frameView t := rfl
  unfold digestSeen
  dsimp only
  rw [apply_ite frameView, frameView_verifyPack, ite_self, apply_ite frameView, hinit, ite_self]
  rfl

/-- A good frame's payload (R463). -/
def goodPack (p : Pack) (pay : List Byte) : Pack :=
  { p with
    badRun := 0, goodCnt := p.goodCnt + 1
    payload := Vector.ofFn (fun j : Fin 32 => if j.val < pay.length then pay.getD j.val 0 else p.payload[j]) }

theorem goodFrame_view (s : State) (pay : List Byte) :
    frameView (goodFrame s pay) = frameView { s with pack := goodPack s.pack pay } := by
  have hsignal (t : State) : frameView (packSignal s t) = frameView t := by
    unfold frameView
    rw [packSignal_frame]
  have htrigger (t : State) : frameView (packTrigger s t) = frameView t := by
    unfold frameView
    rw [packTrigger_frame]
  unfold goodFrame
  dsimp only
  rw [htrigger, hsignal]
  split
  · exact frameView_digestSeen _ _
  · rfl

theorem goodPack_payload {p : Pack} {pay : List Byte} {j : Nat} (hj : j < pay.length) (h32 : j < 32) :
    vget (goodPack p pay).payload j = pay.getD j 0 :=
  (vget_ofFn _ h32).trans (if_pos hj)

/-! ### The end of a low pulse (R460 to R462, Table PAK-2) -/

/-- The decoder after a pulse, at the end of the first cycle high. -/
theorem pilHigh_pulsed {s : State} {d : Pil} (h : d.inFrame = true → d.since + 1 ≤ if d.bits = [] then 39 else 23) :
    pilHigh (setPil s d) 1 = setPil s (d.risen 1) := pilHigh_on (s := setPil s d) h

section
variable (s : State) {n : Nat}

theorem pulse_ignored (h : n < 3)
    (hedge : s.pack.pil.inFrame = true → s.pack.pil.since + n < if s.pack.pil.bits = [] then 39 else 23) :
    pilHigh (pulseEnds (pulseAt s n) n) 1 = setPil (pulseAt s n)
      { s.pack.pil with
        low := none, seen := true, since := s.pack.pil.since + n + 1, high := s.pack.pil.high + n + 1
        barred := s.pack.pil.barred && decide (s.pack.pil.high + n + 1 < 40) } := by
  have hends : pulseEnds (pulseAt s n) n = setPil (pulseAt s n)
      { s.pack.pil with low := none, high := s.pack.pil.high + n, since := s.pack.pil.since + n } := if_pos h
  rw [hends, pilHigh_pulsed]
  · rfl
  · exact hedge

theorem pulse_bit {b : Bool} (hin : s.pack.pil.inFrame = true) (hbit : pulseBit n = some b) (hn : 3 ≤ n ∧ n ≤ 16)
    (hedge : edgeOk s.pack.pil = true) : pilHigh (pulseEnds (pulseAt s n) n) 1 = setPil (pulseAt s n)
      { s.pack.pil with low := none, seen := true, bits := s.pack.pil.bits ++ [b], since := n + 1, high := 1 } := by
  have hends : pulseEnds (pulseAt s n) n = setPil (pulseAt s n)
      { s.pack.pil with low := none, high := 0, bits := s.pack.pil.bits ++ [b], since := n } := by
    unfold pulseEnds
    dsimp only
    rw [if_neg (by omega), if_neg (by unfold absenceCycles; omega), if_neg (by omega), hbit]
    have hfalse : (!(pulseAt s n).pack.pil.inFrame) = false := by rw [show (pulseAt s n).pack.pil.inFrame = _ from hin]; rfl
    rw [hfalse, if_neg Bool.false_ne_true]
    exact if_pos hedge
  have hnil : s.pack.pil.bits ++ [b] ≠ [] := by simp
  rw [hends, pilHigh_pulsed fun _ => ?_]
  · simp [Pil.risen]
  · dsimp only
    rw [if_neg hnil]
    omega

theorem pulse_outside (hin : s.pack.pil.inFrame = false) (hlo : 3 ≤ n) (hhi : n < 70) :
    pilHigh (pulseEnds (pulseAt s n) n) 1 = setPil (pulseAt s n)
      { s.pack.pil with low := none, seen := true, since := s.pack.pil.since + 1, high := 1 } := by
  have hends : pulseEnds (pulseAt s n) n = setPil (pulseAt s n) { s.pack.pil with low := none, high := 0 } := by
    unfold pulseEnds
    dsimp only
    rw [if_neg (by omega), if_neg (by unfold absenceCycles; omega), if_neg (by omega)]
    exact if_pos (by rw [show (pulseAt s n).pack.pil.inFrame = _ from hin]; rfl)
  rw [hends, pilHigh_pulsed fun h => by simp [hin] at h]
  simp [Pil.risen]

theorem pulse_absent (h : 960 < n) : pilHigh (pulseEnds (pulseAt s n) n) 1 = setPil (pulseAt s n)
    { s.pack.pil.outside with seen := true, high := 1, since := 1 } := by
  have hends : pulseEnds (pulseAt s n) n = setPil (pulseAt s n) s.pack.pil.outside := by
    unfold pulseEnds
    dsimp only
    rw [if_neg (by omega), if_pos (by exact h)]
    rfl
  rw [hends, pilHigh_pulsed fun hin => absurd hin Bool.false_ne_true]
  simp [Pil.risen, Pil.outside, Pil.idle]

/-- A break, from the state that a frame in progress ends in, if there is one. -/
theorem pulseEnds_break (hlo : 70 ≤ n) (hhi : n ≤ 960) : pulseEnds s n =
    (let t := if s.pack.pil.inFrame then frameEnds s else s
     if s.pack.pil.barred && !s.pack.pil.inFrame then setPil t { t.pack.pil with low := none, high := 0, since := 0 }
     else setPil t { t.pack.pil with
       low := none, high := 0, since := 0, inFrame := true, bits := [], len := pgf t 0xDC00 0 6, barred := false }) := by
  unfold pulseEnds
  dsimp only
  rw [if_neg (by omega), if_neg (by unfold absenceCycles; omega), if_pos hlo]

theorem pulse_break (hin : s.pack.pil.inFrame = false) (hlo : 70 ≤ n) (hhi : n ≤ 960) :
    pilHigh (pulseEnds (pulseAt s n) n) 1 = setPil (pulseAt s n)
      (if s.pack.pil.barred then { s.pack.pil with low := none, seen := true, since := 1, high := 1 }
       else { s.pack.pil with
         low := none, seen := true, inFrame := true, bits := [], len := pgf s 0xDC00 0 6, since := 1, high := 1 }) := by
  have hin' : (pulseAt s n).pack.pil.inFrame = false := hin
  rw [pulseEnds_break (pulseAt s n) hlo hhi, hin']
  cases hbar : s.pack.pil.barred with
  | true =>
    have hbar' : (pulseAt s n).pack.pil.barred = true := hbar
    simp only [hbar', Bool.not_false, Bool.and_true, if_true, Bool.false_eq_true, if_false]
    rw [pilHigh_pulsed fun h => by rw [show _ = false from hin'] at h; cases h]
    simp [Pil.risen, pulseAt, hbar]
  | false =>
    have hbar' : (pulseAt s n).pack.pil.barred = false := hbar
    simp only [hbar', Bool.false_and, Bool.false_eq_true, if_false]
    rw [pilHigh_pulsed fun _ => by simp]
    simp [Pil.risen, pulseAt, hbar]
    rfl

/-- A break that ends a short frame in progress discards it and begins the next. -/
theorem pulse_breaks (hin : s.pack.pil.inFrame = true) (hlo : 70 ≤ n) (hhi : n ≤ 960)
    (hshort : s.pack.pil.bits.length < 24 + 8 * s.pack.pil.len) : pilHigh (pulseEnds (pulseAt s n) n) 1 =
      setPil (badFrame (setPil (pulseAt s n) (pulseAt s n).pack.pil.ended) 1)
        { s.pack.pil with
          low := none, seen := true, inFrame := true, bits := [], len := pgf s 0xDC00 0 6, since := 1, high := 1
          barred := false } := by
  have hin' : (pulseAt s n).pack.pil.inFrame = true := hin
  have hends : frameEnds (pulseAt s n) = badFrame (setPil (pulseAt s n) (pulseAt s n).pack.pil.ended) 1 := by
    have hcause : frameCause (pulseAt s n).pack.pil.bits (pulseAt s n).pack.pil.len = some 1 := if_pos hshort
    unfold frameEnds judgeFrame
    dsimp only
    rw [hcause]
    rfl
  obtain ⟨hframe, -, -⟩ := badFrame_frame (setPil (pulseAt s n) (pulseAt s n).pack.pil.ended) 1
  obtain ⟨-, hpil, -, -, -, -, -⟩ := badPack_pack (setPil (pulseAt s n) (pulseAt s n).pack.pil.ended).pack 1
  rw [pulseEnds_break (pulseAt s n) hlo hhi, hin']
  simp only [Bool.not_true, Bool.and_false, if_true, Bool.false_eq_true, if_false]
  rw [pilHigh_pulsed fun _ => by simp, hends]
  generalize badFrame _ 1 = t at hframe ⊢
  have hmem : t.mem = s.mem := by rw [hframe]; rfl
  have htpil : t.pack.pil = (pulseAt s n).pack.pil.ended := by rw [hframe]; exact hpil
  have hlen : pgf t 0xDC00 0 6 = pgf s 0xDC00 0 6 := by unfold pgf pg; rw [hmem]
  rw [htpil, hlen]
  rfl

end

/-! ### The verdicts at the end of a frame -/

/-- The decoder that a frame which ends of a high line is judged with. -/
def lined (s : State) : State := { s with pack := { s.pack with line := true } }

theorem pilFrame_ends {s : State} (hidm : s.pack.idm = 2) (hslots : slotsRun s = true) (hlow : s.pack.pil.low = none)
    (hin : s.pack.pil.inFrame = true) (hbits : s.pack.pil.bits ≠ []) :
    ∃ d left, d.inFrame = false ∧ d.bits = [] ∧ exec (.pilFrame [(true, 24)]) s = .next
      (let t := judgeFrame (setPil (lined s) d) s.pack.pil.bits s.pack.pil.len
       setPil t { t.pack.pil with high := left, barred := decide (left < 40) }) := by
  obtain ⟨left, h⟩ := pilHigh_ends (s := lined s) (n := 24) hin hbits (by omega)
  exact ⟨_, left, rfl, rfl, (pilFrame_high hidm hslots hlow).trans (congrArg Host.Outcome.next h)⟩

theorem judgeFrame_good {s : State} {bits : List Bool} {len : Nat} (h : frameCause bits len = none) :
    judgeFrame s bits len = goodFrame s (((bytesOfBits bits (len + 3)).drop 1).take len) := by
  unfold judgeFrame
  rw [h]

theorem judgeFrame_bad {s : State} {bits : List Bool} {len c : Nat} (h : frameCause bits len = some c) :
    judgeFrame s bits len = badFrame s c := by
  unfold judgeFrame
  rw [h]

/-- Byte j of the payload of a frame, behind its sync byte. -/
theorem payloadBytes_getD (bits : List Bool) {len j : Nat} (hj : j < len) :
    j < (((bytesOfBits bits (len + 3)).drop 1).take len).length ∧
    (((bytesOfBits bits (len + 3)).drop 1).take len).getD j 0 = (bytesOfBits bits (len + 3)).getD (j + 1) 0 := by
  have hlen : (bytesOfBits bits (len + 3)).length = len + 3 := by simp [bytesOfBits]
  refine ⟨by rw [List.length_take, List.length_drop, hlen]; omega, ?_⟩
  rw [List.getD_eq_getElem?_getD, List.getElem?_take_of_lt hj, List.getElem?_drop, ← List.getD_eq_getElem?_getD,
    Nat.add_comm 1 j]

/-- R467: the identity timeout withdraws the verification and signals it. -/
theorem identityTimeout_fires {s : State} (hidm : s.pack.idm = 2) (hactive : active s = true)
    (hverif : s.pack.verif = true) : identityTimeout s =
      { s with pack := { s.pack with verif := false }, irqStat := s.irqStat ||| 0x100 } := by
  refine (if_pos ⟨hidm, hactive, hverif⟩).trans ((packSignal_raised (.inr ?_)).trans rfl)
  rw [hverif]
  exact fun h => Bool.false_ne_true h.symm

theorem pilFrame_line {s : State} (h : s.pack.idm ≠ 2) (l : Bool) (n : Nat) : pilFrame s [(l, n)] =
    if slotsRun s then { s with pack := { s.pack with line := l } } else s := by
  unfold pilFrame
  split
  · exact if_pos h
  · rfl

theorem edgeOk_iff (d : Pil) : edgeOk d = true ↔
    (d.bits = [] ∧ 3 ≤ d.since ∧ d.since ≤ 39) ∨ (d.bits ≠ [] ∧ 16 ≤ d.since ∧ d.since ≤ 23) := by
  unfold edgeOk
  cases d.bits <;> simp

theorem pulseBit_of {n : Nat} (h : 3 ≤ n ∧ n ≤ 8 ∨ 10 ≤ n ∧ n ≤ 16) : pulseBit n = some (decide (10 ≤ n)) := by
  unfold pulseBit
  obtain h | h := h
  · rw [if_pos h, decide_eq_false (by omega)]
  · rw [if_neg (by omega), if_pos h, decide_eq_true h.1]

/-- A pulse's next state as the obligation writes it: a decoder whose `low` and `seen` stand as before the pulse. -/
theorem setPil_pulseAt (s : State) (n : Nat) (d : Pil) :
    setPil (pulseAt s n) d = { s with pack := { s.pack with line := true, pil := d } } := rfl

/-- Settles O51: presence and absence by their packs, a pulse by its length, and a frame's end by its verdict. -/
theorem packPresenceAndIdentity : Obligations.PackPresenceAndIdentity := by
  unfold Obligations.PackPresenceAndIdentity
  refine ⟨⟨fun x s hck h hpres => ?absence, fun x s hck hidm hpres => ?absent, fun x s hck h hpres => ?presence,
      fun x s h => ⟨congrArg Host.Outcome.next (packAbsent_none x h), congrArg Host.Outcome.next (packPresent_none x h)⟩,
      fun x s h => ⟨fun hlo hhi => congrArg Host.Outcome.next (packAbsent_ratio h hlo hhi),
        fun hx => congrArg Host.Outcome.next (packPresent_ratio h hx)⟩, fun p s u h hwf => ?clear⟩,
    fun n s hidm hslots hlow hseen => ?pulse,
    ⟨fun c s hidm hslots hlow hin hbits hcause hrun => ?bad, fun s hidm hslots hlow hin hbits hcause => ?good,
      fun s hidm hactive hverif => congrArg Host.Outcome.next (identityTimeout_fires hidm hactive hverif),
      fun l n s h => ⟨congrArg Host.Outcome.next (pilFrame_line h l n),
        congrArg Host.Outcome.next (if_neg fun hn => h hn.1)⟩⟩⟩
  case absence =>
    obtain ⟨hp, hrem, hswap, hpil, hm⟩ := absenceSeen_pack s
    have hpres' : (absenceSeen s).pack.pres ≠ 0 := hp ▸ hpres
    obtain ⟨hpack, hmem, hvalid, hfcc, hirq⟩ := removal_rule hpres'
    have heq : packAbsent s x = removal (absenceSeen s) := (packAbsent_seen hck h).trans (if_pos hpres')
    rw [← heq] at hpack hmem hvalid hfcc hirq
    refine ⟨_, rfl, ?_, ?_, ?_, ?_, ?_, hvalid, hfcc, ?_, hirq, hmem.trans hm, ?_⟩
    · rw [hpack, removedPack]
    · rw [hpack, removedPack]
    · rw [hpack, removedPack]
    · rw [hpack, removedPack]
    · rw [hpack, removedPack, ← hrem]
    · rw [hpack, removedPack, ← hswap]
    · rw [hpack, removedPack, ← hpil]
  case absent =>
    have hseen : absenceSeen s = { s with pack := { s.pack with line := false, pil := s.pack.pil.outside } } := if_pos hidm
    rw [← hseen]
    exact congrArg Host.Outcome.next ((packAbsent_seen hck (.inl hidm)).trans
      (if_neg (not_not_intro ((absenceSeen_pack s).1.trans hpres))))
  case presence =>
    obtain ⟨hpack, hirq, hlatch⟩ := packPresent_rule hck h hpres
    obtain ⟨hp, hseq, hopen⟩ := presenceSeen_pack s
    rw [← hpack] at hp hseq hopen
    exact ⟨_, rfl, hp, hirq, hseq, hopen, hlatch⟩
  case clear =>
    obtain ⟨t, hrow, hbytes, hframe⟩ := packCounterClear_accepted h
    have hpack : t.pack = u.pack := by rw [hframe]
    refine ⟨_, congrArg Host.Outcome.next hrow, hbytes, ?_⟩
    rw [packCountersClear, hpack]
  case pulse =>
    rw [pilFrame_pulse hidm hslots hlow hseen]
    refine ⟨fun hin hn hedge => ?_, fun hn hedge => ?_, fun hin hlo hhi => ?_, fun hin hlo hhi => ?_, fun hn => ?_,
      fun hin hlo hhi hshort => ?_⟩
    · rw [pulse_bit s hin (pulseBit_of hn) (by omega) ((edgeOk_iff _).mpr hedge), setPil_pulseAt, ← hlow, ← hseen]
    · rw [pulse_ignored s hn hedge, setPil_pulseAt, ← hlow, ← hseen]
    · rw [pulse_break s hin hlo hhi, setPil_pulseAt, ← hlow, ← hseen]
    · rw [pulse_outside s hin hlo hhi, setPil_pulseAt, ← hlow, ← hseen]
    · rw [pulse_absent s hn, setPil_pulseAt]
    · obtain ⟨hframe, -, -⟩ := badFrame_frame (setPil (pulseAt s n) (pulseAt s n).pack.pil.ended) 1
      obtain ⟨-, -, -, -, hgood, -, hshortCnt⟩ :=
        badPack_pack (setPil (pulseAt s n) (pulseAt s n).pack.pil.ended).pack 1
      refine ⟨_, congrArg Host.Outcome.next (pulse_breaks s hin hlo hhi hshort), ?_, ?_, ?_, ?_⟩
      · rw [← hlow, ← hseen]
        rfl
      all_goals rw [hframe]
      · exact hshortCnt
      · exact hgood
      · rfl
  case bad =>
    obtain ⟨d, left, hdin, hdbits, hexec⟩ := pilFrame_ends hidm hslots hlow hin hbits
    rw [judgeFrame_bad hcause] at hexec
    obtain ⟨hframe, hcode, hinfo⟩ := badFrame_frame (setPil (lined s) d) c
    obtain ⟨hline, hpil, hbad, hcand, hgood, hcrc, hshort⟩ := badPack_pack (setPil (lined s) d).pack c
    obtain ⟨hfreezes, hstays⟩ := badPack_frozen (p := (setPil (lined s) d).pack) c hrun
    have hpack : (badFrame (setPil (lined s) d) c).pack = badPack (setPil (lined s) d).pack c := by rw [hframe]
    rw [← hpack] at hline hpil hbad hcand hgood hcrc hshort hfreezes hstays
    have hrun' : (badFrame (setPil (lined s) d) c).pack.badRun = s.pack.badRun + 1 :=
      hbad.trans (Nat.min_eq_right (by change s.pack.badRun + 1 ≤ 255; omega))
    refine ⟨_, hexec, ?_, hline, ?_, ?_, hrun', hcand, hgood, hfreezes, hstays, hcrc, hshort, hcode, ?_⟩
    · generalize badFrame _ c = t at hframe ⊢
      rw [hframe]
      rfl
    · exact (congrArg Pil.inFrame hpil).trans hdin
    · exact (congrArg Pil.bits hpil).trans hdbits
    · exact hinfo.trans (by rw [← hbad]; rfl)
  case good =>
    obtain ⟨d, left, hdin, hdbits, hexec⟩ := pilFrame_ends hidm hslots hlow hin hbits
    rw [judgeFrame_good hcause] at hexec
    have hview := goodFrame_view (setPil (lined s) d)
      (((bytesOfBits s.pack.pil.bits (s.pack.pil.len + 3)).drop 1).take s.pack.pil.len)
    simp only [frameView, Prod.mk.injEq] at hview
    obtain ⟨hrun, hcnt, hpayload, hpil, herr⟩ := hview
    refine ⟨_, hexec, hrun, hcnt, herr, (congrArg Pil.inFrame hpil).trans hdin, fun j hj h32 => ?_⟩
    obtain ⟨hlt, hbyte⟩ := payloadBytes_getD s.pack.pil.bits hj
    exact (congrArg (vget · j) hpayload).trans ((goodPack_payload hlt h32).trans hbyte)

end Sys2Proof.Machine
end

section
/-! O49 fails in its clause of an update of channel A for which no interval has ended. The clause says that the row then
changes nothing. With MSTAT 1 the row asks for its grant at L4 (R224) before it finds that it has no interval, and the
arbiter grants the bursts of a booking pass at L2 ahead of it: their share is spent, and they are paid for. -/

namespace Sys2Proof.Machine

open Sys2Proof

/-- RUN with a valid model on channel A, no interval of it that has ended, and a booking pass on bank A with no slot in
it. -/
def passPending : State :=
  let s := State.reset
  { s with
    pw := { s.pw with mode := .run }
    batA := { s.batA with mstat := 1 }
    bankA := { s.bankA with
      led := { s.bankA.led with passes := [{ recs := [], units := (0, 0), keyCols := 0, boundary := false }] } } }

set_option maxRecDepth 20000 in
/-- The update without an interval spends the share of L2. -/
theorem rem_updateOf_passPending : (updateOf passPending .chA []).arb.rem = #v[0, 2, 4, 4, 1] := by decide

/-- Refutes O49: an update of channel A with no interval to take has bursts of a booking pass granted ahead of it. -/
theorem not_modelsAndEstimatorUpdates : ¬ Obligations.ModelsAndEstimatorUpdates := by
  unfold Obligations.ModelsAndEstimatorUpdates
  rintro ⟨-, -, -, -, -, hnone, -⟩
  have hsame : updateOf passPending .chA [] = passPending := Host.Outcome.next.inj (hnone passPending rfl)
  have hrem : passPending.arb.rem = #v[0, 2, 4, 4, 1] := by
    rw [← rem_updateOf_passPending, hsame]
  exact absurd hrem (by decide)

end Sys2Proof.Machine
end
